-- ==== Sys2Proof/Word.lean ====
section
/-! DEFINITION. The plain data words of the module: bytes, TIME80 values, and the lookup and update of one element of a list. -/

namespace Sys2Proof

/-- One byte. -/
abbrev Byte := BitVec 8

/-- A TIME80 value: 48-bit seconds and 32-bit nanoseconds (R238, R413). -/
structure Time80 where
  /-- 48 bits, seconds. -/
  sec : Nat
  /-- 32 bits, nanoseconds. -/
  ns : Nat
  deriving DecidableEq, Repr

/-- Second 0. -/
def Time80.reset : Time80 := { sec := 0, ns := 0 }

/-- Element `i` of a list of like things, or `d` beyond its end. -/
abbrev nth {α : Type} (l : List α) (i : Nat) (d : α) : α := l.getD i d

/-- The list with element `i` changed by `f`; a list without that element is unchanged. -/
abbrev upd {α : Type} (l : List α) (i : Nat) (f : α → α) : List α := l.modify i f

end Sys2Proof
end

