-- ==== Sys2Proof/Syntax.lean ====
section
/-! DEFINITION. The commands of the module, one constructor for each row of spec/opcode_table.json, with the data they carry. -/

namespace Sys2Proof

/-- Who sent a DOP request and how (R403, R404, R408). -/
structure Requester where
  /-- Interface of R431: 0–13 port Pn, 0x40 CAN0, 0x41 CAN1. -/
  iface : Nat
  /-- IPv4 source address, or CAN host number h (R403). -/
  source : Nat
  /-- UDP source port; 0 on CAN. -/
  sport : Nat
  /-- Source MAC address; 0 on CAN. -/
  mac : Nat
  /-- VERSION of the request (R409). -/
  version : Nat
  /-- SEQ of the request: 16 bits, on CAN 8 bits (R410). -/
  seq : Nat
  deriving DecidableEq, Repr

/-- A requester with nothing in it. -/
def Requester.blank : Requester := { iface := 0, source := 0, sport := 0, mac := 0, version := 1, seq := 0 }

/-- A DOP frame as it arrives (R404, R408). On CAN FD `magic` and `crc` are not carried and not looked at. -/
structure Frame where
  /-- MAGIC, 0x4456. -/
  magic : Nat
  /-- OPCODE of R406. -/
  opcode : Nat
  /-- STATUS, 0 in a request. -/
  status : Nat
  /-- FLAGS[7] RESPONSE. -/
  response : Bool
  /-- FLAGS[6] SEGMENT. -/
  segFlag : Bool
  /-- FLAGS[5:0], reserved. -/
  reserved : Nat
  /-- ADDRESS, 32 bits. -/
  address : Nat
  /-- LENGTH: payload bytes (without the CAN segment number). -/
  length : Nat
  /-- SEGMENT. -/
  segment : Nat
  /-- Payload bytes received (without the CAN segment number); bytes beyond LENGTH are padding. -/
  payload : List Byte
  /-- The CRC-32 carried. -/
  crc : Nat
  /-- False where the datagram was too short for its header, LENGTH and CRC (R405). -/
  whole : Bool
  deriving DecidableEq, Repr

/-- A frame with nothing in it. -/
def Frame.blank : Frame :=
  { magic := 0x4456, opcode := 0, status := 0, response := false, segFlag := false, reserved := 0, address := 0,
    length := 0, segment := 0, payload := [], crc := 0, whole := true }

/-- The power and temperature measurements of R99. -/
structure Sensors where
  /-- Input voltage, mV. -/
  vin : Nat
  /-- Input current, mA. -/
  iin : Nat
  /-- Input power, mW. -/
  pin : Nat
  /-- Board load power, mW. -/
  load : Nat
  /-- Baseplate temperature, m°C. -/
  tBase : Int
  /-- OCXO temperature, m°C. -/
  tOcxo : Int
  deriving DecidableEq, Repr

/-- What the start-up sequence finds (R83, R84): outcomes of the checks, the levels of the pins, and how long each step took. -/
structure StartIn where
  /-- t0 to the end of rail qualification, ns. -/
  rail : Nat
  /-- End of rail qualification to the end of step 1, ns. -/
  load : Nat
  /-- End of step 1 to the end of step 2, ns. -/
  bist : Nat
  /-- End of step 2 to the end of step 3, ns. -/
  boot : Nat
  /-- How long after the beginning of `load` PFAIL is set before step 3 has completed (R94), ns; none where it is not. -/
  stopped : Option Nat
  /-- `VSEL1` and `VSEL0` of J2, J3 and J4, true where open (R43). -/
  vsel : List (Bool × Bool)
  /-- The first copy of the stored configuration still holds its CRC-32. -/
  copyA : Bool
  /-- The second copy still holds its CRC-32. -/
  copyB : Bool
  /-- The stored Chimney limits pass their check. -/
  limits : Bool
  /-- The copy of Lantern's model in the main store is valid (R182). -/
  model : Bool
  /-- The model in the first hold-up area is valid. -/
  holdupA : Bool
  /-- The model in the second hold-up area is valid. -/
  holdupB : Bool
  /-- Firmware slot 0 passes its check. -/
  slot0 : Bool
  /-- Firmware slot 1 passes its check. -/
  slot1 : Bool
  /-- Checkers that do not report their injected syndrome in the sweep of step 2 (R375). -/
  bistFails : List Nat
  /-- Cores 0 MGT, 1 STEER, 2 MON that do not start by the latest end of step 3. -/
  coreFails : List Nat
  /-- Hold-up estimate measured in step 1, 0.1 ms. -/
  holdup : Nat
  /-- First measurements. -/
  sensors : Sensors
  deriving DecidableEq, Repr

/-- The header fields of a PTP message that decide who handles it (R262). -/
structure PtpHdr where
  /-- domainNumber. -/
  domain : Nat
  /-- sdoId names IEEE 802.1AS (profiles 2 and 3) rather than IEEE 1588 (profiles 0 and 1). -/
  gptp : Bool
  /-- sequenceId. -/
  seqId : Nat
  /-- correctionField, ns. -/
  corr : Rat
  /-- clockIdentity of the sender. -/
  sender : Nat
  /-- portNumber of the sender. -/
  senderPort : Nat
  deriving DecidableEq, Repr

/-- A Sync is two-step, or one-step with the gmTimeBaseIndicator and the lastGmPhaseChange (2⁻¹⁶ ns) it carries, if any (R262, R266). -/
inductive SyncKind where
  /-- a Follow_Up completes it. -/
  | twoStep
  /-- it is complete. -/
  | oneStep (gm : Option (Nat × Int))
  deriving DecidableEq, Repr

/-- An edge at a TSI pin (R52, R281). -/
structure PinEdge where
  /-- a falling edge, else a rising one. -/
  falling : Bool
  /-- it belongs to a pulse shorter than 2 ns. -/
  short : Bool
  deriving DecidableEq, Repr

/-- A write of a core to the processor SRAM (R30). -/
structure SramWrite where
  /-- the address written. -/
  addr : Nat
  /-- the byte written. -/
  value : Byte
  deriving DecidableEq, Repr

/-- The dataset of an Announce message (R252, R265). -/
structure Dataset where
  /-- grandmasterIdentity. -/
  gmIdentity : Nat
  /-- clockClass. -/
  gmClass : Nat
  /-- clockAccuracy. -/
  accuracy : Nat
  /-- offsetScaledLogVariance. -/
  variance : Nat
  /-- priority1. -/
  priority1 : Nat
  /-- priority2. -/
  priority2 : Nat
  /-- stepsRemoved. -/
  steps : Nat
  /-- timeSource. -/
  timeSource : Nat
  /-- True where ptpTimescale is clear. -/
  arbitrary : Bool
  /-- currentUtcOffset, s. -/
  utcOffset : Int
  /-- currentUtcOffsetValid. -/
  utcValid : Bool
  /-- leap61. -/
  leap61 : Bool
  /-- leap59. -/
  leap59 : Bool
  deriving DecidableEq, Repr

/-- The kinds of PTP message that the switch forwards between TRANSPARENT ports (R264). -/
inductive PtpKind where
  | announce | sync | followUp | delayReq | delayResp | pdelayReq | pdelayResp | pdelayRespFollowUp
  deriving DecidableEq, Repr

/-- How a store or an erase ends (R425, R435). -/
inductive StoreEnd where
  | done | interrupted | failed
  deriving DecidableEq, Repr

/-- The Taper paths of the module (R153, R213, R255). -/
inductive TaperPath where
  /-- A DPLL channel. -/
  | channel (n : Fin 8)
  /-- A timebase. -/
  | timebase (n : Fin 4)
  /-- The phase move of a time-carrying output. -/
  | output (n : Fin 32)
  deriving DecidableEq, Repr

/-- The commands: one constructor per row of the table. `dt` is the engine time, in ns, that passes before the command. -/
inductive Instr where
  /-- POWER_UP (R83): the input has stayed above 34 V for 10 ms. -/
  | powerUp (i : StartIn) (sealDur entryDur : Nat)
  /-- STARTUP_HOLD_EXPIRY (R85). -/
  | startupHoldExpiry (dt sealDur entryDur : Nat)
  /-- SEAL_NOW (R85). -/
  | sealNow (dt : Nat) (r : Requester) (arg sealDur entryDur : Nat)
  /-- LOW_INPUT (R97). -/
  | lowInput (dt : Nat)
  /-- OVER_VOLTAGE (R97): `mv` is the voltage reached. -/
  | overVoltage (dt mv : Nat)
  /-- PFAIL_SET (R93). -/
  | pfailSet (dt : Nat)
  /-- HOLDUP_WRITE_COMPLETE (R94). -/
  | holdupWriteComplete (dt : Nat)
  /-- PFAIL_CLEAR (R95). -/
  | pfailClear (dt : Nat)
  /-- HOLDUP_RECORD_COPY (R95). -/
  | holdupRecordCopy (dt : Nat)
  /-- ORDERLY_STOP (R96), with the fall of the rails. -/
  | orderlyStop (dt : Nat)
  /-- CODING_CHANGE (R44) of connector J2, J3 or J4. -/
  | codingChange (dt : Nat) (conn : Fin 3)
  /-- OVEN_READY (R86). -/
  | ovenReady (dt : Nat)
  /-- OVEN_EXCURSION (R86). -/
  | ovenExcursion (dt : Nat)
  /-- MEASUREMENT_REFRESH (R99). -/
  | measurementRefresh (dt : Nat) (m : Sensors)
  /-- SLEEP (R89). -/
  | sleep (dt : Nat) (r : Requester) (arg : Nat)
  /-- SLEEP_DECISION (R89). -/
  | sleepDecision (dt : Nat)
  /-- SLEEP_COMMIT (R89). -/
  | sleepCommit (dt : Nat)
  /-- WAKE_PIN (R90): a high of 1 ms or more on WAKE; `held` where the pin is still high. -/
  | wakePin (dt : Nat) (held : Bool)
  /-- CAN_WAKE_FRAME (R90). -/
  | canWakeFrame (dt : Nat) (ch : Fin 2) (ident : Nat)
  /-- T1_WAKE (R90). -/
  | t1Wake (dt : Nat) (port : Fin 12)
  /-- TIMEBASE_ALARM (R90). -/
  | timebaseAlarm (dt : Nat)
  /-- WAKE (R91). -/
  | wake (dt : Nat)
  /-- ENTER_SAFE (R82). -/
  | enterSafe (dt : Nat) (r : Requester) (arg : Nat)
  /-- PRINCIPAL_TB_WRITE (R80). -/
  | principalTbWrite (dt : Nat) (r : Requester) (v : Nat)
  /-- CHECKER_ERROR (R351): checker identity and syndrome. -/
  | checkerError (dt id : Nat) (syndrome : BitVec 32)
  /-- PATH_FAULT (R350): the rails stay equal, both high or both low. -/
  | pathFault (dt id : Nat) (high : Bool)
  /-- CONSEQUENCE_MASK_CLOSE (R360). -/
  | maskClose (dt : Nat)
  /-- COLLECTOR_SELF_FAULT (R368): `recordPath` where the collector's record path is intact. -/
  | collectorSelfFault (dt : Nat) (recordPath : Bool)
  /-- OCXO_ACTIVITY_LOSS (R369). -/
  | ocxoActivityLoss (dt : Nat)
  /-- SAFE_RECORD_WRITE (R370). -/
  | safeRecordWrite (dt : Nat)
  /-- WATCHDOG_TIMEOUT (R353). -/
  | watchdogTimeout (dt : Nat) (core : Fin 3)
  /-- MPU_VIOLATION (R30): the core writes to the processor SRAM; `syndrome` is as presented. -/
  | mpuViolation (dt : Nat) (core : Fin 3) (w : SramWrite) (syndrome : BitVec 32)
  /-- GROSS_FREQUENCY_GATE (R164): OCXO offset against the auxiliary oscillator over the 10 ms gate, ppm. -/
  | grossFrequencyGate (dt : Nat) (offset : Rat) (syndrome : BitVec 32)
  /-- FINE_FREQUENCY_GATE (R164): the same over 10 s. -/
  | fineFrequencyGate (dt : Nat) (offset : Rat) (syndrome : BitVec 32)
  /-- OCXO_CONSENSUS_TEST (R118). -/
  | ocxoConsensusTest (dt : Nat)
  /-- CLEAR (R366). -/
  | clear (dt : Nat) (r : Requester) (arg : Nat)
  /-- INJECT (R374). -/
  | inject (dt : Nat) (r : Requester) (arg : Nat)
  /-- INJECTION_CHECK (R373): the reports at i0, a second at i0, and at i1. -/
  | injectionCheck (dt : Nat) (i0 i0b i1 : Option (BitVec 32))
  /-- SWEEP (R376). -/
  | sweep (dt : Nat) (r : Requester) (arg : Nat)
  /-- SWEEP_STEP (R376): the reports as in INJECTION_CHECK. -/
  | sweepStep (dt : Nat) (i0 i0b i1 : Option (BitVec 32))
  /-- RELAY_TIMEOUT (R461). -/
  | relayTimeout (dt : Nat)
  /-- CLAIM_NORMAL (R389). -/
  | claimNormal (dt : Nat) (core : Fin 3)
  /-- CLAIM_FAST (R389). -/
  | claimFast (dt : Nat) (core : Fin 3)
  /-- COMPLETE (R391): the word the core writes. -/
  | complete (dt : Nat) (core : Fin 3) (word : BitVec 32)
  /-- COALESCE_TIMEOUT (R396): target 0 HOST, 1 ALERT_A, 2 ALERT_B. -/
  | coalesceTimeout (dt : Nat) (target : Fin 3)
  /-- DELIVERY_RETRY (R397). -/
  | deliveryRetry (dt : Nat)
  /-- EVENT_MESSAGE (R422). -/
  | eventMessage (dt : Nat)
  /-- ALERT_ACK (R398): line 0 ALERT_A, 1 ALERT_B. -/
  | alertAck (dt : Nat) (r : Requester) (line : Fin 2) (arg : Nat)
  /-- ALERT_STRETCH_EXPIRY (R398). -/
  | alertStretchExpiry (dt : Nat) (line : Fin 2)
  /-- ALERT_MODE_WRITE (R402). -/
  | alertModeWrite (dt : Nat) (r : Requester) (line : Fin 2) (v : Nat)
  /-- ROUTE_WRITE (R385). -/
  | routeWrite (dt : Nat) (r : Requester) (src : Fin 256) (v : Nat)
  /-- REFERENCE_EDGE (R114): an active edge at the pin of REF `n`, `frac` ns after the present engine cycle. -/
  | referenceEdge (dt : Nat) (n : Fin 16) (frac : Rat)
  /-- MISSING_EDGE (R114) of a candidate. -/
  | missingEdge (dt : Nat) (cand : Fin 24)
  /-- GNSS_SOURCE_MISSING_PULSE (R105) of LREF `n`. -/
  | gnssSourceMissingPulse (dt : Nat) (n : Fin 8)
  /-- FREQUENCY_WINDOW_UPDATE (R116). -/
  | frequencyWindowUpdate (dt : Nat) (cand : Fin 24)
  /-- WAIT_TO_RESTORE_EXPIRY (R121). -/
  | waitToRestoreExpiry (dt : Nat) (cand : Fin 24)
  /-- RANK_IMPROVEMENT_EXPIRY (R127). -/
  | rankImprovementExpiry (dt : Nat) (cand : Fin 24)
  /-- GNSS_SENTENCE (R107): the characters from `$` on, and how long before the present its first character began, ns. -/
  | gnssSentence (dt : Nat) (chars : List Byte) (began : Nat)
  /-- MSG_LATEST_EXPIRY (R462). -/
  | msgLatestExpiry (dt : Nat)
  /-- REFERENCE_ENABLE (R102). -/
  | referenceEnable (dt : Nat) (r : Requester) (cand : Fin 24) (v : Nat)
  /-- DOMAIN_EDGE (R106) of domain instance `i`. -/
  | domainEdge (dt : Nat) (i : Fin 8)
  /-- STICKY_CLEAR (R135): a write to the STICKY or CLAMPED element at `address`. -/
  | stickyClear (dt : Nat) (r : Requester) (address v : Nat)
  /-- LOCK_CRITERION (R146). -/
  | lockCriterion (dt : Nat) (n : Fin 8)
  /-- CHANNEL_ENABLE (R140). -/
  | channelEnable (dt : Nat) (r : Requester) (n : Fin 8) (v : Nat)
  /-- FIRST_ALIGNMENT (R157). -/
  | firstAlignment (dt : Nat) (n : Fin 8) (frac : Rat)
  /-- LDA_MON_UPDATE (R150). -/
  | ldaMonUpdate (dt : Nat)
  /-- LANTERN_EVALUATION (R23). -/
  | lanternEvaluation (dt : Nat)
  /-- LEARNING_SAMPLE (R171). -/
  | learningSample (dt : Nat)
  /-- MODEL_COMMIT (R172). -/
  | modelCommit (dt : Nat)
  /-- MODEL_SAVE (R182). -/
  | modelSave (dt : Nat)
  /-- MODEL_STORE (R187). -/
  | modelStore (dt : Nat) (r : Requester) (arg : Nat)
  /-- MODEL_WRITE (R184): the assembled image; no bytes erase the model. -/
  | modelWrite (dt : Nat) (r : Requester) (image : List Byte)
  /-- STEERING_WRITE (R181): raw FREQ64. -/
  | steeringWrite (dt : Nat) (r : Requester) (n : Fin 8) (v : Int)
  /-- CORE_ENABLE (R193). -/
  | coreEnable (dt : Nat) (r : Requester) (c : Fin 4) (v : Nat)
  /-- CORE_LOCK (R194): the band and fine word the core locked with. -/
  | coreLock (dt : Nat) (c : Fin 4) (band fine : Nat)
  /-- CORE_LOCK_LOSS (R203). -/
  | coreLockLoss (dt : Nat) (c : Fin 4)
  /-- RETUNE_OUTPUTS_STOPPED (R202). -/
  | retuneOutputsStopped (dt : Nat) (c : Fin 4)
  /-- CARD_TIMEOUT (R198). -/
  | cardTimeout (dt : Nat) (c : Fin 4)
  /-- CARD_STORE (R199). -/
  | cardStore (dt : Nat)
  /-- CARDS_WRITE (R201). -/
  | cardsWrite (dt : Nat) (r : Requester) (image : List Byte)
  /-- COMMIT (R208). -/
  | commit (dt : Nat) (r : Requester) (arg : Nat)
  /-- COMMIT_INSTANT (R208). -/
  | commitInstant (dt : Nat)
  /-- OUTPUT_ENABLE (R205). -/
  | outputEnable (dt : Nat) (r : Requester) (n : Fin 32) (v : Nat)
  /-- FORMAT_WRITE (R214). -/
  | formatWrite (dt : Nat) (r : Requester) (n : Fin 32) (v : Nat)
  /-- CHIMNEY_FREQUENCY_TEST (R221): the fast and the fine measurement of output `n`, µHz. -/
  | chimneyFrequencyTest (dt : Nat) (n : Fin 32) (fast fine : Rat)
  /-- CHIMNEY_SLEW_TEST (R223): phase movement of output `n` over the last 10 ms and the last 1 s, ns. -/
  | chimneySlewTest (dt : Nat) (n : Fin 32) (short long : Rat)
  /-- WINDOW_GATE_REOPEN (R222). -/
  | windowGateReopen (dt : Nat) (n : Fin 32)
  /-- HEARTBEAT_REFRESH (R225). -/
  | heartbeatRefresh (dt : Nat)
  /-- HEARTBEAT_LAPSE (R225). -/
  | heartbeatLapse (dt : Nat)
  /-- SYNC_RECEIVE (R249): origin time (ns) and cumulative rate ratio − 1 (ppt) of a one-step Sync. -/
  | syncReceive (dt : Nat) (port : Fin 14) (h : PtpHdr) (kind : SyncKind) (origin ratio : Rat)
  /-- FOLLOW_UP_RECEIVE (R266): precise origin time (ns), rate ratio − 1 (ppt), gmTimeBaseIndicator and lastGmPhaseChange (2⁻¹⁶ ns). -/
  | followUpReceive (dt : Nat) (port : Fin 14) (h : PtpHdr) (origin ratio : Rat) (gm : Option (Nat × Int))
  /-- RESTEP (R242). -/
  | restep (dt : Nat) (r : Requester) (tb : Fin 4) (arg : Nat)
  /-- CLEAR_DISC (R250). -/
  | clearDisc (dt : Nat) (r : Requester) (tb : Fin 4) (arg : Nat)
  /-- LOCAL_LABEL (R247). -/
  | localLabel (dt : Nat) (r : Requester) (tb : Fin 4) (t : Time80)
  /-- LEAP_SECOND_APPLY (R245). -/
  | leapSecondApply (dt : Nat) (tb : Fin 4)
  /-- UTC_WRITE (R245): element 1 UTC_OFFSET, 2 UTC_VALID, 3 LEAP (value `v`) or 4 LEAP_AT (value `t`). -/
  | utcWrite (dt : Nat) (r : Requester) (tb : Fin 4) (element : Fin 5) (v : Int) (t : Time80)
  /-- DOMAIN_KIND_WRITE (R250). -/
  | domainKindWrite (dt : Nat) (r : Requester) (i : Fin 8) (v : Nat)
  /-- RECEIPT_TIMEOUT (R247) of instance `i`: Announce rather than Sync where `announce`. -/
  | receiptTimeout (dt : Nat) (i : Fin 8) (announce : Bool)
  /-- DOMAIN_RANK_WAIT (R252). -/
  | domainRankWait (dt : Nat) (i : Fin 8)
  /-- PHY_COPY_REALIGN (R25): the copies of `port` that disagree after re-alignment. -/
  | phyCopyRealign (dt : Nat) (port : Fin 14) (mismatch : BitVec 4)
  /-- ANNOUNCE_RECEIVE (R252). -/
  | announceReceive (dt : Nat) (port : Fin 14) (h : PtpHdr) (d : Dataset)
  /-- DELAY_REQ_RECEIVE (R249). -/
  | delayReqReceive (dt : Nat) (port : Fin 14) (h : PtpHdr)
  /-- DELAY_RESP_RECEIVE (R249): receiveTimestamp (ns) and the port it answers. -/
  | delayRespReceive (dt : Nat) (port : Fin 14) (h : PtpHdr) (receive : Rat) (toIdentity toPort : Nat)
  /-- PDELAY_REQ_RECEIVE (R269). -/
  | pdelayReqReceive (dt : Nat) (port : Fin 14) (h : PtpHdr)
  /-- PDELAY_RESP_RECEIVE (R269): t2 and t3 of the completed response, ns, and the port it answers. -/
  | pdelayRespReceive (dt : Nat) (port : Fin 14) (h : PtpHdr) (t2 t3 : Rat) (toIdentity toPort : Nat)
  /-- TRANSPARENT_FORWARD (R264): residence time in the switch, ns. -/
  | transparentForward (dt : Nat) (port : Fin 14) (h : PtpHdr) (kind : PtpKind) (twoStep : Bool) (residence : Rat)
  /-- ANNOUNCE_TRANSMIT (R265). -/
  | announceTransmit (dt : Nat) (port : Fin 14) (i : Fin 8)
  /-- SYNC_TRANSMIT (R264). -/
  | syncTransmit (dt : Nat) (port : Fin 14) (i : Fin 8)
  /-- DELAY_REQ_TRANSMIT (R249). -/
  | delayReqTransmit (dt : Nat) (port : Fin 14) (i : Fin 8)
  /-- PDELAY_REQ_TRANSMIT (R269). -/
  | pdelayReqTransmit (dt : Nat) (port : Fin 14) (i : Fin 8)
  /-- LINK_CHANGE (R270): `up`, and whether the link partner's PHY is master. -/
  | linkChange (dt : Nat) (port : Fin 14) (up partnerMaster : Bool)
  /-- ROLE_WRITE (R263). -/
  | roleWrite (dt : Nat) (r : Requester) (port : Fin 14) (i : Fin 8) (v : Nat)
  /-- TSI_EDGE (R281): an edge at the pin, `frac` ns after the present engine cycle. -/
  | tsiEdge (dt : Nat) (n : Fin 64) (edge : PinEdge) (frac : Rat)
  /-- TDC_CALIBRATION (R282): `ok` where the table passes its consistency check; else the syndrome presented. -/
  | tdcCalibration (dt : Nat) (n : Fin 64) (ok : Bool) (syndrome : BitVec 32)
  /-- RING_SLOT (R290). -/
  | ringSlot (dt : Nat)
  /-- STALE_RECORD (R292). -/
  | staleRecord (dt : Nat) (n : Fin 64)
  /-- ANCHOR_PERIODIC (R288). -/
  | anchorPeriodic (dt : Nat) (tb : Fin 4)
  /-- RING_FLUSH (R294). -/
  | ringFlush (dt : Nat) (r : Requester) (arg : Nat)
  /-- STREAM_PACKET (R423). -/
  | streamPacket (dt : Nat)
  /-- TSI_ENABLE (R284). -/
  | tsiEnable (dt : Nat) (r : Requester) (n : Fin 64) (v : Nat)
  /-- TC_RUN (R298). -/
  | tcRun (dt : Nat) (r : Requester) (k : Fin 16) (v : Nat)
  /-- GATE_END (R303). -/
  | gateEnd (dt : Nat) (k : Fin 16)
  /-- TC_EDGE_EVALUATION (R301). -/
  | tcEdgeEvaluation (dt : Nat) (k : Fin 16)
  /-- HELD_STOP_EXPIRY (R302). -/
  | heldStopExpiry (dt : Nat) (k : Fin 16)
  /-- AXIS_COUNT_EDGE (R315): which of A and B changed, and the levels of both after the change. -/
  | axisCountEdge (dt : Nat) (k : Fin 4) (aChanged bChanged a b : Bool)
  /-- INDEX_EDGE (R317): a rising edge of Z. -/
  | indexEdge (dt : Nat) (k : Fin 4)
  /-- AXIS_STALL (R319). -/
  | axisStall (dt : Nat) (k : Fin 4)
  /-- AXIS_KIND_WRITE (R319). -/
  | axisKindWrite (dt : Nat) (r : Requester) (k : Fin 4) (v : Nat)
  /-- PRESET (R330). -/
  | preset (dt : Nat) (r : Requester) (k : Fin 4) (v : Nat)
  /-- ACTION_FIRE (R322). -/
  | actionFire (dt : Nat)
  /-- OVERRUN_FIRE (R323). -/
  | overrunFire (dt : Nat)
  /-- ARM (R325). -/
  | arm (dt : Nat) (r : Requester) (a : Fin 1024)
  /-- ARM_EFFECT (R326). -/
  | armEffect (dt : Nat) (a : Fin 1024)
  /-- DISARM (R329). -/
  | disarm (dt : Nat) (r : Requester) (a : Fin 1024)
  /-- DISARM_ALL (R329). -/
  | disarmAll (dt : Nat) (r : Requester) (arg : Nat)
  /-- ACTION_KIND_WRITE (R328). -/
  | actionKindWrite (dt : Nat) (r : Requester) (a : Fin 1024) (v : Nat)
  /-- CALENDAR_WRITE (R347). -/
  | calendarWrite (dt : Nat) (r : Requester) (image : List Byte)
  /-- PULSE_END (R333). -/
  | pulseEnd (dt : Nat) (n : Fin 48)
  /-- WINDOW_END (R335). -/
  | windowEnd (dt : Nat) (n : Fin 64)
  /-- SERVO_ENABLE (R337). -/
  | servoEnable (dt : Nat) (r : Requester) (k : Fin 48) (v : Nat)
  /-- READ (R417): a frame received with OPCODE READ. -/
  | read (dt : Nat) (r : Requester) (f : Frame)
  /-- WRITE (R417). -/
  | write (dt : Nat) (r : Requester) (f : Frame)
  /-- READ_BLOCK (R420). -/
  | readBlock (dt : Nat) (r : Requester) (f : Frame)
  /-- WRITE_BLOCK (R419). -/
  | writeBlock (dt : Nat) (r : Requester) (f : Frame)
  /-- SUBSCRIBE (R421). -/
  | subscribe (dt : Nat) (r : Requester) (f : Frame)
  /-- TRANSFER_TIMEOUT (R419). -/
  | transferTimeout (dt : Nat)
  /-- LEASE_EXPIRY (R421). -/
  | leaseExpiry (dt : Nat)
  /-- JOURNAL_FLUSH (R432). -/
  | journalFlush (dt : Nat)
  /-- STORE (R425). -/
  | store (dt : Nat) (r : Requester) (arg : Nat)
  /-- STORE_COMPLETE (R425). -/
  | storeComplete (dt : Nat) (e : StoreEnd)
  /-- ERASE_CONFIG (R426). -/
  | eraseConfig (dt : Nat) (r : Requester) (arg : Nat)
  /-- FIRMWARE_WRITE (R429): the assembled image; no bytes erase the slot. -/
  | firmwareWrite (dt : Nat) (r : Requester) (image : List Byte)
  /-- ACTIVATE (R429). -/
  | activate (dt : Nat) (r : Requester) (arg : Nat)
  /-- NV_REFRESH (R428): blocks found due, blocks that could not be rewritten, spare blocks left, highest erase count. -/
  | nvRefresh (dt due failed spare erase : Nat)
  /-- ARP_REQUEST (R403): the address asked for, and the asker's MAC and IPv4 address. -/
  | arpRequest (dt : Nat) (port : Fin 14) (target mac ip : Nat)
  /-- ICMP_ECHO (R403). -/
  | icmpEcho (dt : Nat) (port : Fin 14) (target mac ip : Nat) (payload : List Byte)
  /-- CHANNEL_SECOND (R190). -/
  | channelSecond (dt : Nat) (n : Fin 8)
  /-- CORE_STOP (R33). -/
  | coreStop (dt : Nat) (core : Fin 3)
  /-- TAPER_PULL_END (R153). -/
  | taperPullEnd (dt : Nat) (p : TaperPath)
  /-- OPERATING_INPUT_RESTORED (R40): `mv` is the input voltage. -/
  | operatingInputRestored (dt mv : Nat)
  /-- STROBE_WINDOW_EXPIRY (R338). -/
  | strobeWindowExpiry (dt : Nat) (k : Fin 48)
  /-- LAYER_2_FORWARDING (R4): a frame received on `port`. -/
  | layer2Forwarding (dt : Nat) (port : Fin 14) (dst src etherType : Nat) (payload : List Byte)
  deriving DecidableEq, Repr

end Sys2Proof
end

