-- ==== Sys2Proof/Decode.lean ====
section
/-! DEFINITION. The decoder of the table's bits. No row of spec/opcode_table.json gives a command any bits: a command reaches the
module as an event or as a request, never as an instruction word. -/

namespace Sys2Proof

/-- The command that a word of `nbits` bits spells by the bits the table gives its rows. The table gives none, so no word
spells a command. -/
def decodeTableWord (_nbits _w : Nat) : Option Instr := none

end Sys2Proof
end

