-- ==== Sys2Proof/Config.lean ====
section
/-! DEFINITION. The values the spec leaves open. Each is an opaque constant: nothing can prove a value of it.
One that stands for a single event takes the model's counter of free values, which a step reads and advances; the others take what
the value rests on. -/

namespace Sys2Proof.Config

/-- Which of the two neighbouring integers a read-out shows for a real value between them: the spec states no rounding
(log entry 10). -/
opaque roundUp : Rat → Bool

/-- Proportional correction, in ppt, of a DPLL loop of the given bandwidth (0.1 mHz) for a phase error in ps: R141 names a loop
and states no gain (log entry 11). -/
opaque loopProp : Nat → Rat → Rat

/-- Integral correction, in ppt, of one phase-detector cycle of a DPLL loop (log entry 11). -/
opaque loopInteg : Nat → Rat → Rat

/-- Natural frequency, in rad/s, of a timebase servo of the given bandwidth (0.1 mHz): R255 states the bandwidth and the damping, and
not how the bandwidth is measured (log entry 11). -/
opaque servoOmega : Nat → Rat

/-- Velocity that the axis loop of R316 forms, for a bandwidth (0.1 Hz), the error in axis units and the interval in ns
(log entry 11). -/
opaque trackProp : Nat → Rat → Rat → Rat

/-- Integrator change of the axis loop of R316 (log entry 11). -/
opaque trackInteg : Nat → Rat → Rat → Rat

/-- What a read-out of so many bytes shows for a value that its type cannot hold: the spec states none (log entry 17). -/
opaque overRange : Nat → Int → Nat

/-- `FW_VERSION` of the boot ROM: the spec states none. -/
opaque bootRomVersion : BitVec 32

/-- A value the spec leaves open, by the counter of free values. -/
opaque freeNat : Nat → Nat

/-- A real value the spec leaves open, by the counter of free values. -/
opaque freeRat : Nat → Rat

/-- An integer the spec leaves open, by the counter of free values. -/
opaque freeInt : Nat → Int

/-- A yes or no the spec leaves open, by the counter of free values. -/
opaque freeBool : Nat → Bool

/-- The frequency of R304 for a fitted period that is not above 0, which its formula does not give (log entry 122). -/
opaque fittedFreq : Rat → Rat

/-- The refit's slopes, ageing coefficients and their uncertainty: R172 states no fitting method (log entry 13).
Arguments: counter of free values, index of the number. -/
opaque refit : Nat → Nat → Int

/-- Instruction codes of the boundary-scan port, the bit nearest TDO first: `true` IDCODE, `false` SAMPLE, none for every other code,
which acts as BYPASS. R65 gives no code (log entry 115). -/
opaque scanCode : List Bool → Option Bool

/-- Length of the boundary-scan instruction register, which R65 does not give (log entry 115). -/
opaque scanIrLength : Nat

/-- Number of cells in the boundary register, which R65 does not give (log entry 115). -/
opaque boundaryCells : Nat

end Sys2Proof.Config
end

