-- ==== Sys2Proof/Machine/Bits.lean ====
section
/-! DEFINITION. Byte order, CRC-32, integer square roots, exact rational helpers and fields of words. -/

namespace Sys2Proof.Machine

/-- The `n` bytes of a number, most significant byte first (R13); a longer number loses its upper bytes. -/
def natBytes : Nat → Nat → List Byte
  | 0, _ => []
  | n + 1, v => BitVec.ofNat 8 (v / 256 ^ n) :: natBytes n v

/-- The number that bytes spell, most significant first (R13). -/
def bytesNat (l : List Byte) : Nat := l.foldl (fun a b => a * 256 + b.toNat) 0

/-- The `n` bytes of a two's complement integer (R413). -/
def intBytes (n : Nat) (v : Int) : List Byte := natBytes n (v % (256 ^ n : Nat)).toNat

/-- The signed integer that `n` bytes spell in two's complement (R413). -/
def toSigned (n v : Nat) : Int := if v < 256 ^ n / 2 then v else (v : Int) - (256 ^ n : Nat)

/-- `k` shift steps of the reflected CRC-32 register (IEEE 802.3 polynomial). -/
def crcBits : Nat → BitVec 32 → BitVec 32
  | 0, c => c
  | k + 1, c => crcBits k (if c.getLsbD 0 then (c >>> 1) ^^^ 0xEDB88320#32 else c >>> 1)

/-- The CRC-32 of IEEE 802.3 over bytes (R404). -/
def crc32 (l : List Byte) : Nat :=
  (~~~ (l.foldl (fun c b => crcBits 8 (c ^^^ b.setWidth 32)) 0xFFFFFFFF#32)).toNat

/-- Greatest `r` below `2 ^ k * (r0 + 1)` with `r * r ≤ n`, found bit by bit. -/
def sqrtBits : Nat → Nat → Nat → Nat
  | 0, r, _ => r
  | k + 1, r, n => let r' := r + 2 ^ k; sqrtBits k (if r' * r' ≤ n then r' else r) n

/-- The integer square root, rounded down. -/
def isqrt (n : Nat) : Nat := sqrtBits (Nat.log2 n / 2 + 1) 0 n


/-- A rational at or just below the square root of a non-negative rational: within 2⁻⁴⁰ of it. -/
def sqrtRat (q : Rat) : Rat := (isqrt ((q * (2 ^ 80 : Nat)).floor.toNat) : Rat) / (2 ^ 40 : Nat)

/-- Absolute value. -/
def absR (q : Rat) : Rat := if q < 0 then -q else q

/-- The nearest value of the closed interval. -/
def clampR (lo hi q : Rat) : Rat := if q < lo then lo else if hi < q then hi else q

/-- The nearest value of the closed interval. -/
def clampI (lo hi q : Int) : Int := if q < lo then lo else if hi < q then hi else q

/-- The integer a read-out shows for a real value: the value itself where it is whole; else one of its two neighbours, which
the spec does not choose (log entry 10). -/
def readInt (q : Rat) : Int := if q.den = 1 then q.num else if Config.roundUp q then q.floor + 1 else q.floor

/-- A value rounded toward zero. -/
def truncR (q : Rat) : Int := if q < 0 then -((-q).floor) else q.floor

/-- The least integer that is not below a value. -/
def ceilR (q : Rat) : Int := -((-q).floor)

/-- Saturation of a signed value to `n` bits. -/
def satInt (n : Nat) (v : Int) : Int := clampI (-(2 ^ (n - 1) : Nat)) ((2 ^ (n - 1) : Nat) - 1) v


/-- True where a bit of a byte is set. -/
abbrev bit8 (b : BitVec 8) (i : Nat) : Bool := b.getLsbD i

/-- A byte with one bit set. -/
def setBit8 (b : BitVec 8) (i : Nat) : BitVec 8 := b ||| (1#8 <<< i)

/-- 1 for true. -/
def b2n (b : Bool) : Nat := if b then 1 else 0

/-- Nanoseconds of a TIME80 value. -/
def Time80.toNs (t : Time80) : Nat := t.sec * 1000000000 + t.ns

/-- The TIME80 value of a number of nanoseconds (R413): 48-bit seconds. -/
def nsToTime80 (n : Nat) : Time80 := { sec := n / 1000000000 % 2 ^ 48, ns := n % 1000000000 }

/-- The integer that carries a TIME80 element: seconds above 32 bits of nanoseconds. -/
def Time80.code (t : Time80) : Int := (t.sec * 2 ^ 32 + t.ns : Nat)

/-- The TIME80 value of such an integer. -/
def decodeTime80 (v : Int) : Time80 := { sec := v.toNat / 2 ^ 32 % 2 ^ 48, ns := v.toNat % 2 ^ 32 }

/-- Indices of a list, with their elements. -/
def indexed {α : Type} (l : List α) : List (Nat × α) := (List.range l.length).zip l

end Sys2Proof.Machine
end

