-- ==== Sys2Proof/Machine/State.lean ====
section
/-! DEFINITION. The state of the module, its reset, and why a step can stop. -/

namespace Sys2Proof.Machine

/-- The device modes (R74). -/
inductive Mode where
  | startup | standby | freerun | tracking | holdover | safe
  deriving DecidableEq, Repr

/-- Whether the module has power (R80, R96). -/
inductive Supply where
  /-- Unpowered, or the rails have fallen. -/
  | unpowered
  /-- The rails are up. -/
  | on
  deriving DecidableEq, Repr

/-- Progress of the start-up sequence (R83, R85, R94). -/
inductive Phase where
  /-- No start-up has run since power was lost. -/
  | off
  /-- Steps 1 to 3 are done and the start-up hold runs. -/
  | hold
  /-- PFAIL was set before step 3 completed: Lamplighter waits for the flag to clear. -/
  | waiting
  /-- A C3 fault entered SAFE before the seal: the sequence ends there. -/
  | ended
  /-- Step 5 has completed. -/
  | done
  deriving DecidableEq, Repr

/-- A processor core (R33, R356). -/
inductive CoreState where
  /-- Not started since power-up. -/
  | off
  /-- Executing. -/
  | running
  /-- Halted in STANDBY, in SAFE, or never started under R84. -/
  | halted
  /-- Stopped executing; its watchdog has not fenced it yet. -/
  | stopped
  /-- Fenced until power-up. -/
  | fenced
  deriving DecidableEq, Repr

/-- States of a candidate (R121). -/
inductive CandState where
  | absent | monitoring | qualifying | qualified | selected | disqualified | fenced
  deriving DecidableEq, Repr

/-- States of a DPLL channel (R140). -/
inductive ChanState where
  | idle | acquire | narrowing | locked | holdover | fenced
  deriving DecidableEq, Repr

/-- States of a synthesis core (R193). -/
inductive SynState where
  | disabled | tuning | locked | fenced
  deriving DecidableEq, Repr

/-- States of a clock output (R217). -/
inductive OutState where
  | off | running | held | squelched | parkedSafe | freerunSafe
  deriving DecidableEq, Repr

/-- States of a timebase (R253). -/
inductive TbState where
  | unset | tracking | holdover | fenced
  deriving DecidableEq, Repr

/-- States of a time domain (R250). -/
inductive DomState where
  | off | noSource | qualifying | qualified | discontinuous
  deriving DecidableEq, Repr

/-- States of a port in a PTP instance (R278). -/
inductive PortState where
  | disabled | listening | master | slave | passive | transparent
  deriving DecidableEq, Repr

/-- States of an event source (R386). -/
inductive SrcState where
  | idle | pending | active | activePending | held | latched
  deriving DecidableEq, Repr

/-- States of an axis (R319). -/
inductive AxisState where
  | off | unhomed | tracking | stalled | fault | fenced
  deriving DecidableEq, Repr

/-- States of a calendar action (R328). -/
inductive ActState where
  | empty | idle | armed | suspended | done | tooLate | discarded | cancelled | fenced
  deriving DecidableEq, Repr

/-- States of the boundary-scan port's controller (R65: IEEE 1149.1). -/
inductive TapState where
  | testLogicReset | runTestIdle | selectDr | captureDr | shiftDr | exit1Dr | pauseDr | exit2Dr | updateDr
  | selectIr | captureIr | shiftIr | exit1Ir | pauseIr | exit2Ir | updateIr
  deriving DecidableEq, Repr

/-- The instructions of the boundary-scan port (R65). -/
inductive ScanInstr where
  | bypass | idcode | sample
  deriving DecidableEq, Repr

/-- The units that Snuffer can fence (R353, R358, R380). -/
inductive FUnit where
  | cand (n : Nat) | dp (n : Nat) | sn (n : Nat) | tb (n : Nat) | port (n : Nat) | tsi (n : Nat) | tc (n : Nat)
  | axis (n : Nat) | calendar | out (n : Nat) | trg (n : Nat) | core (n : Nat) | streamer | conn (n : Nat)
  deriving DecidableEq, Repr

/-- The dataset of an instance that has received none (R280: GM_IDENTITY 0 and GM_CLOCK_CLASS 255; the rest at their worst). -/
def Dataset.unreceived : Dataset :=
  { gmIdentity := 0, gmClass := 255, accuracy := 0xFE, variance := 0xFFFF, priority1 := 255, priority2 := 255, steps := 0,
    timeSource := 0xA0, arbitrary := false, utcOffset := 0, utcValid := false, leap61 := false, leap59 := false }

/-- What every PTP frame that the module sends carries (R262, R267, R279). -/
structure PtpTx where
  /-- Port that sends it. -/
  port : Nat
  /-- Instance it belongs to. -/
  inst : Nat
  /-- Destination MAC address. -/
  dst : Nat
  /-- Source MAC address. -/
  src : Nat
  /-- EtherType. -/
  etherType : Nat
  /-- domainNumber. -/
  domain : Nat
  /-- sdoId names IEEE 802.1AS rather than IEEE 1588. -/
  gptp : Bool
  /-- clockIdentity of the sourcePortIdentity. -/
  identity : Nat
  /-- portNumber of the sourcePortIdentity. -/
  portNumber : Nat
  /-- sequenceId. -/
  seqId : Nat
  /-- correctionField, ns. -/
  corr : Rat
  /-- logMessageInterval. -/
  logInterval : Int
  deriving DecidableEq, Repr

/-- A frame that the module sends. -/
inductive Tx where
  /-- A DOP response or EVENT packet on port `iface` or CAN channel: host, VERSION, OPCODE, SEQ, STATUS, FLAGS, ADDRESS, SEGMENT, payload. -/
  | dop (iface source sport mac version opcode seq status : Nat) (flags : BitVec 8) (address segment : Nat)
      (payload : List Byte)
  /-- An ARP reply (R403). -/
  | arp (port mac ip : Nat)
  /-- An ICMP echo reply (R403). -/
  | icmp (port mac ip : Nat) (payload : List Byte)
  /-- Announce (R265). -/
  | announce (h : PtpTx) (d : Dataset)
  /-- Two-step Sync with its Follow_Up: precise origin time (ns), cumulative rate ratio − 1 (ppt), gmTimeBaseIndicator and
  lastGmPhaseChange (2⁻¹⁶ ns) where carried (R264, R266). -/
  | sync (h : PtpTx) (origin ratio : Rat) (gm : Option (Nat × Int))
  /-- Delay_Req (R249). -/
  | delayReq (h : PtpTx)
  /-- Delay_Resp: receive time and the requester it answers (R249). -/
  | delayResp (h : PtpTx) (receive : Rat) (identity portNumber : Nat)
  /-- Pdelay_Req (R269). -/
  | pdelayReq (h : PtpTx)
  /-- Pdelay_Resp with its follow-up: t2, t3 and the requester it answers (R269). -/
  | pdelayResp (h : PtpTx) (t2 t3 : Rat) (identity portNumber : Nat)
  /-- A PTP message forwarded between TRANSPARENT ports with its new correctionField (R264). -/
  | forwarded (h : PtpTx) (kind : PtpKind)
  /-- An Ethernet frame forwarded at layer 2 (R4). -/
  | l2 (port dst src etherType : Nat) (payload : List Byte)
  deriving DecidableEq, Repr

/-- The written SY objects (R98). The two SEAL elements are part of the Chimney limit set (R219). -/
structure CfgSy where
  /-- U8, SY.010.0 PRINCIPAL_TB (R98). -/
  principalTb : Nat
  /-- U32, SY.010.1 VOUCH_LIMIT, ns, SEAL (R98). -/
  vouchLimit : Nat
  /-- U8, SY.010.2 FREERUN_PERMIT, SEAL (R98). -/
  freerunPermit : BitVec 8
  /-- U16, SY.010.3 STARTUP_HOLD, s (R98). -/
  startupHold : Nat
  /-- U8, SY.011.0 WAKE_ENABLE (R98). -/
  wakeEnable : BitVec 8
  /-- U16, SY.011.1 WAKE_T1_PORTS (R98). -/
  wakeT1Ports : BitVec 16
  /-- U8, SY.011.2 WAKE_CAN_CHANNELS (R98). -/
  wakeCanChannels : BitVec 8
  /-- U32, SY.011.3 WAKE_CAN_ID, 29 bits (R98). -/
  wakeCanId : Nat
  /-- U8, SY.011.4 ALARM_TB (R98). -/
  alarmTb : Nat
  /-- TIME80, SY.011.5 ALARM_TIME (R98). -/
  alarmTime : Time80
  deriving DecidableEq, Repr

/-- `CfgSy` at reset. -/
def CfgSy.reset : CfgSy :=
  { principalTb := 0,
    vouchLimit := 1000,
    freerunPermit := 0#8,
    startupHold := 0,
    wakeEnable := 1#8,
    wakeT1Ports := 0x0FFF#16,
    wakeCanChannels := 3#8,
    wakeCanId := 0x18FEA700,
    alarmTb := 0,
    alarmTime := Time80.reset }

/-- The written PW objects (R99). -/
structure CfgPw where
  /-- U16, PW.002.0 HOLDUP_WARN, 0.1 ms (R99). -/
  holdupWarn : Nat
  /-- I32, PW.002.1 TEMP_WARN_HIGH, m°C (R99). -/
  tempWarnHigh : Int
  deriving DecidableEq, Repr

/-- `CfgPw` at reset. -/
def CfgPw.reset : CfgPw :=
  { holdupWarn := 250,
    tempWarnHigh := 80000 }

/-- The written FC objects (R379, R381). -/
structure CfgFc where
  /-- U8, FC.000.4 FIRST_MIN_CLASS (R379). -/
  firstMinClass : Nat
  /-- U16, FC.020.0 INJECT_CHECKER (R381). -/
  injectChecker : Nat
  deriving DecidableEq, Repr

/-- `CfgFc` at reset. -/
def CfgFc.reset : CfgFc :=
  { firstMinClass := 1,
    injectChecker := 0x0101 }

/-- Coalescing of one event target, HOST, ALERT_A or ALERT_B (R402). -/
structure CfgTarget where
  /-- U8, EV.02x.0 COALESCE_COUNT (R402). -/
  count : Nat
  /-- U32, EV.02x.1 COALESCE_TIME, µs (R402). -/
  time : Nat
  /-- U8, EV.021.5 and EV.022.5 ALERT_MODE: 0 LATCH, 1 FOLLOW (R402). -/
  alertMode : Nat
  deriving DecidableEq, Repr

/-- `CfgTarget` at reset. -/
def CfgTarget.reset : CfgTarget :=
  { count := 0,
    time := 0,
    alertMode := 0 }

/-- `ROUTE` of a source at delivery and after an erase (R383, R400): enable, class and target. -/
def defaultRoute (s : Nat) : BitVec 8 :=
  if s = 1 then 0xC0#8
  else if s < 16 then 0x80#8
  else if s < 48 then 0x82#8
  else if s < 72 then 0x80#8
  else if s < 80 then 0xC1#8
  else if s = 85 then 0xC0#8
  else if s < 120 then 0x80#8
  else if s < 136 then 0x81#8
  else if s < 152 then 0x80#8
  else if s < 232 then 0x83#8
  else 0x80#8

/-- The 256 default routes (R383). -/
def defaultRoutes : List (BitVec 8) := (List.range 256).map defaultRoute


/-- The written EV objects (R400 to R402). -/
structure CfgEv where
  /-- 256 × U8, EV.000.s ROUTE (R383, R400). -/
  routes : List (BitVec 8)
  /-- 3 × U8, EV.010.0–EV.012.0 COMPLETION_MODE (R401). -/
  completionMode : List Nat
  /-- 3 × coalescing settings (R402). -/
  targets : List CfgTarget
  deriving DecidableEq, Repr

/-- `CfgEv` at reset. -/
def CfgEv.reset : CfgEv :=
  { routes := defaultRoutes,
    completionMode := List.replicate 3 1,
    targets := List.replicate 3 CfgTarget.reset }

/-- One physical reference input, RF.000–RF.015 (R132). The class, mode and frequency defaults by input are CfgRef.factory's. -/
structure CfgRef where
  /-- U8, RF.0nn.0 ENABLE (R132). -/
  enable : Nat
  /-- U8, RF.0nn.1 CLASS (REF8–REF11: 1) (R132). -/
  cls : Nat
  /-- U8, RF.0nn.2 ELEC_MODE (REF8–11: 4, REF12–15: 2) (R132). -/
  elecMode : Nat
  /-- U64, RF.0nn.3 NOMINAL_FREQ, mHz (REF8–11: 1,000) (R132). -/
  nominal : Nat
  /-- U8, RF.0nn.4 EDGE (R132). -/
  edge : Nat
  /-- U8, RF.0nn.5 QUALITY (R132). -/
  quality : Nat
  /-- U16, RF.0nn.6 WTR, s (R132). -/
  wtr : Nat
  /-- U8, RF.0nn.7 ACT_THRESHOLD (R132). -/
  actThreshold : Nat
  /-- U32, RF.0nn.8 FREQ_REJECT, ppb (R132). -/
  freqReject : Nat
  /-- U32, RF.0nn.9 FREQ_ACCEPT, ppb (R132). -/
  freqAccept : Nat
  /-- U32, RF.0nn.10 DRIFT_LIMIT, 0.1 ppb/h (R132). -/
  driftLimit : Nat
  /-- U32, RF.0nn.11 DRIFT_HORIZON, s (R132). -/
  driftHorizon : Nat
  /-- U8, RF.0nn.12 MONITOR_ENABLE (R132). -/
  monitorEnable : BitVec 8
  /-- U32, RF.0nn.13 PULSE_WINDOW, ns (R132). -/
  pulseWindow : Nat
  /-- I32, RF.0nn.14 DELAY_COMP, ps (R132). -/
  delayComp : Int
  deriving DecidableEq, Repr

/-- `CfgRef` at reset. -/
def CfgRef.reset : CfgRef :=
  { enable := 0,
    cls := 0,
    elecMode := 0,
    nominal := 10000000000,
    edge := 0,
    quality := 8,
    wtr := 60,
    actThreshold := 3,
    freqReject := 6000,
    freqAccept := 4000,
    driftLimit := 200,
    driftHorizon := 3600,
    monitorEnable := 3#8,
    pulseWindow := 10000,
    delayComp := 0 }

/-- Defaults of physical input i, which differ by connector (R132). -/
def CfgRef.factory (i : Nat) : CfgRef :=
  if i < 8 then CfgRef.reset
  else if i < 12 then { CfgRef.reset with cls := 1, elecMode := 4, nominal := 1000 }
  else { CfgRef.reset with elecMode := 2 }


/-- One logical reference, RF.016–RF.023 (R133). The kind and source defaults are CfgLref.factory's. -/
structure CfgLref where
  /-- U8, RF.016+n.0 ENABLE (R133). -/
  enable : Nat
  /-- U8, RF.016+n.1 KIND: 0 GNSS, 1 DOMAIN (LREF0: 0) (R133). -/
  kind : Nat
  /-- U8, RF.016+n.2 SOURCE (LREF0: 8; LREFn: n − 1) (R133). -/
  source : Nat
  /-- U8, RF.016+n.3 QUALITY (R133). -/
  quality : Nat
  /-- U16, RF.016+n.4 WTR, s (R133). -/
  wtr : Nat
  /-- U8, RF.016+n.5 ACT_THRESHOLD (R133). -/
  actThreshold : Nat
  /-- U32, RF.016+n.6 FREQ_REJECT, ppb (R133). -/
  freqReject : Nat
  /-- U32, RF.016+n.7 FREQ_ACCEPT, ppb (R133). -/
  freqAccept : Nat
  /-- U32, RF.016+n.8 DRIFT_LIMIT, 0.1 ppb/h (R133). -/
  driftLimit : Nat
  /-- U32, RF.016+n.9 DRIFT_HORIZON, s (R133). -/
  driftHorizon : Nat
  /-- U8, RF.016+n.10 MONITOR_ENABLE (R133). -/
  monitorEnable : BitVec 8
  deriving DecidableEq, Repr

/-- `CfgLref` at reset. -/
def CfgLref.reset : CfgLref :=
  { enable := 0,
    kind := 1,
    source := 0,
    quality := 4,
    wtr := 120,
    actThreshold := 3,
    freqReject := 6000,
    freqAccept := 4000,
    driftLimit := 200,
    driftHorizon := 3600,
    monitorEnable := 3#8 }

/-- Defaults of logical reference n (R133). -/
def CfgLref.factory (n : Nat) : CfgLref :=
  if n = 0 then { CfgLref.reset with kind := 0, source := 8 }
  else { CfgLref.reset with source := n - 1 }


/-- The GNSS port settings, RF.030 (R134). -/
structure CfgGnss where
  /-- U32, RF.030.0 BAUD (R134). -/
  baud : Nat
  /-- U8, RF.030.1 SENTENCES: [1] RMC, [0] ZDA (R134). -/
  sentences : BitVec 8
  /-- U8, RF.030.2 LABEL (R134). -/
  label : Nat
  /-- U16, RF.030.3 MSG_LATEST, ms (R134). -/
  msgLatest : Nat
  deriving DecidableEq, Repr

/-- `CfgGnss` at reset. -/
def CfgGnss.reset : CfgGnss :=
  { baud := 4800,
    sentences := 3#8,
    label := 0,
    msgLatest := 900 }

/-- One channel selector, RF.100+n and RF.110+n (R136). -/
structure CfgSel where
  /-- U32, RF.100+n.0 MASK (R136). -/
  mask : BitVec 32
  /-- U8, RF.100+n.1 SELECT_MODE (R136). -/
  selectMode : Nat
  /-- U8, RF.100+n.2 FORCE_INDEX (R136). -/
  forceIndex : Nat
  /-- 24 × U8, RF.110+n.e PRIORITY (R136). -/
  priority : List Nat
  deriving DecidableEq, Repr

/-- `CfgSel` at reset. -/
def CfgSel.reset : CfgSel :=
  { mask := 0#32,
    selectMode := 0,
    forceIndex := 0,
    priority := List.replicate 24 8 }

/-- One DPLL channel, DP.000–DP.007 (R161). -/
structure CfgDp where
  /-- U8, DP.00n.0 ENABLE (R161). -/
  enable : Nat
  /-- U8, DP.00n.1 TIME_CARRYING (R161). -/
  timeCarrying : Nat
  /-- U8, DP.00n.2 BW_STEPS (R161). -/
  bwSteps : Nat
  /-- 8 × U32, DP.00n.3–10 BW_STEP, 0.1 mHz (R161). -/
  bw : List Nat
  /-- U32, DP.00n.11 LOCK_WINDOW, ps (R161). -/
  lockWindow : Nat
  /-- U32, DP.00n.12 LOCK_COUNT (R161). -/
  lockCount : Nat
  /-- U32, DP.00n.13 SLOPE_TIME, ps/s (R161). -/
  slopeTime : Nat
  /-- U32, DP.00n.14 SLOPE_FREQ, ps/s (R161). -/
  slopeFreq : Nat
  /-- U32, DP.00n.15 TAPER_RAMP, ms (R161). -/
  taperRamp : Nat
  /-- U8, DP.00n.16 PBO_ENABLE (R161). -/
  pboEnable : Nat
  /-- U8, DP.00n.17 FIRST_ALIGN (R161). -/
  firstAlign : Nat
  deriving DecidableEq, Repr

/-- `CfgDp` at reset. -/
def CfgDp.reset : CfgDp :=
  { enable := 0,
    timeCarrying := 0,
    bwSteps := 4,
    bw := [300000, 30000, 3000, 1000, 1000, 1000, 1000, 1000],
    lockWindow := 2000,
    lockCount := 1024,
    slopeTime := 100000,
    slopeFreq := 1000000,
    taperRamp := 1000,
    pboEnable := 1,
    firstAlign := 1 }

/-- The Lantern configuration, LN.000 (R187). -/
structure CfgLn where
  /-- U8, LN.000.0 MODEL_ENABLE (R187). -/
  modelEnable : Nat
  /-- U8, LN.000.1 LEARN_CHANNEL (R187). -/
  learnChannel : Nat
  /-- U16, LN.000.2 QUARANTINE, s (R187). -/
  quarantine : Nat
  /-- U16, LN.000.3 AVG_WINDOW, s (R187). -/
  avgWindow : Nat
  /-- U32, LN.000.4 CELL_MIN, s (R187). -/
  cellMin : Nat
  /-- U16, LN.000.5 TEMP_LAG, s (R187). -/
  tempLag : Nat
  /-- U16, LN.000.6 LOAD_LAG, s (R187). -/
  loadLag : Nat
  /-- U8, LN.000.7 LEARN_RANK (R187). -/
  learnRank : Nat
  deriving DecidableEq, Repr

/-- `CfgLn` at reset. -/
def CfgLn.reset : CfgLn :=
  { modelEnable := 1,
    learnChannel := 0,
    quarantine := 300,
    avgWindow := 600,
    cellMin := 3600,
    tempLag := 600,
    loadLag := 900,
    learnRank := 5 }

/-- One synthesis core, SN.000–SN.003 (R229). CHANNEL and FREQ_PLAN are shadows (R207); CHANNEL's default is the core number. -/
structure CfgSn where
  /-- U8, SN.00c.0 ENABLE (R229). -/
  enable : Nat
  /-- U8, SN.00c.1 CHANNEL, shadow (default c) (R229). -/
  channel : Nat
  /-- U64, SN.00c.2 FREQ_PLAN, mHz, shadow (R229). -/
  plan : Nat
  /-- U8, SN.00c.3 CARD_USE (R229). -/
  cardUse : Nat
  /-- U8, SN.00c.4 CARD_AUTO (R229). -/
  cardAuto : Nat
  deriving DecidableEq, Repr

/-- `CfgSn` at reset. -/
def CfgSn.reset : CfgSn :=
  { enable := 1,
    channel := 0,
    plan := 5000000000000,
    cardUse := 1,
    cardAuto := 1 }

/-- Defaults of core c: `CHANNEL` is c (R229). -/
def CfgSn.factory (c : Nat) : CfgSn := { CfgSn.reset with channel := c }


/-- The double-buffered settings of one output (R204, R207, R213, R215): the shadow set and the active set have this form. -/
structure Divider where
  /-- U32, OU.0nn.4 DIV_INT (R232). -/
  divInt : Nat
  /-- U32, OU.0nn.5 DIV_FRAC, 2⁻³² (R232). -/
  divFrac : Nat
  /-- U32, OU.0nn.6 POST_DIV (R232). -/
  postDiv : Nat
  /-- I32, OU.0nn.7 PHASE, 1/512 core period (R232). -/
  phase : Int
  /-- U8, OU.0nn.8 SSC_MODE (R232). -/
  sscMode : Nat
  /-- U16, OU.0nn.9 SSC_DEPTH, 0.01 % (R232). -/
  sscDepth : Nat
  /-- U32, OU.0nn.10 SSC_RATE, Hz (R232). -/
  sscRate : Nat
  deriving DecidableEq, Repr

/-- `Divider` at reset. -/
def Divider.reset : Divider :=
  { divInt := 32,
    divFrac := 0,
    postDiv := 1,
    phase := 0,
    sscMode := 0,
    sscDepth := 50,
    sscRate := 33000 }

/-- One clock output, OU.000–OU.031 (R232). CORE's default is n ÷ 8. -/
structure CfgOu where
  /-- U8, OU.0nn.0 ENABLE (R232). -/
  enable : Nat
  /-- U8, OU.0nn.1 CORE (default n ÷ 8) (R232). -/
  core : Nat
  /-- U8, OU.0nn.2 FORMAT (R232). -/
  format : Nat
  /-- U16, OU.0nn.3 AMPLITUDE (R232). -/
  amplitude : Nat
  /-- OU.0nn.4–10, the shadow copies (R207, R232). -/
  shadow : Divider
  /-- U8, OU.0nn.11 STANDBY_ON (R232). -/
  standbyOn : Nat
  deriving DecidableEq, Repr

/-- `CfgOu` at reset. -/
def CfgOu.reset : CfgOu :=
  { enable := 0,
    core := 0,
    format := 0,
    amplitude := 350,
    shadow := Divider.reset,
    standbyOn := 0 }

/-- Defaults of output n: `CORE` is n ÷ 8 (R232). -/
def CfgOu.factory (n : Nat) : CfgOu := { CfgOu.reset with core := n / 8 }


/-- The Chimney limits of one clock output, OU.100–OU.131, access SEAL (R234). -/
structure LimOut where
  /-- U64, OU.1nn.0 FMIN, µHz (R234). -/
  fmin : Nat
  /-- U64, OU.1nn.1 FMAX, µHz (R234). -/
  fmax : Nat
  /-- U32, OU.1nn.2 SLEW_LIMIT, ns/s (R234). -/
  slewLimit : Nat
  /-- U8, OU.1nn.3 TIME_CARRYING (R234). -/
  timeCarrying : Nat
  /-- U8, OU.1nn.4 SAFE_ACTION (R234). -/
  safeAction : Nat
  deriving DecidableEq, Repr

/-- `LimOut` at reset. -/
def LimOut.reset : LimOut :=
  { fmin := 400000,
    fmax := 1300000000000000,
    slewLimit := 20000,
    timeCarrying := 0,
    safeAction := 0 }

/-- The Chimney limits of one trigger output, OU.140–OU.187, access SEAL (R235). -/
structure LimTrg where
  /-- U32, OU.140+n.0 MIN_SPACING, ns (R235). -/
  minSpacing : Nat
  /-- U32, OU.140+n.1 MAX_RATE (R235). -/
  maxRate : Nat
  deriving DecidableEq, Repr

/-- `LimTrg` at reset. -/
def LimTrg.reset : LimTrg :=
  { minSpacing := 20,
    maxRate := 50000000 }

/-- One timebase, TB.000–TB.003 (R272). CHANNEL's default is n. -/
structure CfgTb where
  /-- U8, TB.00n.0 CHANNEL (default n) (R272). -/
  channel : Nat
  /-- U16, TB.00n.1 RATE_LIMIT, ppm (R272). -/
  rateLimit : Nat
  /-- U32, TB.00n.2 SERVO_BW, 0.1 mHz (R272). -/
  servoBw : Nat
  /-- U32, TB.00n.3 DISC_THRESHOLD, ns (R272). -/
  discThreshold : Nat
  /-- U8, TB.00n.4 DISC_CONFIRM (R272). -/
  discConfirm : Nat
  /-- U32, TB.00n.5 RECOVER_LIMIT, ns (R272). -/
  recoverLimit : Nat
  /-- U32, TB.00n.6 SLOPE, ps/s (R272). -/
  slope : Nat
  /-- U32, TB.00n.7 TAPER_RAMP, ms (R272). -/
  taperRamp : Nat
  /-- U8, TB.00n.8 DOMAIN_REVERT (R272). -/
  domainRevert : Nat
  /-- U16, TB.00n.9 HOLD_AVG, s (R272). -/
  holdAvg : Nat
  /-- U8, TB.00n.10 TIMESCALE (R272). -/
  timescale : Nat
  deriving DecidableEq, Repr

/-- `CfgTb` at reset. -/
def CfgTb.reset : CfgTb :=
  { channel := 0,
    rateLimit := 100,
    servoBw := 500,
    discThreshold := 1000,
    discConfirm := 3,
    recoverLimit := 100000,
    slope := 100000,
    taperRamp := 1000,
    domainRevert := 0,
    holdAvg := 60,
    timescale := 0 }

/-- Defaults of timebase n: `CHANNEL` is n (R272). -/
def CfgTb.factory (n : Nat) : CfgTb := { CfgTb.reset with channel := n }


/-- One time domain, TB.010–TB.017 (R273). PTP_DOMAIN's default is i. -/
structure CfgDom where
  /-- U8, TB.01i.0 KIND (R273). -/
  kind : Nat
  /-- U8, TB.01i.1 PTP_DOMAIN (default i) (R273). -/
  ptpDomain : Nat
  /-- U8, TB.01i.2 PROFILE (R273). -/
  profile : Nat
  /-- U8, TB.01i.3 TIME_REF (R273). -/
  timeRef : Nat
  /-- U16, TB.01i.4 QUAL_TIME, s (R273). -/
  qualTime : Nat
  /-- U8, TB.01i.5 QUALITY (R273). -/
  quality : Nat
  deriving DecidableEq, Repr

/-- `CfgDom` at reset. -/
def CfgDom.reset : CfgDom :=
  { kind := 0,
    ptpDomain := 0,
    profile := 2,
    timeRef := 16,
    qualTime := 16,
    quality := 8 }

/-- Defaults of domain instance i: `PTP_DOMAIN` is i (R273). -/
def CfgDom.factory (i : Nat) : CfgDom := { CfgDom.reset with ptpDomain := i }


/-- The UTC values of one timebase (R244): the written registers and the registers in force have this form (R31, R245). -/
structure Utc where
  /-- I16, TB.02n.1 UTC_OFFSET, s (R274). -/
  offset : Int
  /-- U8, TB.02n.2 UTC_VALID (R274). -/
  valid : Nat
  /-- U8, TB.02n.3 LEAP (R274). -/
  leap : Nat
  /-- TIME80, TB.02n.4 LEAP_AT (R274). -/
  leapAt : Time80
  deriving DecidableEq, Repr

/-- `Utc` at reset. -/
def Utc.reset : Utc :=
  { offset := 37,
    valid := 0,
    leap := 0,
    leapAt := Time80.reset }

/-- UTC mode and written UTC registers of one timebase, TB.020–TB.023 (R274). -/
structure CfgUtc where
  /-- U8, TB.02n.0 UTC_MODE (R274). -/
  mode : Nat
  /-- the written registers of R31 (R245). -/
  written : Utc
  deriving DecidableEq, Repr

/-- `CfgUtc` at reset. -/
def CfgUtc.reset : CfgUtc :=
  { mode := 0,
    written := Utc.reset }

/-- One Ethernet port, PT.000–PT.013 (R277). RATE's default on P12–P13 is 3. -/
structure CfgPort where
  /-- U8, PT.0nn.0 ENABLE (R277). -/
  enable : Nat
  /-- U8, PT.0nn.1 RATE (P12–P13: 3) (R277). -/
  rate : Nat
  /-- U8, PT.0nn.2 PHY_ROLE (R277). -/
  phyRole : Nat
  /-- I32, PT.0nn.3 ASYMMETRY, ps (R277). -/
  asymmetry : Int
  /-- U8, PT.0nn.4 PDELAY_MODE (R277). -/
  pdelayMode : Nat
  /-- U32, PT.0nn.5 STATIC_LINK_DELAY, ps (R277). -/
  staticLinkDelay : Nat
  /-- 8 × U8, PT.0nn.8–15 ROLE (R277). -/
  roles : List Nat
  deriving DecidableEq, Repr

/-- `CfgPort` at reset. -/
def CfgPort.reset : CfgPort :=
  { enable := 1,
    rate := 0,
    phyRole := 1,
    asymmetry := 0,
    pdelayMode := 0,
    staticLinkDelay := 0,
    roles := List.replicate 8 0 }

/-- Defaults of port n: `RATE` of P12 and P13 is 3 (R277). -/
def CfgPort.factory (n : Nat) : CfgPort :=
  if n < 12 then CfgPort.reset else { CfgPort.reset with rate := 3 }


/-- Message settings of one PTP instance, PT.040–PT.047 (R279). -/
structure CfgInst where
  /-- I8, PT.04i.0 LOG_SYNC (R279). -/
  logSync : Int
  /-- I8, PT.04i.1 LOG_ANNOUNCE (R279). -/
  logAnnounce : Int
  /-- U8, PT.04i.2 ANNOUNCE_TIMEOUT (R279). -/
  announceTimeout : Nat
  /-- U8, PT.04i.3 SYNC_TIMEOUT (R279). -/
  syncTimeout : Nat
  /-- I8, PT.04i.4 LOG_PDELAY (R279). -/
  logPdelay : Int
  /-- U8, PT.04i.5 PRIORITY1 (R279). -/
  priority1 : Nat
  /-- U8, PT.04i.6 PRIORITY2 (R279). -/
  priority2 : Nat
  deriving DecidableEq, Repr

/-- `CfgInst` at reset. -/
def CfgInst.reset : CfgInst :=
  { logSync := -3,
    logAnnounce := 0,
    announceTimeout := 3,
    syncTimeout := 3,
    logPdelay := 0,
    priority1 := 246,
    priority2 := 128 }

/-- One timestamp input, TS.000–TS.063 (R307). -/
structure CfgTsi where
  /-- U8, TS.0nn.0 ENABLE (R307). -/
  enable : Nat
  /-- U8, TS.0nn.1 ELEC_MODE (R307). -/
  elecMode : Nat
  /-- U8, TS.0nn.2 EDGES (R307). -/
  edges : BitVec 8
  /-- U8, TS.0nn.3 TIMEBASE (R307). -/
  timebase : Nat
  /-- I32, TS.0nn.4 DELAY_COMP, ps (R307). -/
  delayComp : Int
  /-- U8, TS.0nn.5 TO_RING (R307). -/
  toRing : Nat
  /-- U8, TS.0nn.6 GATING (R307). -/
  gating : Nat
  /-- U16, TS.0nn.7 DECIMATE (R307). -/
  decimate : Nat
  /-- U8, TS.0nn.8 EDGE_EVENT (R307). -/
  edgeEvent : Nat
  deriving DecidableEq, Repr

/-- `CfgTsi` at reset. -/
def CfgTsi.reset : CfgTsi :=
  { enable := 0,
    elecMode := 0,
    edges := 1#8,
    timebase := 0,
    delayComp := 0,
    toRing := 1,
    gating := 0,
    decimate := 1,
    edgeEvent := 0 }

/-- One interval and frequency channel, TC.000–TC.015 (R310). -/
structure CfgTc where
  /-- U8, TC.0kk.0 RUN (R310). -/
  run : Nat
  /-- U8, TC.0kk.1 MODE (R310). -/
  mode : Nat
  /-- U8, TC.0kk.2 START_INPUT (R310). -/
  startInput : Nat
  /-- U8, TC.0kk.3 START_EDGE (R310). -/
  startEdge : Nat
  /-- U8, TC.0kk.4 STOP_INPUT (R310). -/
  stopInput : Nat
  /-- U8, TC.0kk.5 STOP_EDGE (R310). -/
  stopEdge : Nat
  /-- U32, TC.0kk.6 GATE, ms (R310). -/
  gate : Nat
  /-- U32, TC.0kk.7 MAX_STAMPS (R310). -/
  maxStamps : Nat
  /-- U16, TC.0kk.8 COINCIDENCE, ps (R310). -/
  coincidence : Nat
  /-- U64, TC.0kk.9 NOMINAL_FREQ, mHz (R310). -/
  nominal : Nat
  deriving DecidableEq, Repr

/-- `CfgTc` at reset. -/
def CfgTc.reset : CfgTc :=
  { run := 0,
    mode := 0,
    startInput := 0,
    startEdge := 0,
    stopInput := 1,
    stopEdge := 0,
    gate := 1000,
    maxStamps := 65536,
    coincidence := 0,
    nominal := 10000000000 }

/-- One encoder axis, AX.020–AX.023 (R343). -/
structure CfgAx where
  /-- U8, AX.02k.0 KIND (R343). -/
  kind : Nat
  /-- U16, AX.02k.1 LINES (R343). -/
  lines : Nat
  /-- U8, AX.02k.2 COUNT_MODE (R343). -/
  countMode : Nat
  /-- U8, AX.02k.3 INVERT (R343). -/
  invert : Nat
  /-- U32, AX.02k.4 INDEX_OFFSET, 2⁻³² turn (R343). -/
  indexOffset : Nat
  /-- U8, AX.02k.5 INDEX_TOL (R343). -/
  indexTol : Nat
  /-- U32, AX.02k.6 TRACK_BW, 0.1 Hz (R343). -/
  trackBw : Nat
  /-- U8, AX.02k.7 STALL_EDGES (R343). -/
  stallEdges : Nat
  /-- U8, AX.02k.8 TRAVEL_MODE (R343). -/
  travelMode : Nat
  /-- U32, AX.02k.9 SCALE, 2⁻¹⁶ µm (R343). -/
  scale : Nat
  deriving DecidableEq, Repr

/-- `CfgAx` at reset. -/
def CfgAx.reset : CfgAx :=
  { kind := 0,
    lines := 1024,
    countMode := 0,
    invert := 0,
    indexOffset := 0,
    indexTol := 2,
    trackBw := 200,
    stallEdges := 4,
    travelMode := 1,
    scale := 65536 }

/-- One calendar action, SC.000–SC.1023 (R344). -/
structure CfgAct where
  /-- U8, SC.a.0 KIND (R344). -/
  kind : Nat
  /-- U8, SC.a.1 AXIS (R344). -/
  axis : Nat
  /-- U8, SC.a.2 DIRECTION (R344). -/
  direction : Nat
  /-- U8, SC.a.3 LATE_POLICY (R344). -/
  latePolicy : Nat
  /-- U8, SC.a.4 OUTPUT (R344). -/
  output : Nat
  /-- U8, SC.a.5 TAG (R344). -/
  tag : Nat
  /-- U16, SC.a.6 OPTIONS: [2] ARM_ON_LOAD, [1] REBASE, [0] UNBOUNDED (R344). -/
  options : BitVec 16
  /-- U64, SC.a.7 TARGET (R344). -/
  target : BitVec 64
  /-- U64, SC.a.8 PERIOD (R344). -/
  period : Nat
  /-- U32, SC.a.9 COUNT (R344). -/
  count : Nat
  /-- U32, SC.a.10 WIDTH, ns (R344). -/
  width : Nat
  deriving DecidableEq, Repr

/-- `CfgAct` at reset. -/
def CfgAct.reset : CfgAct :=
  { kind := 0,
    axis := 0,
    direction := 0,
    latePolicy := 0,
    output := 0,
    tag := 0,
    options := 0#16,
    target := 0#64,
    period := 0,
    count := 1,
    width := 1000 }

/-- One exposure-centroid servo slot, SC.2050–SC.2097 (R348). -/
structure CfgServo where
  /-- U8, SC.2050+k.0 ENABLE (R348). -/
  enable : Nat
  /-- U16, SC.2050+k.1 ACTION (R348). -/
  action : Nat
  /-- U8, SC.2050+k.2 STROBE_INPUT (R348). -/
  strobeInput : Nat
  /-- U8, SC.2050+k.3 STROBE_POLARITY (R348). -/
  strobePolarity : Nat
  /-- U16, SC.2050+k.4 GAIN, 1/256 (R348). -/
  gain : Nat
  /-- U32, SC.2050+k.5 LEAD_INIT, ns (R348). -/
  leadInit : Nat
  /-- U32, SC.2050+k.6 LEAD_MIN, ns (R348). -/
  leadMin : Nat
  /-- U32, SC.2050+k.7 LEAD_MAX, ns (R348). -/
  leadMax : Nat
  /-- U32, SC.2050+k.8 STEP_MAX, ns (R348). -/
  stepMax : Nat
  /-- U32, SC.2050+k.9 STROBE_WINDOW, ns (R348). -/
  strobeWindow : Nat
  /-- U32, SC.2050+k.10 MAX_EXPOSURE, ns (R348). -/
  maxExposure : Nat
  deriving DecidableEq, Repr

/-- `CfgServo` at reset. -/
def CfgServo.reset : CfgServo :=
  { enable := 0,
    action := 0,
    strobeInput := 0,
    strobePolarity := 0,
    gain := 128,
    leadInit := 0,
    leadMin := 0,
    leadMax := 50000000,
    stepMax := 1000000,
    strobeWindow := 1000000,
    maxExposure := 100000000 }

/-- The interface settings, NV.020 and NV.021 (R437): the written values and the values in force since the last start have this form. -/
structure CfgNv where
  /-- U32, NV.020.0 IPV4_ADDRESS (R437). -/
  ipv4 : Nat
  /-- U8, NV.020.1 PREFIX (R437). -/
  pfx : Nat
  /-- U16, NV.020.2 DOP_PORTS (R437). -/
  dopPorts : BitVec 16
  /-- U8, NV.021.0 CAN_ENABLE (R437). -/
  canEnable : BitVec 8
  /-- U32, NV.021.1 NOMINAL_RATE (R437). -/
  nominalRate : Nat
  /-- U32, NV.021.2 DATA_RATE (R437). -/
  dataRate : Nat
  /-- U32, NV.021.3 REQ_BASE (R437). -/
  reqBase : Nat
  /-- U32, NV.021.4 RSP_BASE (R437). -/
  rspBase : Nat
  /-- U32, NV.021.5 EVT_BASE (R437). -/
  evtBase : Nat
  deriving DecidableEq, Repr

/-- `CfgNv` at reset. -/
def CfgNv.reset : CfgNv :=
  { ipv4 := 0,
    pfx := 16,
    dopPorts := 0x3FFF#16,
    canEnable := 3#8,
    nominalRate := 500000,
    dataRate := 2000000,
    reqBase := 0x18DA9600,
    rspBase := 0x18DA9610,
    evtBase := 0x18DA9620 }

/-- The Chimney limits kept beside SY.010.1 and SY.010.2 (R219). -/
structure Limits where
  /-- 32 × OU.100–OU.131 (R219, R234). -/
  out : List LimOut
  /-- 48 × OU.140–OU.187 (R219, R235). -/
  trg : List LimTrg
  /-- U16, OU.200.0 HEARTBEAT_INTERVAL, ms (R235). -/
  heartbeatInterval : Nat
  deriving DecidableEq, Repr

/-- `Limits` at reset. -/
def Limits.reset : Limits :=
  { out := List.replicate 32 LimOut.reset,
    trg := List.replicate 48 LimTrg.reset,
    heartbeatInterval := 250 }

/-- Every RW, RWS and SEAL element that STORE saves (R425), as it stands in RAM. BLOBs, STICKY elements, CLAMPED, STEERING and LOCAL_LABEL are not here. -/
structure Cfg where
  /-- SY.010, SY.011 (R425). -/
  sy : CfgSy
  /-- PW.002 (R425). -/
  pw : CfgPw
  /-- FC.000.4, FC.020.0 (R425). -/
  fc : CfgFc
  /-- EV.000, EV.010–EV.022 (R425). -/
  ev : CfgEv
  /-- RF.000–RF.015 (R132). -/
  refs : List CfgRef
  /-- RF.016–RF.023 (R133). -/
  lrefs : List CfgLref
  /-- RF.030 (R134). -/
  gnss : CfgGnss
  /-- RF.100–RF.117 (R136). -/
  sels : List CfgSel
  /-- DP.000–DP.007 (R161). -/
  dp : List CfgDp
  /-- U8, DP.100.0 LDA_SELECT (R163). -/
  ldaSelect : Nat
  /-- LN.000 (R187). -/
  ln : CfgLn
  /-- SN.000–SN.003 (R229). -/
  sn : List CfgSn
  /-- U8, SN.020.1 COMMIT_TB (R231). -/
  commitTb : Nat
  /-- U8, SN.020.2 COMMIT_EDGE_OUT (R231). -/
  commitEdgeOut : Nat
  /-- U32, SN.030.2 CARD_TEMP_WINDOW, m°C (R231). -/
  cardTempWindow : Nat
  /-- OU.000–OU.031 (R232). -/
  ou : List CfgOu
  /-- OU.100–OU.200 SEAL elements (R219). -/
  lim : Limits
  /-- TB.000–TB.003 (R272). -/
  tb : List CfgTb
  /-- TB.010–TB.017 (R273). -/
  dom : List CfgDom
  /-- TB.020–TB.023 (R274). -/
  utc : List CfgUtc
  /-- PT.000–PT.013 (R277). -/
  pt : List CfgPort
  /-- PT.040–PT.047 (R279). -/
  inst : List CfgInst
  /-- TS.000–TS.063 (R307). -/
  ts : List CfgTsi
  /-- TC.000–TC.015 (R310). -/
  tc : List CfgTc
  /-- AX.020–AX.023 (R343). -/
  ax : List CfgAx
  /-- SC.000–SC.1023 (R344). -/
  act : List CfgAct
  /-- SC.2050–SC.2097 (R348). -/
  servo : List CfgServo
  /-- NV.020, NV.021 (R437). -/
  nv : CfgNv
  deriving DecidableEq, Repr

/-- `Cfg` at reset. -/
def Cfg.reset : Cfg :=
  { sy := CfgSy.reset,
    pw := CfgPw.reset,
    fc := CfgFc.reset,
    ev := CfgEv.reset,
    refs := (List.range 16).map CfgRef.factory,
    lrefs := (List.range 8).map CfgLref.factory,
    gnss := CfgGnss.reset,
    sels := List.replicate 8 CfgSel.reset,
    dp := List.replicate 8 CfgDp.reset,
    ldaSelect := 0,
    ln := CfgLn.reset,
    sn := (List.range 4).map CfgSn.factory,
    commitTb := 0,
    commitEdgeOut := 0,
    cardTempWindow := 15000,
    ou := (List.range 32).map CfgOu.factory,
    lim := Limits.reset,
    tb := (List.range 4).map CfgTb.factory,
    dom := (List.range 8).map CfgDom.factory,
    utc := List.replicate 4 CfgUtc.reset,
    pt := (List.range 14).map CfgPort.factory,
    inst := List.replicate 8 CfgInst.reset,
    ts := List.replicate 64 CfgTsi.reset,
    tc := List.replicate 16 CfgTc.reset,
    ax := List.replicate 4 CfgAx.reset,
    act := List.replicate 1024 CfgAct.reset,
    servo := List.replicate 48 CfgServo.reset,
    nv := CfgNv.reset }

/-- A Taper path (R153): the remaining gap, the present slope and the limits it runs under. A positive gap means late; a positive slope speeds the oscillator and closes a positive gap. -/
structure Taper where
  /-- G, ps (DP.01n.5 TAPER_GAP; TB.03n.7 with the sign turned) (R137, R153). -/
  gap : Rat
  /-- present slope, ps/s (DP.01n.6, TB.03n.8 TAPER_SLOPE_NOW) (R153). -/
  slope : Rat
  /-- S taken at the last re-target, ps/s (R153). -/
  cruise : Rat
  /-- ramp limit S ÷ TAPER_RAMP, ps/s² (R153). -/
  accel : Rat
  /-- the pull has ended and only the slope still returns to 0 (R155). The model's own bookkeeping. -/
  ending : Bool
  deriving DecidableEq, Repr

/-- `Taper` at reset. -/
def Taper.reset : Taper :=
  { gap := 0,
    slope := 0,
    cruise := 0,
    accel := 0,
    ending := false }

/-- One record of Tarn (R364). -/
structure TarnRec where
  /-- [127:64] TIME, ns (R364). -/
  time : Nat
  /-- [63:48] CHECKER (R364). -/
  checker : Nat
  /-- [47:16] SYNDROME (R364). -/
  syndrome : BitVec 32
  /-- [15:14] CLASS (R364). -/
  cls : Nat
  /-- [13] FIRST (R364). -/
  first : Bool
  /-- [12] INJECTED (R364). -/
  injected : Bool
  /-- [11] CONSEQUENTIAL (R364). -/
  consequential : Bool
  /-- [10] PATH (R364). -/
  path : Bool
  /-- [9:7] MODE (R364). -/
  mode : Nat
  deriving DecidableEq, Repr

/-- `TarnRec` at reset. -/
def TarnRec.reset : TarnRec :=
  { time := 0,
    checker := 0,
    syndrome := 0#32,
    cls := 0,
    first := false,
    injected := false,
    consequential := false,
    path := false,
    mode := 0 }

/-- One journal record (R431). -/
structure JRec where
  /-- 8 bytes, INDEX (R431). -/
  index : Nat
  /-- 8 bytes, ENGINE_TIME, ns (R431). -/
  engineTime : Nat
  /-- 10 bytes, TB_TIME (R431). -/
  tbTime : Time80
  /-- 2 bytes, EPOCH16 (R431). -/
  epoch16 : Nat
  /-- 1 byte, KIND of R430 (R431). -/
  kind : Nat
  /-- 1 byte, INTERFACE (R431). -/
  iface : Nat
  /-- 1 byte, OPCODE (R431). -/
  opcode : Nat
  /-- 1 byte, STATUS (R431). -/
  status : Nat
  /-- 4 bytes, ADDRESS (R431). -/
  address : Nat
  /-- 4 bytes, SOURCE (R431). -/
  source : Nat
  /-- 2 bytes, SOURCE_PORT (R431). -/
  sourcePort : Nat
  /-- 1 byte, TYPE (R431). -/
  type : Nat
  /-- 1 byte, SIZE (R431). -/
  size : Nat
  /-- 10 bytes, OLD, right-aligned ([] stands for ten zero bytes) (R431). -/
  old : List (BitVec 8)
  /-- 10 bytes, NEW ([] stands for ten zero bytes) (R431). -/
  new : List (BitVec 8)
  deriving DecidableEq, Repr

/-- `JRec` at reset. -/
def JRec.reset : JRec :=
  { index := 0,
    engineTime := 0,
    tbTime := Time80.reset,
    epoch16 := 0,
    kind := 0,
    iface := 0,
    opcode := 0,
    status := 0,
    address := 0,
    source := 0,
    sourcePort := 0,
    type := 0,
    size := 0,
    old := [],
    new := [] }

/-- One cell of the Lantern model (R183). Frequencies are raw FREQ64 integers. -/
structure Cell where
  /-- U32, N, accepted samples (R183). -/
  n : Nat
  /-- I32, T̄, m°C (R183). -/
  tBar : Int
  /-- U32, P̄, mW (R183). -/
  pBar : Nat
  /-- FREQ64, v (R183). -/
  v : Int
  /-- I32, g_T, 0.001 ppt/K (R183). -/
  gT : Int
  /-- I32, g_P, 0.001 ppt/W (R183). -/
  gP : Int
  deriving DecidableEq, Repr

/-- `Cell` at reset. -/
def Cell.reset : Cell :=
  { n := 0,
    tBar := 0,
    pBar := 0,
    v := 0,
    gT := 0,
    gP := 0 }

/-- The learned model (R168, R172, R183). -/
structure Model where
  /-- U32, LN.001.0 LEARN_TIME, s (R188). -/
  learnTime : Nat
  /-- FREQ64, A (R168). -/
  a : Int
  /-- FREQ64 per day, B (R168). -/
  b : Int
  /-- U32, LN.001.4 RESID_TEMP, 10⁻¹⁵ (R188). -/
  rT : Nat
  /-- U32, LN.001.5 RESID_AGEING, 0.0001 ppb/day (R188). -/
  rA : Nat
  /-- 72 cells (LN.001.1–3 POPULATED, COVERAGE derive from them) (R169). -/
  cells : List Cell
  deriving DecidableEq, Repr

/-- `Model` at reset. -/
def Model.reset : Model :=
  { learnTime := 0,
    a := 0,
    b := 0,
    rT := 0,
    rA := 0,
    cells := List.replicate 72 Cell.reset }

/-- One band card slot (R200). -/
structure Card where
  /-- VALID (R200). -/
  valid : Bool
  /-- CORE, 0–3 (R200). -/
  core : Nat
  /-- FREQ_PLAN, mHz (R200). -/
  plan : Nat
  /-- BAND, 0–511 (R200). -/
  band : Nat
  /-- FINE, 0–4,095 (R200). -/
  fine : Nat
  /-- T_SEARCH, m°C (R200). -/
  tSearch : Int
  /-- AGE at the search, s (R200). -/
  age : Nat
  /-- SEARCH_TIME, µs (R200). -/
  searchTime : Nat
  /-- LAST_USED, s of powered age (R200). -/
  lastUsed : Nat
  deriving DecidableEq, Repr

/-- `Card` at reset. -/
def Card.reset : Card :=
  { valid := false,
    core := 0,
    plan := 0,
    band := 0,
    fine := 0,
    tSearch := 0,
    age := 0,
    searchTime := 0,
    lastUsed := 0 }

/-- One hold-up record (R94). -/
structure HoldupRec where
  /-- journal records not yet in NV (R94). -/
  journal : List JRec
  /-- the last agreed loop term of each channel (R94). -/
  loopTerms : List Rat
  /-- coefficients and coverage map (R94). -/
  model : Model
  /-- that model passes its check (R182). -/
  modelOk : Bool
  /-- AGE of that model, s (R182). -/
  age : Nat
  /-- OCXO temperature, m°C (R94). -/
  tOcxo : Int
  /-- load power, mW (R94). -/
  load : Nat
  /-- epoch of each timebase (R94). -/
  epochs : List Nat
  /-- time of each timebase, ns (R94). -/
  times : List Rat
  /-- engine monotonic count, ns (R94). -/
  count : Nat
  /-- copy of Tarn (R94). -/
  tarn : List TarnRec
  deriving DecidableEq, Repr

/-- `HoldupRec` at reset. -/
def HoldupRec.reset : HoldupRec :=
  { journal := [],
    loopTerms := [],
    model := Model.reset,
    modelOk := true,
    age := 0,
    tOcxo := 0,
    load := 0,
    epochs := [],
    times := [],
    count := 0,
    tarn := [] }

/-- One firmware slot (R429, R436). -/
structure FwSlot where
  /-- NV.010.3 field: 0 empty, 1 valid, 2 invalid, 3 being written (R436). -/
  state : Nat
  /-- NV.010.1/2 SLOTn_VERSION (R436). -/
  version : Nat
  /-- the image as stored (R429). -/
  image : List (BitVec 8)
  deriving DecidableEq, Repr

/-- `FwSlot` at reset. -/
def FwSlot.reset : FwSlot :=
  { state := 0,
    version := 0,
    image := [] }

/-- Factory data of this module (R5, R9, R98, R280). -/
structure Factory where
  /-- U32, SY.001.0 SERIAL (R98). -/
  serial : Nat
  /-- U16, SY.001.1 HW_REVISION (R98). -/
  hwRevision : Nat
  /-- U8, SY.001.4 OCXO_GRADE, 0x53 or 0x50 (R98). -/
  grade : Nat
  /-- U8, SY.001.5 BASEPLATE, 0x46 or 0x54 (R98). -/
  baseplate : Nat
  /-- U8, SY.001.6 CONFIG_IMAGE, 0–99 (R98). -/
  configImage : Nat
  /-- U64, PT.060.1 BASE_MAC, 48 bits (R280). -/
  baseMac : Nat
  /-- U64, PT.060.0 CLOCK_IDENTITY (R267, R280). -/
  clockIdentity : Nat
  /-- FREQ64, factory ageing coefficient A (R182, R184). -/
  modelA : Int
  /-- FREQ64 per day, factory ageing coefficient B (R182, R184). -/
  modelB : Int
  /-- auxiliary oscillator temperature curve, ppm per K from 25 °C (R164). -/
  auxCurve : Rat
  /-- a configuration image was preloaded and its FACTORY record is still to be made (R11). -/
  imagePreloaded : Bool
  deriving DecidableEq, Repr

/-- `Factory` at reset. -/
def Factory.reset : Factory :=
  { serial := 0,
    hwRevision := 0,
    grade := 0x53,
    baseplate := 0x46,
    configImage := 0,
    baseMac := 0,
    clockIdentity := 0,
    modelA := 0,
    modelB := 0,
    auxCurve := 0,
    imagePreloaded := false }

/-- One of the two copies of the stored configuration (R425). -/
structure CfgCopy where
  /-- its CRC-32 holds (R425). -/
  valid : Bool
  /-- U32 sequence number (R425). -/
  seq : Nat
  /-- the stored values (R425). -/
  cfg : Cfg
  deriving DecidableEq, Repr

/-- `CfgCopy` at reset. -/
def CfgCopy.reset : CfgCopy :=
  { valid := false,
    seq := 0,
    cfg := Cfg.reset }

/-- The nonvolatile store (R427). It survives the loss of power. -/
structure Nv where
  /-- factory data (R427). -/
  factory : Factory
  /-- stored configuration, first copy (R425). -/
  copyA : CfgCopy
  /-- stored configuration, second copy (R425). -/
  copyB : CfgCopy
  /-- Lantern model in the main store (R182). -/
  model : Option Model
  /-- AGE at the save of that model, s (R182). -/
  modelAge : Nat
  /-- band cards in NV (R199). -/
  cards : List Card
  /-- journal records in NV, oldest first (R432). -/
  journal : List JRec
  /-- INDEX of the next record since manufacture (R430). -/
  nextIndex : Nat
  /-- the two hold-up areas; none is erased (R94). -/
  holdup : List (Option HoldupRec)
  /-- area that the next write uses (R95). -/
  holdupArea : Nat
  /-- 0 never written, 1 last write completed, 2 not (R96). -/
  lastHoldup : Nat
  /-- time of each timebase at the last completed hold-up write, ns (R239). -/
  holdupTimes : List Rat
  /-- EPOCH of each timebase (R239). -/
  epochs : List (Option Nat)
  /-- U64, LN.001.7 AGE, powered age, s (R168). -/
  age : Nat
  /-- U32, SY.003.0 START_COUNT (R98). -/
  startCount : Nat
  /-- U32, PW.001.0 PFAIL_COUNT (R99). -/
  pfailCount : Nat
  /-- U32, PW.001.1 LOW_INPUT_COUNT (R99). -/
  lowInputCount : Nat
  /-- U32, PW.001.2 OVERVOLTAGE_COUNT (R99). -/
  overvoltCount : Nat
  /-- FC.030.0 LAST_SAFE_RECORD (R370). -/
  safeRecord : Option TarnRec
  /-- FC.030.1 LAST_SAFE_FIRST (R370). -/
  safeFirst : Option TarnRec
  /-- U32, FC.030.2 SAFE_ENTRIES (R382). -/
  safeEntries : Nat
  /-- the two firmware slots (R436). -/
  slots : List FwSlot
  /-- U8, NV.010.4 NEXT_SLOT (R436). -/
  nextSlot : Nat
  /-- U32, NV.000.3 STORE_COUNT (R435). -/
  storeCount : Nat
  /-- U16, NV.001.1 SPARE_BLOCKS (R435). -/
  spareBlocks : Nat
  /-- U64, NV.001.3 LAST_REFRESH, s (R435). -/
  lastRefresh : Nat
  /-- U32, NV.001.4 ERASE_MAX (R435). -/
  eraseMax : Nat
  deriving DecidableEq, Repr

/-- `Nv` at reset. -/
def Nv.reset : Nv :=
  { factory := Factory.reset,
    copyA := { CfgCopy.reset with valid := true },
    copyB := { CfgCopy.reset with valid := true },
    model := none,
    modelAge := 0,
    cards := List.replicate 64 Card.reset,
    journal := [],
    nextIndex := 0,
    holdup := [none, none],
    holdupArea := 0,
    lastHoldup := 0,
    holdupTimes := [],
    epochs := List.replicate 4 none,
    age := 0,
    startCount := 0,
    pfailCount := 0,
    lowInputCount := 0,
    overvoltCount := 0,
    safeRecord := none,
    safeFirst := none,
    safeEntries := 0,
    slots := [{ FwSlot.reset with state := 1 }, FwSlot.reset],
    nextSlot := 0,
    storeCount := 0,
    spareBlocks := 0,
    lastRefresh := 0,
    eraseMax := 0 }

/-- The running state of the NV commands. -/
structure NvCtl where
  /-- U8, NV.000.2 STORE_STATE (R435). -/
  storeState : Nat
  /-- operation in progress: (true for an erase, values to be written) (R425). -/
  storeOp : Option (Bool × Cfg)
  /-- U64, NV.000.4 LAST_STORE, ns (R435). -/
  lastStore : Nat
  /-- U32, NV.001.2 REFRESH_DUE (R435). -/
  refreshDue : Nat
  /-- level of event source 255 (R428, R434). -/
  attention : Bool
  /-- instant from which a band card write to NV is waiting (R199). -/
  cardsDirty : Option Nat
  /-- SAFE record waiting to be written (R370). -/
  safePending : Option (Option TarnRec × Option TarnRec)
  deriving DecidableEq, Repr

/-- `NvCtl` at reset. -/
def NvCtl.reset : NvCtl :=
  { storeState := 0,
    storeOp := none,
    lastStore := 0,
    refreshDue := 0,
    attention := false,
    cardsDirty := none,
    safePending := none }

/-- Power: supply state, measurements and the PFAIL sequence. -/
structure Pwr where
  /-- unpowered or on (R80, R96). -/
  supply : Supply
  /-- U32, PW.000.0 VIN, mV (R99). -/
  vin : Nat
  /-- U32, PW.000.1 IIN, mA (R99). -/
  iin : Nat
  /-- U32, PW.000.2 PIN, mW (R99). -/
  pin : Nat
  /-- U32, PW.000.3 LOAD_POWER, mW (R99). -/
  load : Nat
  /-- I32, PW.000.4 T_BASEPLATE, m°C (R99). -/
  tBase : Int
  /-- I32, PW.000.5 T_OCXO, m°C (R99). -/
  tOcxo : Int
  /-- U8, PW.000.6 PFAIL (R99). -/
  pfail : Bool
  /-- U16, PW.000.7 HOLDUP_EST, 0.1 ms (R99). -/
  holdupEst : Nat
  /-- instant of PFAIL set, engine count (R93). The model's own bookkeeping. -/
  pfailAt : Nat
  /-- the hold-up write of the present episode has completed (R95). -/
  writeDone : Bool
  /-- hold-up area waiting to be copied to the main store (R95). -/
  copyPending : Option Nat
  /-- U32, PW.001.3 HOLDUP_WRITE_TIME, µs (R99). -/
  holdupWriteTime : Nat
  /-- U8, PW.001.4 HOLDUP_WRITE_RESULT (R99). -/
  holdupWriteResult : Nat
  /-- level of event source 3 (R97). -/
  lowInput : Bool
  /-- level of event source 4 (R97). -/
  overVoltage : Bool
  /-- the input stage has disconnected above 80 V (R40). -/
  disconnected : Bool
  deriving DecidableEq, Repr

/-- `Pwr` at reset. -/
def Pwr.reset : Pwr :=
  { supply := .unpowered,
    vin := 0,
    iin := 0,
    pin := 0,
    load := 0,
    tBase := 0,
    tOcxo := 0,
    pfail := false,
    holdupEst := 0,
    pfailAt := 0,
    writeDone := false,
    copyPending := none,
    holdupWriteTime := 0,
    holdupWriteResult := 0,
    lowInput := false,
    overVoltage := false,
    disconnected := false }

/-- The engine clock (R17, R18). -/
structure Clk where
  /-- 64-bit engine monotonic count, ns (R18). -/
  count : Nat
  /-- the engine clock runs (R18). -/
  running : Bool
  deriving DecidableEq, Repr

/-- `Clk` at reset. -/
def Clk.reset : Clk :=
  { count := 0,
    running := false }

/-- An accepted SLEEP under way (R89). -/
structure SleepSeq where
  /-- the requester, answered at D (R89). -/
  req : Requester
  /-- the request as received, for its response at D (R89). -/
  frame : Frame
  /-- instant A (R89). -/
  atNs : Nat
  /-- instant D once the decision is taken (R89). -/
  decided : Option Nat
  /-- U8 argument of the command (R98). -/
  arg : Nat
  deriving DecidableEq, Repr

/-- `SleepSeq` at reset. -/
def SleepSeq.reset : SleepSeq :=
  { req := Requester.blank,
    frame := Frame.blank,
    atNs := 0,
    decided := none,
    arg := 0 }

/-- Device mode, start-up and sleep (R74 to R92). -/
structure Md where
  /-- SY.000.0 MODE (R98). -/
  mode : Mode
  /-- U8, SY.000.1 PREV_MODE (R98). -/
  prevMode : Nat
  /-- U64, SY.000.2 MODE_ENTRY, ns (R98). -/
  modeEntry : Nat
  /-- U8, SY.000.3 VOUCHING (R98). -/
  vouching : Bool
  /-- U8, SY.000.4 OVEN_READY (R98). -/
  ovenReady : Bool
  /-- U64, SY.000.5 OVEN_READY_AT, ns (R98). -/
  ovenReadyAt : Nat
  /-- U8, SY.000.6 OCXO_SUSPECT (R98). -/
  ocxoSuspect : Bool
  /-- U8, SY.001.3 FW_SLOT (R98). -/
  fwSlot : Nat
  /-- the MGT core runs its boot ROM (R84). -/
  bootRom : Bool
  /-- U32, SY.003.1 START_DURATION, µs (R98). -/
  startDuration : Nat
  /-- U8, SY.003.2 CONFIG_SOURCE (R98). -/
  configSource : Nat
  /-- U8, SY.003.3 LIMIT_SOURCE (R98). -/
  limitSource : Nat
  /-- U16, SY.003.4 BIST_FAILS (R98). -/
  bistFails : Nat
  /-- U8, SY.003.5 LAST_SHUTDOWN (R98). -/
  lastShutdown : Nat
  /-- 3 × U8, SY.003.6–8 LEVEL_J2, J3, J4 (R98). -/
  levels : List Nat
  /-- progress of the start-up sequence (R83). -/
  phase : Phase
  /-- t0, in engine count (may lie before 0), ns (R83). The model's own bookkeeping. -/
  startedAt : Int
  /-- instant at which the start-up hold ends (R85). The model's own bookkeeping. -/
  holdEnd : Nat
  /-- the stored Chimney limits passed their check at this start (R84). The model's own bookkeeping. -/
  limitsOk : Bool
  /-- U8, OU.200.3 SEALED, the seal latch (R35, R235). -/
  sealed : Bool
  /-- SLEEP under way (R89). -/
  sleep : Option SleepSeq
  /-- latched wake: cause of SY.011.6 and port of SY.011.7 (R89). -/
  wakeLatched : Option (Nat × Nat)
  /-- w0 of a wake under way (R91). -/
  waking : Option Nat
  /-- mode the module slept from (R81, R91). -/
  sleptFrom : Mode
  /-- U8, SY.011.6 LAST_WAKE_CAUSE (R98). -/
  lastWakeCause : Nat
  /-- U8, SY.011.7 LAST_WAKE_PORT (R98). -/
  lastWakePort : Nat
  /-- a qualifying high stands on WAKE (R56). -/
  wakePinHigh : Bool
  /-- a write of PRINCIPAL_TB has named a timebase in holdover in the cycle of another transition (R80, R81). The model's own bookkeeping. -/
  holdWaits : Bool
  /-- consecutive gross-frequency gates outside the window (R164). -/
  grossBad : Nat
  /-- consecutive fine-frequency gates outside the window (R164). -/
  fineBad : Nat
  deriving DecidableEq, Repr

/-- `Md` at reset. -/
def Md.reset : Md :=
  { mode := .startup,
    prevMode := 0,
    modeEntry := 0,
    vouching := false,
    ovenReady := false,
    ovenReadyAt := 0,
    ocxoSuspect := false,
    fwSlot := 0,
    bootRom := false,
    startDuration := 0,
    configSource := 0,
    limitSource := 0,
    bistFails := 0,
    lastShutdown := 0,
    levels := [0, 0, 0],
    phase := .off,
    startedAt := 0,
    holdEnd := 0,
    limitsOk := true,
    sealed := false,
    sleep := none,
    wakeLatched := none,
    waking := none,
    sleptFrom := .freerun,
    lastWakeCause := 0,
    lastWakePort := 0,
    wakePinHigh := false,
    holdWaits := false,
    grossBad := 0,
    fineBad := 0 }

/-- One open consequence mask (R360). -/
structure FMask where
  /-- the fenced unit (R359). The model's own bookkeeping. -/
  unit : FUnit
  /-- t_f, ns (R360). -/
  openedAt : Nat
  /-- class of the fault that opened it (R361). -/
  cls : Nat
  /-- checker identities declared dependent at the fence (R359). -/
  deps : List Nat
  /-- timebases whose PHY copy errors are dependent (R359). -/
  tbs : List Nat
  /-- affected synthesis cores, whose checkers are dependents (R360). -/
  cores : List Nat
  /-- checkers this mask holds unarmed (R362). -/
  held : List Nat
  deriving DecidableEq, Repr

/-- `FMask` at reset. -/
def FMask.reset : FMask :=
  { unit := .calendar,
    openedAt := 0,
    cls := 0,
    deps := [],
    tbs := [],
    cores := [],
    held := [] }

/-- An injection in progress (R372). -/
structure Injection where
  /-- checker identity (R372). -/
  checker : Nat
  /-- part of a SWEEP (R376). -/
  sweep : Bool
  deriving DecidableEq, Repr

/-- `Injection` at reset. -/
def Injection.reset : Injection :=
  { checker := 0,
    sweep := false }

/-- The fault collector (R350 to R382). -/
structure Fc where
  /-- up to 64 × 128 bits, FC.002.0 TARN, oldest first (R364). -/
  tarn : List TarnRec
  /-- U32, FC.000.2 TARN_OVERWRITTEN (R379). -/
  overwritten : Nat
  /-- FC.001.0 FIRST_EVENT (R365). -/
  firstEvent : Option TarnRec
  /-- U8, FC.000.0 WORST_CLASS (0xFF for none) (R379). -/
  worst : Option Nat
  /-- open consequence masks (FC.000.3 MASKS_OPEN) (R360). -/
  masks : List FMask
  /-- fenced units (FC.010.0–10) (R358, R380). -/
  fenced : List FUnit
  /-- checkers unarmed until power-up by a C3 error (R351). -/
  unarmed : List Nat
  /-- last recorded C0 report of each checker (R352). -/
  c0Last : List (Nat × Nat)
  /-- 4 × U32, FC.040.0–3 COUNT_C0 to COUNT_C3 (R382). -/
  countC : List Nat
  /-- U32, FC.040.4 COUNT_CONSEQUENTIAL (R382). -/
  countConseq : Nat
  /-- U32, FC.040.5 COUNT_PATH (R382). -/
  countPath : Nat
  /-- U32, FC.040.6 COUNT_INJECTED (R382). -/
  countInjected : Nat
  /-- U32, FC.040.7 C0_SUPPRESSED (R382). -/
  c0Suppressed : Nat
  /-- U32, FC.040.8 ECC_CORRECTED (R382). -/
  eccCorrected : Nat
  /-- injection in progress (R372). -/
  injecting : Option Injection
  /-- U8, FC.020.2 INJECT_RESULT (R381). -/
  injectResult : Nat
  /-- checkers still to be injected by the sweep (R376). -/
  sweepLeft : List Nat
  /-- engine count from which the sweep takes its next checker, one each millisecond (R376). -/
  sweepAt : Nat
  /-- U16, FC.020.5 SWEEP_DONE (R381). -/
  sweepDone : Nat
  /-- U16, FC.020.6 SWEEP_FAILED (R381). -/
  sweepFailed : Nat
  /-- the start-up injection port is active (R375). -/
  startPort : Bool
  deriving DecidableEq, Repr

/-- `Fc` at reset. -/
def Fc.reset : Fc :=
  { tarn := [],
    overwritten := 0,
    firstEvent := none,
    worst := none,
    masks := [],
    fenced := [],
    unarmed := [],
    c0Last := [],
    countC := [0, 0, 0, 0],
    countConseq := 0,
    countPath := 0,
    countInjected := 0,
    c0Suppressed := 0,
    eccCorrected := 0,
    injecting := none,
    injectResult := 0,
    sweepLeft := [],
    sweepAt := 0,
    sweepDone := 0,
    sweepFailed := 0,
    startPort := false }

/-- One event source (R386, R390, R395, R400). -/
structure Src where
  /-- EV.002.s STATE (R400). -/
  state : SrcState
  /-- 8-bit counter of a counting source (R390). -/
  counter : Nat
  /-- EV.003.s LEVEL_NOW (R400). -/
  level : Bool
  /-- U32, EV.004.s ARRIVALS (R400). -/
  arrivals : Nat
  /-- U16, EV.005.s VANISHED (R400). -/
  vanished : Nat
  /-- U64, EV.006.s LAST_AT, ns (R400). -/
  lastAt : Nat
  /-- U8, EV.007.s STICKY: [1] merged, [0] SATURATED (R400). -/
  sticky : BitVec 8
  /-- FIRST_AT of the delivery record being collected, ns (R395). -/
  heldFirst : Nat
  /-- ARRIVALS of that record, 0–255 (R395). -/
  heldCount : Nat
  /-- the source was LATCHED when it became HELD again (R398). The model's own bookkeeping. -/
  relatch : Bool
  deriving DecidableEq, Repr

/-- `Src` at reset. -/
def Src.reset : Src :=
  { state := .idle,
    counter := 0,
    level := false,
    arrivals := 0,
    vanished := 0,
    lastAt := 0,
    sticky := 0#8,
    heldFirst := 0,
    heldCount := 0,
    relatch := false }

/-- A delivery record (R395). -/
structure DRec where
  /-- [127:64] FIRST_AT (R395). -/
  firstAt : Nat
  /-- [63:32] SPAN (R395). -/
  span : Nat
  /-- [31:24] ARRIVALS (R395). -/
  arrivals : Nat
  /-- [17] LEVEL_NOW (R395). -/
  level : Bool
  /-- [16] FAST (R395). -/
  fast : Bool
  /-- [9:8] KIND (R395). -/
  kind : Nat
  /-- [7:0] SOURCE (R395). -/
  source : Nat
  deriving DecidableEq, Repr

/-- `DRec` at reset. -/
def DRec.reset : DRec :=
  { firstAt := 0,
    span := 0,
    arrivals := 0,
    level := false,
    fast := false,
    kind := 0,
    source := 0 }

/-- The controller's registers for one core (R387, R388, R401). -/
structure EvCore where
  /-- NORMAL source on the completion stack (R387). -/
  normal : Option Nat
  /-- FAST source on the completion stack (R387). -/
  fast : Option Nat
  /-- completion mode in force (R391). -/
  strict : Bool
  /-- U32, EV.01c.2 BAD_COMPLETIONS (R401). -/
  bad : Nat
  /-- U32, EV.01c.3 NESTED_CLAIMS (R401). -/
  nested : Nat
  /-- U32, EV.01c.4 NORMAL_CLAIMS (R401). -/
  normalClaims : Nat
  /-- U32, EV.01c.5 FAST_CLAIMS (R401). -/
  fastClaims : Nat
  /-- the word the last claim read returned (R389). The model's own bookkeeping. -/
  claimWord : BitVec 32
  deriving DecidableEq, Repr

/-- `EvCore` at reset. -/
def EvCore.reset : EvCore :=
  { normal := none,
    fast := none,
    strict := true,
    bad := 0,
    nested := 0,
    normalClaims := 0,
    fastClaims := 0,
    claimWord := 0#32 }

/-- The controller's state for HOST, ALERT_A or ALERT_B (R396 to R398, R402). -/
structure EvTarget where
  /-- COALESCE_COUNT in force (R402). -/
  count : Nat
  /-- COALESCE_TIME in force, µs (R402). -/
  time : Nat
  /-- ALERT_MODE in force (R402). -/
  alertMode : Nat
  /-- arrivals since the last delivery (R396). -/
  arrivals : Nat
  /-- of those, the arrivals a delivery has been decided for (R402). The model's own bookkeeping. -/
  seen : Nat
  /-- first of those arrivals, ns (R396). -/
  firstAt : Option Nat
  /-- a FAST arrival is among them (R396). -/
  fastSeen : Bool
  /-- U32, EV.02x.3 DELIVERIES (R402). -/
  deliveries : Nat
  /-- end of the FOLLOW-mode stretch, ns (R398). -/
  stretchEnd : Option Nat
  /-- level sources delivered in FOLLOW mode and still asserted (R398). -/
  followed : List Nat
  /-- U8, EV.02x.7 LINE (R402). -/
  line : Bool
  deriving DecidableEq, Repr

/-- `EvTarget` at reset. -/
def EvTarget.reset : EvTarget :=
  { count := 0,
    time := 0,
    alertMode := 0,
    arrivals := 0,
    seen := 0,
    firstAt := none,
    fastSeen := false,
    deliveries := 0,
    stretchEnd := none,
    followed := [],
    line := false }

/-- The event controller (R383 to R402). -/
structure Ev where
  /-- 256 sources (R400). -/
  src : List Src
  /-- MGT, STEER, MON (R401). -/
  cores : List EvCore
  /-- HOST, ALERT_A, ALERT_B (R402). -/
  targets : List EvTarget
  /-- U32, EV.020.4 HOST_DEFERRED (R402). -/
  hostDeferred : Nat
  /-- a due host delivery is being held back (R397). The model's own bookkeeping. -/
  deferring : Bool
  /-- deliveries queued in the MGT core, oldest first, up to 1,024 delivery records in all (R422). -/
  queue : List (List DRec)
  deriving DecidableEq, Repr

/-- `Ev` at reset. -/
def Ev.reset : Ev :=
  { src := List.replicate 256 Src.reset,
    cores := List.replicate 3 EvCore.reset,
    targets := List.replicate 3 EvTarget.reset,
    hostDeferred := 0,
    deferring := false,
    queue := [] }

/-- One Wellhead candidate (R112 to R127, R135). -/
structure Cand where
  /-- RF.040+i.0 STATE (R135). -/
  state : CandState
  /-- QUALIFYING was entered from DISQUALIFIED (R121). -/
  fromDisq : Bool
  /-- activity counter, 0 to ACT_THRESHOLD (R113). -/
  actCount : Nat
  /-- consecutive on-time edges toward the next run of 4 (R113). -/
  onTimeRun : Nat
  /-- RF.040+i.1 FAULTS[0] (R135). -/
  actFault : Bool
  /-- RF.040+i.1 FAULTS[1] (R135). -/
  freqFault : Bool
  /-- RF.040+i.1 FAULTS[2] (R135). -/
  driftFault : Bool
  /-- RF.040+i.2 STICKY (R135). -/
  sticky : BitVec 8
  /-- RF.040+i.3 RANK, effective rank; 15 in the reset state, before step 1 has given the derived rank, is the choice of log entry 131 (R127, R135). -/
  rank : Nat
  /-- better derived rank waiting, and since when (R127). -/
  improve : Option (Nat × Nat)
  /-- U32, RF.040+i.9 MISSING (R135). -/
  missing : Nat
  /-- U32, RF.040+i.10 EXTRA (R135). -/
  extra : Nat
  /-- U32, RF.040+i.11 DISQUALIFICATIONS (R135). -/
  disq : Nat
  /-- U64, RF.040+i.13 LAST_CHANGE, ns (R135). -/
  lastChange : Nat
  /-- start of the wait-to-restore timer (R121). -/
  wtrSince : Option Nat
  /-- anchor: the last on-time edge, ns (R115). -/
  anchor : Option Rat
  /-- active edges since the last watched edge (divider D of a CLK input) (R114). -/
  edgeDiv : Nat
  /-- cycle in which the candidate last became QUALIFIED from QUALIFYING, ns (R121). The model's own bookkeeping. -/
  qualifiedAt : Option Nat
  /-- last watched edge or last missing edge counted, ns (R114). -/
  lastWatch : Option Rat
  /-- watched edges since the windows started (R116). -/
  winCount : Nat
  /-- last watched edge of the windows, ns (R116). -/
  winLast : Option Rat
  /-- window marks (edge instant, edge count), newest first, one per second (R116). -/
  marks : List (Rat × Nat)
  /-- start mark of the running 100 s window (R116). -/
  mark100 : Option (Rat × Nat)
  /-- RF.040+i.4 OFFSET_1S, ppt (R135). -/
  y1 : Option Rat
  /-- RF.040+i.5 OFFSET_10S, ppt (R135). -/
  y10 : Option Rat
  /-- RF.040+i.6 OFFSET_100S, ppt (R135). -/
  y100 : Option Rat
  /-- drift samples (engine ns, ppt), newest first (R119). -/
  samples : List (Nat × Rat)
  /-- RF.040+i.7 DRIFT, ppt/h (R135). -/
  drift : Option Rat
  deriving DecidableEq, Repr

/-- `Cand` at reset. -/
def Cand.reset : Cand :=
  { state := .absent,
    fromDisq := false,
    actCount := 0,
    onTimeRun := 0,
    actFault := false,
    freqFault := false,
    driftFault := false,
    sticky := 0#8,
    rank := 15,
    improve := none,
    missing := 0,
    extra := 0,
    disq := 0,
    lastChange := 0,
    wtrSince := none,
    anchor := none,
    edgeDiv := 0,
    qualifiedAt := none,
    lastWatch := none,
    winCount := 0,
    winLast := none,
    marks := [],
    mark100 := none,
    y1 := none,
    y10 := none,
    y100 := none,
    samples := [],
    drift := none }

/-- A time sentence received for a labelled pulse (R108, R109). -/
structure GSent where
  /-- RMC rather than ZDA (R107). -/
  rmc : Bool
  /-- every field could be read and the time is a whole second (R108). -/
  valid : Bool
  /-- date and time of day with a two-digit year, on which sentences must agree (R109). The model's own bookkeeping. -/
  key : Nat
  /-- seconds since 1970-01-01 without leap seconds; second 60 takes the count of the next second (R109). -/
  utc : Nat
  /-- it was second 60 (R109). -/
  sec60 : Bool
  deriving DecidableEq, Repr

/-- `GSent` at reset. -/
def GSent.reset : GSent :=
  { rmc := false,
    valid := false,
    key := 0,
    utc := 0,
    sec60 := false }

/-- The GNSS time-message port and the judgement of labelled pulses (R107 to R111, R462). -/
structure Gnss where
  /-- U32, RF.031.0 SENTENCES_OK (R134). -/
  sentencesOk : Nat
  /-- U32, RF.031.1 CHECKSUM_ERRORS (R134). -/
  checksumErrors : Nat
  /-- U32, RF.031.2 LATE_SENTENCES (R134). -/
  late : Nat
  /-- U32, RF.031.3 INCONSISTENT (R134). -/
  inconsistent : Nat
  /-- U8, RF.031.4 FIX_RANK (R134). -/
  fixRank : Nat
  /-- TIME80, RF.031.5 LAST_UTC (R134). -/
  lastUtc : Time80
  /-- U32, RF.031.6 OVERLONG (R134). -/
  overlong : Nat
  /-- corrected instant of the last pulse of the source, ns (R108). -/
  pulseAt : Option Rat
  /-- that pulse has been judged (R462). -/
  judged : Bool
  /-- sentences received for the pulse being judged (R109). -/
  sents : List GSent
  /-- previous good labelled pulse: instant, UTC, second 60 (R109). -/
  prevGood : Option (Rat × Nat × Bool)
  /-- the pairing register: pulse instant and UTC (R109). -/
  pairing : Option (Rat × Nat)
  /-- last RMC sentence: 0 none since power-up, 1 valid fix, 2 estimated, 3 none of these (R110). -/
  fix : Nat
  /-- last labelled or missing pulse counted while the source is disabled, ns (R105). The model's own bookkeeping. -/
  countBase : Nat
  deriving DecidableEq, Repr

/-- `Gnss` at reset. -/
def Gnss.reset : Gnss :=
  { sentencesOk := 0,
    checksumErrors := 0,
    late := 0,
    inconsistent := 0,
    fixRank := 15,
    lastUtc := Time80.reset,
    overlong := 0,
    pulseAt := none,
    judged := true,
    sents := [],
    prevGood := none,
    pairing := none,
    fix := 0,
    countBase := 0 }

/-- One channel selector (R128 to R130). -/
structure Sel where
  /-- U8, RF.100+n.3 SELECTED (0xFF for none) (R136). -/
  selected : Option Nat
  /-- U32, RF.100+n.4 SWITCHES (R136). -/
  switches : Nat
  deriving DecidableEq, Repr

/-- `Sel` at reset. -/
def Sel.reset : Sel :=
  { selected := none,
    switches := 0 }

/-- Wellhead. -/
structure Rf where
  /-- 24 candidates (R100). -/
  cand : List Cand
  /-- GNSS0 (R134). -/
  gnss : Gnss
  /-- 8 selectors (R136). -/
  sel : List Sel
  /-- Wellhead has stopped at a sleep commit (R122). -/
  stopped : Bool
  deriving DecidableEq, Repr

/-- `Rf` at reset. -/
def Rf.reset : Rf :=
  { cand := List.replicate 24 Cand.reset,
    gnss := Gnss.reset,
    sel := List.replicate 8 Sel.reset,
    stopped := false }

/-- One DPLL channel with its DCO (R137 to R159, R190). -/
structure Chan where
  /-- DP.01n.0 STATE (R162). -/
  state : ChanState
  /-- U8, DP.01n.1 STEP (R162). -/
  step : Nat
  /-- place of that step in the effective schedule (R144). -/
  pos : Nat
  /-- U32, DP.01n.2 BANDWIDTH, 0.1 mHz (R162). -/
  bwNow : Nat
  /-- DCO phase since its last channel second, ns (R190). The model's own bookkeeping. -/
  phase : Rat
  /-- loop integrator, ppt (R141). -/
  integ : Rat
  /-- FREQ64, DP.01n.8 LOOP_TERM, ppt (R162). -/
  loopTerm : Rat
  /-- FREQ64, DP.01n.9 AGREED_TERM, ppt (R162). -/
  agreed : Rat
  /-- U0 toward which Lantern slews the loop term, ppt (R175). -/
  slewTo : Option Rat
  /-- I64, DP.01n.7 BUILDOUT, ps (R162). -/
  buildout : Rat
  /-- DP.01n.5 TAPER_GAP and DP.01n.6 TAPER_SLOPE_NOW (R162). -/
  taper : Taper
  /-- DCO phase since power-up, ns: t_dco of a cycle, and with G t_loop, follow from it (R137). -/
  cyc : Rat
  /-- candidate the channel tracks (R140). -/
  cand : Option Nat
  /-- active edges since the last phase-detector cycle (R138). -/
  pdDiv : Nat
  /-- I32, DP.01n.4 PHASE_ERROR, ps (R162). -/
  phaseErr : Option Rat
  /-- U32, DP.01n.10 PD_RATE, mHz (R162). -/
  pdRate : Nat
  /-- consecutive in-window cycles (R146). -/
  lockRun : Nat
  /-- the lock criterion holds (R146). -/
  crit : Bool
  /-- U8, DP.01n.3 IN_LOCK (R162). -/
  inLock : Bool
  /-- U8, DP.01n.11 STICKY (R162). -/
  sticky : BitVec 8
  /-- U32, DP.01n.12 LOCK_LOSSES (R162). -/
  lockLosses : Nat
  /-- U32, DP.01n.13 HOLDOVER_ENTRIES (R162). -/
  hoEntries : Nat
  /-- U64, DP.01n.14 LAST_CHANGE, ns (R162). -/
  lastChange : Nat
  /-- U8, DP.01n.15 ALIGNED (R162). -/
  aligned : Bool
  /-- first alignment: 0 none, 1 waiting for the edge of step 2, 2 for the edge of step 3, 3 for the next cycle of a CLK candidate (R157). The model's own bookkeeping. -/
  aligning : Nat
  /-- number of the last channel second (R190). The model's own bookkeeping. -/
  secNum : Int
  /-- instant of the last channel second, ns (R190). -/
  secAt : Option Rat
  /-- the aligned channel second waits for the time of day of its TIME candidate (R190). The model's own bookkeeping. -/
  relabel : Bool
  /-- the DCO word held in SAFE, ppt (R191). -/
  frozen : Option Rat
  /-- loop term summed over the running second, ppt times s (R174). -/
  secTerm : Rat
  /-- steering term summed over the running second, ppt times s (R171). -/
  secSteer : Rat
  /-- length of the running second so far, s (R174). -/
  secDur : Rat
  /-- LOCKED with IN_LOCK = 1 since the running second began (R174). -/
  secLocked : Bool
  /-- candidate selected since the running second began (R174). -/
  secCand : Option Nat
  deriving DecidableEq, Repr

/-- `Chan` at reset. -/
def Chan.reset : Chan :=
  { state := .idle,
    step := 0,
    pos := 0,
    bwNow := 0,
    phase := 0,
    integ := 0,
    loopTerm := 0,
    agreed := 0,
    slewTo := none,
    buildout := 0,
    taper := Taper.reset,
    cyc := 0,
    cand := none,
    pdDiv := 0,
    phaseErr := none,
    pdRate := 0,
    lockRun := 0,
    crit := false,
    inLock := false,
    sticky := 0#8,
    lockLosses := 0,
    hoEntries := 0,
    lastChange := 0,
    aligned := false,
    aligning := 0,
    secNum := -1,
    secAt := none,
    relabel := false,
    frozen := none,
    secTerm := 0,
    secSteer := 0,
    secDur := 0,
    secLocked := false,
    secCand := none }

/-- One record of the holdover history (R174). -/
structure HistRec where
  /-- engine count, ns (R174). -/
  atNs : Nat
  /-- mean loop term, ppt (R174). -/
  term : Rat
  /-- candidate index (R174). -/
  cand : Option Nat
  /-- LOCKED with IN_LOCK = 1 throughout the second (R174). -/
  locked : Bool
  /-- mean steering term, ppt (R171). -/
  steer : Rat
  /-- T, m°C (R174). -/
  t : Rat
  /-- P, mW (R174). -/
  p : Rat
  /-- not marked invalid by an ECC error (R354). -/
  ok : Bool
  deriving DecidableEq, Repr

/-- `HistRec` at reset. -/
def HistRec.reset : HistRec :=
  { atNs := 0,
    term := 0,
    cand := none,
    locked := false,
    steer := 0,
    t := 0,
    p := 0,
    ok := true }

/-- Lantern's registers for one channel (R174 to R181, R189). -/
structure Ho where
  /-- FREQ64 raw, LN.01n.0 STEERING (R189). -/
  steering : Int
  /-- U8, LN.01n.2 HO_CONDITIONS (LN.01n.1 HO_QUALITY derives from it) (R189). -/
  conditions : BitVec 8
  /-- U32, LN.01n.3 BOUND, ns (R189). -/
  bound : Nat
  /-- FREQ64, LN.01n.4 START_TERM, ppt (R189). -/
  u0 : Rat
  /-- FREQ64, LN.01n.5 MODEL_TERM, ppt (R189). -/
  m : Rat
  /-- U64, LN.01n.6 HO_ENTRY, ns (R189). -/
  h0 : Nat
  /-- U32, LN.01n.7 START_UNCERT, U_y, 10⁻¹⁵ (R189). -/
  uy : Rat
  /-- U8, LN.01n.8 CLAMPED (R189). -/
  clamped : Bool
  /-- the word lies at the clamp now (R166). -/
  clampNow : Bool
  /-- reference value F_0, ppt (R173, R174). -/
  f0 : Rat
  /-- V_T, in units of (10⁻¹⁵)² s² (R179). -/
  vT : Rat
  /-- E0, ns (R179). -/
  e0 : Rat
  /-- BOUND has exceeded VOUCH_LIMIT in this episode (R185). -/
  overLim : Bool
  /-- history of the last 12,288 s, newest first (R174). -/
  hist : List HistRec
  deriving DecidableEq, Repr

/-- `Ho` at reset. -/
def Ho.reset : Ho :=
  { steering := 0,
    conditions := 0#8,
    bound := 0,
    u0 := 0,
    m := 0,
    h0 := 0,
    uy := 0,
    clamped := false,
    clampNow := false,
    f0 := 0,
    vT := 0,
    e0 := 0,
    overLim := false,
    hist := [] }

/-- A learning sample waiting out the quarantine (R171). -/
structure LSample where
  /-- engine count, ns (R171). -/
  atNs : Nat
  /-- candidate (R171). -/
  cand : Nat
  /-- de-aged F, ppt (R171). -/
  f : Rat
  /-- T, m°C (R171). -/
  t : Rat
  /-- P, mW (R171). -/
  p : Rat
  deriving DecidableEq, Repr

/-- `LSample` at reset. -/
def LSample.reset : LSample :=
  { atNs := 0,
    cand := 0,
    f := 0,
    t := 0,
    p := 0 }

/-- Sums over the samples of a cell (R172). -/
structure LSum where
  /-- sum of T, m°C (R172). -/
  t : Rat
  /-- sum of P, mW (R172). -/
  p : Rat
  /-- sum of de-aged F, ppt (R172). -/
  f : Rat
  deriving DecidableEq, Repr

/-- `LSum` at reset. -/
def LSum.reset : LSum :=
  { t := 0,
    p := 0,
    f := 0 }

/-- The samples of one hour that fell into one cell (R172). -/
structure LHour where
  /-- hour of the engine count in which the samples were taken (R172). -/
  hour : Nat
  /-- cell (R172). -/
  cell : Nat
  /-- samples (R172). -/
  n : Nat
  /-- their sums (R172). -/
  sum : LSum
  deriving DecidableEq, Repr

/-- `LHour` at reset. -/
def LHour.reset : LHour :=
  { hour := 0,
    cell := 0,
    n := 0,
    sum := LSum.reset }

/-- Lantern (R164 to R189). -/
structure Ln where
  /-- the committed model (R172). -/
  model : Model
  /-- the STEER core's shadow copy with the samples admitted since the last refit (R172). -/
  work : Model
  /-- U32, LN.001.8 MODEL_COMMITS (R188). -/
  commits : Nat
  /-- I32, LN.001.9 T_INTERNAL, m°C; none until the first reading (R167). -/
  tInt : Option Rat
  /-- U32, LN.001.10 P_INTERNAL, mW; none until the first reading (R167). -/
  pInt : Option Rat
  /-- FREQ64, LN.001.12 OCXO_OFFSET, ppt (R188). -/
  f : Rat
  /-- the last evaluation was extrapolated (R170). -/
  extrap : Bool
  /-- the last evaluation was unmodelled (R170). -/
  unmod : Bool
  /-- LN.010–LN.017 (R189). -/
  ho : List Ho
  /-- sums over the samples of each cell (R172). -/
  sums : List LSum
  /-- sums over the samples of each hour in each cell, newest first, for the hourly means of the residuals (R172). -/
  hours : List LHour
  /-- the conditions of a learning sample have held since the last sample (R171). -/
  secLearn : Bool
  /-- samples in quarantine, oldest first (R171). -/
  waiting : List LSample
  deriving DecidableEq, Repr

/-- `Ln` at reset. -/
def Ln.reset : Ln :=
  { model := Model.reset,
    work := Model.reset,
    commits := 0,
    tInt := none,
    pInt := none,
    f := 0,
    extrap := false,
    unmod := false,
    ho := List.replicate 8 Ho.reset,
    sums := List.replicate 72 LSum.reset,
    hours := [],
    secLearn := false,
    waiting := [] }

/-- A retune under way (R202). -/
structure Retune where
  /-- c0, ns (R202). -/
  c0 : Nat
  /-- s0, ns (R202). -/
  s0 : Option Nat
  /-- the band card loaded for this retune (R197). -/
  card : Option Card
  /-- a card failed and a full search runs (R198). -/
  cardFailed : Bool
  deriving DecidableEq, Repr

/-- `Retune` at reset. -/
def Retune.reset : Retune :=
  { c0 := 0,
    s0 := none,
    card := none,
    cardFailed := false }

/-- One synthesis core (R192 to R203, R230). -/
structure Syn where
  /-- SN.01c.0 STATE (R230). -/
  state : SynState
  /-- U64, SN.01c.1 PLAN_ACTIVE, mHz (R230). -/
  plan : Nat
  /-- U8, SN.01c.2 CHANNEL_ACTIVE (R230). -/
  channel : Nat
  /-- U16, SN.01c.3 BAND (R230). -/
  band : Nat
  /-- U16, SN.01c.4 FINE (R230). -/
  fine : Nat
  /-- U32, SN.01c.5 LAST_GAP, µs (R230). -/
  lastGap : Nat
  /-- U8, SN.01c.6 LAST_METHOD (R230). -/
  lastMethod : Nat
  /-- U32, SN.01c.7 RELOCKS (R230). -/
  relocks : Nat
  /-- U32, SN.01c.8 CARD_HITS (R230). -/
  cardHits : Nat
  /-- retune under way (R202). -/
  retune : Option Retune
  deriving DecidableEq, Repr

/-- `Syn` at reset. -/
def Syn.reset : Syn :=
  { state := .disabled,
    plan := 0,
    channel := 0,
    band := 0,
    fine := 0,
    lastGap := 0,
    lastMethod := 0,
    relocks := 0,
    cardHits := 0,
    retune := none }

/-- The synthesis cores and commits. -/
structure Sn where
  /-- SN0–SN3 (R230). -/
  core : List Syn
  /-- the 64 band card slots in engine SRAM (R199). -/
  cards : List Card
  /-- U8, SN.020.3 COMMIT_STATE (R231). -/
  commitState : Nat
  /-- armed commit: boundary, its timebase or output, second of the timebase at the arming (R208). -/
  armed : Option (Nat × Nat × Int)
  /-- the shadows as they stood before the writes that completed in the present cycle: that cycle, cores, outputs (R32). -/
  cut : Option (Nat × List CfgSn × List CfgOu)
  /-- U64, SN.020.4 LAST_COMMIT, ns (R231). -/
  lastCommit : Nat
  deriving DecidableEq, Repr

/-- `Sn` at reset. -/
def Sn.reset : Sn :=
  { core := List.replicate 4 Syn.reset,
    cards := List.replicate 64 Card.reset,
    commitState := 0,
    armed := none,
    cut := none,
    lastCommit := 0 }

/-- Spread-spectrum modulation in force on one output (R215, R216). -/
structure Spread where
  /-- SSC_MODE in force, 1 down, 2 centre (R215). -/
  mode : Nat
  /-- SSC_DEPTH in force, 0.01 % (R215). -/
  depth : Nat
  /-- SSC_RATE in force, Hz (R215). -/
  rate : Nat
  /-- DCO phase at which a modulation cycle starts, ns (R216). -/
  since : Rat
  deriving DecidableEq, Repr

/-- `Spread` at reset. -/
def Spread.reset : Spread :=
  { mode := 0,
    depth := 0,
    rate := 0,
    since := 0 }

/-- One clock output behind Chimney (R204 to R223, R233). -/
structure Out where
  /-- OU.040+n.0 STATE (R233). -/
  state : OutState
  /-- the active copies of R207 (R207). -/
  active : Divider
  /-- spread in force (OU.040+n.1 FLAGS[2]) (R216). -/
  ssc : Option Spread
  /-- OU.040+n.1 FLAGS[3], FREERUN (R218). -/
  freerun : Bool
  /-- FLAGS[0], window gate closed (R221). -/
  winClosed : Bool
  /-- FLAGS[1], slew gate closed (R223). -/
  slewClosed : Bool
  /-- since when both frequency tests pass, ns (R222). -/
  winGood : Option Nat
  /-- since when both slew tests pass, ns (R222). -/
  slewGood : Option Nat
  /-- U64, OU.040+n.3 MEASURED_FREQ, µHz (R233). -/
  measured : Nat
  /-- I32, OU.040+n.4 SLEW_NOW, ns/s (R233). -/
  slewNow : Int
  /-- U32, OU.040+n.5 SQUELCHES (R233). -/
  squelches : Nat
  /-- U8, OU.040+n.6 STICKY (R233). -/
  sticky : BitVec 8
  /-- U64, OU.040+n.7 LAST_CHANGE, ns (R233). -/
  lastChange : Nat
  /-- grid origin of a frequency-only output, DCO phase of its channel, ns (R210). -/
  origin : Rat
  /-- the output has started since power-up: its conductors are driven (R60). -/
  started : Bool
  /-- first rising edge of the pulses in progress, DCO phase, ns; none while stopped (R212). -/
  rise : Option Rat
  /-- end of the last high phase before a stop or a commit, DCO phase, ns (R211, R212). -/
  fall : Option Rat
  /-- AMPLITUDE before the last write and the DCO phase of the edge at which the write acts (R214). -/
  ampWas : Option (Nat × Rat)
  /-- phase move of a time-carrying output (R213). -/
  move : Taper
  deriving DecidableEq, Repr

/-- `Out` at reset. -/
def Out.reset : Out :=
  { state := .off,
    active := Divider.reset,
    ssc := none,
    freerun := false,
    winClosed := false,
    slewClosed := false,
    winGood := none,
    slewGood := none,
    measured := 0,
    slewNow := 0,
    squelches := 0,
    sticky := 0#8,
    lastChange := 0,
    origin := 0,
    started := false,
    rise := none,
    fall := none,
    ampWas := none,
    move := Taper.reset }

/-- One trigger output behind Chimney (R224, R333). -/
structure Trg where
  /-- U32, OU.140+n.2 WITHHELD (R235). -/
  withheld : Nat
  /-- rising edges passed in the last second, newest first, ns (R224). -/
  rises : List Nat
  /-- level latch (bit n of SC.2048.7 LATCHES) (R333). -/
  latch : Bool
  /-- the latch's rising edge was passed by Chimney (R224). -/
  latchPassed : Bool
  /-- latest end of the pulses in progress, ns (R333). -/
  pulseEnd : Option Nat
  /-- the pulse in progress was passed by Chimney (R224). -/
  pulsePassed : Bool
  /-- level of TRGn (R333). -/
  pin : Bool
  deriving DecidableEq, Repr

/-- `Trg` at reset. -/
def Trg.reset : Trg :=
  { withheld := 0,
    rises := [],
    latch := false,
    latchPassed := false,
    pulseEnd := none,
    pulsePassed := false,
    pin := false }

/-- Outputs, triggers and the global gates of Chimney. -/
structure Ou where
  /-- OUT0–OUT31 (R233). -/
  out : List Out
  /-- TRG0–TRG47 (R235). -/
  trg : List Trg
  /-- later of the seal and the last heartbeat refresh, ns (R225). -/
  heartbeatAt : Nat
  /-- OU.200.2 GATES_CLOSED[0] (R235). -/
  heartbeatClosed : Bool
  /-- U32, OU.200.1 HEARTBEAT_LAPSES (R235). -/
  heartbeatLapses : Nat
  /-- OU.200.2 GATES_CLOSED[1] (R235). -/
  vouchClosed : Bool
  deriving DecidableEq, Repr

/-- `Ou` at reset. -/
def Ou.reset : Ou :=
  { out := List.replicate 32 Out.reset,
    trg := List.replicate 48 Trg.reset,
    heartbeatAt := 0,
    heartbeatClosed := false,
    heartbeatLapses := 0,
    vouchClosed := false }

/-- What a timebase was until a change of its epoch or its state, kept for stamps that lie before the change (R285, R287). -/
structure TbPast where
  /-- cycle of the change, engine ns (R285). -/
  ended : Nat
  /-- counter value that the old epoch had in that cycle, ns (R285). -/
  now : Rat
  /-- counter value at the start of the old epoch, ns (R286). -/
  base : Rat
  /-- the old EPOCH (R287). -/
  epoch : Nat
  /-- the old state (R287). -/
  state : TbState
  deriving DecidableEq, Repr

/-- `TbPast` at reset. -/
def TbPast.reset : TbPast :=
  { ended := 0,
    now := 0,
    base := 0,
    epoch := 0,
    state := .unset }

/-- One timebase (R236 to R260, R275). -/
structure Tb where
  /-- U8, TB.03n.0 STATE (R275). -/
  state : TbState
  /-- U8, TB.03n.1 ACTIVE_DOMAIN (0xFF for none) (R275). -/
  active : Option Nat
  /-- U32, TB.03n.2 EPOCH (R239, R275). -/
  epoch : Nat
  /-- 48.30.16 counter with its 48 hidden bits, ns (TB.03n.3 TIME_NOW, TB.03n.4 TIME_FRAC) (R236). -/
  now : Rat
  /-- counter value at the start of the epoch, ns (for NS32) (R286). The model's own bookkeeping. -/
  base : Rat
  /-- FREQ64, TB.03n.6 RATE_FREQ, frequency term, ppt (R275). -/
  cF : Rat
  /-- phase term path: TB.03n.7 TAPER_GAP, TB.03n.8 TAPER_SLOPE_NOW (R255, R275). -/
  taper : Taper
  /-- proportional term of the last servo update, which bounds the phase term, ppt; none while no update bounds it (R255). -/
  prop : Option Rat
  /-- TB.03n.12 FLAGS[0] CLAMPED (R275). -/
  clamped : Bool
  /-- I64, TB.03n.9 LAST_STEP, ns (R275). -/
  lastStep : Int
  /-- U64, TB.03n.10 LAST_STEP_AT, ns (R275). -/
  lastStepAt : Nat
  /-- U32, TB.03n.11 SWITCHES (R275). -/
  switches : Nat
  /-- U64, TB.03n.13 LAST_CHANGE, ns (R275). -/
  lastChange : Nat
  /-- the domain a pending re-step names (R242). -/
  restep : Option Nat
  /-- U8, TB.03n.14 RESTEP_STATE (R275). -/
  restepState : Nat
  /-- domain chosen for the first step, waiting for its next estimate (R241). -/
  stepFrom : Option Nat
  /-- each change of c_f within the longest HOLD_AVG, newest first (engine ns, ppt) (R258). -/
  cfHist : List (Nat × Rat)
  /-- last estimate accepted from the active domain, engine ns (R258). -/
  lastEst : Option Nat
  /-- TRACKING at some time since the last start (R75). -/
  tracked : Bool
  /-- LOCAL: label of the last channel second, s (R247). -/
  label : Option Nat
  /-- LOCAL: label written for the next channel second, s (R247). -/
  labelNext : Option Nat
  /-- the UTC registers in force (R245). -/
  utc : Utc
  /-- the leap second the engine applied last: its LEAP value, the offset in force before it and its LEAP_AT (R245). The model's own bookkeeping. -/
  leapDone : Option (Nat × Int × Time80)
  /-- changes of the last 2 µs, newest first (R285). The model's own bookkeeping. -/
  past : List TbPast
  /-- c held while the timebase is fenced or after the sleep commit, ppt (R259). -/
  frozenC : Option Rat
  deriving DecidableEq, Repr

/-- `Tb` at reset. -/
def Tb.reset : Tb :=
  { state := .unset,
    active := none,
    epoch := 0,
    now := 0,
    base := 0,
    cF := 0,
    taper := Taper.reset,
    prop := none,
    clamped := false,
    lastStep := 0,
    lastStepAt := 0,
    switches := 0,
    lastChange := 0,
    restep := none,
    restepState := 0,
    stepFrom := none,
    cfHist := [],
    lastEst := none,
    tracked := false,
    label := none,
    labelNext := none,
    utc := Utc.reset,
    leapDone := none,
    past := [],
    frozenC := none }

/-- One time domain instance i = 2 tb + d (R247 to R252, R276). -/
structure Dom where
  /-- U8, TB.04i.0 STATE (R276). -/
  state : DomState
  /-- U8, TB.04i.1 DISC_LATCH (R276). -/
  latch : Bool
  /-- I64, TB.04i.2 OFFSET, ps (0x8000_0000_0000_0000 for none) (R276). -/
  theta : Option Rat
  /-- U8, TB.04i.3 RANK (R276). -/
  rank : Nat
  /-- better PTP rank waiting, and since when, ns (R252). -/
  rankWait : Option (Nat × Nat)
  /-- I64, TB.04i.4 STEP_SIZE, ns (R276). -/
  stepSize : Int
  /-- U32, TB.04i.5 OUTLIERS (R276). -/
  outliers : Nat
  /-- U32, TB.04i.6 DISCONTINUITIES (R276). -/
  disconts : Nat
  /-- U64, TB.04i.7 LAST_CHANGE, ns (R276). -/
  lastChange : Nat
  /-- accepted estimates of the last QUAL_TIME, newest first (engine ns, θ ps) (R250). -/
  est : List (Rat × Rat)
  /-- estimate from which the qualification time runs, ns (R250). -/
  qualSince : Option Rat
  /-- residuals of the present run above DISC_THRESHOLD, newest first, ps (R250). -/
  run : List Rat
  /-- consecutive estimates within DISC_THRESHOLD while DISCONTINUOUS (R250). -/
  backRun : Nat
  /-- instant of the Sync receipt timeout, ns (R247). -/
  syncDue : Option Nat
  /-- Announce receipt timeout of the instance's LISTENING ports, ns (R247). -/
  annDue : Option Nat
  /-- gmTimeBaseIndicator last received, 16 bits (R266). -/
  gmInd : Option Nat
  /-- whole second of the master-time estimate last given as a DOMAIN edge (R106). The model's own bookkeeping. -/
  edgeSec : Option Int
  deriving DecidableEq, Repr

/-- `Dom` at reset. -/
def Dom.reset : Dom :=
  { state := .off,
    latch := false,
    theta := none,
    rank := 15,
    rankWait := none,
    stepSize := 0,
    outliers := 0,
    disconts := 0,
    lastChange := 0,
    est := [],
    qualSince := none,
    run := [],
    backRun := 0,
    syncDue := none,
    annDue := none,
    gmInd := none,
    edgeSec := none }

/-- A two-step Sync waiting for its Follow_Up (R249). -/
structure SyncWait where
  /-- port (R249). -/
  port : Nat
  /-- 16 bits, sequenceId (R249). -/
  seqId : Nat
  /-- receive stamp of the PHY copy, timebase ns (R249). -/
  rx : Rat
  /-- correctionField, ns (R249). -/
  corr : Rat
  /-- engine count of the reception, ns (R248). The model's own bookkeeping. -/
  atNs : Nat
  deriving DecidableEq, Repr

/-- `SyncWait` at reset. -/
def SyncWait.reset : SyncWait :=
  { port := 0,
    seqId := 0,
    rx := 0,
    corr := 0,
    atNs := 0 }

/-- The last Announce of the master on a port (R263). -/
structure Foreign where
  /-- port (R263). -/
  port : Nat
  /-- its receipt timeout, ns (R247). -/
  due : Nat
  /-- clockIdentity of the sender (R263). -/
  sender : Nat
  /-- portNumber of the sender (R263). -/
  senderPort : Nat
  /-- dataset (R265). -/
  data : Dataset
  deriving DecidableEq, Repr

/-- `Foreign` at reset. -/
def Foreign.reset : Foreign :=
  { port := 0,
    due := 0,
    sender := 0,
    senderPort := 0,
    data := Dataset.unreceived }

/-- One PTP instance (R261 to R266, R280). GM_IDENTITY, GM_CLOCK_CLASS and the rest derive from the parent dataset as stated. -/
structure PtpInst where
  /-- port and dataset of the best master accepted (R261, R265). -/
  parent : Option (Nat × Dataset)
  /-- last Announce of each port (R263). -/
  foreign : List Foreign
  /-- U64, PT.05i.0 GM_IDENTITY (R280). -/
  gmIdentity : Nat
  /-- U8, PT.05i.1 GM_CLOCK_CLASS (R280). -/
  gmClass : Nat
  /-- U16, PT.05i.2 STEPS_REMOVED (R280). -/
  steps : Nat
  /-- U8, PT.05i.4 ADV_CLOCK_CLASS (R280). -/
  advClass : Nat
  /-- U8, PT.05i.5 ADV_ACCURACY (R280). -/
  advAcc : Nat
  /-- clockClass of the last Announce accepted since power-up (R125). -/
  annClass : Option Nat
  /-- I16, PT.05i.6 RX_UTC_OFFSET (R280). -/
  rxUtcOffset : Int
  /-- U32, PT.05i.7 GM_CHANGES (R280). -/
  gmChanges : Nat
  /-- Sync waiting for its Follow_Up (R249). -/
  wait : Option SyncWait
  /-- t1 (corrected) and t2 of the last Sync, timebase ns (R249). -/
  t1t2 : Option (Rat × Rat)
  /-- Delay_Req outstanding: port, sequenceId, t3 (R249). -/
  delayReq : Option (Nat × Nat × Rat)
  /-- meanPathDelay, ns (R249). -/
  meanPath : Rat
  /-- cumulative rate ratio received − 1, ppt (R249). -/
  rateRatio : Rat
  /-- next sequenceId of Announce, Sync and Delay_Req (R265). -/
  seqs : List Nat
  /-- priority1 in force (R279). -/
  prio1 : Nat
  /-- priority2 in force (R279). -/
  prio2 : Nat
  /-- precise origin time of the last Sync, and its correctionField with the upstream path delay, ns, for the time-aware relay (R263). -/
  relay : Option (Rat × Rat)
  /-- lastGmPhaseChange last received, 2⁻¹⁶ ns (R266). -/
  gmPhase : Int
  /-- residence of the two-step Syncs forwarded whose Follow_Up has not come: ingress port, sender, its port, sequenceId, ns (R264). -/
  residences : List (Nat × Nat × Nat × Nat × Rat)
  deriving DecidableEq, Repr

/-- `PtpInst` at reset. -/
def PtpInst.reset : PtpInst :=
  { parent := none,
    foreign := [],
    gmIdentity := 0,
    gmClass := 255,
    steps := 0,
    advClass := 248,
    advAcc := 0xFE,
    annClass := none,
    rxUtcOffset := 0,
    gmChanges := 0,
    wait := none,
    t1t2 := none,
    delayReq := none,
    meanPath := 0,
    rateRatio := 0,
    seqs := [0, 0, 0],
    prio1 := 246,
    prio2 := 128,
    relay := none,
    gmPhase := 0,
    residences := [] }

/-- One Ethernet port (R67, R263 to R269, R278). -/
structure Port where
  /-- U8, PT.020+n.0 LINK (R278). -/
  link : Bool
  /-- U32, PT.020+n.1 LINK_CHANGES (R278). -/
  linkChanges : Nat
  /-- measured link delay of the peer delay mechanism, ps (PT.020+n.2 LINK_DELAY) (R278). -/
  linkDelay : Rat
  /-- FREQ64, PT.020+n.3 NEIGHBOR_RATE, ppt (R278). -/
  neighborRate : Rat
  /-- U32, PT.020+n.4 SUPPRESSED (R278). -/
  suppressed : Nat
  /-- U32, PT.020+n.5 RX_DISCARDED (R278). -/
  rxDiscarded : Nat
  /-- 8 × U8, PT.020+n.8–15 PORT_STATE (R278). -/
  states : List PortState
  /-- Pdelay_Req outstanding: instance, sequenceId, t1 (R269). -/
  pdelay : Option (Nat × Nat × Rat)
  /-- t3 and t4 of each instance's exchange before, for the neighbour rate (R269). -/
  pdelayPrev : List (Option (Rat × Rat))
  /-- next Pdelay_Req sequenceId (R269). -/
  pdelaySeq : Nat
  /-- next instant at which a message may be sent: instance, kind (0 Announce, 1 Sync, 2 Delay_Req, 3 Pdelay_Req), ns (R279). -/
  txDue : List (Nat × Nat × Nat)
  /-- deviation of the PHY's copies of TB0–TB3 from the engine's counters, ns; 0 after a re-alignment (R25). -/
  copies : List Rat
  /-- the port sleeps under TC10 (R69). -/
  asleep : Bool
  deriving DecidableEq, Repr

/-- `Port` at reset. -/
def Port.reset : Port :=
  { link := false,
    linkChanges := 0,
    linkDelay := 0,
    neighborRate := 0,
    suppressed := 0,
    rxDiscarded := 0,
    states := List.replicate 8 .disabled,
    pdelay := none,
    pdelayPrev := List.replicate 8 none,
    pdelaySeq := 0,
    txDue := [],
    copies := List.replicate 4 0,
    asleep := false }

/-- The Ethernet ports, the PTP instances and the switch. -/
structure Pt where
  /-- P0–P13 (R278). -/
  port : List Port
  /-- PTP instances 0–7 (R280). -/
  inst : List PtpInst
  /-- layer 2 addresses learned by the switch (MAC address, port) (R4). The model's own bookkeeping. -/
  learned : List (Nat × Nat)
  deriving DecidableEq, Repr

/-- `Pt` at reset. -/
def Pt.reset : Pt :=
  { port := List.replicate 14 Port.reset,
    inst := List.replicate 8 PtpInst.reset,
    learned := [] }

/-- A capture record waiting in its input's FIFO (R286, R292). -/
structure FifoRec where
  /-- stamp, engine time ns (R292). -/
  stamp : Rat
  /-- the record, SEQ not yet given (R286). -/
  word : BitVec 96
  deriving DecidableEq, Repr

/-- `FifoRec` at reset. -/
def FifoRec.reset : FifoRec :=
  { stamp := 0,
    word := 0#96 }

/-- One timestamp input (R281 to R292, R308). -/
structure Tsi where
  /-- U64, TS.100+n.0 CAPTURED (R308). -/
  captured : Nat
  /-- U32, TS.100+n.1 LOST (R308). -/
  lost : Nat
  /-- U32, TS.100+n.2 STALE (R308). -/
  stale : Nat
  /-- U32, TS.100+n.3 OUTSIDE_WINDOW (R308). -/
  outside : Nat
  /-- U8, TS.100+n.4 FIFO_PEAK (R308). -/
  fifoPeak : Nat
  /-- U8, TS.100+n.5 STICKY (R308). -/
  sticky : BitVec 8
  /-- 16-deep FIFO, oldest first (R290). -/
  fifo : List FifoRec
  /-- stamps that passed TO_RING and GATING since the count started (R284). -/
  dec : Nat
  /-- the next record carries LOST (R292). -/
  lostFlag : Bool
  /-- first calibration table of each interpolator complete (R282). -/
  tables : List Bool
  /-- interpolator that stamps the input (R282). -/
  stamping : Nat
  /-- last stamped edge at the pin, ns (R281). The model's own bookkeeping. -/
  lastEdge : Option Rat
  deriving DecidableEq, Repr

/-- `Tsi` at reset. -/
def Tsi.reset : Tsi :=
  { captured := 0,
    lost := 0,
    stale := 0,
    outside := 0,
    fifoPeak := 0,
    sticky := 0#8,
    fifo := [],
    dec := 0,
    lostFlag := false,
    tables := [false, false],
    stamping := 0,
    lastEdge := none }

/-- The open capture stream (R421, R423). -/
structure Stream where
  /-- port of the latest SUBSCRIBE (NV.030.5 STREAM_PORT) (R421). -/
  iface : Nat
  /-- IPv4 source address of the host (R421). -/
  source : Nat
  /-- UDP source port of the host (R421). -/
  sport : Nat
  /-- MAC address of the host (R403). -/
  mac : Nat
  /-- protocol version of the SUBSCRIBE (R409). -/
  version : Nat
  /-- end of the lease, ns (R421). -/
  ends : Nat
  /-- SEQ of the next packet (R423). -/
  seq : Nat
  deriving DecidableEq, Repr

/-- `Stream` at reset. -/
def Stream.reset : Stream :=
  { iface := 0,
    source := 0,
    sport := 0,
    mac := 0,
    version := 1,
    ends := 0,
    seq := 0 }

/-- An anchor waiting in its queue (R288, R293). -/
structure Anchor where
  /-- head record, SEQ not yet given (R288). -/
  head : BitVec 96
  /-- tail record, SEQ not yet given (R288). -/
  tail : BitVec 96
  /-- a periodic anchor (R293). -/
  periodic : Bool
  deriving DecidableEq, Repr

/-- `Anchor` at reset. -/
def Anchor.reset : Anchor :=
  { head := 0#96,
    tail := 0#96,
    periodic := true }

/-- The timestamp inputs and the capture ring (R281 to R297, R309). -/
structure Ts where
  /-- TSI0–TSI63 (R308). -/
  inp : List Tsi
  /-- input of each bank served last (0–7) (R290). -/
  served : List Nat
  /-- inputs still to be served in the present round (R290). -/
  round : List Nat
  /-- 16,384 records with the instant each entered, oldest first (TS.200.0 RING_FILL) (R292). -/
  ring : List (Nat × BitVec 96)
  /-- U16, TS.200.1 RING_PEAK (R309). -/
  peak : Nat
  /-- U16, TS.200.2 NEXT_SEQ (R309). -/
  nextSeq : Nat
  /-- U32, TS.200.3 ANCHORS_DROPPED (R309). -/
  anchorsDropped : Nat
  /-- U32, TS.200.4 MARKERS_LOST (R309). -/
  markersLost : Nat
  /-- U64, TS.200.5 STREAMED (R309). -/
  streamed : Nat
  /-- the open stream (R421). -/
  stream : Option Stream
  /-- anchor queue of four for each timebase (R293). -/
  anchors : List (List Anchor)
  /-- marker queue of 16 (R293). -/
  markers : List (BitVec 96)
  /-- seconds field of each timebase at its last periodic anchor (R288). The model's own bookkeeping. -/
  tbSec : List Int
  deriving DecidableEq, Repr

/-- `Ts` at reset. -/
def Ts.reset : Ts :=
  { inp := List.replicate 64 Tsi.reset,
    served := List.replicate 8 7,
    round := [],
    ring := [],
    peak := 0,
    nextSeq := 0,
    anchorsDropped := 0,
    markersLost := 0,
    streamed := 0,
    stream := none,
    anchors := List.replicate 4 [],
    markers := [],
    tbSec := List.replicate 4 0 }

/-- One interval and frequency channel (R298 to R304, R311). Times are kept in ns; the elements read them in units of 2⁻¹⁶ ns. -/
structure Tc where
  /-- U8, TC.020+k.0 STATUS (R311). -/
  status : Nat
  /-- U32, TC.020+k.1 GATES (R311). -/
  gates : Nat
  /-- U8, TC.020+k.2 FLAGS (R311). -/
  flags : BitVec 8
  /-- U64, TC.020+k.3 GATE_END, ns (R311). -/
  gateEnd : Nat
  /-- U32, TC.020+k.4 COUNT (R311). -/
  count : Nat
  /-- I64, TC.020+k.5 MEAN, ns (R311). -/
  mean : Rat
  /-- U64, TC.020+k.6 STDDEV, 2⁻¹⁶ ns (R311). -/
  stddev : Nat
  /-- I64, TC.020+k.7 MIN, ns (R311). -/
  min : Rat
  /-- I64, TC.020+k.8 MAX, ns (R311). -/
  max : Rat
  /-- I64, TC.020+k.9 LAST, ns (R311). -/
  last : Rat
  /-- U8, TC.020+k.10 LAST_FLAGS (R311). -/
  lastFlags : BitVec 8
  /-- U32, TC.020+k.11 REVERSED_COUNT (R311). -/
  reversed : Nat
  /-- U32, TC.020+k.12 SUBRES_COUNT (R311). -/
  subres : Nat
  /-- U32, TC.020+k.13 EARLY_STOPS (R311). -/
  early : Nat
  /-- U32, TC.020+k.14 UNPAIRED_STARTS (R311). -/
  unpaired : Nat
  /-- U64, TC.020+k.15 FREQ, kept in Hz and read in µHz (R311). -/
  freq : Rat
  /-- FREQ64, TC.020+k.16 OFFSET, ppt (R311). -/
  offset : Rat
  /-- U32, TC.020+k.17 RESIDUAL_RMS, 2⁻¹⁶ ns (R311). -/
  rms : Nat
  /-- U32, TC.020+k.18 DECIMATION (R311). -/
  decimation : Nat
  /-- start of the first gate since the channel started, engine time ns (R298). -/
  began : Rat
  /-- start of the running gate, engine time ns (R298). -/
  gate : Option Rat
  /-- OVEN_READY was clear at some instant of the gate (R300). -/
  warming : Bool
  /-- edges waiting out 200 ns (stamp ns, true for a start), in stamp order, starts first (R301). -/
  waiting : List (Rat × Bool)
  /-- open start, ns (R302). -/
  start : Option Rat
  /-- held stop, ns (R302). -/
  stop : Option Rat
  /-- results of the gate, newest first (later stamp ns, result ns, flags) (R302). -/
  results : List (Rat × Rat × BitVec 8)
  /-- early stops in the gate (R303). -/
  earlyNow : Nat
  /-- unpaired starts in the gate (R303). -/
  unpairedNow : Nat
  /-- stamps kept in FREQUENCY mode, newest first, ns (R304). -/
  stamps : List Rat
  /-- D of the running gate (R304). -/
  dNow : Nat
  /-- edges of the gate in FREQUENCY mode (R304). -/
  edgeCount : Nat
  /-- a continuous channel waits for the end of a wake to start a new gate (R299). -/
  resume : Bool
  deriving DecidableEq, Repr

/-- `Tc` at reset. -/
def Tc.reset : Tc :=
  { status := 0,
    gates := 0,
    flags := 0#8,
    gateEnd := 0,
    count := 0,
    mean := 0,
    stddev := 0,
    min := 0,
    max := 0,
    last := 0,
    lastFlags := 0#8,
    reversed := 0,
    subres := 0,
    early := 0,
    unpaired := 0,
    freq := 0,
    offset := 0,
    rms := 0,
    decimation := 0,
    began := 0,
    gate := none,
    warming := false,
    waiting := [],
    start := none,
    stop := none,
    results := [],
    earlyNow := 0,
    unpairedNow := 0,
    stamps := [],
    dNow := 1,
    edgeCount := 0,
    resume := false }

/-- One axis (R312 to R320, R342). A time axis reads its timebase; the fields of axes 0–3 other than sticky stay unused. -/
structure Axis where
  /-- U8, AX.010+a.0 STATE (R342). -/
  state : AxisState
  /-- position of the last counted edge, axis units (AX.010+a.1 POSITION derives) (R316). -/
  xe : Rat
  /-- t_e, instant from which the estimate runs: the last counted edge, or a later setting of the position, ns (R316). -/
  te : Nat
  /-- instant of the last counted edge, ns (R319). -/
  countedAt : Nat
  /-- I64, AX.010+a.2 VELOCITY, axis units per s (R342). -/
  v : Rat
  /-- the estimate extrapolates between counted edges (R319). -/
  extrap : Bool
  /-- U64, AX.010+a.3 EDGES (R342). -/
  edges : Nat
  /-- U32, AX.010+a.4 INDEX_ERRORS (R342). -/
  indexErrors : Nat
  /-- U32, AX.010+a.5 ILLEGAL (R342). -/
  illegal : Nat
  /-- U32, AX.010+a.6 STALLS (R342). -/
  stalls : Nat
  /-- U8, AX.010+a.7 DIRECTION (R342). -/
  backward : Bool
  /-- U64, AX.010+a.8 LAST_INDEX, ns (R342). -/
  lastIndex : Nat
  /-- U64, AX.010+a.9 LAST_CHANGE, ns (R342). -/
  lastChange : Nat
  /-- U8, AX.010+a.10 STICKY (R342). -/
  sticky : BitVec 8
  /-- signed counts since the previous index edge (R317). -/
  sinceIndex : Option Int
  /-- integrator of the velocity loop, axis units per s (R316). -/
  integ : Rat
  /-- position held while the axis does not count (STALLED, FENCED or stopped), axis units (R319). -/
  hold : Option Rat
  /-- the next counted edge gives no interval (R319). The model's own bookkeeping. -/
  fresh : Bool
  deriving DecidableEq, Repr

/-- `Axis` at reset. -/
def Axis.reset : Axis :=
  { state := .off,
    xe := 0,
    te := 0,
    countedAt := 0,
    v := 0,
    extrap := false,
    edges := 0,
    indexErrors := 0,
    illegal := 0,
    stalls := 0,
    backward := false,
    lastIndex := 0,
    lastChange := 0,
    sticky := 0#8,
    sinceIndex := none,
    integ := 0,
    hold := none,
    fresh := true }

/-- One calendar action's running state (R322 to R330, R345). -/
structure Act where
  /-- U8, SC.1024+a.0 STATUS (R345). -/
  status : ActState
  /-- U64, SC.1024+a.1 NEXT_TARGET, T (R345). -/
  next : BitVec 64
  /-- U32, SC.1024+a.2 REMAINING (R345). -/
  remaining : Nat
  /-- U32, SC.1024+a.3 FIRES (R345). -/
  fires : Nat
  /-- U32, SC.1024+a.4 LATE_COUNT (R345). -/
  lateCount : Nat
  /-- U32, SC.1024+a.5 SKIPPED (R345). -/
  skipped : Nat
  /-- U64, SC.1024+a.6 LAST_FIRE, ns (R345). -/
  lastFire : Nat
  /-- I64, SC.1024+a.7 LAST_LATENESS (R345). -/
  lastLateness : Int
  /-- U8, SC.1024+a.8 LAST_FLAGS (R345). -/
  lastFlags : BitVec 8
  /-- instant at which the arming takes effect, ns; none once it has (R326). -/
  effectAt : Option Nat
  /-- FIRE_LATE: the occurrence fires with LATE when it next may (R327). -/
  fireLate : Bool
  /-- sign of D when the arming took effect (R322). -/
  armSign : Int
  /-- servo lead L in force for the armed occurrence, ns (R322, R339). -/
  lead : Nat
  /-- due beyond the 64 of its cycle and waiting (R323). -/
  delayed : Bool
  deriving DecidableEq, Repr

/-- `Act` at reset. -/
def Act.reset : Act :=
  { status := .empty,
    next := 0#64,
    remaining := 0,
    fires := 0,
    lateCount := 0,
    skipped := 0,
    lastFire := 0,
    lastLateness := 0,
    lastFlags := 0#8,
    effectAt := none,
    fireLate := false,
    armSign := 0,
    lead := 0,
    delayed := false }

/-- An open frame of a servo slot (R338). -/
structure SvFrame where
  /-- t_fire, ns (R338). -/
  fire : Nat
  /-- the occurrence's target (R338). -/
  target : BitVec 64
  /-- t_target, ns (R338). -/
  tTarget : Option Rat
  /-- s, ns (R338). -/
  s : Option Rat
  /-- f, ns, where t_target is still awaited (R338). -/
  f : Option Rat
  deriving DecidableEq, Repr

/-- `SvFrame` at reset. -/
def SvFrame.reset : SvFrame :=
  { fire := 0,
    target := 0#64,
    tTarget := none,
    s := none,
    f := none }

/-- One exposure-centroid servo slot (R337 to R339, R349). -/
structure Servo where
  /-- U32, SC.2100+k.0 LEAD, ns (R349). -/
  lead : Nat
  /-- I32, SC.2100+k.1 LAST_ERROR, ns (R349). -/
  lastError : Int
  /-- U32, SC.2100+k.2 LAST_EXPOSURE, ns (R349). -/
  lastExposure : Nat
  /-- U32, SC.2100+k.3 FRAMES (R349). -/
  frames : Nat
  /-- U32, SC.2100+k.4 MISSES (R349). -/
  misses : Nat
  /-- U32, SC.2100+k.5 CLAMPS (R349). -/
  clamps : Nat
  /-- U32, SC.2100+k.6 STRAY (R349). -/
  stray : Nat
  /-- the open frames, oldest first (R338). -/
  live : List SvFrame
  deriving DecidableEq, Repr

/-- `Servo` at reset. -/
def Servo.reset : Servo :=
  { lead := 0,
    lastError := 0,
    lastExposure := 0,
    frames := 0,
    misses := 0,
    clamps := 0,
    stray := 0,
    live := [] }

/-- One capture window (R335). -/
structure Win where
  /-- bit n of SC.2048.6 WINDOWS_OPEN (R335, R346). -/
  isOpen : Bool
  /-- latest pending end, ns (R335). -/
  ends : Option Nat
  /-- openings and closings of the last 2 µs, newest first: the cycle, and whether it was open before (R335). The model's own bookkeeping. -/
  past : List (Nat × Bool)
  deriving DecidableEq, Repr

/-- `Win` at reset. -/
def Win.reset : Win :=
  { isOpen := false,
    ends := none,
    past := [] }

/-- The calendar, the capture windows and the servo (R321 to R349). -/
structure Sc where
  /-- actions 0–1023 (R345). -/
  act : List Act
  /-- SV0–SV47 (R349). -/
  servo : List Servo
  /-- capture windows of TSI0–TSI63 (R335). -/
  win : List Win
  /-- U16, SC.2048.3 LAST_STATUS_ACTION (R346). -/
  lastStatus : Nat
  /-- U32, SC.2048.4 OVERRUNS (R346). -/
  overruns : Nat
  /-- cycle in which the calendar last fired, ns (R323). The model's own bookkeeping. -/
  firedAt : Nat
  /-- actions fired in that cycle (R323). The model's own bookkeeping. -/
  fired : Nat
  /-- the calendar and the trackers are stopped by the sleep commit (R320, R332). -/
  stopped : Bool
  deriving DecidableEq, Repr

/-- `Sc` at reset. -/
def Sc.reset : Sc :=
  { act := List.replicate 1024 Act.reset,
    servo := List.replicate 48 Servo.reset,
    win := List.replicate 64 Win.reset,
    lastStatus := 0,
    overruns := 0,
    firedAt := 0,
    fired := 0,
    stopped := false }

/-- One kept response (R410). -/
structure CacheEnt where
  /-- instant of the response, ns (R410). -/
  atNs : Nat
  /-- interface: 0 Ethernet, 0x40 CAN0, 0x41 CAN1 (R403). -/
  iface : Nat
  /-- host address or number (R403). -/
  source : Nat
  /-- UDP source port (R403). -/
  sport : Nat
  /-- the request's header and payload (R410). -/
  request : Frame
  /-- VERSION of the request (R410). -/
  reqVersion : Nat
  /-- SEQ of the request (R410). -/
  seq : Nat
  /-- status of the response (R410). -/
  status : Nat
  /-- VERSION of the response (R409). -/
  rversion : Nat
  /-- payload of the response (R410). -/
  payload : List (BitVec 8)
  deriving DecidableEq, Repr

/-- `CacheEnt` at reset. -/
def CacheEnt.reset : CacheEnt :=
  { atNs := 0,
    iface := 0,
    source := 0,
    sport := 0,
    request := Frame.blank,
    reqVersion := 1,
    seq := 0,
    status := 0,
    rversion := 1,
    payload := [] }

/-- A write transfer open (R419). -/
structure WXfer where
  /-- interface (R419). -/
  iface : Nat
  /-- host (R419). -/
  source : Nat
  /-- UDP source port (R419). -/
  sport : Nat
  /-- ADDRESS (R419). -/
  address : Nat
  /-- last accepted segment (R419). -/
  lastSeg : Nat
  /-- instant of that segment, ns (R419). -/
  atNs : Nat
  /-- data assembled so far (R419). -/
  data : List (BitVec 8)
  deriving DecidableEq, Repr

/-- `WXfer` at reset. -/
def WXfer.reset : WXfer :=
  { iface := 0,
    source := 0,
    sport := 0,
    address := 0,
    lastSeg := 0,
    atNs := 0,
    data := [] }

/-- A read transfer open (R420). -/
structure RXfer where
  /-- interface (R420). -/
  iface : Nat
  /-- host (R420). -/
  source : Nat
  /-- UDP source port (R420). -/
  sport : Nat
  /-- ADDRESS (R420). -/
  address : Nat
  /-- last segment served (R420). -/
  lastSeg : Nat
  /-- instant of its request, ns (R420). -/
  atNs : Nat
  /-- snapshot (R420). -/
  data : List (BitVec 8)
  deriving DecidableEq, Repr

/-- `RXfer` at reset. -/
def RXfer.reset : RXfer :=
  { iface := 0,
    source := 0,
    sport := 0,
    address := 0,
    lastSeg := 0,
    atNs := 0,
    data := [] }

/-- One event subscription (R421, R422). -/
structure Sub where
  /-- the subscriber as its last SUBSCRIBE named it (R421). -/
  req : Requester
  /-- source mask (R421). -/
  mask : BitVec 256
  /-- end of the lease, ns (R421). -/
  ends : Nat
  /-- SEQ of the next event packet (R422). -/
  seq : Nat
  deriving DecidableEq, Repr

/-- `Sub` at reset. -/
def Sub.reset : Sub :=
  { req := Requester.blank,
    mask := 0#256,
    ends := 0,
    seq := 0 }

/-- A request handed to another core and not yet confirmed (R461). -/
structure Relay where
  /-- requester (R461). -/
  req : Requester
  /-- the request as received, for its response (R461). -/
  frame : Frame
  /-- core that must confirm: 1 STEER, 2 MON (R461). -/
  core : Nat
  /-- instant of the handing over, ns (R461). -/
  since : Nat
  deriving DecidableEq, Repr

/-- `Relay` at reset. -/
def Relay.reset : Relay :=
  { req := Requester.blank,
    frame := Frame.blank,
    core := 0,
    since := 0 }

/-- The Dvorim Object Protocol server (R403 to R423, R437, R438). -/
structure Dop where
  /-- NV.020 and NV.021 values in force since the last start (R437). -/
  active : CfgNv
  /-- U32, NV.020.3 ADDRESS_IN_USE (R437). -/
  addressInUse : Nat
  /-- the last 64 responses, newest first (R410). -/
  cache : List CacheEnt
  /-- write transfers open (R419). -/
  wx : List WXfer
  /-- read transfers open, at most 4 (R420). -/
  rx : List RXfer
  /-- event subscriptions, at most 8 (NV.030.4 SUBSCRIPTIONS) (R421). -/
  subs : List Sub
  /-- requests that hold a place of the 32-entry request queue (R405, R461). -/
  relays : List Relay
  /-- U32, NV.030.0 REQUESTS (R438). -/
  requests : Nat
  /-- U32, NV.030.1 DISCARDED_FRAMES (R438). -/
  discarded : Nat
  /-- U32, NV.030.2 QUEUE_DROPS (R438). -/
  queueDrops : Nat
  /-- U32, NV.030.3 CACHED_REPLIES (R438). -/
  cachedReplies : Nat
  /-- U32, NV.030.6 EVENT_PACKETS (R438). -/
  eventPackets : Nat
  deriving DecidableEq, Repr

/-- `Dop` at reset. -/
def Dop.reset : Dop :=
  { active := CfgNv.reset,
    addressInUse := 0,
    cache := [],
    wx := [],
    rx := [],
    subs := [],
    relays := [],
    requests := 0,
    discarded := 0,
    queueDrops := 0,
    cachedReplies := 0,
    eventPackets := 0 }

/-- The change journal (R430 to R433, R439). -/
structure Jr where
  /-- up to 8,192 kept records, oldest first (R430). -/
  recs : List JRec
  /-- U64, JR.000.3 NEXT_INDEX (R439). -/
  next : Nat
  /-- U16, JR.000.4 UNFLUSHED: newest records not yet in NV (R439). -/
  unflushed : Nat
  deriving DecidableEq, Repr

/-- `Jr` at reset. -/
def Jr.reset : Jr :=
  { recs := [],
    next := 0,
    unflushed := 0 }

/-- Processor SRAM (R30), as canonical byte lists; the model gives data meaning to writes of the MPU rule only. -/
structure Sram where
  /-- MGT, STEER, MON private regions and the mailbox, laid out in R30's table order (R30). -/
  mem : List Host.Cell
  deriving DecidableEq, Repr

/-- `Sram` at reset. -/
def Sram.reset : Sram :=
  { mem := [] }

/-- Pins that the module drives (R57, R72). -/
structure Pins where
  /-- MODE[2:0] (R57). -/
  mode : BitVec 3
  /-- HOLD (R79). -/
  hold : Bool
  /-- LOCK0–LOCK7 (R57). -/
  lock : BitVec 8
  /-- BEACON runs (false: parked low) (R73). -/
  beacon : Bool
  /-- engine instant at which the high phase in progress ends after BEACON has stopped or re-timed, ns (R77, R243). -/
  beaconTo : Option Rat
  /-- engine instant of the last rising edge before a re-timing, ns (R243). -/
  beaconLast : Option Rat
  /-- engine instant of the first rising edge since BEACON started or re-timed, ns (R73). -/
  beaconFrom : Nat
  /-- ALERT_A (R57). -/
  alertA : Bool
  /-- ALERT_B (R57). -/
  alertB : Bool
  /-- PFAIL_OUT conducts (false: released) (R42). -/
  pfailOut : Bool
  /-- TRG0–TRG47 (R50). -/
  trg : BitVec 48
  /-- LDA_MON duty cycle, 0.01 % (R150). -/
  ldaDuty : Nat
  /-- level of DBG_TX, idle high (R64, R72). -/
  dbgTx : Bool
  deriving DecidableEq, Repr

/-- `Pins` at reset. -/
def Pins.reset : Pins :=
  { mode := 0#3,
    hold := false,
    lock := 0#8,
    beacon := false,
    beaconTo := none,
    beaconLast := none,
    beaconFrom := 0,
    alertA := false,
    alertB := false,
    pfailOut := false,
    trg := 0#48,
    ldaDuty := 0,
    dbgTx := false }

/-- The boundary-scan port of J10 (R64, R65). -/
structure Tap where
  /-- state of the test access port's controller, held in reset while TRST_N is open (R64, R65). -/
  ctl : TapState
  /-- instruction in force: BYPASS, IDCODE or SAMPLE (R65). -/
  instr : ScanInstr
  /-- instruction shift register, the bit nearest TDO first (R65). -/
  ir : List Bool
  /-- data register selected, the bit nearest TDO first (R65). -/
  dr : List Bool
  deriving DecidableEq, Repr

/-- `Tap` at reset. -/
def Tap.reset : Tap :=
  { ctl := .testLogicReset,
    instr := .idcode,
    ir := [],
    dr := [] }


/-- The whole module. -/
structure State where
  /-- commands waiting, first in first out. The model's own bookkeeping. -/
  pending : List Instr
  /-- configuration in RAM (R425). -/
  cfg : Cfg
  /-- nonvolatile store (R427). -/
  nv : Nv
  /-- running state of the NV commands (R435). -/
  nvc : NvCtl
  /-- power (R99). -/
  pwr : Pwr
  /-- engine clock (R18). -/
  clk : Clk
  /-- device mode, start-up, sleep (R98). -/
  md : Md
  /-- MGT, STEER and MON cores: off, running, halted, stopped or fenced (R33, R356). -/
  cores : List CoreState
  /-- instant at which each core stopped executing, for its watchdog, ns (R353). -/
  stoppedAt : List (Option Nat)
  /-- fault collector (R379). -/
  fc : Fc
  /-- event controller (R400). -/
  ev : Ev
  /-- Wellhead (R135). -/
  rf : Rf
  /-- DP0–DP7 (R162). -/
  dp : List Chan
  /-- Lantern (R188). -/
  ln : Ln
  /-- synthesis cores (R230). -/
  sn : Sn
  /-- outputs, triggers, Chimney (R233). -/
  ou : Ou
  /-- TB0–TB3 (R275). -/
  tb : List Tb
  /-- domain instances 0–7 (R276). -/
  dom : List Dom
  /-- ports and PTP instances (R278). -/
  pt : Pt
  /-- timestamp inputs, ring, streamer (R308). -/
  ts : Ts
  /-- TC0–TC15 (R311). -/
  tc : List Tc
  /-- axes 0–7 (R342). -/
  ax : List Axis
  /-- calendar, windows, servo (R345). -/
  sc : Sc
  /-- object protocol (R438). -/
  dop : Dop
  /-- journal (R439). -/
  jr : Jr
  /-- processor SRAM (R30). -/
  sram : Sram
  /-- driven pins (R57). -/
  pins : Pins
  /-- boundary-scan port (R65). -/
  tap : Tap
  /-- frames the module sent during the present command (R403). The model's own bookkeeping. -/
  tx : List Tx
  /-- the model's own counter of free values. The model's own bookkeeping. -/
  free : Nat
  deriving DecidableEq, Repr

/-- `State` at reset. -/
def State.reset : State :=
  { pending := [],
    cfg := Cfg.reset,
    nv := Nv.reset,
    nvc := NvCtl.reset,
    pwr := Pwr.reset,
    clk := Clk.reset,
    md := Md.reset,
    cores := List.replicate 3 .off,
    stoppedAt := List.replicate 3 none,
    fc := Fc.reset,
    ev := Ev.reset,
    rf := Rf.reset,
    dp := List.replicate 8 Chan.reset,
    ln := Ln.reset,
    sn := Sn.reset,
    ou := Ou.reset,
    tb := List.replicate 4 Tb.reset,
    dom := List.replicate 8 Dom.reset,
    pt := Pt.reset,
    ts := Ts.reset,
    tc := List.replicate 16 Tc.reset,
    ax := List.replicate 8 Axis.reset,
    sc := Sc.reset,
    dop := Dop.reset,
    jr := Jr.reset,
    sram := Sram.reset,
    pins := Pins.reset,
    tap := Tap.reset,
    tx := [],
    free := 0 }

/-- Why a step stops with a fault. -/
inductive Fault where
  /-- CHECKER_ERROR or PATH_FAULT names an identity under which R353 says no checker exists: such a report cannot occur.
  Raised by the meanings of those two commands. Safe: the model stops. -/
  | noSuchChecker
  deriving DecidableEq, Repr

/-- Why a step is refused. -/
inductive Refusal where
  /-- The command named has no meaning in the model. Raised by `exec` alone. Safe: the model stops. -/
  | notModelled (mnemonic : String)
  deriving DecidableEq, Repr

end Sys2Proof.Machine
end

