-- ==== Sys2Proof/Machine/Ops.lean ====
section
/-! DEFINITION. What every command shares: the passing of engine time, the rates of DCOs and timebases, axis positions. -/

namespace Sys2Proof.Machine

/-! ## Codes -/

/-- Mode code of R74. -/
def Mode.code : Mode → Nat
  | .startup => 1 | .standby => 2 | .freerun => 3 | .tracking => 4 | .holdover => 5 | .safe => 6

/-- Timebase state code of R275. -/
def TbState.code : TbState → Nat
  | .unset => 0 | .tracking => 1 | .holdover => 2 | .fenced => 3

/-! ## Accessors -/

/-- Channel n. -/
abbrev State.chan (s : State) (n : Nat) : Chan := nth s.dp n Chan.reset
/-- Lantern's registers of channel n. -/
abbrev State.hov (s : State) (n : Nat) : Ho := nth s.ln.ho n Ho.reset
/-- Timebase n. -/
abbrev State.tbs (s : State) (n : Nat) : Tb := nth s.tb n Tb.reset
/-- Domain instance i. -/
abbrev State.domi (s : State) (i : Nat) : Dom := nth s.dom i Dom.reset
/-- Candidate i. -/
abbrev State.cand (s : State) (i : Nat) : Cand := nth s.rf.cand i Cand.reset
/-- Core c, 0 MGT, 1 STEER, 2 MON. -/
abbrev State.core (s : State) (c : Nat) : CoreState := nth s.cores c .off
/-- Written configuration of channel n. -/
abbrev Cfg.chan (c : Cfg) (n : Nat) : CfgDp := nth c.dp n CfgDp.reset
/-- Written configuration of timebase n. -/
abbrev Cfg.tbs (c : Cfg) (n : Nat) : CfgTb := nth c.tb n CfgTb.reset
/-- Written configuration of domain i. -/
abbrev Cfg.domi (c : Cfg) (i : Nat) : CfgDom := nth c.dom i CfgDom.reset
/-- Written configuration of axis AXIk. -/
abbrev Cfg.axi (c : Cfg) (k : Nat) : CfgAx := nth c.ax k CfgAx.reset
/-- Written configuration of action a. -/
abbrev Cfg.action (c : Cfg) (a : Nat) : CfgAct := nth c.act a CfgAct.reset

/-- True while a unit is fenced (R358). -/
abbrev State.isFenced (s : State) (u : FUnit) : Bool := s.fc.fenced.contains u

/-- The module has power and its engine clock has started. -/
abbrev State.powered (s : State) : Bool := s.pwr.supply == .on

/-- A core executes. -/
abbrev State.runs (s : State) (c : Nat) : Bool := s.core c == .running

/-- The principal timebase. -/
abbrev State.ptb (s : State) : Nat := s.cfg.sy.principalTb

/-! ## Taper paths (R153 to R155) -/

/-- One leg of a Taper path: its duration in s and the change of slope in ps/s². -/
abbrev Leg := Rat × Rat

/-- The legs of a path from gap `g` (ps) and slope `v` (ps/s) under cruise `sMax` and ramp `a` (R153, R154). An ended pull only
returns its slope to 0 (R155). The peak of a triangular path is a rational at or just below the exact one, and the rest of the gap
is then cruised (log entry 15). -/
def taperLegs (g v sMax a : Rat) (ending : Bool) : List Leg :=
  if a ≤ 0 then []
  else
    let sgV : Rat := if v < 0 then -1 else 1
    let stop : Leg := (absR v / a, -sgV * a)
    if ending then (if v = 0 then [] else [stop])
    else if g = 0 ∧ v = 0 then []
    else
      -- the gap that would be left if the slope returned to 0 from here
      let rest := g - sgV * (v * v / (2 * a))
      if v ≠ 0 ∧ (g * v < 0 ∨ rest * sgV < 0 ∨ g = 0) then
        -- the wrong way, or too fast to stop in time: back to 0 first, then the rest as a new path
        let g' := g - sgV * (v * v / (2 * a))
        let sg : Rat := if g' < 0 then -1 else 1
        let p := min sMax (sqrtRat (absR g' * a))
        if g' = 0 then [stop]
        else if p ≤ 0 then [stop]
        else [stop, (p / a, sg * a), ((absR g' - p * p / a) / p, 0), (p / a, -sg * a)]
      else
        let sg : Rat := if g < 0 then -1 else 1
        let u := absR v
        if sMax < u then
          -- a lower cruise slope was taken: come down to it, cruise, stop
          let d := (u * u - sMax * sMax) / (2 * a) + sMax * sMax / (2 * a)
          if absR g ≤ d ∨ sMax ≤ 0 then [stop]
          else [((u - sMax) / a, -sg * a), ((absR g - d) / sMax, 0), (sMax / a, -sg * a)]
        else
          let p := max u (min sMax (sqrtRat (absR g * a + u * u / 2)))
          let d := (p * p - u * u) / (2 * a) + p * p / (2 * a)
          if p ≤ 0 then []
          else [((p - u) / a, sg * a), ((absR g - d) / p, 0), (p / a, -sg * a)]

/-- Walk `t` seconds along legs from slope `v`: the phase moved and the slope at the end. Past the last leg the slope is 0. -/
def walkLegs : List Leg → Rat → Rat → Rat × Rat
  | [], _, _ => (0, 0)
  | (d, acc) :: rest, v, t =>
    if t < d then (v * t + acc * t * t / 2, v + acc * t)
    else
      let (m, v') := walkLegs rest (v + acc * d) (t - d)
      (v * d + acc * d * d / 2 + m, v')

/-! ## Signals over an interval -/

/-- A stretch of a signal: its duration in s, its value at the start, and its rate of change per s. -/
abbrev Seg := Rat × Rat × Rat

/-- Integral of a signal over its stretches. -/
def integral (l : List Seg) : Rat := (l.map fun (d, a, r) => a * d + r * d * d / 2).foldl (· + ·) 0

/-- The first `sec` seconds of a signal; past its last stretch it has the value `rest`. -/
def takeSegs (rest : Rat) : List Seg → Rat → List Seg
  | [], sec => [(sec, rest, 0)]
  | (d, a, r) :: l, sec => if sec < d then [(sec, a, r)] else (d, a, r) :: takeSegs rest l (sec - d)

/-- One straight stretch cut at the instants of a list (rising, all within it), each piece held within limits. -/
def cutSeg (lo hi a r d : Rat) : Rat → List Rat → List Seg
  | t0, [] => let m := a + r * ((t0 + d) / 2)
    [(d - t0, if m < lo then lo else if hi < m then hi else a + r * t0, if m < lo ∨ hi < m then 0 else r)]
  | t0, t :: l => let m := a + r * ((t0 + t) / 2)
    (t - t0, if m < lo then lo else if hi < m then hi else a + r * t0, if m < lo ∨ hi < m then 0 else r) ::
      cutSeg lo hi a r d t l

/-- A signal limited to [lo, hi] at every instant. -/
def clampSegs (lo hi : Rat) (l : List Seg) : List Seg :=
  l.flatMap fun (d, a, r) =>
    if r = 0 then [(d, clampR lo hi a, 0)]
    else
      let u := (lo - a) / r
      let v := (hi - a) / r
      cutSeg lo hi a r d 0 (([min u v, max u v]).filter fun t => decide (0 < t) && decide (t < d))

/-- Two signals of one duration on their common stretches: the duration, and value and rate of each. -/
def alignSegs : Nat → List Seg → List Seg → List (Rat × (Rat × Rat) × (Rat × Rat))
  | 0, _, _ => []
  | _ + 1, [], _ => []
  | _ + 1, _, [] => []
  | n + 1, (d, a, r) :: l, (e, b, q) :: m =>
    if d < e then (d, (a, r), (b, q)) :: alignSegs n l ((e - d, b + q * d, q) :: m)
    else if e < d then (e, (a, r), (b, q)) :: alignSegs n ((d - e, a + r * e, r) :: l) m
    else (d, (a, r), (b, q)) :: alignSegs n l m

/-- The sum of two signals of one duration. -/
def addSegs (l m : List Seg) : List Seg :=
  (alignSegs (l.length + m.length) l m).map fun (d, (a, r), (b, q)) => (d, a + b, r + q)

/-- Integral of the product of two signals of one duration. -/
def integralProd (l m : List Seg) : Rat :=
  ((alignSegs (l.length + m.length) l m).map fun (d, (a, r), (b, q)) =>
    a * b * d + (a * q + b * r) * d * d / 2 + r * q * d * d * d / 3).foldl (· + ·) 0

/-- The value of a signal moved toward `dst` at no more than `lim` per second, over `sec` seconds. -/
def slewSegs (lim sec src dst : Rat) : List Seg :=
  if lim ≤ 0 then [(sec, src, 0)]
  else
    let sg : Rat := if dst < src then -1 else 1
    takeSegs dst [(absR (dst - src) / lim, src, sg * lim)] sec

/-- The value on which such a move ends. -/
def slewEnd (lim sec src dst : Rat) : Rat :=
  if lim ≤ 0 then src else if sec < absR (dst - src) / lim then src + (if dst < src then -1 else 1) * lim * sec else dst

/-- Total duration of a path, s. -/
def legsTime (l : List Leg) : Rat := (l.map Prod.fst).foldl (· + ·) 0

/-- The legs a path has left. -/
def Taper.legs (t : Taper) : List Leg := taperLegs t.gap t.slope t.cruise t.accel t.ending

/-- `t` seconds of a path: the path after them and the phase moved, ps (R153). -/
def Taper.advance (t : Taper) (sec : Rat) : Taper × Rat :=
  if t.gap = 0 ∧ t.slope = 0 then ({ t with ending := false }, 0)
  else
    let (m, v) := walkLegs t.legs t.slope sec
    let fin : Bool := legsTime t.legs ≤ sec
    ({ t with gap := if t.ending ∨ fin then 0 else t.gap - m, slope := if fin then 0 else v, ending := t.ending && !fin }, m)

/-- The slope of a path over its legs, from slope `v`. -/
def legSegs : Rat → List Leg → List Seg
  | _, [] => []
  | v, (d, acc) :: rest => (d, v, acc) :: legSegs (v + acc * d) rest

/-- The slope of a path over `sec` seconds (R153). -/
def Taper.segs (t : Taper) (sec : Rat) : List Seg :=
  if t.gap = 0 ∧ t.slope = 0 then [(sec, 0, 0)] else takeSegs 0 (legSegs t.slope t.legs) sec

/-- The pull ends: the gap is discarded and the slope returns to 0 at the ramp limit (R155). -/
def Taper.abandon (t : Taper) : Taper :=
  if t.gap = 0 ∧ t.slope = 0 then t else { t with gap := 0, ending := true }

/-- A new gap from the present slope (R153, R154). -/
def Taper.retarget (t : Taper) (gap cruise accel : Rat) : Taper :=
  { gap := gap, slope := t.slope, cruise := cruise, accel := accel, ending := false }

/-- True while a pull is in progress. -/
abbrev Taper.pulling (t : Taper) : Bool := !(t.gap == 0)

/-! ## Rates -/

/-- One part per million, in ppt. -/
def ppm : Rat := 1000000

/-- Cruise slope S of a channel (R153), ps/s. -/
def chanSlope (c : CfgDp) : Rat := if c.timeCarrying = 1 then c.slopeTime else c.slopeFreq

/-- Ramp limit of a channel (R153), ps/s². -/
def chanRamp (c : CfgDp) : Rat := if c.taperRamp = 0 then 0 else chanSlope c * 1000 / c.taperRamp

/-- STEERING of channel n, ppt (R181): FREQ64 has 16 fractional bits (R413). -/
def steeringPpt (h : Ho) : Rat := (h.steering : Rat) / 65536

/-- The model term in force (R165): M in HOLDOVER and FENCED, else 0. -/
def modelTerm (c : Chan) (h : Ho) : Rat :=
  match c.state with
  | .holdover => h.m
  | .fenced => h.m
  | _ => 0

/-- The sum of the three terms before the clamp (R22, R165), ppt. -/
def wordSum (c : Chan) (h : Ho) : Rat := c.loopTerm + modelTerm c h + steeringPpt h

/-- The clamp of R166: ±1,000 ppm. -/
def clampWord (q : Rat) : Rat := clampR (-(1000 * ppm)) (1000 * ppm) q

/-- The word that drives DCO n, Taper apart (R22, R166, R191), ppt. -/
def dcoWord (s : State) (n : Nat) : Rat :=
  match (s.chan n).frozen with
  | some w => w
  | none => clampWord (wordSum (s.chan n) (s.hov n))

/-- Offset y of DCO n from the OCXO (R190), ppt: the word after Taper. In SAFE the slope of a pull that has ended still returns to 0
(R155). -/
def dcoOffset (s : State) (n : Nat) : Rat := dcoWord s n + (s.chan n).taper.slope

/-- Phase term c_p of a timebase for a slope of its path (R255), ppt: no more than the proportional term of the last servo update. -/
def phaseTerm (t : Tb) (slope : Rat) : Rat :=
  match t.prop with
  | some p => clampR (-p) p slope
  | none => slope

/-- The sum of frequency term and phase term before the clamp (R255), ppt. -/
def tbSum (t : Tb) : Rat := t.cF + phaseTerm t t.taper.slope

/-- Rate correction c of a timebase (R255), ppt: frequency term and phase term, clamped. -/
def tbCorr (cfg : CfgTb) (t : Tb) : Rat :=
  match t.frozenC with
  | some c => c
  | none => clampR (-(cfg.rateLimit * ppm)) (cfg.rateLimit * ppm) (tbSum t)

/-- 10¹², the ppt in one. -/
def ppt1 : Rat := 1000000000000

/-- Rate of a timebase against the engine clock (R237). -/
def tbRate (s : State) (n : Nat) : Rat :=
  (1 + dcoOffset s (s.cfg.tbs n).channel / ppt1) * (1 + tbCorr (s.cfg.tbs n) (s.tbs n) / ppt1)

/-! ## The processor SRAM (R30) -/

/-- Bytes of the processor SRAM (R30). -/
def sramSize : Nat := 0x400000

/-- The byte at an address; an address that is not listed reads 0 (log entry 5). -/
def readByte (m : List Host.Cell) (a : Nat) : Byte :=
  match m with
  | [] => 0#8
  | c :: rest => if c.1 = a then c.2 else readByte rest a

/-- The memory with one byte written, in its canonical form: an address holding 0 is not listed. -/
def writeByte (m : List Host.Cell) (a : Nat) (b : Byte) : List Host.Cell :=
  match m with
  | [] => if b = 0#8 then [] else [(a, b)]
  | c :: rest =>
    if a < c.1 then (if b = 0#8 then c :: rest else (a, b) :: c :: rest)
    else if a = c.1 then (if b = 0#8 then rest else (a, b) :: rest)
    else c :: writeByte rest a b

/-! ## The passing of engine time -/

/-- The loop term over `sec` seconds (R175): it slews toward U0 where Lantern moves it. -/
def loopSegs (cfg : CfgDp) (sec : Rat) (c : Chan) : List Seg :=
  match c.frozen, c.slewTo with
  | none, some u => slewSegs (chanRamp cfg) sec c.loopTerm u
  | _, _ => [(sec, c.loopTerm, 0)]

/-- The loop term after `sec` seconds. -/
def loopAfter (cfg : CfgDp) (sec : Rat) (c : Chan) : Rat :=
  match c.frozen, c.slewTo with
  | none, some u => slewEnd (chanRamp cfg) sec c.loopTerm u
  | _, _ => c.loopTerm

/-- The word of a DCO over `sec` seconds (R22, R166, R191): the clamped sum of its terms, or the word held in SAFE. -/
def wordSegs (cfg : CfgDp) (h : Ho) (sec : Rat) (c : Chan) : List Seg :=
  match c.frozen with
  | some w => [(sec, w, 0)]
  | none => clampSegs (-(1000 * ppm)) (1000 * ppm)
      ((loopSegs cfg sec c).map fun (d, a, r) => (d, a + modelTerm c h + steeringPpt h, r))

/-- Offset y of a DCO over `sec` seconds (R190): the word after Taper. -/
def offsetSegs (cfg : CfgDp) (h : Ho) (sec : Rat) (c : Chan) : List Seg := addSegs (wordSegs cfg h sec c) (c.taper.segs sec)

/-- A channel after `sec` seconds, with the offset of its DCO over them: its Taper path (R153), the slew of the loop term toward U0
(R175), its DCO phase (R190) and the sum of its running second (R174). -/
def advChan (cfg : CfgDp) (h : Ho) (sec : Rat) (c : Chan) : Chan × List Seg :=
  let y := offsetSegs cfg h sec c
  let d := 1000000000 * (sec + integral y / ppt1)
  let lt := loopAfter cfg sec c
  ({ c with
      taper := (c.taper.advance sec).1, loopTerm := lt, slewTo := if c.slewTo = some lt then none else c.slewTo,
      phase := c.phase + d, cyc := c.cyc + d,
      secTerm := c.secTerm + integral (loopSegs cfg sec c), secSteer := c.secSteer + (h.steering : Rat) / 65536 * sec,
      secDur := c.secDur + sec },
    y)

/-- A counter value on the timebase's own grid (R236): whole units of 2⁻⁶⁴ ns, the seconds counted modulo 2⁴⁸. -/
def counterValue (q : Rat) : Rat :=
  (((q * (2 ^ 64 : Nat)).floor % ((2 ^ 48 * 1000000000 * 2 ^ 64 : Nat) : Int) : Int) : Rat) / (2 ^ 64 : Nat)

/-- Rate correction c of a timebase over `sec` seconds (R255), clamped at every instant. -/
def corrSegs (cfg : CfgTb) (sec : Rat) (t : Tb) : List Seg :=
  match t.frozenC with
  | some c => [(sec, c, 0)]
  | none =>
    let path := t.taper.segs sec
    let cp := match t.prop with | some p => clampSegs (-p) p path | none => path
    clampSegs (-(cfg.rateLimit * ppm)) (cfg.rateLimit * ppm) (cp.map fun (d, a, r) => (d, t.cF + a, r))

/-- A timebase after `sec` seconds on a DCO of offset `y` (R237): the counter advances by (1 + y)(1 + c) at every instant, and the
result is kept on the counter's grid (log entry 16). The CLAMPED flag follows the sum (R255). -/
def advTb (cfg : CfgTb) (y : List Seg) (sec : Rat) (t : Tb) : Tb :=
  let one (l : List Seg) : List Seg := l.map fun (d, a, r) => (d, 1 + a / ppt1, r / ppt1)
  let tp := match t.frozenC with
    | none => (t.taper.advance sec).1
    | some _ => t.taper
  let t1 := { t with taper := tp, now := counterValue (t.now + 1000000000 * integralProd (one y) (one (corrSegs cfg sec t))) }
  { t1 with clamped := t1.frozenC.isNone && decide ((cfg.rateLimit : Rat) * ppm ≤ absR (tbSum t1)) }

/-- Channels after `sec` seconds, each with its offset over them. -/
def advChans (s : State) (sec : Rat) : List (Chan × List Seg) :=
  (indexed s.dp).map fun (n, c) => advChan (s.cfg.chan n) (s.hov n) sec c

/-! ### Spread spectrum (R215, R216) -/

/-- Length of a modulation cycle, ns of DCO phase. -/
def sscCycle (m : Spread) : Rat := if m.rate = 0 then 0 else 1000000000 / m.rate

/-- What triangle modulation adds to the phase of an output in the first `x` ns after the start of a cycle (R215): down-spread falls
from the nominal frequency to the depth and returns; centre-spread rises first (log entry 116). -/
def Spread.gain (m : Spread) (x : Rat) : Rat :=
  let t := sscCycle m
  let d : Rat := (m.depth : Rat) / 10000
  if t = 0 then 0
  else
    let k : Rat := (x / t).floor
    let u := x / t - k
    if m.mode = 1 then -(d * t) * (k / 2 + (if u ≤ 1 / 2 then u * u else 1 / 2 - (1 - u) * (1 - u)))
    else d * t *
      (if u ≤ 1 / 4 then 2 * u * u
       else if u ≤ 3 / 4 then 1 / 8 + (u - 1 / 4) - 2 * (u - 1 / 4) * (u - 1 / 4)
       else 2 * (1 - u) * (1 - u))

/-- The spread that settings ask for, from the DCO phase at which it begins; none where it is off. -/
def Divider.spread (d : Divider) (since : Rat) : Option Spread :=
  if d.sscMode = 0 then none else some { mode := d.sscMode, depth := d.sscDepth, rate := d.sscRate, since := since }

/-- A committed change of spread takes effect at the start of the next modulation cycle, where the deviation is zero (R216): what the
ended cycles added to the phase stays. `a` and `b` are the DCO phases at the ends of the interval. -/
def Out.followSpread (a b : Rat) (o : Out) : Out :=
  match o.ssc with
  | none => o
  | some m =>
    let next := o.active.spread m.since
    let edge := m.since + sscCycle m * ceilR (if sscCycle m = 0 then 0 else (a - m.since) / sscCycle m)
    if next = some m ∨ b < edge then o
    else { o with ssc := o.active.spread edge, origin := o.origin - m.gain (edge - m.since) }

/-- `dt` ns of engine time pass (R18, R237): the engine count, the DCOs, the timebases, and the phase moves and the spread of outputs.
Nothing moves while the engine clock stands. The frames sent by the command before are no longer shown. -/
def advance (dt : Nat) (s : State) : State :=
  if s.clk.running then
    let sec : Rat := (dt : Rat) / 1000000000
    let chans := advChans s sec
    let cyc (n : Nat) : Rat := (nth (chans.map Prod.fst) n Chan.reset).cyc
    { s with
      tx := [],
      clk := { s.clk with count := s.clk.count + dt },
      dp := chans.map Prod.fst,
      tb := (indexed s.tb).map fun (n, t) =>
        advTb (s.cfg.tbs n) ((chans.map Prod.snd).getD (s.cfg.tbs n).channel [(sec, 0, 0)]) sec t,
      ou := { s.ou with out := (indexed s.ou.out).map fun (n, o) =>
        let ch := (nth s.sn.core (nth s.cfg.ou n CfgOu.reset).core Syn.reset).channel
        { o.followSpread (s.chan ch).cyc (cyc ch) with move := (o.move.advance sec).1 } },
      ev := if s.ev.deferring then { s.ev with hostDeferred := s.ev.hostDeferred + dt } else s.ev }
  else { s with tx := [] }

/-! ## Axes (R312 to R318) -/

/-- Counts per turn of an angle axis (R315). -/
def countsPerTurn (c : CfgAx) : Nat := if c.countMode = 0 then 4 * c.lines else c.lines

/-- Axis units of one count (R315, R318). -/
def countStep (c : CfgAx) : Rat :=
  if c.kind = 2 then (c.scale : Rat) / 65536
  else if countsPerTurn c = 0 then 0 else ((2 ^ 32 : Nat) : Rat) / countsPerTurn c

/-- The estimate of an AXI axis at an engine instant (R316): it waits one unit short of the next count, and stands where the axis
does not extrapolate (R319). -/
def axiPos (c : CfgAx) (x : Axis) (now : Nat) : Rat :=
  match x.hold with
  | some p => p
  | none =>
  if x.extrap ∧ x.v ≠ 0 then
    let p := x.xe + x.v * ((now : Rat) - x.te) / 1000000000
    if 0 < x.v then max x.xe (min p (x.xe + countStep c - 1)) else min x.xe (max p (x.xe - countStep c + 1))
  else x.xe

/-- Position of axis a in axis units (R313): a time axis is its timebase in ns. -/
def axisPosR (s : State) (a : Nat) : Rat :=
  if a < 4 then (s.tbs a).now else axiPos (s.cfg.axi (a - 4)) (nth s.ax a Axis.reset) s.clk.count

/-- Velocity of axis a, axis units per s (R313, R314). -/
def axisVel (s : State) (a : Nat) : Rat :=
  if a < 4 then 1000000000 * tbRate s a else (nth s.ax a Axis.reset).v

/-- A position as the 64-bit value of R313: the fraction is not included, and it counts modulo 2⁶⁴. -/
def pos64 (q : Rat) : BitVec 64 := BitVec.ofInt 64 q.floor

/-- `POSITION` of axis a. -/
def axisPos (s : State) (a : Nat) : BitVec 64 := pos64 (axisPosR s a)

/-- State of axis a (R319): axes 0 to 3 always report TRACKING. -/
def axisState (s : State) (a : Nat) : AxisState := if a < 4 then .tracking else (nth s.ax a Axis.reset).state

/-- Predicted position X_p with a lead of `l` ns (R322). -/
def predicted (s : State) (a l : Nat) : BitVec 64 :=
  if a < 4 then pos64 (axisPosR s a) + BitVec.ofNat 64 l
  else pos64 (axisPosR s a + axisVel s a * l / 1000000000)

/-- D = T − X_p, read as signed (R313, R322). -/
def gapTo (s : State) (axis lead : Nat) (target : BitVec 64) : Int := (target - predicted s axis lead).toInt

end Sys2Proof.Machine
end

