-- ==== Sys2Proof/Machine/Events.lean ====
section
/-! DEFINITION. The event controller (R383 to R399): arrivals, levels, claims, completions and deliveries, as operations on `Ev`. -/

namespace Sys2Proof.Machine

/-! ## Sources and routes -/

/-- The level sources (R97, R227, R270, R434). -/
def levelSources : List Nat := [1, 3, 4, 11, 12, 14, 85, 132, 255]

/-- Reserved sources, never raised (R97, R227, R270, R340, R377). -/
def reservedSource (n : Nat) : Bool :=
  n == 15 || (40 ≤ n && n ≤ 44) || n == 87 || n == 134 || n == 135 || n == 150 || n == 151 || (247 ≤ n && n ≤ 251)

/-- `KIND` of a source (R384, R400): 0 pulse, 1 level, 2 counting, 3 reserved. -/
def kindOf (n : Nat) : Nat :=
  if reservedSource n then 3 else if 16 ≤ n ∧ n ≤ 47 then 2 else if levelSources.contains n then 1 else 0

/-- `ROUTE` of source n. -/
abbrev CfgEv.route (c : CfgEv) (n : Nat) : BitVec 8 := nth c.routes n 0#8
/-- ROUTE[7], enabled (R385). -/
abbrev routeOn (r : BitVec 8) : Bool := r.getLsbD 7
/-- ROUTE[6], class FAST (R385). -/
abbrev routeFast (r : BitVec 8) : Bool := r.getLsbD 6
/-- ROUTE[2:0], target: 0 MGT, 1 STEER, 2 MON, 3 HOST, 4 ALERT_A, 5 ALERT_B (R385). -/
abbrev routeTarget (r : BitVec 8) : Nat := (r &&& 7#8).toNat

/-- Source n. -/
abbrev Ev.source (e : Ev) (n : Nat) : Src := nth e.src n Src.reset

/-- Source n changed. -/
abbrev Ev.setSrc (e : Ev) (n : Nat) (f : Src → Src) : Ev := { e with src := upd e.src n f }

/-! ## Arrivals (R390, R395) -/

/-- State of a source on a core after an arrival (R390). -/
def SrcState.arrived : SrcState → SrcState
  | .idle => .pending
  | .pending => .pending
  | .active => .activePending
  | .activePending => .activePending
  | .held => .pending
  | .latched => .pending

/-- An arrival at source n routed to a core (R390). -/
def arriveCore (n now : Nat) (x : Src) : Src :=
  let cnt := if kindOf n = 2 then min 255 (x.counter + 1) else x.counter
  let merged := x.state = .pending ∨ x.state = .activePending
  { x with
    state := x.state.arrived, counter := cnt, arrivals := min (2 ^ 32 - 1) (x.arrivals + 1), lastAt := now,
    sticky := x.sticky ||| (if merged then 2#8 else 0#8) ||| (if kindOf n = 2 ∧ cnt = 255 then 1#8 else 0#8) }

/-- An arrival at a source routed to the host or an alert line (R395, R398). -/
def arriveHeld (now : Nat) (x : Src) : Src :=
  let held := x.state = .held
  { x with
    state := .held, arrivals := min (2 ^ 32 - 1) (x.arrivals + 1), lastAt := now,
    sticky := x.sticky ||| (if held then 2#8 else 0#8),
    heldFirst := if held then x.heldFirst else now,
    heldCount := if held then min 255 (x.heldCount + 1) else 1,
    relatch := if held then x.relatch else x.state = .latched }

/-- One arrival at source n (R385, R390, R395): ignored while the source is disabled. -/
def Ev.arrive (c : CfgEv) (now n : Nat) (e : Ev) : Ev :=
  let r := c.route n
  if !routeOn r || kindOf n == 3 then e
  else if routeTarget r ≤ 2 then e.setSrc n (arriveCore n now)
  else
    let k := routeTarget r - 3
    { e with
      src := upd e.src n (arriveHeld now),
      targets := upd e.targets k fun t =>
        { t with arrivals := t.arrivals + 1, firstAt := some (t.firstAt.getD now), fastSeen := t.fastSeen || routeFast r } }

/-- The level of level source n becomes `b` (R384, R392): an assertion is an arrival; a source that de-asserts while it is ACTIVE
has vanished. -/
def Ev.setLevel (c : CfgEv) (now n : Nat) (b : Bool) (e : Ev) : Ev :=
  let x := e.source n
  if x.level = b then e
  else if b then (e.setSrc n fun y => { y with level := true }).arrive c now n
  else e.setSrc n fun y =>
    { y with
      level := false,
      vanished := if y.state = .active ∨ y.state = .activePending then min 65535 (y.vanished + 1) else y.vanished }

/-! ## Claims and completions (R387 to R391) -/

/-- True where source n is routed to core c with the class, and PENDING. -/
def claimable (cfg : CfgEv) (e : Ev) (c : Nat) (fast : Bool) (n : Nat) : Bool :=
  let r := cfg.route n
  routeOn r && routeTarget r == c && routeFast r == fast && (e.source n).state == .pending

/-- A source ACTIVE+PENDING that has been completed becomes PENDING; see `completeSrc`. The lowest-numbered claimable source. -/
def lowestPending (cfg : CfgEv) (e : Ev) (c : Nat) (fast : Bool) : Option Nat :=
  (List.range 256).find? (claimable cfg e c fast)

/-- The claim word of R389. -/
def claimWordOf (n : Nat) (x : Src) : BitVec 32 :=
  BitVec.ofNat 32 ((if kindOf n = 2 then x.counter else 1) * 2 ^ 16
    + b2n (kindOf n == 1 && x.level) * 2 ^ 10 + kindOf n * 2 ^ 8 + n)

/-- The claim word with EMPTY set and all other bits 0 (R389). -/
def emptyWord : BitVec 32 := 0x80000000#32

/-- The stack entry of a class. -/
def EvCore.entry (k : EvCore) (fast : Bool) : Option Nat := if fast then k.fast else k.normal

/-- Core c reads its claim register of the class (R389). -/
def Ev.claim (cfg : CfgEv) (c : Nat) (fast : Bool) (e : Ev) : Ev :=
  let k := nth e.cores c EvCore.reset
  match k.entry fast with
  | some _ => { e with cores := upd e.cores c fun k => { k with nested := k.nested + 1, claimWord := emptyWord } }
  | none =>
    match lowestPending cfg e c fast with
    | none => { e with cores := upd e.cores c fun k => { k with claimWord := emptyWord } }
    | some n =>
      let w := claimWordOf n (e.source n)
      { e with
        src := upd e.src n fun x =>
          { x with
            state := .active, counter := 0,
            vanished := if kindOf n = 1 ∧ x.level = false then min 65535 (x.vanished + 1) else x.vanished },
        cores := upd e.cores c fun k =>
          if fast then { k with fast := some n, fastClaims := k.fastClaims + 1, claimWord := w }
          else { k with normal := some n, normalClaims := k.normalClaims + 1, claimWord := w } }

/-- The top entry of a completion stack (R391). -/
def EvCore.top (k : EvCore) : Option Nat := k.fast.or k.normal

/-- A completed source (R391): ACTIVE becomes IDLE, ACTIVE+PENDING becomes PENDING. -/
def completeSrc (x : Src) : Src :=
  { x with state := if x.state = .activePending then .pending else .idle }

/-- Source n is popped from the stack of core c (R391). -/
def Ev.pop (c n : Nat) (e : Ev) : Ev :=
  { e with
    src := upd e.src n completeSrc,
    cores := upd e.cores c fun k =>
      if k.fast = some n then { k with fast := none } else { k with normal := none } }

/-- A completion that core c writes is accepted (R391). -/
def EvCore.accepts (k : EvCore) (n : Nat) : Bool :=
  if k.strict then k.top == some n else (k.fast == some n || k.normal == some n)

/-- A change of `COMPLETION_MODE` takes effect once the stack is empty (R391). -/
def Ev.applyModes (cfg : CfgEv) (e : Ev) : Ev :=
  { e with
    cores := (indexed e.cores).map fun (c, k) =>
      if k.fast.isNone && k.normal.isNone then { k with strict := nth cfg.completionMode c 1 == 1 } else k }

/-- At the fence of core c its ACTIVE sources return to PENDING and its stack is emptied (R387). -/
def Ev.fenceCore (c : Nat) (e : Ev) : Ev :=
  let k := nth e.cores c EvCore.reset
  let back (o : Option Nat) (l : List Src) : List Src := match o with
    | none => l
    | some n => upd l n fun x => { x with state := .pending }
  { e with src := back k.fast (back k.normal e.src), cores := upd e.cores c fun k => { k with fast := none, normal := none } }

/-- FAST request line of core c (R387). -/
def Ev.fastRequest (cfg : CfgEv) (c : Nat) (e : Ev) : Bool :=
  (lowestPending cfg e c true).isSome && (nth e.cores c EvCore.reset).fast.isNone

/-- NORMAL request line of core c (R387). -/
def Ev.normalRequest (cfg : CfgEv) (c : Nat) (e : Ev) : Bool :=
  (lowestPending cfg e c false).isSome && (nth e.cores c EvCore.reset).fast.isNone
    && (nth e.cores c EvCore.reset).normal.isNone

/-- Word of the core-side register `STACK` (R388). -/
def EvCore.stackWord (k : EvCore) : Nat :=
  b2n k.fast.isSome * 2 ^ 17 + b2n k.normal.isSome * 2 ^ 16 + k.fast.getD 0 * 2 ^ 8 + k.normal.getD 0

/-- Word of the core-side register `LEVELw` (R388): bit b is `LEVEL_NOW` of source 32w + b, 0 for a source that is not a level source. -/
def Ev.levelWord (e : Ev) (w : Nat) : Nat :=
  (List.range 32).foldl (fun a b => a + b2n (kindOf (32 * w + b) == 1 && (e.source (32 * w + b)).level) * 2 ^ b) 0

/-! ## Deliveries (R395 to R398) -/

/-- The sources HELD for target k (0 HOST, 1 ALERT_A, 2 ALERT_B), in source order. -/
def heldFor (cfg : CfgEv) (e : Ev) (k : Nat) : List Nat :=
  (List.range 256).filter fun n => routeTarget (cfg.route n) == k + 3 && (e.source n).state == .held

/-- The sources LATCHED on target k. -/
def latchedFor (cfg : CfgEv) (e : Ev) (k : Nat) : List Nat :=
  (List.range 256).filter fun n => routeTarget (cfg.route n) == k + 3 && (e.source n).state == .latched

/-- A delivery of target k is due (R396). -/
def EvTarget.due (t : EvTarget) (now : Nat) : Bool :=
  t.arrivals != 0 &&
    ((t.count != 0 && t.count ≤ t.arrivals)
      || (t.time != 0 && (match t.firstAt with | some f => f + t.time * 1000 ≤ now | none => false))
      || (t.count == 0 && t.time == 0) || t.fastSeen)

/-- The delivery record of source n (R395). -/
def recordOf (cfg : CfgEv) (e : Ev) (n : Nat) : DRec :=
  let x := e.source n
  { firstAt := x.heldFirst, span := min (2 ^ 32 - 1) (x.lastAt - x.heldFirst), arrivals := x.heldCount,
    level := kindOf n == 1 && x.level, fast := routeFast (cfg.route n), kind := kindOf n, source := n }

/-- The 16 bytes of a delivery record (R395). -/
def DRec.bytes (d : DRec) : List Byte :=
  natBytes 8 d.firstAt ++ natBytes 4 d.span ++ natBytes 1 d.arrivals
    ++ natBytes 3 (b2n d.level * 2 ^ 17 + b2n d.fast * 2 ^ 16 + d.kind * 2 ^ 8 + d.source)

/-- Every source of a list put in a state. -/
def setStates (st : SrcState) (l : List Nat) (src : List Src) : List Src :=
  (indexed src).map fun (n, x) => if l.contains n then { x with state := st, relatch := false } else x

/-- The target's coalescing starts afresh after a delivery. -/
def EvTarget.delivered (t : EvTarget) : EvTarget :=
  { t with arrivals := 0, seen := 0, firstAt := none, fastSeen := false, deliveries := t.deliveries + 1 }

/-- Delivery records queued in the MGT core (R397, R422). -/
def Ev.queued (e : Ev) : Nat := (e.queue.map List.length).foldl (· + ·) 0

/-- A due host delivery (R397): the records go to the MGT core's queue where it can take them, else they stay HELD. -/
def Ev.deliverHost (cfg : CfgEv) (now : Nat) (canTake : Bool) (e : Ev) : Ev :=
  if !(nth e.targets 0 EvTarget.reset).due now then { e with deferring := false }
  else
    let l := heldFor cfg e 0
    if canTake && e.queued + l.length ≤ 1024 then
      { e with
        queue := e.queue ++ [l.map (recordOf cfg e)], src := setStates .idle l e.src,
        targets := upd e.targets 0 EvTarget.delivered, deferring := false }
    else if e.deferring then e
    else { e with deferring := true, hostDeferred := e.hostDeferred + 1 }

/-- A due delivery to alert line k (R398): in LATCH mode the sources become LATCHED; in FOLLOW mode they become IDLE, a level source
holds the line while it is asserted, and a pulse or counting source stretches it by 10 ms (R394). -/
def Ev.deliverAlert (cfg : CfgEv) (now k : Nat) (e : Ev) : Ev :=
  let t := nth e.targets k EvTarget.reset
  if !t.due now then e
  else
    let l := heldFor cfg e k
    if t.alertMode = 0 then
      { e with src := setStates .latched l e.src, targets := upd e.targets k EvTarget.delivered }
    else
      { e with
        src := setStates .idle l e.src,
        targets := upd e.targets k fun t =>
          { t.delivered with
            stretchEnd := if l.any (fun n => kindOf n != 1) then some (now + 10000000) else t.stretchEnd,
            followed := t.followed ++ l.filter fun n => kindOf n == 1 && (e.source n).level } }

/-- `ALERT_ACK` of line k (R398): LATCHED sources are cleared, but for a level source still asserted. -/
def Ev.ack (cfg : CfgEv) (k : Nat) (e : Ev) : Ev :=
  { e with src := setStates .idle ((latchedFor cfg e k).filter fun n => !(kindOf n == 1 && (e.source n).level)) e.src }

/-- `ALERT_MODE` of line k takes effect (R402): on becoming FOLLOW every LATCHED source of the line becomes IDLE and counts as
delivered. -/
def Ev.setAlertMode (cfg : CfgEv) (now k m : Nat) (e : Ev) : Ev :=
  let l := latchedFor cfg e k
  if m = 1 ∧ (nth e.targets k EvTarget.reset).alertMode ≠ 1 then
    { e with
      src := setStates .idle l e.src,
      targets := upd e.targets k fun t =>
        { t with
          alertMode := 1,
          stretchEnd := if l.any (fun n => kindOf n != 1) then some (now + 10000000) else t.stretchEnd,
          followed := l.filter fun n => kindOf n == 1 && (e.source n).level } }
  else { e with targets := upd e.targets k fun t => { t with alertMode := m, followed := [], stretchEnd := none } }

/-- Whether alert line k (1 ALERT_A, 2 ALERT_B) is high by its own mode (R398). -/
def Ev.lineHigh (cfg : CfgEv) (now k : Nat) (e : Ev) : Bool :=
  let t := nth e.targets k EvTarget.reset
  if t.alertMode = 0 then
    (List.range 256).any fun n => routeTarget (cfg.route n) == k + 3 &&
      ((e.source n).state == .latched || ((e.source n).state == .held && (e.source n).relatch))
  else
    t.followed.any (fun n => (e.source n).level && routeTarget (cfg.route n) == k + 3)
      || (match t.stretchEnd with | some x => now < x | none => false)

/-! ## Raising an event -/

/-- Source n is raised (R384). -/
def raise (n : Nat) (s : State) : State := { s with ev := s.ev.arrive s.cfg.ev s.clk.count n }

/-- Source n is raised where the condition holds. -/
def raiseIf (b : Bool) (n : Nat) (s : State) : State := if b then raise n s else s

/-- The level of source n follows a condition (R384). -/
def level (n : Nat) (b : Bool) (s : State) : State := { s with ev := s.ev.setLevel s.cfg.ev s.clk.count n b }


end Sys2Proof.Machine
end

