-- ==== Sys2Proof/Machine/Stamps.lean ====
section
/-! DEFINITION. Capture records, anchors, markers, the FIFOs and the capture ring (R281 to R294), as operations on `Ts`. -/

namespace Sys2Proof.Machine

/-! ## Record words -/

/-- NS32 of a timebase (R286): nanoseconds of the counter since the start of its epoch, modulo 2³². -/
def ns32 (t : Tb) : Nat := ((t.now.floor - t.base.floor) % (2 ^ 32 : Nat)).toNat

/-- FRAC of a counter (R286): its fraction in units of 2⁻¹⁶ ns. -/
def frac16 (q : Rat) : Nat := (((q - q.floor) * 65536).floor).toNat % 65536

/-- Record length of the ring: a 96-bit word from its fields (R286). -/
def recWord (ns frac hi8 mid tp : Nat) : BitVec 96 :=
  BitVec.ofNat 96 (ns * 2 ^ 64 + frac * 2 ^ 48 + hi8 * 2 ^ 40 + mid * 2 ^ 18 + tp * 2 ^ 16)

/-- A capture record with SEQ still 0 (R286, R287). `at_` is the counter value at the edge; `mid` holds bits [39:18]. -/
def captureWord (t : Tb) (at_ : Rat) (input tb : Nat) (falling lost window uncal : Bool) : BitVec 96 :=
  recWord (((at_.floor - t.base.floor) % (2 ^ 32 : Nat)).toNat) (frac16 at_) input
    (b2n falling * 2 ^ 21 + tb * 2 ^ 19 + (t.epoch % 4) * 2 ^ 17 + b2n lost * 2 ^ 16 + b2n window * 2 ^ 15
      + b2n uncal * 2 ^ 14 + t.state.code * 2 ^ 12) 0

/-- The counter value of a stamp (R285): that of its cycle, and the offset within the cycle, which is not scaled. `now` is the counter
in cycle `count`. -/
def stampValue (now rate : Rat) (count : Nat) (t : Rat) : Rat := now + ((t.floor : Rat) - count) * rate + (t - t.floor)

/-- What is kept of a timebase when its epoch or state changes in cycle `count`: the first change of a cycle stands for all of it. -/
def Tb.pastAt (count : Nat) (t : Tb) : List TbPast :=
  if t.past.any fun p => p.ended == count then t.past
  else
    { ended := count, now := t.now, base := t.base, epoch := t.epoch, state := t.state } :: t.past.filter fun p => decide (count < p.ended + 2000)

/-- The timebase as it was in a cycle, in cycle `count` now: the cycle from which its counter is taken, and that counter (R285, R287). -/
def Tb.asOf (count : Nat) (cycle : Int) (t : Tb) : Nat × Tb :=
  t.past.foldl (fun r p =>
    if cycle < p.ended then (p.ended, { t with now := p.now, base := p.base, epoch := p.epoch, state := p.state }) else r) (count, t)

/-- A waiting record of timebase k, changed in cycle `count`, whose stamp does not lie before that cycle (R285). -/
def FifoRec.restamp (t : Tb) (k : Nat) (rate : Rat) (count : Nat) (r : FifoRec) : FifoRec :=
  let w := r.word
  if r.stamp < count ∨ w.toNat / 2 ^ 37 % 4 ≠ k then r
  else
    let value := stampValue t.now rate count r.stamp
    { r with word :=
        captureWord t value (w.toNat / 2 ^ 40 % 256) k (w.getLsbD 39) (w.getLsbD 34) (w.getLsbD 33) (w.getLsbD 32) }

/-- A marker record with SEQ still 0 (R289). -/
def markerWord (t : Tb) (tb tag action : Nat) (late : Bool) : BitVec 96 :=
  recWord (ns32 t) (frac16 t.now) tag (tb * 2 ^ 19 + action * 2 ^ 9 + (t.epoch % 4) * 2 ^ 7 + b2n late * 2 ^ 6) 3

/-- An anchor of a timebase for the present cycle (R288). -/
def anchorOf (t : Tb) (tb : Nat) (isStart isEnd : Bool) : Anchor :=
  let n := t.now.floor.toNat
  let sec := n / 1000000000 % 2 ^ 48
  let ns := n % 1000000000
  { head := recWord (ns32 t) (t.epoch % 65536) 0
      (tb * 2 ^ 19 + b2n isStart * 2 ^ 18 + b2n isEnd * 2 ^ 17 + t.state.code * 2 ^ 15) 1,
    tail := recWord (sec / 2 ^ 16) (sec % 2 ^ 16) (ns / 2 ^ 22) (ns % 2 ^ 22) 2,
    periodic := !isStart && !isEnd }

/-- The 12 bytes of a record (R13, R286). -/
def recBytes (w : BitVec 96) : List Byte := natBytes 12 w.toNat

/-! ## The ring -/

/-- Records the ring holds (R292). -/
def ringSize : Nat := 16384

/-- Slots kept for anchors and markers (R292). -/
def ringReserve : Nat := 64

/-- One record enters the ring and takes the next SEQ (R294). -/
def Ts.push (now : Nat) (w : BitVec 96) (t : Ts) : Ts :=
  let ring := t.ring ++ [(now, w ||| BitVec.ofNat 96 (t.nextSeq % 65536))]
  { t with ring := ring, nextSeq := (t.nextSeq + 1) % 65536, peak := max t.peak ring.length }

/-- Anchors of one queue enter the ring while it has room for both records of each (R288, R293). -/
def drainAnchors (now : Nat) : Nat → List Anchor → Ts → List Anchor × Ts
  | 0, l, t => (l, t)
  | _ + 1, [], t => ([], t)
  | k + 1, a :: rest, t =>
    if t.ring.length + 2 ≤ ringSize then drainAnchors now k rest ((t.push now a.head).push now a.tail) else (a :: rest, t)

/-- Markers enter the ring while it has room (R293). -/
def drainMarkers (now : Nat) : Nat → Ts → Ts
  | 0, t => t
  | k + 1, t =>
    match t.markers with
    | [] => t
    | m :: rest => if t.ring.length + 1 ≤ ringSize then drainMarkers now k (({ t with markers := rest } : Ts).push now m) else t

/-- The anchor queue of timebase n drained. -/
def Ts.drainQueue (now n : Nat) (t : Ts) : Ts :=
  let (l, t') := drainAnchors now 8 (nth t.anchors n []) t
  { t' with anchors := upd t'.anchors n fun _ => l }

/-- What waits in the anchor and marker queues enters the ring, ahead of capture records (R293). -/
def Ts.drain (now : Nat) (t : Ts) : Ts :=
  drainMarkers now 16 ([0, 1, 2, 3].foldl (fun t n => t.drainQueue now n) t)

/-- The oldest periodic anchor of a queue left out. -/
def dropPeriodic : List Anchor → List Anchor
  | [] => []
  | a :: rest => if a.periodic then rest else a :: dropPeriodic rest

/-- An anchor enters its queue of four (R293); with no stream open none is written (R294). -/
def Ts.addAnchor (now n : Nat) (a : Anchor) (t : Ts) : Ts :=
  if t.stream.isNone then t
  else
    let q := nth t.anchors n []
    let t' :=
      if q.length < 4 then { t with anchors := upd t.anchors n fun q => q ++ [a] }
      else if q.any (·.periodic) then
        { t with anchors := upd t.anchors n (fun q => dropPeriodic q ++ [a]), anchorsDropped := t.anchorsDropped + 1 }
      else if a.periodic then { t with anchorsDropped := t.anchorsDropped + 1 }
      else { t with anchors := upd t.anchors n fun q => q ++ [a] }
    t'.drain now

/-- A marker enters the marker queue of 16, or is lost (R293, R294). -/
def Ts.addMarker (now : Nat) (w : BitVec 96) (t : Ts) : Ts :=
  if t.stream.isNone then t
  else if t.markers.length < 16 then ({ t with markers := t.markers ++ [w] } : Ts).drain now
  else { t with markersLost := t.markersLost + 1 }

/-- The ring is emptied and an epoch-start anchor of each timebase follows (R294). -/
def Ts.refill (now : Nat) (tbs : List Tb) (t : Ts) : Ts :=
  (indexed tbs).foldl (fun t (n, b) => t.addAnchor now n (anchorOf b n true false))
    { t with ring := [], anchors := List.replicate 4 [], markers := [] }

/-- A stream opens (R294, R421). -/
def Ts.openStream (now : Nat) (tbs : List Tb) (st : Stream) (t : Ts) : Ts :=
  ({ t with
     stream := some st, peak := 0, tbSec := tbs.map fun (b : Tb) => b.now.floor / 1000000000 }).refill now tbs

/-- A stream closes: records cease to be written, and nothing waiting is counted as lost (R294). -/
def Ts.closeStream (t : Ts) : Ts :=
  { t with stream := none, anchors := List.replicate 4 [], markers := [], round := [],
           inp := t.inp.map fun x => { x with fifo := [] } }

/-! ## FIFOs (R290 to R292) -/

/-- Input n. -/
abbrev Ts.input (t : Ts) (n : Nat) : Tsi := nth t.inp n Tsi.reset

/-- A capture record joins the FIFO of its input, or is lost where the FIFO is full (R292). True where the lost bit rose. -/
def Tsi.enqueue (r : FifoRec) (x : Tsi) : Tsi × Bool :=
  if x.fifo.length < 16 then
    ({ x with fifo := x.fifo ++ [r], lostFlag := false, fifoPeak := max x.fifoPeak (x.fifo.length + 1) }, false)
  else ({ x with lost := x.lost + 1, lostFlag := true, sticky := x.sticky ||| 1#8 }, !(bit8 x.sticky 0))

/-- LOST is set in the next record of an input (R287, R292): the oldest record still waiting after the loss, or else the next made. -/
def markLost (l : List FifoRec) : List FifoRec :=
  match l with
  | [] => []
  | r :: rest => { r with word := r.word ||| (1#96 <<< 34) } :: rest

/-- Pending inputs of a bank in index order from the input after the one it served last (R290). -/
def bankOrder (t : Ts) (b : Nat) : List Nat :=
  ((List.range 8).map fun j => 8 * b + ((nth t.served b 7 + 1 + j) % 8)).filter fun n => !(t.input n).fifo.isEmpty

/-- The inputs that a new round serves (R290). -/
def newRound (t : Ts) : List Nat := (List.range 8).flatMap (bankOrder t)

/-- One ring slot (R290, R292): the next input of the round passes its oldest record to the ring while more than 64 slots are free. -/
def Ts.slot (now : Nat) (t : Ts) : Ts :=
  if t.stream.isNone ∨ ringSize ≤ t.ring.length + ringReserve then t
  else
    match (if t.round.isEmpty then newRound t else t.round) with
    | [] => { t with round := [] }
    | n :: rest =>
      match (t.input n).fifo with
      | [] => { t with round := rest }
      | r :: more =>
        ({ t with
           round := rest, served := upd t.served (n / 8) (fun _ => n % 8),
           inp := upd t.inp n fun x => { x with fifo := more } }).push now r.word

/-- The records of an input whose stamps are 1 s old are discarded (R292). -/
def Tsi.dropStale (now : Nat) (x : Tsi) : Tsi × Bool :=
  let old := x.fifo.filter fun r => r.stamp + 1000000000 ≤ (now : Rat)
  let keep := x.fifo.filter fun r => !(decide (r.stamp + 1000000000 ≤ (now : Rat)))
  if old.isEmpty then (x, false)
  else
    ({ x with fifo := markLost keep, stale := x.stale + old.length, lostFlag := x.lostFlag || keep.isEmpty,
              sticky := x.sticky ||| 2#8 }, !(bit8 x.sticky 1))

/-! ## The streamer (R423) -/

/-- Type field of a record. -/
def recType (w : BitVec 96) : Nat := w.toNat / 2 ^ 16 % 4

/-- How many records a packet takes: at most 85, and an anchor head never last without its tail. -/
def packetCount (ring : List (Nat × BitVec 96)) : Nat :=
  let k := min 85 ring.length
  match ring[k - 1]? with
  | some (_, w) => if recType w = 1 then k - 1 else k
  | none => k

/-- A packet is due: 85 records are ready, or the oldest has waited 1 ms (R423). -/
def packetDue (now : Nat) (ring : List (Nat × BitVec 96)) : Bool :=
  85 ≤ ring.length || (match ring.head? with | some (t, _) => t + 1000000 ≤ now | none => false)

end Sys2Proof.Machine
end

