-- ==== Sys2Proof/Machine/Calendar.lean ====
section
/-! DEFINITION. Trigger outputs, capture windows, calendar actions and axis transitions (R224, R321 to R336), as operations on the state. -/

namespace Sys2Proof.Machine

/-! ## The Vouching gate's groups (R78) -/

/-- Whether a permitted group runs (R78): `bit` is its bit in FREERUN_PERMIT. STARTUP, STANDBY and SAFE stop it. -/
def groupRuns (s : State) (bit : Nat) : Bool :=
  match s.md.mode with
  | .tracking => true
  | .holdover => s.md.vouching || bit8 s.cfg.sy.freerunPermit bit
  | .freerun => bit8 s.cfg.sy.freerunPermit bit
  | .startup => false
  | .standby => false
  | .safe => false

/-- The trigger outputs run. -/
def trgRuns (s : State) : Bool := groupRuns s 1
/-- The time-carrying clock outputs run. -/
def timeOutRuns (s : State) : Bool := groupRuns s 2
/-- Announce and Sync run. -/
def ptpRuns (s : State) : Bool := groupRuns s 0

/-! ## Trigger outputs (R224, R333, R334) -/

/-- Trigger n. -/
abbrev State.trg (s : State) (n : Nat) : Trg := nth s.ou.trg n Trg.reset

/-- Trigger n changed. -/
abbrev State.setTrg (s : State) (n : Nat) (f : Trg → Trg) : State := { s with ou := { s.ou with trg := upd s.ou.trg n f } }

/-- Limits of trigger n: a fenced trigger is held to `MAX_RATE` = 0 (R358). -/
def trgLimit (s : State) (n : Nat) : LimTrg :=
  let l := nth s.cfg.lim.trg n LimTrg.reset
  if s.isFenced (.trg n) then { l with maxRate := 0 } else l

/-- Chimney passes a rising edge of trigger n now (R224). -/
def risePasses (s : State) (n : Nat) : Bool :=
  let l := trgLimit s n
  let now := s.clk.count
  let rises := (s.trg n).rises
  (match rises with | [] => true | r :: _ => r + l.minSpacing ≤ now)
    && (rises.filter fun r => now < r + 1000000000).length + 1 ≤ l.maxRate

/-- The pin of a trigger from its sources (R333): only what Chimney passed reaches it. -/
def Trg.settle (t : Trg) : Trg := { t with pin := (t.latch && t.latchPassed) || (t.pulseEnd.isSome && t.pulsePassed) }

/-- A rising edge of trigger n is asked for (R224): `f` makes it where it passes; a withheld edge is counted and raises source 84. -/
def riseTrg (s : State) (n : Nat) (pass hold : Trg → Trg) : State :=
  if (s.trg n).pin then s.setTrg n fun t => (pass t).settle
  else if risePasses s n then
    s.setTrg n fun t =>
      (pass { t with rises := s.clk.count :: t.rises.filter fun r => s.clk.count < r + 1000000000 }).settle
  else raise 84 (s.setTrg n fun t => (hold { t with withheld := t.withheld + 1 }).settle)

/-- PULSE on trigger n (R321, R333, R334). -/
def firePulse (n width : Nat) (s : State) : State :=
  if !trgRuns s then s
  else
    let e := s.clk.count + width
    riseTrg s n (fun t => { t with pulseEnd := some (max e (t.pulseEnd.getD 0)), pulsePassed := true }) id

/-- SET on trigger n (R321, R334): a set counts as a rising edge (R224). -/
def fireSet (n : Nat) (s : State) : State :=
  if !trgRuns s || (s.trg n).latch then s
  else riseTrg s n (fun t => { t with latch := true, latchPassed := true })
    (fun t => { t with latch := true, latchPassed := false })

/-- CLEAR on trigger n (R321). -/
def fireClear (n : Nat) (s : State) : State :=
  s.setTrg n fun t => { t with latch := false, latchPassed := false }.settle

/-- The Vouching gate stops the triggers (R78, R334): latches are cleared; a pulse in progress ends at the earlier of its end and 10 µs. -/
def stopTriggers (s : State) : State :=
  { s with ou := { s.ou with trg := s.ou.trg.map fun t =>
      { t with latch := false, latchPassed := false,
               pulseEnd := t.pulseEnd.map fun e => min e (s.clk.count + 10000) }.settle } }

/-! ## Capture windows (R335) -/

/-- Window of TSIn. -/
abbrev State.window (s : State) (n : Nat) : Win := nth s.sc.win n Win.reset

/-- Window n changed. -/
abbrev State.setWin (s : State) (n : Nat) (f : Win → Win) : State := { s with sc := { s.sc with win := upd s.sc.win n f } }

/-- A window opens or closes in a cycle (R335). -/
def Win.go (cycle : Nat) (opens : Bool) (ends : Option Nat) (w : Win) : Win :=
  { isOpen := opens, ends := ends,
    past := if w.isOpen = opens then w.past else (cycle, w.isOpen) :: w.past.filter fun p => decide (cycle < p.1 + 2000) }

/-- The window covers a stamp in a cycle (R335): from its opening cycle on, up to its closing cycle. -/
def Win.covers (cycle : Int) (w : Win) : Bool := w.past.foldl (fun r p => if cycle < p.1 then p.2 else r) w.isOpen

/-- Every window closes. -/
def closeWindows (s : State) : State := { s with sc := { s.sc with win := s.sc.win.map (Win.go s.clk.count false none) } }

/-! ## Actions -/

/-- Action a. -/
abbrev State.action (s : State) (a : Nat) : Act := nth s.sc.act a Act.reset

/-- Action a changed. -/
abbrev State.setAct (s : State) (a : Nat) (f : Act → Act) : State := { s with sc := { s.sc with act := upd s.sc.act a f } }

/-- OPTIONS[0] UNBOUNDED. -/
abbrev CfgAct.unbounded (c : CfgAct) : Bool := c.options.getLsbD 0
/-- OPTIONS[1] REBASE. -/
abbrev CfgAct.rebase (c : CfgAct) : Bool := c.options.getLsbD 1
/-- OPTIONS[2] ARM_ON_LOAD. -/
abbrev CfgAct.armOnLoad (c : CfgAct) : Bool := c.options.getLsbD 2
/-- The action repeats. -/
abbrev CfgAct.repeats (c : CfgAct) : Bool := decide (1 < c.count) || c.unbounded

/-- The late policy in effect (R327): 1 REJECT, 2 FIRE_LATE, 3 SKIP. -/
def CfgAct.policy (c : CfgAct) : Nat :=
  if c.latePolicy = 0 then (if c.count = 1 ∧ !c.unbounded then 1 else 3) else c.latePolicy

/-- Outputs an action of a kind may name (R321): how many there are. -/
def outputLimit (kind : Nat) : Nat :=
  if kind = 1 ∨ kind = 2 ∨ kind = 3 then 48 else if kind = 4 ∨ kind = 5 ∨ kind = 6 then 64 else if kind = 7 then 4 else 256

/-- Some element lies outside its range under R321 or R344. -/
def CfgAct.outOfRange (c : CfgAct) : Bool :=
  decide (7 < c.kind) || decide (7 < c.axis) || decide (2 < c.direction) || decide (3 < c.latePolicy)
    || decide (outputLimit c.kind ≤ c.output) || c.count == 0
    || ((c.kind == 1 || c.kind == 6) && (decide (c.width < 10) || decide (1000000000 < c.width))) || c.width == 0

/-- The servo slot bound to action a and enabled. -/
def boundServo (s : State) (a : Nat) : Option Nat :=
  (List.range 48).find? fun k =>
    let c := nth s.cfg.servo k CfgServo.reset
    c.enable == 1 && c.action == a

/-- The lead of an action armed now (R322, R337). -/
def leadOf (s : State) (a : Nat) : Nat :=
  match boundServo s a with
  | some k => (nth s.sc.servo k Servo.reset).lead
  | none => 0

/-- Λ of R326 for a latency of `ns`: time on a time axis, |v| × latency elsewhere. -/
def margin (s : State) (axis ns : Nat) : Rat :=
  if axis < 4 then ns else absR (axisVel s axis) * ns / 1000000000

/-- The target is late (R326). -/
def isLate (dir : Nat) (d : Int) (lam : Rat) : Bool :=
  if dir = 0 then decide ((d : Rat) < lam) else if dir = 1 then decide (-(d : Rat) < lam)
  else decide (absR (d : Rat) < lam)

/-- The fewest whole periods that make a late target not late (R327). -/
def skipCount (dir : Nat) (d : Int) (lam : Rat) (period : Nat) : Nat :=
  if period = 0 then 0
  else if dir = 1 then (ceilR ((lam + d) / period)).toNat else (ceilR ((lam - d) / period)).toNat

/-- The target moved by `k` periods: T + PERIOD, or T − PERIOD for BACKWARD (R324). -/
def moveTarget (c : CfgAct) (t : BitVec 64) (k : Nat) : BitVec 64 :=
  if c.direction = 1 then t - BitVec.ofNat 64 (c.period * k) else t + BitVec.ofNat 64 (c.period * k)

/-- A status change that raises source 240 (R328). -/
def statusEvent (a : Nat) (s : State) : State := raise 240 { s with sc := { s.sc with lastStatus := a } }

/-- Action a enters a status that R328 reports. -/
def endAction (a : Nat) (st : ActState) (s : State) : State :=
  statusEvent a (s.setAct a fun x => { x with status := st, effectAt := none, fireLate := false, delayed := false })

/-- A late target of action a handled as SKIP (R327): whole periods are skipped, or the action becomes DISCARDED. -/
def skipAction (a : Nat) (d : Int) (lam : Rat) (s : State) : State :=
  let c := s.cfg.action a
  let x := s.action a
  let k := skipCount c.direction d lam c.period
  let gone : Bool := !c.repeats || c.period == 0 || (!c.unbounded && decide (x.remaining ≤ k))
  let n := if gone then (if c.unbounded then k else min (max k 1) x.remaining) else k
  let s1 := raise 242 (s.setAct a fun x =>
    { x with next := moveTarget c x.next n, skipped := x.skipped + n,
             remaining := if c.unbounded then x.remaining else x.remaining - n })
  if gone then endAction a .discarded s1 else s1

/-- The late policy applied to the present target of an armed action (R327), for a latency of `ns`. `afterLate`: the occurrence before
was fired late, so later late ones are skipped. FIRE_LATE fires the target when `effectAt` is reached. -/
def applyPolicy (a ns : Nat) (afterLate : Bool) (s : State) : State :=
  let c := s.cfg.action a
  let x := s.action a
  let d := gapTo s c.axis x.lead x.next
  let lam := margin s c.axis ns
  if !isLate c.direction d lam then s
  else if c.policy = 1 then endAction a .tooLate s
  else if c.policy = 2 ∧ !afterLate then s.setAct a fun x => { x with fireLate := true }
  else skipAction a d lam s

/-- The sign of D for EITHER (R322). -/
def noteSign (a : Nat) (s : State) : State :=
  let c := s.cfg.action a
  s.setAct a fun x => { x with armSign := (gapTo s c.axis x.lead x.next).sign }

/-- At a re-arm or a re-evaluation a late target under FIRE_LATE fires in the next cycle (R327). -/
def fireNext (a : Nat) (s : State) : State :=
  if (s.action a).fireLate then s.setAct a fun x => { x with effectAt := some (s.clk.count + 1) } else s

/-- The present target re-evaluated as if armed at this instant (R326 to R328, R330). -/
def reevaluate (a : Nat) (s : State) : State :=
  let s1 := s.setAct a fun x => { x with status := .armed, fireLate := false, delayed := false, effectAt := some (s.clk.count + 2000) }
  fireNext a (noteSign a (applyPolicy a 2000 false s1))

/-! ### Arming (R325 to R327) -/

/-- The axis states in which an armed action is SUSPENDED (R325, R328). -/
def axisSuspends (x : AxisState) : Bool := x == .unhomed || x == .fault || x == .fenced

/-- The checks of R325 other than lateness, in the order of its table: the status of the first that holds. -/
def armCheck (s : State) (a : Nat) : Option Nat :=
  let c := s.cfg.action a
  let x := s.action a
  if c.kind = 0 ∨ c.outOfRange then some 0x04
  else if c.axis < 4 ∧ c.direction ≠ 0 then some 0x04
  else if c.axis < 4 ∧ c.period < 20 ∧ c.repeats then some 0x04
  else if c.period = 0 ∧ c.repeats then some 0x05
  else if axisState s c.axis = .off then some 0x06
  else if axisState s c.axis = .fenced ∨ s.isFenced .calendar then some 0x0C
  else if x.status = .armed ∨ x.status = .suspended then some 0x08
  else none

/-- The action as an accepted arm sets it (R325). -/
def armedAct (s : State) (a : Nat) (st : ActState) : Act → Act := fun x =>
  let c := s.cfg.action a
  { x with
    status := st, next := c.target, remaining := if c.unbounded then 0xFFFFFFFF else c.count,
    fires := 0, lateCount := 0, skipped := 0, lead := leadOf s a, fireLate := false, delayed := false,
    effectAt := some (s.clk.count + 2000), armSign := 0 }

/-- `CONTROL` = 1 (R325 to R327): the status and the state after it. The effect comes 2 µs later. -/
def armAction (a : Nat) (s : State) : Nat × State :=
  match armCheck s a with
  | some st => (st, s)
  | none =>
    let c := s.cfg.action a
    if axisSuspends (axisState s c.axis) then (0x00, statusEvent a (s.setAct a (armedAct s a .suspended)))
    else
      let lead := leadOf s a
      let d := gapTo s c.axis lead c.target
      if c.policy = 1 ∧ isLate c.direction d (margin s c.axis 2000) then (0x09, s)
      else (0x00, noteSign a (applyPolicy a 2000 false (s.setAct a (armedAct s a .armed))))

/-- A disarm takes effect (R329). -/
def disarmAction (a : Nat) (s : State) : State := endAction a .cancelled s

/-- Actions in a state, on an axis. -/
def actionsWhere (s : State) (p : Nat → CfgAct → Act → Bool) : List Nat :=
  (List.range s.sc.act.length).filter fun a => p a (s.cfg.action a) (s.action a)

/-! ### Firing (R322 to R324) -/

/-- The condition of `DIRECTION` holds (R322). -/
def crossed (dir : Nat) (d sign : Int) : Bool :=
  if dir = 0 then decide (d ≤ 0) else if dir = 1 then decide (0 ≤ d)
  else d == 0 || (decide (d < 0) && decide (0 < sign)) || (decide (0 < d) && decide (sign < 0))

/-- The arming of an action has taken effect. -/
abbrev Act.effective (x : Act) (now : Nat) : Bool := match x.effectAt with | none => true | some e => decide (e ≤ now)

/-- Action a is due in this cycle (R322, R327). -/
def isDue (s : State) (a : Nat) : Bool :=
  let c := s.cfg.action a
  let x := s.action a
  x.status == .armed && !x.delayed && x.effective s.clk.count
    && (x.fireLate || crossed c.direction (gapTo s c.axis x.lead x.next) x.armSign)

/-- What the action does when it fires (R321). -/
def actionEffect (a : Nat) (late : Bool) (s : State) : State :=
  let c := s.cfg.action a
  if c.kind = 1 then firePulse c.output c.width s
  else if c.kind = 2 then fireSet c.output s
  else if c.kind = 3 then fireClear c.output s
  else if c.kind = 4 then s.setWin c.output fun w => w.go s.clk.count true w.ends
  else if c.kind = 5 then s.setWin c.output (Win.go s.clk.count false none)
  else if c.kind = 6 then
    s.setWin c.output fun w => w.go s.clk.count true (some (max (s.clk.count + c.width) (w.ends.getD 0)))
  else if c.kind = 7 then
    { s with ts := s.ts.addMarker s.clk.count (markerWord (s.tbs c.output) c.output c.tag a late) }
  else s

/-- A miss of a servo slot (R338). -/
def servoMiss (k : Nat) (s : State) : State :=
  raise 246 { s with sc := { s.sc with servo := upd s.sc.servo k fun v => { v with misses := v.misses + 1 } } }

/-- The axis has reached the target of an occurrence, seen in the direction of its action; EITHER goes by the direction of motion. -/
def reached (s : State) (c : CfgAct) (target : BitVec 64) : Bool :=
  let d := (target - axisPos s c.axis).toInt
  if c.direction = 1 ∨ (c.direction = 2 ∧ axisVel s c.axis < 0) then decide (0 ≤ d) else decide (d ≤ 0)

/-- The cycle in which a steadily moving axis reached a target that it has passed by now (R338). -/
def reachedAt (s : State) (axis : Nat) (target : BitVec 64) : Int :=
  let v := absR (axisVel s axis)
  let q := axisPosR s axis
  let past := absR ((-(target - pos64 q).toInt : Rat) + (q - q.floor))
  if v = 0 then s.clk.count else s.clk.count - (past * 1000000000 / v).floor

/-- t_target of an occurrence that fires now (R338), where the axis is there already: it may lie before the firing. A timebase was
nowhere on the way before its last step. -/
def targetAtFire (s : State) (c : CfgAct) (target : BitVec 64) : Option Rat :=
  if reached s c target then
    some (max (if c.axis < 4 then (s.tbs c.axis).lastStepAt else 0 : Int) (reachedAt s c.axis target) : Int)
  else none

/-- The firing of its action opens a frame of the bound servo slot (R338). An open frame whose t_target has not occurred is a miss; one
that has it goes on waiting for its strobe. -/
def openFrame (a : Nat) (target : BitVec 64) (s : State) : State :=
  match boundServo s a with
  | none => s
  | some k =>
    let live := (nth s.sc.servo k Servo.reset).live
    let s1 := (live.filter fun fr => fr.tTarget.isNone).foldl (fun s _ => servoMiss k s) s
    let fr : SvFrame :=
      { SvFrame.reset with fire := s.clk.count, target := target, tTarget := targetAtFire s (s.cfg.action a) target }
    { s1 with sc := { s1.sc with servo := upd s1.sc.servo k fun v =>
        { v with live := (live.filter fun fr => fr.tTarget.isSome) ++ [fr] } } }

/-- After a firing the action moves on (R324). -/
def moveOn (a : Nat) (wasLate : Bool) (s : State) : State :=
  let c := s.cfg.action a
  let x := s.action a
  if !c.unbounded && decide (x.remaining ≤ 1) then
    endAction a .done (s.setAct a fun x => { x with remaining := 0 })
  else
    let s1 := s.setAct a fun x =>
      { x with next := moveTarget c x.next 1, remaining := if c.unbounded then x.remaining else x.remaining - 1,
               fireLate := false, delayed := false, effectAt := some (s.clk.count + 4), lead := leadOf s a }
    fireNext a (noteSign a (applyPolicy a 4 wasLate s1))

/-- How many actions the calendar can still fire in this cycle (R323). -/
def fireRoom (s : State) : Nat := 64 - (if s.sc.firedAt = s.clk.count then s.sc.fired else 0)

/-- Action a fires (R322 to R324, R327): `overrun` where it was delayed beyond its cycle. -/
def fireAction (a : Nat) (overrun : Bool) (s : State) : State :=
  let c := s.cfg.action a
  let x := s.action a
  let late := x.fireLate
  let d := gapTo s c.axis x.lead x.next
  let lateness : Int := if c.direction = 1 then d else -d
  let s1 := actionEffect a late s
  let s2 := s1.setAct a fun x =>
    { x with fires := x.fires + 1, lastFire := s.clk.count,
             lastFlags := (if late then 1#8 else 0#8) ||| (if overrun then 2#8 else 0#8),
             lastLateness := if late || overrun then lateness else x.lastLateness,
             lateCount := if late then x.lateCount + 1 else x.lateCount }
  moveOn a late (openFrame a x.next (raiseIf late 241 s2))

/-- Actions fire in order of action number (R323), a delayed one as an overrun. -/
def fireList (l : List Nat) (s : State) : State :=
  let n := 64 - fireRoom s + l.length
  l.foldl (fun s a => fireAction a (s.action a).delayed s) { s with sc := { s.sc with firedAt := s.clk.count, fired := n } }

/-- Actions due in this cycle beyond its 64 are delayed to the following cycles (R323): source 243. -/
def delayList (l : List Nat) (s : State) : State :=
  if l.isEmpty then s
  else
    raise 243 (l.foldl (fun s a => s.setAct a fun x => { x with delayed := true, effectAt := some (s.clk.count + 1) })
      { s with sc := { s.sc with overruns := s.sc.overruns + l.length } })

/-! ### Axis transitions (R319, R328, R340) -/

/-- The armed actions of an axis are suspended (R328). -/
def suspendAxis (axis : Nat) (s : State) : State :=
  (actionsWhere s fun _ c x => c.axis == axis && x.status == .armed).foldl
    (fun s a => statusEvent a (s.setAct a fun x => { x with status := .suspended, delayed := false })) s

/-- The suspended actions of an axis are re-evaluated (R328). -/
def resumeAxis (axis : Nat) (s : State) : State :=
  (actionsWhere s fun _ c x => c.axis == axis && x.status == .suspended).foldl (fun s a => reevaluate a s) s

/-- Axis a (4 to 7) enters a state (R319): source 232 + a, and its actions follow (R328). -/
def setAxisState (a : Nat) (st : AxisState) (s : State) : State :=
  let old := (nth s.ax a Axis.reset).state
  if old = st then s
  else
    let s1 := raise (232 + a) { s with ax := upd s.ax a fun x =>
      { x with state := st, lastChange := s.clk.count,
               stalls := if st = .stalled then x.stalls + 1 else x.stalls } }
    if axisSuspends st then suspendAxis a s1
    else if axisSuspends old && (st == .tracking || st == .stalled) && !s.sc.stopped then resumeAxis a s1 else s1

/-- A move of an axis by `delta` units (R330): each armed or suspended action on it is shifted (REBASE) or, where armed,
re-evaluated; source 244. The position has already moved. -/
def rebaseAxis (axis : Nat) (delta : BitVec 64) (s : State) : State :=
  let l := actionsWhere s fun _ c x => c.axis == axis && (x.status == .armed || x.status == .suspended)
  if l.isEmpty then s
  else
    raise 244 (l.foldl (fun s a =>
      if (s.cfg.action a).rebase then s.setAct a fun x => { x with next := x.next + delta }
      else if (s.action a).status = .armed then reevaluate a s else s) s)

/-- The calendar is fenced (R329). -/
def fenceCalendar (s : State) : State :=
  let s1 := { s with sc := { s.sc with act := s.sc.act.map fun x => { x with status := .fenced, effectAt := none, delayed := false } } }
  closeWindows (stopTriggers ((List.range 1024).foldl (fun s a => statusEvent a s) s1))

end Sys2Proof.Machine
end

