-- ==== Sys2Proof/Machine/Servo.lean ====
section
/-! DEFINITION. The exposure-centroid servo (R337 to R339): enabling, the instants of a frame, misses and the lead. -/

namespace Sys2Proof.Machine

/-- Servo slot k. -/
abbrev State.servo (s : State) (k : Nat) : Servo := nth s.sc.servo k Servo.reset
/-- Servo slot k changed. -/
abbrev State.setServo (s : State) (k : Nat) (f : Servo → Servo) : State :=
  { s with sc := { s.sc with servo := upd s.sc.servo k f } }
/-- Written configuration of servo slot k. -/
abbrev Cfg.slot (c : Cfg) (k : Nat) : CfgServo := nth c.servo k CfgServo.reset
/-- Written configuration of timestamp input n. -/
abbrev Cfg.tsi (c : Cfg) (n : Nat) : CfgTsi := nth c.ts n CfgTsi.reset

/-- `ENABLE` = 1 of slot k is acceptable (R337). -/
def servoMayEnable (s : State) (k : Nat) : Bool :=
  let c := s.cfg.slot k
  let n := s.cfg.tsi c.strobeInput
  (s.cfg.action c.action).kind == 1
    && !((List.range 48).any fun j => j != k && (s.cfg.slot j).enable == 1 && (s.cfg.slot j).action == c.action)
    && n.enable == 1 && n.edges == 3#8
    && decide (c.leadMin ≤ c.leadMax) && decide (c.leadMin ≤ c.leadInit) && decide (c.leadInit ≤ c.leadMax)

/-- The lead of slot k and of the occurrence its action has in hand (R337). -/
def setLead (k l : Nat) (s : State) : State :=
  (s.setServo k fun v => { v with lead := l }).setAct (s.cfg.slot k).action fun x => { x with lead := l }

/-- `ENABLE` of slot k takes a value that R337 accepts: the counters run from the enabling (R349). -/
def enableServo (k v : Nat) (s : State) : State :=
  let old := (s.cfg.slot k).enable
  let s1 := { s with cfg := { s.cfg with servo := upd s.cfg.servo k fun c => { c with enable := v } } }
  if old = v then s1
  else if v = 1 then setLead k (s.cfg.slot k).leadInit (s1.setServo k fun _ => Servo.reset)
  else setLead k 0 (s1.setServo k fun x => { x with live := [] })

/-- A frame with midpoint (`a` + `f`) ÷ 2 is complete (R339): its error, the exposure, the new lead and where it applies. -/
def completeFrame (k : Nat) (a f target : Rat) (s : State) : State :=
  let c := s.cfg.slot k
  let e := (a + f) / 2 - target
  let d0 := truncR (e * c.gain / 256)
  let d := clampI (-(c.stepMax : Int)) c.stepMax d0
  let l0 : Int := (s.servo k).lead + d
  let l := clampI c.leadMin c.leadMax l0
  let clamps : Bool := decide (d ≠ d0) || decide (l ≠ l0)
  let s1 := s.setServo k fun v =>
    { v with
      lead := l.toNat, lastError := satInt 32 (readInt e), lastExposure := (readInt (f - a)).toNat,
      frames := v.frames + 1, clamps := if clamps then v.clamps + 1 else v.clamps }
  let act := s.cfg.action c.action
  let keep : Bool := (s.action c.action).status == .armed &&
    isLate act.direction (gapTo s act.axis l.toNat (s.action c.action).next) (margin s act.axis 2000)
  raiseIf clamps 245 (if keep then s1 else s1.setAct c.action fun x => { x with lead := l.toNat })

/-- The stamp lies within `STROBE_WINDOW` after a firing (R338). -/
def inStrobe (c : CfgServo) (fire : Nat) (t : Rat) : Bool :=
  decide ((fire : Rat) ≤ t) && decide (t ≤ ((fire + c.strobeWindow : Nat) : Rat))

/-- A frame with all its instants is complete (R339). -/
def SvFrame.complete (fr : SvFrame) : Option (Rat × Rat × Rat) :=
  match fr.s, fr.f, fr.tTarget with
  | some a, some f, some x => some (a, f, x)
  | _, _, _ => none

/-- The complete frames of slot k leave it, the oldest first (R339). -/
def completeFrames (k : Nat) (s : State) : State :=
  let l := (s.servo k).live
  (l.filterMap SvFrame.complete).foldl (fun s q => completeFrame k q.1 q.2.1 q.2.2 s)
    (s.setServo k fun v => { v with live := l.filter fun fr => fr.complete.isNone })

/-- An open frame takes an exposing edge in its strobe window (R338): the first is s. -/
def SvFrame.expose (c : CfgServo) (t : Rat) (fr : SvFrame) : SvFrame :=
  if inStrobe c fr.fire t && fr.s.isNone then { fr with s := some t } else fr

/-- An open frame takes the opposite edge (R338): the first within `MAX_EXPOSURE` after s is f. -/
def SvFrame.close (c : CfgServo) (t : Rat) (fr : SvFrame) : SvFrame :=
  match fr.s, fr.f with
  | some a, none => if a < t ∧ t ≤ a + c.maxExposure then { fr with f := some t } else fr
  | _, _ => fr

/-- An exposing edge reaches slot k (R338): each open frame takes it; one in no frame's strobe window is stray. -/
def exposingEdge (k : Nat) (t : Rat) (s : State) : State :=
  let c := s.cfg.slot k
  let v := s.servo k
  if v.live.any fun fr => inStrobe c fr.fire t then
    s.setServo k fun v => { v with live := v.live.map (SvFrame.expose c t) }
  else if decide (0 < v.frames + v.misses) && inStrobe c (s.action c.action).lastFire t then s
  else s.setServo k fun v => { v with stray := v.stray + 1 }

/-- The opposite edge reaches slot k (R338). -/
def closingEdge (k : Nat) (t : Rat) (s : State) : State :=
  completeFrames k (s.setServo k fun v => { v with live := v.live.map (SvFrame.close (s.cfg.slot k) t) })

/-- The stamp of an edge of input n reaches the servo, whatever the capture filters decide (R338). -/
def strobeEdge (n : Nat) (falling : Bool) (t : Rat) (s : State) : State :=
  ((List.range 48).filter fun k => (s.cfg.slot k).enable == 1 && (s.cfg.slot k).strobeInput == n).foldl
    (fun s k => if falling == ((s.cfg.slot k).strobePolarity == 1) then exposingEdge k t s else closingEdge k t s) s

/-- The awaited edge of an open frame has not come in time (R338). -/
def SvFrame.overdue (c : CfgServo) (now : Nat) (fr : SvFrame) : Bool :=
  match fr.s, fr.f with
  | none, _ => decide (fr.fire + c.strobeWindow ≤ now)
  | some a, none => decide (a + c.maxExposure ≤ now)
  | some _, some _ => false

/-- STROBE_WINDOW_EXPIRY (R338): each frame that waits in vain is a miss. -/
def strobeExpiry (k : Nat) (s : State) : State :=
  let l := (s.servo k).live
  let late := fun fr : SvFrame => fr.overdue (s.cfg.slot k) s.clk.count
  (l.filter late).foldl (fun s _ => servoMiss k s) (s.setServo k fun v => { v with live := l.filter fun fr => !late fr })

/-! ## t_target (R338) -/

/-- t_target of a frame is noted once the axis has reached the target. `back` where the axis moved while time passed, so that the
crossing may lie before the present cycle. -/
def SvFrame.target? (s : State) (c : CfgAct) (back : Bool) (fr : SvFrame) : SvFrame :=
  if fr.tTarget.isNone && reached s c fr.target then
    { fr with tTarget := some (if back then (max (fr.fire : Int) (reachedAt s c.axis fr.target) : Int) else (s.clk.count : Rat)) }
  else fr

/-- The open frames of slot k follow the axis; one that waited for it alone is complete. -/
def noteTarget (back : Bool) (s : State) (k : Nat) : State :=
  let c := s.cfg.action (s.cfg.slot k).action
  completeFrames k (s.setServo k fun v => { v with live := v.live.map (SvFrame.target? s c back) })

/-- The frames of every slot follow their axes. -/
def noteTargets (back : Bool) (s : State) : State :=
  ((List.range 48).filter fun k => !(s.servo k).live.isEmpty).foldl (noteTarget back) s

end Sys2Proof.Machine
end

