-- ==== Sys2Proof/Machine/Intervals.lean ====
section
/-! DEFINITION. Timestamp inputs and the interval and frequency channels (R281 to R305), as operations on the state. -/

namespace Sys2Proof.Machine

/-- Timestamp input n. -/
abbrev State.tsi (s : State) (n : Nat) : Tsi := nth s.ts.inp n Tsi.reset
/-- Timestamp input n changed. -/
abbrev State.setTsi (s : State) (n : Nat) (f : Tsi → Tsi) : State := { s with ts := { s.ts with inp := upd s.ts.inp n f } }
/-- Channel TCk. -/
abbrev State.tcs (s : State) (k : Nat) : Tc := nth s.tc k Tc.reset
/-- Channel TCk changed. -/
abbrev State.setTc (s : State) (k : Nat) (f : Tc → Tc) : State := { s with tc := upd s.tc k f }
/-- Written configuration of TCk. -/
abbrev Cfg.tcs (c : Cfg) (k : Nat) : CfgTc := nth c.tc k CfgTc.reset
/-- `RUN` of TCk takes a value. -/
abbrev State.setRun (s : State) (k v : Nat) : State :=
  { s with cfg := { s.cfg with tc := upd s.cfg.tc k fun c => { c with run := v } } }

/-- A real value in units of 2⁻¹⁶, as engine time keeps it (log entry 10 for the rounding). -/
def units16 (q : Rat) : Rat := (readInt (q * 65536) : Rat) / 65536

/-- The square root of a value in whole units; which neighbour stands for a root between two is not stated (log entry 10). -/
def rootUnits (q : Rat) : Nat :=
  let n := q.floor.toNat
  let r := isqrt n
  if ((r * r : Nat) : Rat) = q then r else if Config.roundUp q then r + 1 else r

/-! ## Interval mode (R301, R302) -/

/-- An edge takes its place among those waiting: by stamp, starts first (R301). -/
def insertEdge (e : Rat × Bool) : List (Rat × Bool) → List (Rat × Bool)
  | [] => [e]
  | x :: rest => if e.1 < x.1 ∨ (e.1 = x.1 ∧ e.2 ∧ !x.2) then e :: x :: rest else x :: insertEdge e rest

/-- A result of stop − start with the later of its stamps (R302): SUBRES below 1 ps, REVERSED below 0. -/
def resultOf (later r : Rat) : Rat × Rat × BitVec 8 :=
  (later, r, (if r < 0 then 2#8 else 0) ||| (if absR r < 1 / 1000 then 1#8 else 0))

/-- A held stop that no start can reach any more is an early stop (R302): `t` is the stamp that has been reached. -/
def dropStop (w t : Rat) (x : Tc) : Tc :=
  match x.stop with
  | some b => if b + w < t then { x with stop := none, earlyNow := x.earlyNow + 1 } else x
  | none => x

/-- A start edge is taken (R302). -/
def takeStart (t : Rat) (x : Tc) : Tc :=
  match x.stop, x.start with
  | some b, _ => { x with stop := none, results := resultOf t (b - t) :: x.results }
  | none, some _ => { x with start := some t, unpairedNow := x.unpairedNow + 1 }
  | none, none => { x with start := some t }

/-- A stop edge is taken (R302). -/
def takeStop (t : Rat) (x : Tc) : Tc :=
  match x.start, x.stop with
  | some a, _ => { x with start := none, results := resultOf t (t - a) :: x.results }
  | none, some _ => { x with stop := some t, earlyNow := x.earlyNow + 1 }
  | none, none => { x with stop := some t }

/-- An edge is taken in stamp order (R301, R302), with W in ns. -/
def takeEdge (w : Rat) (e : Rat × Bool) (x : Tc) : Tc :=
  let y := dropStop w e.1 x
  if e.2 then takeStart e.1 y else takeStop e.1 y

/-- W of R302, ns. -/
def coincidenceNs (c : CfgTc) : Rat := (c.coincidence : Rat) / 1000

/-! ## Frequency mode (R304) -/

/-- The elements at even positions. -/
def evens {α : Type} : List α → List α
  | a :: _ :: r => a :: evens r
  | l => l

/-- An edge of a gate in FREQUENCY mode (R304): it is counted, and stamped where it is a D-th edge. -/
def countStamp (most : Nat) (t : Rat) (x : Tc) : Tc :=
  let i := x.edgeCount
  let y := { x with edgeCount := i + 1 }
  if i % max 1 x.dNow ≠ 0 then y
  else if x.stamps.length < most then { y with stamps := t :: x.stamps }
  else
    let kept := (evens x.stamps.reverse).reverse
    let d := 2 * x.dNow
    { y with dNow := d, stamps := if i % max 1 d = 0 then t :: kept else kept }

/-- The sums of the fit over stamps u = t − t₀ at x = i·D − m: Sxx, Sxu, Su. -/
def fitSums (d m : Rat) (l : List Rat) : Rat × Rat × Rat :=
  (indexed l).foldl (fun (sxx, sxu, su) (i, u) =>
    let x := (i : Rat) * d - m
    (sxx + x * x, sxu + x * u, su + u)) (0, 0, 0)

/-- The elements of both modes at 0: a publication updates them all together (R311). -/
def clearResults (x : Tc) : Tc :=
  { x with
    count := 0, mean := 0, stddev := 0, min := 0, max := 0, last := 0, lastFlags := 0#8, reversed := 0, subres := 0,
    early := 0, unpaired := 0, freq := 0, offset := 0, rms := 0, decimation := 0 }

/-- What a gate in FREQUENCY mode publishes (R304); with fewer than 3 stamps NO_SIGNAL. The rule states no f for a fitted period that is
not above 0: it is a free value (log entry 122). -/
def fitGate (nominal : Nat) (x : Tc) : Tc :=
  let l := x.stamps.reverse
  let n := l.length
  let y := clearResults x
  if n < 3 then { y with flags := 8#8 }
  else
    let d : Rat := x.dNow
    let m := d * ((n - 1 : Nat) : Rat) / 2
    let t0 := l.headD 0
    let us := l.map fun t => t - t0
    let (sxx, sxu, su) := fitSums d m us
    let period := sxu / sxx
    let f := if period ≤ 0 then Config.fittedFreq period else 1000000000 / period
    let ubar := su / n
    let ss : Rat := ((indexed us).map fun (i, u) =>
      let r := u - ubar - period * ((i : Rat) * d - m)
      r * r).foldl (· + ·) 0
    { y with
      freq := f, offset := if nominal = 0 then 0 else (f * 1000 / nominal - 1) * ppt1,
      rms := min (2 ^ 32 - 1) (rootUnits (ss / n * 65536 * 65536)), count := n, decimation := x.dNow, flags := 0#8 }

/-! ## Gates (R298, R299, R303) -/

/-- A gate starts at `t`; what is open carries over (R302). The first gate after a stop is the one in which the channel began. -/
def Tc.newGate (warm : Bool) (t : Rat) (x : Tc) : Tc :=
  { x with began := if x.gate.isNone then t else x.began, gate := some t, warming := !warm, earlyNow := 0, unpairedNow := 0, stamps := [], dNow := 1, edgeCount := 0 }

/-- Everything a gate has in hand is discarded (R298). -/
def Tc.discard (x : Tc) : Tc :=
  { x with gate := none, waiting := [], start := none, stop := none, results := [], earlyNow := 0, unpairedNow := 0,
           stamps := [], dNow := 1, edgeCount := 0, resume := false, warming := false }

/-- What a gate in INTERVAL mode publishes (R303) over the results whose later stamp lies in it: from its start up to its end (R298). -/
def statGate (t : Rat) (x : Tc) : Tc :=
  let rs := x.results.filter fun r => decide (x.gate.getD 0 ≤ r.1) && decide (r.1 < t)
  let y := { clearResults x with
    results := x.results.filter (fun r => !(decide (r.1 < t))), early := x.earlyNow, unpaired := x.unpairedNow }
  match rs with
  | [] => { y with flags := 8#8 }
  | r :: more =>
    let n := rs.length
    let vs := rs.map fun r => r.2.1
    let mean := meanOf vs
    let var : Rat := if n < 2 then 0
      else (vs.map fun v => (v - mean) * (v - mean)).foldl (· + ·) 0 / ((n - 1 : Nat) : Rat)
    let rev := (rs.filter fun r => bit8 r.2.2 1).length
    let sub := (rs.filter fun r => bit8 r.2.2 0).length
    { y with
      count := n, mean := mean, stddev := rootUnits (var * 65536 * 65536),
      min := more.foldl (fun a r => if r.2.1 < a then r.2.1 else a) r.2.1,
      max := more.foldl (fun a r => if a < r.2.1 then r.2.1 else a) r.2.1,
      last := r.2.1, lastFlags := r.2.2, reversed := rev, subres := sub,
      flags := (if 0 < rev then 2#8 else 0) ||| (if 0 < sub then 1#8 else 0) }
where
  /-- Mean of the results. -/
  meanOf (l : List Rat) : Rat := if l.isEmpty then 0 else l.foldl (· + ·) 0 / l.length

/-- Inputs that the mode of a channel uses (R298). -/
def tcInputs (c : CfgTc) : List Nat := if c.mode = 1 then [c.startInput] else [c.startInput, c.stopInput]

/-- The edges waiting with stamps before `t` are taken, in order. -/
def takeBefore (w t : Rat) (x : Tc) : Tc :=
  (x.waiting.filter fun e => decide (e.1 < t)).foldl (fun x e => takeEdge w e x)
    { x with waiting := x.waiting.filter fun e => !(decide (e.1 < t)) }

/-- The gate of TCk that ends at `t` is published (R299, R300, R303, R304): source 216 + k. -/
def publish (k : Nat) (t : Rat) (interrupted : Bool) (s : State) : State :=
  let c := s.cfg.tcs k
  let x := s.tcs k
  let y := if c.mode = 1 then fitGate c.nominal x else statGate t (takeBefore (coincidenceNs c) t x)
  let z := { y with
    gates := x.gates + 1, gateEnd := t.floor.toNat,
    flags := y.flags ||| (if x.warming || !s.md.ovenReady then 16#8 else 0) ||| (if interrupted then 4#8 else 0) }
  raise (216 + k) (s.setTc k fun _ => z)

/-- A stamp reaches a channel in FREQUENCY mode: within its gate it is counted; one beyond the gate waits for the next. -/
def freqStamp (c : CfgTc) (t : Rat) (x : Tc) : Tc :=
  match x.gate with
  | none => x
  | some g =>
    if t < g then x
    else if t < g + ((c.gate * 1000000 : Nat) : Rat) then countStamp c.maxStamps t x
    else { x with waiting := insertEdge (t, true) x.waiting }

/-- The next gate of a continuous channel starts where the last one ended (R298). -/
def nextGate (k : Nat) (t : Rat) (s : State) : State :=
  let c := s.cfg.tcs k
  s.setTc k fun x =>
    let y := x.newGate s.md.ovenReady t
    if c.mode = 1 then y.waiting.foldl (fun z e => freqStamp c e.1 z) { y with waiting := [] } else y

/-- The channel stops with a status; `RUN` reads 0. -/
def stopTc (k st : Nat) (s : State) : State := (s.setRun k 0).setTc k fun x => { x.discard with status := st }

/-- GATE_END (R303). -/
def gateEnd (k : Nat) (s : State) : State :=
  let c := s.cfg.tcs k
  match (s.tcs k).gate with
  | none => s
  | some g =>
    let e := g + ((c.gate * 1000000 : Nat) : Rat)
    if (s.clk.count : Rat) < e then s
    else
      let s1 := publish k e false s
      if c.run = 2 then stopTc k 2 s1 else nextGate k e s1

/-- A gate is cut now and published with INTERRUPTED (R299). -/
def cutGate (k : Nat) (s : State) : State :=
  if (s.tcs k).gate.isSome then publish k s.clk.count true s else s

/-- An input in use is disabled or fenced (R283, R299): its channels publish and stop with STATUS 3. -/
def interruptInput (n : Nat) (s : State) : State :=
  ((List.range 16).filter fun k => (s.cfg.tcs k).run != 0 && (tcInputs (s.cfg.tcs k)).contains n).foldl
    (fun s k => stopTc k 3 (cutGate k s)) s

/-- TCk is fenced (R299): STATUS 4. -/
def fenceTc (k : Nat) (s : State) : State := stopTc k 4 (cutGate k s)

/-- The sleep commit cuts every gate (R299): a continuous channel waits for the wake; a single gate is done. -/
def sleepTcs (s : State) : State :=
  (List.range 16).foldl (fun s k =>
    if (s.tcs k).gate.isNone then s
    else
      let s1 := cutGate k s
      if (s.cfg.tcs k).run = 2 then stopTc k 2 s1 else s1.setTc k fun x => { x.discard with resume := true }) s

/-- At the end of a wake continuous channels start a new gate (R299). -/
def wakeTcs (s : State) : State :=
  { s with tc := s.tc.map fun x =>
      if x.resume then { x.discard.newGate s.md.ovenReady s.clk.count with status := 1 } else x }

/-- The status of `RUN` written 1 or 2 (R298): RANGE for an input not enabled, FENCED for a fenced input or channel. -/
def runStatus (s : State) (k v : Nat) : Nat :=
  if v = 0 then 0x00
  else if (tcInputs (s.cfg.tcs k)).any fun n => (s.cfg.tsi n).enable != 1 then 0x04
  else if s.isFenced (.tc k) || (tcInputs (s.cfg.tcs k)).any fun n => s.isFenced (.tsi n) then 0x0C
  else 0x00

/-- `RUN` of TCk takes an accepted value (R298). -/
def writeRun (k v : Nat) (s : State) : State :=
  if v = 0 then stopTc k 0 s
  else (s.setRun k v).setTc k fun x => { x.discard.newGate s.md.ovenReady s.clk.count with status := 1 }

/-- The channels whose loaded `RUN` is not 0 start at the end of step 1 where their inputs allow it. -/
def loadTcs (s : State) : State :=
  (List.range 16).foldl (fun s k =>
    let v := (s.cfg.tcs k).run
    if v = 0 then s else if runStatus s k v = 0 then writeRun k v s else stopTc k 0 s) s

/-- TC_EDGE_EVALUATION (R301): the first edge waiting is taken, 200 ns after its stamp. -/
def evaluateEdge (k : Nat) (s : State) : State :=
  let c := s.cfg.tcs k
  match (s.tcs k).waiting with
  | e :: rest =>
    if c.mode = 0 ∧ e.1 + 200 ≤ (s.clk.count : Rat) then
      s.setTc k fun x => takeEdge (coincidenceNs c) e { x with waiting := rest }
    else s
  | [] => s

/-- HELD_STOP_EXPIRY (R302). -/
def stopExpiry (k : Nat) (s : State) : State :=
  let w := coincidenceNs (s.cfg.tcs k)
  match (s.tcs k).stop with
  | some b =>
    if b + w ≤ (s.clk.count : Rat) ∧ !((s.tcs k).waiting.any fun e => e.2 && decide (e.1 ≤ b + w)) then
      s.setTc k fun x => { x with stop := none, earlyNow := x.earlyNow + 1 }
    else s
  | none => s

/-- The stamp of an edge of input n reaches the channels that use it (R284, R301, R304). -/
def stampToTcs (n : Nat) (falling : Bool) (t : Rat) (s : State) : State :=
  let edge := b2n falling
  { s with tc := (indexed s.tc).map fun (k, x) =>
      let c := s.cfg.tcs k
      if x.gate.isNone ∨ t < x.began then x
      else
        let isStart := c.startInput == n && c.startEdge == edge
        let isStop := c.stopInput == n && c.stopEdge == edge
        if c.mode = 1 then (if isStart then freqStamp c t x else x)
        else
          let y := if isStart then { x with waiting := insertEdge (t, true) x.waiting } else x
          if isStop then { y with waiting := insertEdge (t, false) y.waiting } else y }

/-! ## Timestamp inputs (R281 to R287) -/

/-- The TDC of input n stamps (R87, R281, R283); an LVCMOS input of a connector with an invalid coding is absent (R45, R46, R47). -/
def tdcRuns (s : State) (n : Nat) : Bool :=
  s.clk.running && !s.sc.stopped && (s.cfg.tsi n).enable == 1 && !s.isFenced (.tsi n)
    && !((s.cfg.tsi n).elecMode == 0 && s.isFenced (.conn (if n < 32 then 2 else 3)))

/-- The interpolators of an input have not both completed their first table (R282). -/
def Tsi.uncal (x : Tsi) : Bool := x.tables.any fun b => !b

/-- The capture record of a stamp (R285 to R287): the timebase and the window are taken as they were in the cycle of the stamp. -/
def captureOf (s : State) (n : Nat) (falling : Bool) (t : Rat) : FifoRec :=
  let k := (s.cfg.tsi n).timebase
  let x := s.tsi n
  let (count, b) := (s.tbs k).asOf s.clk.count t.floor
  { stamp := t,
    word := captureWord b (stampValue b.now (tbRate s k) count t) n k falling x.lostFlag ((s.window n).covers t.floor) x.uncal }

/-- A stamp that passed the filters becomes a capture record (R284, R290, R292, R305); with no stream open none is made (R294). -/
def recordStamp (n : Nat) (falling : Bool) (t : Rat) (s : State) : State :=
  let ev := (s.cfg.tsi n).edgeEvent == 1
  if s.ts.stream.isNone then s
  else
    let (x, rose) := (s.tsi n).enqueue (captureOf s n falling t)
    let kept := decide ((s.tsi n).fifo.length < 16)
    raiseIf rose (152 + n) (raiseIf (ev && kept) (152 + n) (s.setTsi n fun _ => x))

/-- The filters of R284, in order. -/
def captureFilters (n : Nat) (falling : Bool) (t : Rat) (s : State) : State :=
  let c := s.cfg.tsi n
  if c.toRing ≠ 1 then s
  else if c.gating = 1 ∧ !(s.window n).covers t.floor then s.setTsi n fun x => { x with outside := x.outside + 1 }
  else
    let d := (s.tsi n).dec
    let s1 := s.setTsi n fun x => { x with dec := if d + 1 < c.decimate then d + 1 else 0 }
    if d = 0 then recordStamp n falling t s1 else s1

/-- The TDC of input n has stamped an edge (R281, R282, R284): the filters, the TC channels and the servo receive it. -/
def stampEdge (n : Nat) (falling : Bool) (t : Rat) (s : State) : State :=
  let uncal := (s.tsi n).uncal
  let s1 := s.setTsi n fun x =>
    { x with captured := x.captured + 1, sticky := if uncal then x.sticky ||| 4#8 else x.sticky }
  strobeEdge n falling t (stampToTcs n falling t (captureFilters n falling t s1))

/-- TSI_EDGE (R281): an edge at the pin at engine time `pin`, ns. One of a pulse shorter than 2 ns (`short`, R52), or less than 2 ns
after the stamped edge before it, may be lost: whether it is, is a free value. -/
def tsiEdge (n : Nat) (falling : Bool) (pin : Rat) (short : Bool) (s : State) : State :=
  let c := s.cfg.tsi n
  if !tdcRuns s n || !bit8 c.edges (b2n falling) then s
  else
    let near := short || (match (s.tsi n).lastEdge with | some e => decide (pin < e + 2) | none => false)
    let s1 := if near then { s with free := s.free + 1 } else s
    if near && Config.freeBool s.free then s1
    else stampEdge n falling (units16 (pin - (c.delayComp : Rat) / 1000)) (s1.setTsi n fun x => { x with lastEdge := some pin })

/-- TDC_CALIBRATION (R282): the table of the calibrating interpolator is complete and the two exchange roles. -/
def tdcCalibrated (n : Nat) (s : State) : State :=
  s.setTsi n fun x => { x with tables := upd x.tables (1 - x.stamping) fun _ => true, stamping := 1 - x.stamping }

/-- The TDCs start afresh after a wake (R282). -/
def tdcRestart (s : State) : State :=
  { s with ts := { s.ts with inp := s.ts.inp.map fun x => { x with tables := [false, false] } } }

/-- `ENABLE` of input n takes a value (R284, R299). -/
def enableTsi (n v : Nat) (s : State) : State :=
  let s1 := { s with cfg := { s.cfg with ts := upd s.cfg.ts n fun c => { c with enable := v } } }
  if v = 1 then s1.setTsi n fun x => { x with dec := 0 } else interruptInput n s1

/-- Input n is fenced (R283). -/
def fenceTsi (n : Nat) (s : State) : State := interruptInput n s

/-- STALE_RECORD (R292, R305). -/
def staleRecord (n : Nat) (s : State) : State :=
  let (x, rose) := (s.tsi n).dropStale s.clk.count
  raiseIf rose (152 + n) (s.setTsi n fun _ => x)

/-- RING_SLOT (R290): one stamp slot of the ring. -/
def ringSlot (s : State) : State := if s.clk.running then { s with ts := s.ts.slot s.clk.count } else s

/-- A timebase as it stood in the cycle in which its present second began: whole cycles back from now (R288). -/
def Tb.atSecond (sec : Int) (rate : Rat) (t : Tb) : Tb :=
  let into : Rat := t.now - ((sec * 1000000000 : Int) : Rat)
  { t with now := t.now - (into / rate).floor * rate }

/-- ANCHOR_PERIODIC (R288): the seconds field of timebase k has changed since its last periodic anchor. -/
def anchorPeriodic (k : Nat) (s : State) : State :=
  let sec := (s.tbs k).now.floor / 1000000000
  if nth s.ts.tbSec k 0 = sec ∨ s.ts.stream.isNone then s
  else
    let b := (s.tbs k).atSecond sec (tbRate s k)
    let ts := { s.ts with tbSec := upd s.ts.tbSec k fun _ => sec }
    { s with ts := ts.addAnchor s.clk.count k (anchorOf b k false false) }

end Sys2Proof.Machine
end

