-- ==== Sys2Proof/Machine/Axes.lean ====
section
/-! DEFINITION. Angle and travel axes (R315 to R320, R330), the firing of due actions (R322, R323) and the calendar image (R347). -/

namespace Sys2Proof.Machine

/-- Axis a. -/
abbrev State.axis (s : State) (a : Nat) : Axis := nth s.ax a Axis.reset
/-- Axis a changed. -/
abbrev State.setAxis (s : State) (a : Nat) (f : Axis → Axis) : State := { s with ax := upd s.ax a f }

/-! ## Counting (R315, R318) -/

/-- The trackers run: not before the engine clock, not in STANDBY (R87, R320). -/
def trackerRuns (s : State) (a : Nat) : Bool :=
  s.clk.running && !s.sc.stopped && !s.isFenced (.axis a) && (s.axis a).state != .off && (s.axis a).state != .fenced

/-- Forward where the quadrature sequence says so: A leads B, so after a change of A the levels differ, after one of B they agree.
With `INVERT` = 1 A and B have swapped roles. -/
def quadForward (aChanged a b : Bool) : Bool := if aChanged then a != b else a == b

/-- The count that a change of A and B makes (R315, R318): forward or backward, or none. -/
def countOf (c : CfgAx) (aChanged bChanged a b : Bool) : Option Bool :=
  let (ac, bc, av, bv) := if c.invert = 1 then (bChanged, aChanged, b, a) else (aChanged, bChanged, a, b)
  let every : Option Bool := if ac || bc then some (quadForward ac av bv) else none
  let rising (dir : Bool) : Option Bool := if ac && av then some dir else none
  if c.kind = 2 then
    (if c.travelMode = 0 then every else if c.travelMode = 1 then rising true else rising (!bv))
  else if c.countMode = 0 then every else rising (!bv)

/-- Bandwidth of the velocity loop (R316): `TRACK_BW` capped at one tenth of the count rate, in 0.1 Hz, for an interval in ns. -/
def trackBandwidth (c : CfgAx) (interval : Nat) : Nat := if interval = 0 then c.trackBw else min c.trackBw (1000000000 / interval)

/-- The correction that the loop makes for an error: none for none (log entry 11). -/
def trackGain (f : Nat → Rat → Rat → Rat) (bw : Nat) (e dt : Rat) : Rat := if e = 0 then 0 else f bw e dt

/-- The tracker of one axis takes a counted edge (R316) of `forward` direction; `est` is the estimate just before it. An edge that
reverses the direction is the last counted edge passed back, so its position is that one's, and the move back is at most one count
(DEDUCED, log entry 121). -/
def Axis.takeCount (c : CfgAx) (now : Nat) (forward : Bool) (est : Rat) (x : Axis) : Axis :=
  let turns : Bool := decide (0 < x.edges) && x.backward == forward
  let step := countStep c
  let xe := if turns then x.xe else if forward then x.xe + step else x.xe - step
  let y : Axis :=
    { x with edges := x.edges + 1, xe := xe, te := now, countedAt := now, hold := none, fresh := false, backward := !forward,
             sinceIndex := x.sinceIndex.map fun n => if forward then n + 1 else n - 1 }
  let interval := now - x.countedAt
  let dt : Rat := interval
  if turns then
    -- the direction turns: v is reseeded from 0
    { y with v := 0, integ := 0, extrap := false, sticky := setBit8 x.sticky 2 }
  else if x.fresh then { y with v := 0, integ := 0, extrap := false }
  else
    let e := xe - est
    let bw := trackBandwidth c interval
    let i := x.integ + trackGain Config.trackInteg bw e dt
    { y with integ := i, v := i + trackGain Config.trackProp bw e dt, extrap := true }

/-- What the estimate would be without its limit (R316): the error of the loop is taken against it. -/
def rawEstimate (x : Axis) (now : Nat) : Rat := if x.extrap then x.xe + x.v * ((now : Rat) - x.te) / 1000000000 else x.xe

/-- An illegal transition (R315, R319). -/
def illegalEdge (a : Nat) (s : State) : State :=
  let s1 := s.setAxis a fun x => { x with illegal := x.illegal + 1, sticky := setBit8 x.sticky 1 }
  let st := (s.axis a).state
  if st == .tracking || st == .stalled then setAxisState a .fault s1 else s1

/-- The actions of axis a that this cycle crosses fire (R322); the calendar runs outside STANDBY and while it is not fenced. -/
def calendarRuns (s : State) : Bool :=
  s.clk.running && !s.sc.stopped && !s.isFenced .calendar &&
    (match s.md.mode with | .startup => false | .standby => false | _ => true)

/-- AXIS_COUNT_EDGE (R315, R316, R319). Outside TRACKING and STALLED an angle axis counts as well: only its state does not follow. -/
def countEdge (k : Nat) (aChanged bChanged a b : Bool) (s : State) : State :=
  let ax := k + 4
  let c := s.cfg.axi k
  if !trackerRuns s ax then s
  else if aChanged && bChanged then illegalEdge ax s
  else
    match countOf c aChanged bChanged a b with
    | none => s
    | some forward =>
      let s1 := s.setAxis ax fun x => x.takeCount c s.clk.count forward (rawEstimate x s.clk.count)
      if (s.axis ax).state == .stalled then setAxisState ax .tracking s1 else s1

/-! ## Index edges (R317) -/

/-- The index position nearest a position: n × 2³² + `INDEX_OFFSET`. -/
def nearestIndex (c : CfgAx) (p : Rat) : Rat :=
  let turn : Rat := (2 ^ 32 : Nat)
  (((p - c.indexOffset) / turn + 1 / 2).floor : Rat) * turn + c.indexOffset

/-- The position is set at an index edge: the estimate goes on from there. -/
def Axis.place (now : Nat) (p : Rat) (x : Axis) : Axis := { x with xe := p, te := now, hold := none, extrap := false, sinceIndex := some 0 }

/-- The distance of the counts since the previous index from the counts per turn (R317). -/
def indexMismatch (c : CfgAx) (n : Int) : Nat :=
  let p := countsPerTurn c
  (n.natAbs - p) + (p - n.natAbs)

/-- INDEX_EDGE (R317, R319, R331): homing, check, correction, fault, re-homing. -/
def indexEdge (k : Nat) (s : State) : State :=
  let a := k + 4
  let c := s.cfg.axi k
  if !trackerRuns s a || c.kind ≠ 1 then s
  else
    let now := s.clk.count
    let x := s.axis a
    let est := axiPos c x now
    let s1 := s.setAxis a fun x => { x with lastIndex := now }
    match x.state with
    | .unhomed =>
      setAxisState a .tracking (s1.setAxis a fun x => { x with xe := c.indexOffset, te := now, hold := none, sinceIndex := some 0 })
    | .fault => setAxisState a .tracking (s1.setAxis a fun x => x.place now (nearestIndex c est))
    | _ =>
      match x.sinceIndex with
      | none => s1.setAxis a fun x => { x with sinceIndex := some 0 }
      | some n =>
        let m := indexMismatch c n
        if m = 0 then s1.setAxis a fun x => { x with sinceIndex := some 0 }
        else if m ≤ c.indexTol then
          raise (232 + a) (s1.setAxis a fun x =>
            { x.place now (nearestIndex c est) with
              extrap := x.extrap, hold := none, indexErrors := x.indexErrors + 1, sticky := setBit8 x.sticky 0 })
        else setAxisState a .fault (s1.setAxis a fun x => { x with sinceIndex := some 0 })

/-! ## Stall, kind and preset (R318, R319, R330, R343) -/

/-- The estimate stands at `p` and v is 0 (R319): the next counted edge gives no interval. -/
def Axis.stand (p : Rat) (x : Axis) : Axis := { x with hold := some p, v := 0, integ := 0, extrap := false, fresh := true }

/-- No counted edge for `STALL_EDGES` times the expected interval (R319). -/
def stallDue (s : State) (a : Nat) : Bool :=
  let c := s.cfg.axi (a - 4)
  let x := s.axis a
  let v := absR x.v
  x.state == .tracking && decide (0 < v) &&
    decide ((x.countedAt : Rat) + c.stallEdges * countStep c * 1000000000 / v ≤ s.clk.count)

/-- AXIS_STALL (R319): the position holds where the estimate stands. -/
def axisStall (k : Nat) (s : State) : State :=
  let a := k + 4
  if trackerRuns s a && stallDue s a then
    let p := axiPos (s.cfg.axi k) (s.axis a) s.clk.count
    setAxisState a .stalled (s.setAxis a (Axis.stand p))
  else s

/-- Some action on the axis is ARMED or SUSPENDED (R343). -/
def axisBusy (s : State) (a : Nat) : Bool :=
  !(actionsWhere s fun _ c x => c.axis == a && (x.status == .armed || x.status == .suspended)).isEmpty

/-- `KIND` of AXIk takes an accepted value (R319, R342): the count of edges starts afresh. -/
def writeKind (k v : Nat) (s : State) : State :=
  let a := k + 4
  let old := (s.axis a).state
  let s1 := { s with cfg := { s.cfg with ax := upd s.cfg.ax k fun c => { c with kind := v } } }
  let fresh (x : Axis) : Axis :=
    { x with edges := 0, xe := 0, te := s.clk.count, countedAt := s.clk.count, v := 0, integ := 0, extrap := false, sinceIndex := none, backward := false, hold := none, fresh := true }
  if old = .fenced then s1
  else if v = 0 then setAxisState a .off (s1.setAxis a fun x => { x.stand (axiPos (s.cfg.axi k) x s.clk.count) with edges := 0 })
  else if old = .off then setAxisState a (if v = 1 then .unhomed else .stalled) (s1.setAxis a fresh)
  else s1.setAxis a fun x => { x with edges := 0 }

/-- `PRESET` of AXIk (R318, R330, R340): the status and the state after it. -/
def presetAxis (k v : Nat) (s : State) : Nat × State :=
  let a := k + 4
  let c := s.cfg.axi k
  if s.isFenced (.axis a) then (0x0C, s)
  else if c.kind ≠ 2 then (0x06, s)
  else
    let old := axiPos c (s.axis a) s.clk.count
    let target : BitVec 64 := BitVec.ofNat 64 v
    let delta := target - pos64 old
    let s1 := raise (232 + a) (s.setAxis a fun x =>
      { x with xe := target.toInt, te := s.clk.count, hold := none, sticky := setBit8 x.sticky 3 })
    let s2 := rebaseAxis a delta s1
    (0x00, if (s.axis a).state = .fault then setAxisState a .stalled (s2.setAxis a (Axis.stand target.toInt)) else s2)

/-- A tracker is fenced (R319, R328). -/
def fenceAxis (a : Nat) (s : State) : State := setAxisState a .fenced (s.setAxis a fun x => x.stand (axiPos (s.cfg.axi (a - 4)) x s.clk.count))

/-- The trackers at the load of step 1 and at the erase of the configuration: an axis follows its `KIND`. -/
def loadAxes (s : State) : State :=
  [0, 1, 2, 3].foldl (fun s k =>
    let v := (s.cfg.axi k).kind
    if v = 0 then s else writeKind k v s) s

/-- The axes at the end of a wake (R320): an angle axis is not homed; a travel axis stands and marks the gap. -/
def wakeAxes (s : State) : State :=
  [4, 5, 6, 7].foldl (fun s a =>
    let c := s.cfg.axi (a - 4)
    let st := (s.axis a).state
    if st == .off || st == .fenced then s
    else if c.kind = 1 then setAxisState a .unhomed (s.setAxis a fun x => { x with sinceIndex := none })
    else if st == .fault then s
    else setAxisState a .stalled (s.setAxis a fun x => { x with sticky := setBit8 x.sticky 4 })) s

/-- The trackers and the calendar stop at the sleep commit (R320, R332, R334, R335): positions hold, latches and windows close. -/
def sleepCalendar (s : State) : State :=
  let hold (a : Nat) (x : Axis) : Axis :=
    if a < 4 then x
    else x.stand (axiPos (s.cfg.axi (a - 4)) x s.clk.count)
  let s1 := { s with ax := (indexed s.ax).map fun (a, x) => hold a x, sc := { s.sc with stopped := true } }
  closeWindows { s1 with ou := { s1.ou with trg := s1.ou.trg.map fun t => { t with latch := false, latchPassed := false }.settle } }

/-- The calendar runs again at the end of a wake (R332): each ARMED action is re-evaluated. -/
def wakeCalendar (s : State) : State :=
  let s1 := wakeAxes { s with sc := { s.sc with stopped := false } }
  if s.isFenced .calendar then s1
  else (actionsWhere s1 fun _ _ x => x.status == .armed).foldl (fun s a => reevaluate a s) s1

/-! ## Firing (R322, R323) -/

/-- Action a was delayed in an earlier cycle and fires in this one (R323). -/
def isDelayed (s : State) (a : Nat) : Bool :=
  let x := s.action a
  x.status == .armed && x.delayed && x.effective s.clk.count

/-- ACTION_FIRE (R323): the actions due fire in order of action number, with those delayed before, 64 in a cycle; the others are
delayed. -/
def fireDue (s : State) : State :=
  if !calendarRuns s then s
  else
    let l := (List.range s.sc.act.length).filter fun a => isDue s a || isDelayed s a
    delayList ((l.drop (fireRoom s)).filter (isDue s)) (fireList (l.take (fireRoom s)) s)

/-- OVERRUN_FIRE (R323): in a following cycle the delayed actions fire, 64 per cycle. -/
def fireDelayed (s : State) : State :=
  if !calendarRuns s then s
  else fireList (((List.range s.sc.act.length).filter (isDelayed s)).take (fireRoom s)) s

/-- ARM_EFFECT (R326, R327): the arming of action a takes effect; a FIRE_LATE target fires in that cycle. -/
def armEffect (a : Nat) (s : State) : State :=
  let x := s.action a
  if !calendarRuns s || x.status != .armed then s
  else
    match x.effectAt with
    | none => s
    | some e =>
      if s.clk.count < e then s
      else
        let s1 := s.setAct a fun x => { x with effectAt := none }
        let s2 := if x.fireLate then s1 else noteSign a s1
        if !isDue s2 a then s2 else if fireRoom s2 = 0 then delayList [a] s2 else fireList [a] s2

/-- `DISARM_ALL` (R346): every ARMED or SUSPENDED action, in one cycle. -/
def disarmAll (s : State) : State :=
  (actionsWhere s fun _ _ x => x.status == .armed || x.status == .suspended).foldl (fun s a => disarmAction a s) s

/-- `KIND` of action a takes an accepted value (R328). -/
def writeActKind (a v : Nat) (s : State) : State :=
  let s1 := { s with cfg := { s.cfg with act := upd s.cfg.act a fun c => { c with kind := v } } }
  if (s.action a).status = .fenced then s1
  else if v = 0 then s1.setAct a fun x => { x with status := .empty }
  else if (s.action a).status = .empty then s1.setAct a fun x => { x with status := .idle }
  else s1

/-- Statuses of the actions as their configuration was loaded or erased (R328, R332, R426). -/
def loadActions (s : State) : State :=
  { s with sc := { s.sc with act := (indexed s.sc.act).map fun (a, x) =>
      if x.status = .fenced then x
      else { Act.reset with status := if (s.cfg.action a).kind = 0 then .empty else .idle } } }

/-- Actions with ARM_ON_LOAD are armed as if commanded in this cycle (R332, R347). -/
def armLoaded (s : State) : State :=
  ((List.range s.cfg.act.length).filter fun a => (s.cfg.action a).kind != 0 && (s.cfg.action a).armOnLoad).foldl
    (fun s a => (armAction a s).2) s

/-! ## The calendar image (R347) -/

/-- The 64 bytes of one action (R347). -/
def CfgAct.bytes (c : CfgAct) : List Byte :=
  natBytes 1 c.axis ++ natBytes 1 c.kind ++ natBytes 1 c.direction ++ natBytes 1 c.latePolicy ++ natBytes 1 c.output
    ++ natBytes 1 c.tag ++ natBytes 2 c.options.toNat ++ natBytes 8 c.target.toNat ++ natBytes 8 c.period
    ++ natBytes 4 c.count ++ natBytes 4 c.width ++ List.replicate 32 0

/-- The action that 64 bytes spell; reserved bits of `OPTIONS` are ignored (R14). -/
def readAct (b : List Byte) : CfgAct :=
  let f (o n : Nat) : Nat := bytesNat ((b.drop o).take n)
  { axis := f 0 1, kind := f 1 1, direction := f 2 1, latePolicy := f 3 1, output := f 4 1, tag := f 5 1,
    options := BitVec.ofNat 16 (f 6 2 % 8), target := BitVec.ofNat 64 (f 8 8), period := f 16 8, count := f 24 4, width := f 28 4 }

/-- The image without its CRC. -/
def calendarBody (s : State) : List Byte :=
  natBytes 2 1 ++ natBytes 2 0x9600 ++ natBytes 2 1024 ++ natBytes 2 64 ++ natBytes 8 0 ++ s.cfg.act.flatMap CfgAct.bytes

/-- The `CALENDAR` image (R347): 65,556 bytes. -/
def calendarImage (s : State) : List Byte := let b := calendarBody s; b ++ natBytes 4 (crc32 b)

/-- Pieces of 64 bytes. -/
def records64 : Nat → List Byte → List (List Byte)
  | 0, _ => []
  | n + 1, b => b.take 64 :: records64 n (b.drop 64)

/-- A record with `KIND` ≠ 0 passes the ranges of R344 and the checks of R325 other than lateness. -/
def recordOk (s : State) (c : CfgAct) : Bool :=
  c.kind == 0 ||
    (!c.outOfRange && !(decide (c.axis < 4) && c.direction != 0)
      && !(decide (c.axis < 4) && decide (c.period < 20) && c.repeats) && !(c.period == 0 && c.repeats)
      && axisState s c.axis != .off && axisState s c.axis != .fenced)

/-- The actions that an image carries; none where R347 refuses it with CHECK. -/
def readCalendar (s : State) (b : List Byte) : Option (List CfgAct) :=
  let f (o n : Nat) : Nat := bytesNat ((b.drop o).take n)
  if b.isEmpty then some (List.replicate 1024 CfgAct.reset)
  else if b.length ≠ 65556 ∨ f 0 2 ≠ 1 ∨ f 2 2 ≠ 0x9600 ∨ f 4 2 ≠ 1024 ∨ f 6 2 ≠ 64 ∨ f 65552 4 ≠ crc32 (b.take 65552) then none
  else
    let l := (records64 1024 (b.drop 16)).map readAct
    if l.all (recordOk s) then some l else none

/-- The status of a write of `CALENDAR` (R347). -/
def calendarStatus (s : State) (b : List Byte) : Nat :=
  if s.isFenced .calendar then 0x0C
  else if !(actionsWhere s fun _ _ x => x.status == .armed || x.status == .suspended).isEmpty then 0x08
  else if (readCalendar s b).isNone then 0x0B
  else 0x00

/-- An accepted image replaces every action (R347). -/
def writeCalendar (b : List Byte) (s : State) : State :=
  match readCalendar s b with
  | none => s
  | some l => armLoaded (loadActions { s with cfg := { s.cfg with act := l } })

/-! ## Ends of pulses and windows (R333, R335) -/

/-- PULSE_END (R333). -/
def pulseEnd (n : Nat) (s : State) : State :=
  match (s.trg n).pulseEnd with
  | some e => if e ≤ s.clk.count then s.setTrg n fun t => { t with pulseEnd := none, pulsePassed := false }.settle else s
  | none => s

/-- WINDOW_END (R335). -/
def windowEnd (n : Nat) (s : State) : State :=
  match (s.window n).ends with
  | some e => if e ≤ s.clk.count then s.setWin n (Win.go e false none) else s
  | none => s

end Sys2Proof.Machine
end

