-- ==== Sys2Proof/Machine/Lantern.lean ====
section
/-! DEFINITION. Lantern (R164 to R189): the model of the OCXO, the history, holdover episodes, the bound, the model image. -/

namespace Sys2Proof.Machine

/-- Channel n changed. -/
abbrev State.setChan (s : State) (n : Nat) (f : Chan → Chan) : State := { s with dp := upd s.dp n f }
/-- Lantern's registers of channel n changed. -/
abbrev State.setHo (s : State) (n : Nat) (f : Ho → Ho) : State := { s with ln := { s.ln with ho := upd s.ln.ho n f } }

/-- Seconds in a day. -/
def day : Nat := 86400

/-- FREQ64 value in ppt (R413). -/
def freq64 (v : Int) : Rat := (v : Rat) / 65536

/-- `AGE`, the powered age, s (R168): what NV holds from earlier starts and the seconds of the engine count. -/
def ageNow (s : State) : Nat := s.nv.age + s.clk.count / 1000000000

/-- T, m°C (R167): the lagged baseplate temperature, or the reading until the lag has its first. -/
def tempNow (s : State) : Rat := s.ln.tInt.getD s.pwr.tBase
/-- P, mW (R167). -/
def loadNow (s : State) : Rat := s.ln.pInt.getD s.pwr.load

/-- A value in units of 2⁻⁶⁴, the nearest below: how finely the model holds the real numbers of R167 and R168 (log entry 12). -/
def fine (q : Rat) : Rat := ((q * 2 ^ 64).floor : Rat) / 2 ^ 64

/-- The first `n` terms from the k-th of the series of e⁻ˣ, given the one before it. -/
def expTerms (x : Rat) : Nat → Nat → Rat → Rat
  | 0, _, _ => 0
  | n + 1, k, prev => let t := -(prev * x / k); t + expTerms x n (k + 1) t

/-- e⁻ˣ for 0 ≤ x ≤ 1 (R167), by 24 terms of its series, whose error stays below 10⁻²³. -/
def expNeg (x : Rat) : Rat := fine (1 + expTerms x 24 1 1)

/-- The first `n` terms of z + z³ ÷ 3 + z⁵ ÷ 5 + …, from the k-th power with its value. -/
def atanhTerms (z : Rat) : Nat → Nat → Rat → Rat
  | 0, _, _ => 0
  | n + 1, k, pow => pow / k + atanhTerms z n (k + 2) (pow * z * z)

/-- ln q for 1 ≤ q < 2 or q = 2: twice the series at (q − 1) ÷ (q + 1), which is at most 1/3; 24 terms leave an error below 10⁻²³. -/
def lnUnit (q : Rat) : Rat := let z := fine ((q - 1) / (q + 1)); 2 * atanhTerms z 24 1 z

/-- ln(1 + x) for x ≥ 0 (R168): the power of two in 1 + x, and the rest. -/
def ln1p (x : Rat) : Rat :=
  let k := Nat.log2 (1 + x).floor.toNat
  fine (k * lnUnit 2 + lnUnit ((1 + x) / 2 ^ k))

/-- One second of a first-order lag of time constant `tau` s (R167). -/
def lagStep (tau : Nat) (old : Option Rat) (x : Rat) : Rat :=
  match old with
  | none => x
  | some y => if tau = 0 then x else fine (y + (x - y) * (1 - expNeg (1 / tau)))

/-! ## The model (R168 to R170) -/

/-- Temperature index i of R169. -/
def cellI (t : Rat) : Nat := if t < -30000 then 0 else if 70000 ≤ t then 11 else ((t + 40000) / 10000).floor.toNat
/-- Load index j of R169. -/
def cellJ (p : Rat) : Nat := if p < 8000 then 0 else if p < 14000 then 1 else if p < 18000 then 2 else if p < 22000 then 3
  else if p < 26000 then 4 else 5
/-- The cell of T and P (R169). -/
def cellOf (t p : Rat) : Nat := 6 * cellI t + cellJ p

/-- Cell c of a model. -/
abbrev Model.cell (m : Model) (c : Nat) : Cell := nth m.cells c Cell.reset

/-- A cell is populated (R169). -/
def populated (cfg : CfgLn) (m : Model) (c : Nat) : Bool := decide (cfg.cellMin ≤ (m.cell c).n)

/-- The populated cells, in order. -/
def populatedCells (cfg : CfgLn) (m : Model) : List Nat := (List.range 72).filter (populated cfg m)

/-- Distance of two indices. -/
def ndist (a b : Nat) : Nat := (a - b) + (b - a)

/-- Order of preference of cell c seen from cell `src` (R170): distance, then |Δi|, then i, then j. -/
def cellKey (src c : Nat) : Nat :=
  let di := ndist (src / 6) (c / 6)
  let dj := ndist (src % 6) (c % 6)
  (di + dj) * 10000 + di * 100 + c

/-- The cell used to evaluate F from cell `src` (R170). -/
def nearestCell (src : Nat) (l : List Nat) : Option Nat :=
  l.foldl (fun best c => match best with
    | none => some c
    | some b => if cellKey src c < cellKey src b then some c else some b) none

/-- F_cell of a cell (R168), ppt. -/
def cellValue (c : Cell) (t p : Rat) : Rat :=
  freq64 c.v + (c.gT : Rat) / 1000 * ((t - c.tBar) / 1000) + (c.gP : Rat) / 1000 * ((p - c.pBar) / 1000)

/-- The ageing terms of R168 at powered age `a` s, ppt. -/
def ageing (m : Model) (a : Rat) : Rat := freq64 m.a * ln1p (a / day) + freq64 m.b * (a / day)

/-- An evaluation of F (R168, R170): the value in ppt, EXTRAPOLATED, UNMODELLED. -/
def evalF (cfg : CfgLn) (m : Model) (t p a : Rat) : Rat × Bool × Bool :=
  let l := populatedCells cfg m
  let c := cellOf t p
  if cfg.modelEnable ≠ 1 then (ageing m a, false, true)
  else match (if l.contains c then some c else nearestCell c l) with
    | none => (ageing m a, false, true)
    | some b => (cellValue (m.cell b) t p + ageing m a, b != c, false)

/-- F now. -/
def fNow (s : State) : Rat × Bool × Bool := evalF s.cfg.ln s.ln.model (tempNow s) (loadNow s) (ageNow s)

/-- F as last evaluated (R176): before the first evaluation since power-up, F of this instant. -/
def fLast (s : State) : Rat := if s.ln.tInt.isSome then s.ln.f else (fNow s).1

/-- `COVERAGE` (R169): a set bit for each populated cell. -/
def coverage (s : State) : Nat := (populatedCells s.cfg.ln s.ln.model).foldl (fun a c => a + 2 ^ c) 0

/-- `AGEING_RATE` (R188): dF/da at the present age, in units of 0.0001 ppb/day. -/
def ageingRate (s : State) : Rat :=
  (freq64 s.ln.model.a / (1 + (ageNow s : Rat) / day) + freq64 s.ln.model.b) * 10

/-! ## The start of an episode (R174, R175, R179) -/

/-- The records of channel n in `[a, b]` that are valid for candidate c (R174). A record covers the second before it. -/
def validIn (h : Ho) (c : Option Nat) (a b : Int) : List HistRec :=
  h.hist.filter fun r =>
    r.ok && r.locked && c.isSome && r.cand == c && decide (a + 1000000000 ≤ (r.atNs : Int)) && decide ((r.atNs : Int) ≤ b)

/-- Mean of a list; 0 for none. -/
def meanR (l : List Rat) : Rat := if l.isEmpty then 0 else l.foldl (· + ·) 0 / l.length

/-- Twice the standard deviation of the mean of loop terms (R179), in 10⁻¹⁵. -/
def meanSpread (l : List Rat) : Rat :=
  let n := l.length
  if n < 2 then 0
  else
    let m := meanR l
    let var : Rat := (l.map fun x => (x - m) * (x - m)).foldl (· + ·) 0 / ((n - 1 : Nat) : Rat)
    2 * sqrtRat (var / n) * 1000

/-- How an episode starts. -/
structure StartVals where
  /-- U0, ppt. -/
  u0 : Rat
  /-- F_0, ppt. -/
  f0 : Rat
  /-- U_y, 10⁻¹⁵. -/
  uy : Rat
  /-- The start is unquarantined. -/
  unq : Bool
  deriving DecidableEq, Repr

/-- U0, F_0 and U_y from records whose window has its midpoint `back` ns before now. -/
def startFrom (s : State) (l : List HistRec) (back : Nat) (unq : Bool) : StartVals :=
  let t := meanR (l.map (·.t))
  let p := meanR (l.map (·.p))
  let a : Rat := (ageNow s : Rat) - (back : Rat) / 1000000000
  let uy := meanSpread (l.map (·.term))
  { u0 := meanR (l.map (·.term)), f0 := (evalF s.cfg.ln s.ln.model t p a).1, uy := if unq then max uy 10000 else uy,
    unq := unq }

/-- The start of a holdover of channel n at this instant, for the candidate last selected (R174). -/
def holdoverStart (s : State) (n : Nat) (c : Option Nat) : StartVals :=
  let q := s.cfg.ln.quarantine * 1000000000
  let w := s.cfg.ln.avgWindow * 1000000000
  let now : Int := s.clk.count
  let l1 := validIn (s.hov n) c (now - q - w) (now - q)
  let l2 := validIn (s.hov n) c (now - w) now
  if s.cfg.ln.avgWindow ≤ 2 * l1.length then startFrom s l1 (q + w / 2) (decide (q = 0))
  else if !l2.isEmpty then startFrom s l2 (w / 2) true
  else { u0 := (s.chan n).agreed, f0 := fLast s, uy := 10000, unq := true }

/-- The condition bits of R178 that the present second gives, the UNQUARANTINED bit apart. -/
def conditionsNow (s : State) (n : Nat) : BitVec 8 :=
  (if (s.hov n).steering ≠ 0 then 32#8 else 0) ||| (if s.md.ovenReady then 0 else 16#8)
    ||| (if s.ln.unmod then 8#8 else 0) ||| (if s.ln.model.learnTime < 604800 then 2#8 else 0)
    ||| (if s.ln.extrap then 1#8 else 0)

/-- `HO_QUALITY` of condition bits (R178). -/
def hoQuality (b : BitVec 8) : Nat :=
  if bit8 b 4 then 5 else if bit8 b 3 then 4 else if bit8 b 2 then 3 else if bit8 b 1 then 2 else if bit8 b 0 then 1 else 0

/-- The condition bits of channel n become `b`; a change of `HO_QUALITY` raises its event source (R185). -/
def setConditions (n : Nat) (b : BitVec 8) (s : State) : State :=
  let q := hoQuality (s.hov n).conditions
  raiseIf (hoQuality b != q) (72 + n) (s.setHo n fun h => { h with conditions := b })

/-- R_T in force (R179), 10⁻¹⁵. -/
def residTemp (m : Model) (b : BitVec 8) : Nat :=
  if bit8 b 3 then 300000 else if bit8 b 1 then max m.rT 30000 else m.rT

/-- R_A in force (R179), 0.0001 ppb/day. -/
def residAge (m : Model) (b : BitVec 8) : Nat := if bit8 b 3 || bit8 b 1 then max m.rA 500 else m.rA

/-- The least natural number not below q + √v × 10⁻⁶ for non-negative q and v. -/
def ceilPlusRoot (q v : Rat) : Nat :=
  let m := (ceilR (q + sqrtRat v / 1000000)).toNat
  if ((m : Rat) - q) * 1000000 * (((m : Rat) - q) * 1000000) < v then m + 1 else m

/-- The published bound of R179, ns. -/
def boundOf (s : State) (h : Ho) : Nat :=
  if bit8 h.conditions 4 then 0xFFFFFFFF
  else
    let t : Rat := ((s.clk.count : Rat) - h.h0) / 1000000000
    let ra : Rat := (residAge s.ln.model h.conditions : Rat) / 10000000000000 / day
    min 0xFFFFFFFE (ceilPlusRoot (h.e0 + h.uy * t / 1000000 + ra * t * t / 2 * 1000000000) h.vT)

/-- `BOUND` of channel n refreshed (R179, R185). -/
def refreshBound (n : Nat) (s : State) : State :=
  let b := boundOf s (s.hov n)
  let exceeds := decide (s.cfg.sy.vouchLimit < b)
  raiseIf (exceeds && !(s.hov n).overLim) (72 + n)
    (s.setHo n fun h => { h with bound := b, overLim := h.overLim || exceeds })

/-- An episode of channel n begins (R174 to R176, R178, R179) with `gap` ps of a pull that was ended. -/
def beginEpisode (n : Nat) (v : StartVals) (gap : Rat) (s : State) : State :=
  let s1 := s.setHo n fun h =>
    { h with
      u0 := v.u0, f0 := v.f0, uy := v.uy, m := -(fLast s - v.f0), h0 := s.clk.count, vT := 0, overLim := false,
      e0 := ((s.cfg.chan n).lockWindow : Rat) / 1000 + absR gap / 1000 }
  refreshBound n (setConditions n (conditionsNow s n ||| (if v.unq then 4#8 else 0)) s1)

/-- An episode of channel n ends (R177, R179): M and the bound become 0. -/
def endEpisode (n : Nat) (s : State) : State := s.setHo n fun h => { h with m := 0, bound := 0, overLim := false }

/-! ## The evaluation of each second (R23, R167, R174, R176, R178, R179) -/

/-- A second of a channel in HOLDOVER or FENCED. -/
def holdSecond (n : Nat) (s : State) : State :=
  let s1 := setConditions n ((s.hov n).conditions ||| conditionsNow s n) s
  let k : Rat := if s.ln.extrap then 4 else 1
  let rt : Rat := residTemp s.ln.model (s1.hov n).conditions
  refreshBound n (s1.setHo n fun h => { h with vT := h.vT + k * k * rt * rt * 3600, m := -(s.ln.f - h.f0) })

/-- The candidate a channel has selected. -/
abbrev State.selected (s : State) (n : Nat) : Option Nat := (nth s.rf.sel n Sel.reset).selected

/-- A second of a channel that has no episode: its bits show what a holdover entered now would start with (R178). -/
def trackSecond (n : Nat) (s : State) : State :=
  match (s.chan n).state with
  | .idle => setConditions n 0#8 s
  | _ => setConditions n (conditionsNow s n ||| (if (holdoverStart s n (s.selected n)).unq then 4#8 else 0)) s

/-- The record of the second that ends now (R174): the mean loop term, the candidate and lock throughout, T and P. -/
def recordSecond (n : Nat) (s : State) : State :=
  let c := s.chan n
  let r : HistRec :=
    { atNs := s.clk.count, term := if c.secDur = 0 then c.loopTerm else c.secTerm / c.secDur, cand := c.secCand,
      locked := c.secLocked, steer := if c.secDur = 0 then freq64 (s.hov n).steering else c.secSteer / c.secDur,
      t := tempNow s, p := loadNow s, ok := true }
  (s.setHo n fun h => { h with hist := (r :: h.hist).take 12288 }).setChan n fun c =>
    { c with secTerm := 0, secSteer := 0, secDur := 0, secCand := s.selected n, secLocked := c.state == .locked && c.inLock }

/-- A channel has a holdover episode. -/
def inEpisode (c : Chan) : Bool := c.state == .holdover || c.state == .fenced

/-- One second of channel n. -/
def lanternSecond (s : State) (n : Nat) : State :=
  let s1 := recordSecond n s
  if inEpisode (s1.chan n) then holdSecond n s1 else trackSecond n s1

/-- LANTERN_EVALUATION (R23): T and P follow their sensors, F is evaluated, and every channel has its second. -/
def lanternEvaluate (s : State) : State :=
  if !s.clk.running then s
  else
    let s1 := { s with ln := { s.ln with
      tInt := some (lagStep s.cfg.ln.tempLag s.ln.tInt s.pwr.tBase),
      pInt := some (lagStep s.cfg.ln.loadLag s.ln.pInt s.pwr.load) } }
    let (f, ex, un) := fNow s1
    let s2 := { s1 with ln := { s1.ln with f := f, extrap := ex, unmod := un } }
    (List.range 8).foldl lanternSecond s2

/-! ## Learning (R171) -/

/-- A sample added to sums. -/
def LSum.add (x : LSample) (q : LSum) : LSum := { t := q.t + x.t, p := q.p + x.p, f := q.f + x.f }

/-- A sample added to the sums of its hour and cell. -/
def addToHour (x : LSample) (cell : Nat) (l : List LHour) : List LHour :=
  let h := x.atNs / 3600000000000
  if l.any fun e => e.hour == h && e.cell == cell then
    l.map fun e => if e.hour = h ∧ e.cell = cell then { e with n := e.n + 1, sum := e.sum.add x } else e
  else { hour := h, cell := cell, n := 1, sum := LSum.reset.add x } :: l

/-- One sample enters the model's working copy (R171, R172). -/
def takeSample (x : LSample) (l : Ln) : Ln :=
  let c := cellOf x.t x.p
  { l with
    work := { l.work with cells := upd l.work.cells c fun k => { k with n := k.n + 1 } },
    sums := upd l.sums c (LSum.add x), hours := addToHour x c l.hours }

/-- Samples that are `QUARANTINE` old enter the model (R171). -/
def admitDue (s : State) : State :=
  let old (x : LSample) : Bool := decide (x.atNs + s.cfg.ln.quarantine * 1000000000 ≤ s.clk.count)
  { s with ln := { (s.ln.waiting.filter old).foldl (fun l x => takeSample x l) s.ln with
      waiting := s.ln.waiting.filter fun x => !old x } }

/-- The conditions of a learning sample other than those of the history record (R171). -/
def mayLearn (s : State) : Bool :=
  s.cfg.ln.modelEnable == 1 && s.md.ovenReady &&
    (match s.selected s.cfg.ln.learnChannel with
     | some c => decide ((s.cand c).rank ≤ s.cfg.ln.learnRank)
     | none => false)

/-- The conditions of a learning sample hold throughout its second (R171). -/
def settleLearn (s : State) : State := { s with ln := { s.ln with secLearn := s.ln.secLearn && mayLearn s } }

/-- LEARNING_SAMPLE (R171): a sample of the second just recorded for `LEARN_CHANNEL`, where the STEER core runs. -/
def learn (s : State) : State :=
  if !s.runs 1 then s
  else
    let n := s.cfg.ln.learnChannel
    let s1 := match (s.hov n).hist.head? with
      | none => s
      | some r =>
        match r.cand with
        | none => s
        | some c =>
          if decide (n < 8) && s.ln.secLearn && r.ok && r.locked && mayLearn s then
            let f := -(r.term + r.steer) - ageing s.ln.model (ageNow s)
            { s with ln := { s.ln with
              waiting := s.ln.waiting ++ [{ atNs := s.clk.count, cand := c, f := f, t := r.t, p := r.p }],
              model := { s.ln.model with learnTime := s.ln.model.learnTime + 1 },
              work := { s.ln.work with learnTime := s.ln.work.learnTime + 1 } } }
          else s
    let s2 := admitDue s1
    { s2 with ln := { s2.ln with secLearn := mayLearn s2 } }

/-- Samples of a candidate that left QUALIFIED and SELECTED are discarded (R171). -/
def dropSamples (c : Nat) (s : State) : State :=
  { s with ln := { s.ln with waiting := s.ln.waiting.filter fun x => x.cand != c } }

/-! ## Commits (R172, R173) -/

/-- A model is committed (R173): every channel in an episode is re-based, so M does not change in this cycle. -/
def commitModel (m : Model) (s : State) : State :=
  let old := (fNow s).1
  let s1 := { s with ln := { s.ln with model := m, work := m, commits := s.ln.commits + 1 } }
  let (f, ex, un) := fNow s1
  { s1 with ln := { s1.ln with
      f := f, extrap := ex, unmod := un,
      ho := (indexed s1.ln.ho).map fun (n, h) =>
        if inEpisode (s1.chan n) then { h with f0 := f - (old - h.f0) } else h } }

/-- The cells after a refit (R172): counts, centroids and v, the mean de-aged offset, follow from the samples; the fitted slopes are
free values, since the spec states no fitting method (log entry 13). -/
def refitCells (s : State) : List Cell :=
  (indexed s.ln.work.cells).map fun (c, x) =>
    if x.n = 0 then x
    else
      let q := nth s.ln.sums c LSum.reset
      { x with tBar := readInt (q.t / x.n), pBar := (readInt (q.p / x.n)).toNat, v := readInt (q.f / x.n * 65536),
               gT := Config.refit s.free (2 + 2 * c), gP := Config.refit s.free (3 + 2 * c) }

/-- Sum of the residuals of the samples of one hour in one cell, after the fit (R172), ppt. -/
def residualSum (cells : List Cell) (e : LHour) : Rat :=
  let c := nth cells e.cell Cell.reset
  e.sum.f - e.n * freq64 c.v - (c.gT : Rat) / 1000 * ((e.sum.t - e.n * c.tBar) / 1000)
    - (c.gP : Rat) / 1000 * ((e.sum.p - e.n * c.pBar) / 1000)

/-- The mean residual of each hour that has samples (R172), ppt. -/
def hourlyMeans (cells : List Cell) (l : List LHour) : List Rat :=
  ((l.map (·.hour)).eraseDups).map fun h =>
    let es := l.filter fun e => e.hour == h
    (es.map (residualSum cells)).foldl (· + ·) 0 / ((es.map (·.n)).foldl (· + ·) 0 : Nat)

/-- R_T (R172): the RMS of the hourly means of the residuals, 10⁻¹⁵. -/
def residOf (ms : List Rat) : Nat := (readInt (1000 * sqrtRat (meanR (ms.map fun m => m * m)))).toNat

/-- The working copy after a refit (R172). The ageing coefficients and their uncertainty are free values (log entry 13). Without
samples R_T stays as it is. -/
def refitModel (s : State) : Model :=
  let cells := refitCells s
  { s.ln.work with
    a := Config.refit s.free 0, b := Config.refit s.free 1, cells := cells,
    rT := if s.ln.hours.isEmpty then s.ln.work.rT else residOf (hourlyMeans cells s.ln.hours),
    rA := (Config.refit s.free (2 + 2 * 72)).toNat }

/-- MODEL_COMMIT (R172), where the STEER core runs. -/
def refitNow (s : State) : State :=
  if s.runs 1 then commitModel (refitModel s) { s with free := s.free + 1 } else s

/-! ## The model image (R183, R184) -/

/-- The model with no populated cell and the factory ageing coefficients (R182, R184). -/
def emptyModel (f : Factory) : Model := { Model.reset with a := f.modelA, b := f.modelB }

/-- The bytes of one cell (R183). -/
def Cell.bytes (c : Cell) : List Byte :=
  natBytes 4 c.n ++ intBytes 4 c.tBar ++ natBytes 4 c.pBar ++ intBytes 8 c.v ++ intBytes 4 c.gT ++ intBytes 4 c.gP
    ++ natBytes 4 0

/-- The cell that 32 bytes spell (R183). -/
def readCell (b : List Byte) : Cell :=
  let f (o n : Nat) : Nat := bytesNat ((b.drop o).take n)
  { n := f 0 4, tBar := toSigned 4 (f 4 4), pBar := f 8 4, v := toSigned 8 (f 12 8), gT := toSigned 4 (f 20 4),
    gP := toSigned 4 (f 24 4) }

/-- The image of R183 without its CRC. -/
def modelBody (s : State) : List Byte :=
  let m := s.ln.model
  natBytes 2 1 ++ natBytes 2 0x9600 ++ natBytes 4 s.nv.factory.serial ++ natBytes 8 (ageNow s) ++ natBytes 2 72
    ++ natBytes 2 32 ++ natBytes 4 m.learnTime ++ natBytes 8 0 ++ intBytes 8 m.a ++ intBytes 8 m.b ++ natBytes 4 m.rT
    ++ natBytes 4 m.rA ++ (m.cells.flatMap Cell.bytes)

/-- The `MODEL` image (R183): 2,364 bytes. -/
def modelImage (s : State) : List Byte := let b := modelBody s; b ++ natBytes 4 (crc32 b)

/-- The model that an image carries, or none where R184 refuses it. -/
def readModel (s : State) (b : List Byte) : Option Model :=
  let f (o n : Nat) : Nat := bytesNat ((b.drop o).take n)
  if b.length ≠ 2364 ∨ f 0 2 ≠ 1 ∨ f 2 2 ≠ 0x9600 ∨ f 16 2 ≠ 72 ∨ f 18 2 ≠ 32 ∨ f 2360 4 ≠ crc32 (b.take 2360)
      ∨ f 4 4 ≠ s.nv.factory.serial then none
  else some
    { learnTime := f 20 4, a := toSigned 8 (f 32 8), b := toSigned 8 (f 40 8), rT := f 48 4, rA := f 52 4,
      cells := (List.range 72).map fun c => readCell ((b.drop (56 + 32 * c)).take 32) }

/-- A write of `MODEL` is acceptable (R184). -/
def modelAccepted (s : State) (b : List Byte) : Bool := b.isEmpty || (readModel s b).isSome

/-- The model is written to NV (R182). While PFAIL is set a bulk write to NV stays incomplete, and the copy before it stands (R93). -/
def saveModel (s : State) : State :=
  if s.pwr.pfail then s else { s with nv := { s.nv with model := some s.ln.model, modelAge := ageNow s } }

/-- Sums that a model's counts, centroids and mean offsets stand for. -/
def sumsOf (m : Model) : List LSum :=
  m.cells.map fun c => { t := (c.n : Rat) * c.tBar, p := (c.n : Rat) * c.pBar, f := (c.n : Rat) * freq64 c.v }

/-- An accepted `MODEL` image is committed and stored; no bytes erase the model (R184). -/
def writeModel (b : List Byte) (s : State) : State :=
  let m := if b.isEmpty then emptyModel s.nv.factory else (readModel s b).getD s.ln.model
  let s1 := commitModel m s
  saveModel { s1 with ln := { s1.ln with sums := sumsOf m, hours := [] } }

/-- MODEL_SAVE (R182): the STEER core hands the model over and the MGT core writes it. -/
def modelSaveNow (s : State) : State := if s.runs 0 && s.runs 1 then saveModel s else s

/-! ## The clamp (R166) -/

/-- `CLAMPED` of channel n follows the sum of its terms (R166, R185). -/
def settleClamp (s : State) (n : Nat) : State :=
  let w := wordSum (s.chan n) (s.hov n)
  let out : Bool := decide (1000 * ppm < absR w) && (s.chan n).frozen.isNone
  raiseIf (out && !(s.hov n).clampNow) (72 + n)
    (s.setHo n fun h => { h with clampNow := out, clamped := h.clamped || (out && !h.clampNow) })

/-- `STEERING` takes a new value (R181). -/
def writeSteering (n : Nat) (v : Int) (s : State) : State := s.setHo n fun h => { h with steering := v }

end Sys2Proof.Machine
end

