-- ==== Sys2Proof/Machine/Channels.lean ====
section
/-! DEFINITION. Candidates as their configuration gives them (R101 to R106), and the DPLL channels (R137 to R159). -/

namespace Sys2Proof.Machine

/-! ## Candidates by their configuration -/

/-- Written configuration of REFn. -/
abbrev Cfg.ref (c : Cfg) (n : Nat) : CfgRef := nth c.refs n CfgRef.reset
/-- Written configuration of LREFn. -/
abbrev Cfg.lref (c : Cfg) (n : Nat) : CfgLref := nth c.lrefs n CfgLref.reset

/-- What a candidate of a kind carries (R101). -/
inductive CandKind where
  | clk | pulse | gnss | domain
  deriving DecidableEq, Repr

/-- Kind of candidate i. -/
def candKind (c : Cfg) (i : Nat) : CandKind :=
  if i < 16 then (if (c.ref i).cls = 0 then .clk else .pulse)
  else if (c.lref (i - 16)).kind = 0 then .gnss else .domain

/-- The monitor settings that every candidate has (R132, R133). -/
structure CandCfg where
  /-- ENABLE. -/
  enable : Nat
  /-- QUALITY. -/
  quality : Nat
  /-- WTR, s. -/
  wtr : Nat
  /-- ACT_THRESHOLD. -/
  act : Nat
  /-- FREQ_REJECT, ppb. -/
  reject : Nat
  /-- FREQ_ACCEPT, ppb. -/
  accept : Nat
  /-- DRIFT_LIMIT, 0.1 ppb/h. -/
  driftLimit : Nat
  /-- DRIFT_HORIZON, s. -/
  horizon : Nat
  /-- MONITOR_ENABLE[0]. -/
  freqOn : Bool
  /-- MONITOR_ENABLE[1]. -/
  driftOn : Bool
  deriving DecidableEq, Repr

/-- Monitor settings of candidate i. -/
def candCfg (c : Cfg) (i : Nat) : CandCfg :=
  if i < 16 then
    let r := c.ref i
    { enable := r.enable, quality := r.quality, wtr := r.wtr, act := r.actThreshold, reject := r.freqReject,
      accept := r.freqAccept, driftLimit := r.driftLimit, horizon := r.driftHorizon,
      freqOn := bit8 r.monitorEnable 0, driftOn := bit8 r.monitorEnable 1 }
  else
    let r := c.lref (i - 16)
    { enable := r.enable, quality := r.quality, wtr := r.wtr, act := r.actThreshold, reject := r.freqReject,
      accept := r.freqAccept, driftLimit := r.driftLimit, horizon := r.driftHorizon,
      freqOn := bit8 r.monitorEnable 0, driftOn := bit8 r.monitorEnable 1 }

/-- Nominal rate of candidate i, mHz: a TIME candidate gives one edge a second (R101). -/
def nominalMhz (c : Cfg) (i : Nat) : Nat := if i < 16 then (c.ref i).nominal else 1000

/-- Nominal period of candidate i, ns. -/
def nominalPeriod (c : Cfg) (i : Nat) : Rat :=
  if nominalMhz c i = 0 then 0 else ((10 ^ 12 : Nat) : Rat) / nominalMhz c i

/-- D of R114: the smallest power of two that brings a nominal frequency to 10 MHz or below. -/
def watchDivider (mhz : Nat) : Nat :=
  match (List.range 40).find? fun k => mhz ≤ 10000000000 * 2 ^ k with
  | some k => 2 ^ k
  | none => 2 ^ 40

/-- Period of the watched edges of candidate i (R114), ns. -/
def watchPeriod (c : Cfg) (i : Nat) : Rat :=
  match candKind c i with
  | .clk => nominalPeriod c i * watchDivider (nominalMhz c i)
  | _ => nominalPeriod c i

/-- The phase detector's divider (R138): for CLK the smallest whole number that brings the reference to 1 MHz or below. -/
def pdDivider (c : Cfg) (i : Nat) : Nat :=
  match candKind c i with
  | .clk => max 1 ((nominalMhz c i + 999999999) / 1000000000)
  | _ => 1

/-- `PD_RATE` on candidate i (R138), mHz. -/
def pdRateOf (c : Cfg) (i : Nat) : Nat := nominalMhz c i / pdDivider c i

/-- Period of the phase-detector cycles on candidate i, ns. -/
def pdPeriod (c : Cfg) (i : Nat) : Rat := nominalPeriod c i * pdDivider c i

/-- The input whose pulses candidate i is built from: a GNSS reference's source, else itself (R105). -/
def pulseInput (c : Cfg) (i : Nat) : Nat :=
  match candKind c i with
  | .gnss => (c.lref (i - 16)).source
  | _ => i

/-- How much earlier than at the pin the edges of candidate i are placed (R104), ns. -/
def delayNs (c : Cfg) (i : Nat) : Rat :=
  match candKind c i with
  | .pulse => ((c.ref i).delayComp : Rat) / 1000
  | .gnss => ((c.ref (pulseInput c i)).delayComp : Rat) / 1000
  | _ => 0

/-! ## Bandwidth (R143 to R145) -/

/-- The bandwidth ceiling (R144), 0.1 mHz: the lesser of 10 kHz and a tenth of `PD_RATE`. -/
def bwCeiling (pdMhz : Nat) : Nat := min 100000000 pdMhz

/-- The effective schedule (R144): steps in use at or below the ceiling, with their index; else the last step at the ceiling. -/
def effSchedule (c : CfgDp) (pdMhz : Nat) : List (Nat × Nat) :=
  let l := (indexed (c.bw.take c.bwSteps)).filter fun p => p.2 ≤ bwCeiling pdMhz
  if l.isEmpty then [(c.bwSteps - 1, bwCeiling pdMhz)] else l

/-- The channel at place p of its effective schedule (R145). -/
def Chan.atStep (l : List (Nat × Nat)) (p : Nat) (c : Chan) : Chan :=
  let q := min p (l.length - 1)
  { c with pos := q, step := (nth l q (0, 0)).1, bwNow := (nth l q (0, 0)).2 }

/-- The channel at the last step. -/
def Chan.atLast (l : List (Nat × Nat)) (c : Chan) : Chan := c.atStep l (l.length - 1)

/-- The effective schedule of channel n on candidate c. -/
def scheduleOf (s : State) (n cand : Nat) : List (Nat × Nat) := effSchedule (s.cfg.chan n) (pdRateOf s.cfg cand)

/-! ## Phases (R137) -/

/-- A value brought into the interval from −p/2 (exclusive) to +p/2 (inclusive) by whole multiples of p (R152). -/
def wrapPhase (p v : Rat) : Rat := if p ≤ 0 then v else v - p * ceilR ((2 * v - p) / (2 * p))

/-- DCO phase of channel n at instant `t` ns near the present (R190). -/
def dcoPhaseAt (s : State) (n : Nat) (t : Rat) : Rat :=
  (s.chan n).cyc - ((s.clk.count : Rat) - t) * (1 + dcoOffset s n / ppt1)

/-- t_dco − t_ref for a reference edge at `t` (R137), ps: how late the DCO's nearest cycle of period `p` ns is. -/
def dcoLateness (s : State) (n : Nat) (p t : Rat) : Rat := -(wrapPhase p (dcoPhaseAt s n t)) * 1000

/-- e_loop for a reference edge at `t` (R137), ps. -/
def loopError (s : State) (n : Nat) (p t : Rat) : Rat :=
  wrapPhase (p * 1000) (dcoLateness s n p t - (s.chan n).taper.gap - (s.chan n).buildout)

/-! ## Flags and transitions (R140 to R142, R148, R149, R155) -/

/-- A sticky bit of channel n is set (R148, R149). -/
def chanFlag (n b : Nat) (s : State) : State :=
  raise (72 + n) (s.setChan n fun c => { c with sticky := setBit8 c.sticky b })

/-- A transition of channel n (R149). -/
def chanGo (n : Nat) (st : ChanState) (s : State) : State :=
  raise (72 + n) (s.setChan n fun c => { c with state := st, lastChange := s.clk.count })

/-- A pull of channel n is ended (R155). -/
def endPull (n : Nat) (s : State) : State :=
  let was := (s.chan n).taper.pulling
  let s1 := s.setChan n fun c => { c with taper := c.taper.abandon }
  if was then chanFlag n 5 s1 else s1

/-- A channel without a reference. -/
def Chan.unreferenced (c : Chan) : Chan :=
  { c with cand := none, phaseErr := none, pdRate := 0, bwNow := 0, pdDiv := 0, lockRun := 0, crit := false, aligning := 0 }

/-- A channel that tracks. -/
def tracks (c : Chan) : Bool := c.state == .acquire || c.state == .narrowing || c.state == .locked

/-- The channel takes candidate c as its reference (R139, R152, R154, R156, R157). The phase it has against the candidate is read at
the candidate's last edge, from which its phase-detector cycles are counted. -/
def refer (n c : Nat) (s : State) : State :=
  let cf := s.cfg.chan n
  let k := candKind s.cfg c
  let timeC := cf.timeCarrying == 1
  let p := pdPeriod s.cfg c
  let s0 := s.setChan n fun x =>
    { x with
      cand := some c, pdRate := pdRateOf s.cfg c, pdDiv := 0, phaseErr := some 0,
      aligned := x.aligned || (k != .clk && cf.firstAlign == 0) }
  let ch := s.chan n
  let late : Rat := match (s.cand c).anchor with
    | some t => dcoLateness s n p (t + (s.cand c).edgeDiv * nominalPeriod s.cfg c)
    | none => 0
  let buildOut (s : State) : State := s.setChan n fun x => { x with buildout := late - x.taper.gap }
  let taper (s : State) : State :=
    let g := wrapPhase (p * 1000) (late - ch.buildout)
    let s1 := s.setChan n fun x => { x with taper := x.taper.retarget g (chanSlope cf) (chanRamp cf) }
    if ch.taper.pulling then chanFlag n 4 s1 else s1
  if k == .clk then
    buildOut (s0.setChan n fun x => { x with aligning := if x.aligning = 0 then 0 else 3 })
  else if timeC && (!ch.aligned || ch.aligning != 0) then
    if cf.firstAlign == 1 then
      s0.setChan n fun x => { x with aligning := 1, phaseErr := some (wrapPhase (p * 1000) (late - x.taper.gap - x.buildout)) }
    else taper (s0.setChan n fun x => { x with aligning := 0 })
  else if !timeC && cf.pboEnable == 1 then buildOut s0
  else taper s0

/-- IDLE to ACQUIRE (R140, R141, R145). -/
def toAcquire (n c : Nat) (s : State) : State :=
  let s1 := refer n c (chanGo n .acquire (s.setChan n fun x => { x with agreed := x.loopTerm }))
  s1.setChan n fun x => { x.atStep (scheduleOf s n c) 0 with integ := x.loopTerm, lockRun := 0, crit := false }

/-- HOLDOVER to LOCKED (R141, R145, R146, R177). -/
def toRelock (n c : Nat) (s : State) : State :=
  let m := (s.hov n).m
  let s1 := refer n c (chanGo n .locked (endEpisode n (s.setChan n fun x =>
    { x with loopTerm := x.loopTerm + m, agreed := x.loopTerm + m, slewTo := none })))
  s1.setChan n fun x => { x.atLast (scheduleOf s n c) with integ := x.loopTerm, lockRun := 0, crit := false }

/-- The place of a step in an effective schedule (R142): the step itself, or the next in it; its last where there is none. -/
def placeOf (l : List (Nat × Nat)) (step : Nat) : Nat := (l.takeWhile fun p => p.1 < step).length

/-- A change from one selected candidate to another (R142, R145, R146, R152): in ACQUIRE the channel runs at the first step, in
NARROWING it stays at its present one, in LOCKED it runs at the last. -/
def switchTo (n c : Nat) (s : State) : State :=
  let s1 := refer n c s
  let l := scheduleOf s n c
  s1.setChan n fun x =>
    { (if x.state = .locked then x.atLast l else x.atStep l (if x.state = .narrowing then placeOf l x.step else 0)) with
      integ := x.loopTerm, lockRun := 0, crit := false }

/-- Entry to IDLE (R137, R140, R141, R155, R156). -/
def toIdle (n : Nat) (s : State) : State :=
  let m := if (s.chan n).state = .holdover then (s.hov n).m else 0
  let s1 := endPull n (s.setChan n fun x => { x with loopTerm := x.loopTerm + m, agreed := x.loopTerm + m, slewTo := none })
  chanGo n .idle ((endEpisode n s1).setChan n fun x => { x.unreferenced with buildout := 0, aligned := false, step := 0, pos := 0 })

/-- LOCKED to HOLDOVER (R140, R148, R155, R174, R175). -/
def toHoldover (n : Nat) (s : State) : State :=
  let c := s.chan n
  let v := holdoverStart s n c.cand
  let s1 := chanFlag n 3 (endPull n s)
  let s2 := chanGo n .holdover (s1.setChan n fun x =>
    { x.unreferenced with slewTo := some v.u0, hoEntries := x.hoEntries + 1 })
  beginEpisode n v c.taper.gap s2

/-- Snuffer fences channel n (R140, R155, R159, R175). -/
def fenceChannel (n : Nat) (s : State) : State :=
  let c := s.chan n
  if c.state = .fenced then s
  else
    let s1 := chanGo n .fenced ((endPull n s).setChan n Chan.unreferenced)
    if c.state = .holdover then s1
    else
      beginEpisode n { u0 := c.loopTerm, f0 := fLast s, uy := 10000, unq := true } c.taper.gap
        (s1.setChan n fun x => { x with slewTo := none })

/-- Channel n follows `ENABLE` and its selector (R140, R142). A first alignment that loses its candidate ends in IDLE (R157). -/
def followSelection (s : State) (n : Nat) : State :=
  let c := s.chan n
  let en := (s.cfg.chan n).enable == 1
  match c.state, s.selected n with
  | .fenced, _ => s
  | .idle, some k => if en then toAcquire n k s else s
  | .idle, none => s
  | .holdover, sel =>
    if !en then toIdle n s else match sel with | some k => toRelock n k s | none => s
  | .locked, sel =>
    if !en then toIdle n s
    else match sel with
      | none => if c.aligning = 0 then toHoldover n s else toIdle n s
      | some k => if c.cand = some k then s else switchTo n k s
  | _, sel =>
    if !en then toIdle n s
    else match sel with
      | none => toIdle n s
      | some k => if c.cand = some k then s else switchTo n k s

/-- The channel's selection changes from `old` to `new` (R130, R148, R149). -/
def noteSelection (n : Nat) (old new : Option Nat) (s : State) : State :=
  let s1 := raise (72 + n) s
  match old, new with
  | some _, none => chanFlag n 1 s1
  | some _, some _ => chanFlag n 2 s1
  | none, _ => s1

/-! ## The lock criterion (R145 to R148) -/

/-- LOCK_CRITERION (R140, R145, R146): `LOCK_COUNT` cycles in the window have been counted. -/
def lockCriterion (n : Nat) (s : State) : State :=
  let c := s.chan n
  let cf := s.cfg.chan n
  match c.cand with
  | none => s
  | some k =>
    if c.lockRun < cf.lockCount ∨ c.crit ∨ !tracks c then s
    else if c.state = .locked then s.setChan n fun x => { x with crit := true }
    else
      let l := scheduleOf s n k
      if l.length ≤ c.pos + 1 then
        (chanGo n .locked s).setChan n fun x => { x.atLast l with crit := true, integ := x.loopTerm }
      else (chanGo n .narrowing s).setChan n fun x => { x.atStep l (c.pos + 1) with lockRun := 0 }

/-- In LOCKED a change of the last step takes effect at once (R145). -/
def settleBandwidth (s : State) (n : Nat) : State :=
  let c := s.chan n
  match c.state, c.cand with
  | .locked, some k => s.setChan n fun x => x.atLast (scheduleOf s n k)
  | _, _ => s

/-- `IN_LOCK` (R147). -/
def inLockNow (s : State) (n : Nat) : Bool :=
  let c := s.chan n
  c.state == .locked && c.crit && decide (absR c.taper.gap ≤ (s.cfg.chan n).lockWindow)

/-- `IN_LOCK` follows its conditions (R147, R149). -/
def settleLock (s : State) (n : Nat) : State :=
  let b := inLockNow s n
  let s1 := s.setChan n fun x =>
    { x with
      inLock := b, secLocked := x.secLocked && b, secCand := if x.secCand = s.selected n then x.secCand else none }
  raiseIf (b != (s.chan n).inLock) (72 + n) s1

/-! ## Phase-detector cycles (R138, R141, R146, R148, R157, R158) -/

/-- DCO phases kept of an output, after the phase that they are counted on has jumped by `d` ns. -/
def Out.shift (d : Rat) (o : Out) : Out :=
  { o with
    origin := o.origin + d, rise := o.rise.map (· + d), fall := o.fall.map (· + d),
    ssc := o.ssc.map fun m => { m with since := m.since + d }, ampWas := o.ampWas.map fun p => (p.1, p.2 + d) }

/-- The phase of DCO n jumps by `d` ns: what is kept of the outputs that follow it is counted on the new phase. -/
def shiftOuts (n : Nat) (d : Rat) (s : State) : State :=
  { s with ou := { s.ou with out := (indexed s.ou.out).map fun (k, o) =>
      if (nth s.sn.core (nth s.cfg.ou k CfgOu.reset).core Syn.reset).channel = n then o.shift d else o } }

/-- The DCO and the loop of channel n are set to the edge at `t` (R157, R190): the DCO's cycle and its channel second lie there. -/
def realign (n : Nat) (t : Rat) (s : State) : State :=
  let since := ((s.clk.count : Rat) - t) * (1 + dcoOffset s n / ppt1)
  let known : Option Int := match (s.chan n).cand with
    | none => some 0
    | some c =>
      match candKind s.cfg c with
      | .gnss => (match s.rf.gnss.pairing with | some (t', u) => if t' = t then some (u : Int) else none | none => none)
      | .domain => (s.domi (s.cfg.lref (c - 16)).source).edgeSec
      | _ => some 0
  chanFlag n 6 ((shiftOuts n (since - (s.chan n).cyc) s).setChan n fun x =>
    { x with
      cyc := since, phase := since, secAt := some t, secNum := known.getD 0, relabel := known.isNone,
      buildout := 0, taper := { x.taper with gap := 0, slope := 0, ending := false },
      aligned := true, aligning := 2, phaseErr := some 0, integ := x.loopTerm })

/-- Correction of a loop: none for no error, else as the loop's own gains give it (log entry 11). -/
def gain (f : Nat → Rat → Rat) (bw : Nat) (e : Rat) : Rat := if e = 0 then 0 else f bw e

/-- One phase-detector cycle of channel n at the reference edge `t`, tracking candidate c (R138, R141, R146, R148). -/
def pdCycle (n c : Nat) (t : Rat) (s : State) : State :=
  let ch := s.chan n
  let w : Rat := (s.cfg.chan n).lockWindow
  let e := loopError s n (pdPeriod s.cfg c) t
  if ch.aligning = 1 then s.setChan n fun x => { x with phaseErr := some e }
  else if ch.aligning = 2 ∧ w < absR (ch.taper.gap + e) then realign n t s
  else
    let integ := ch.integ + gain Config.loopInteg ch.bwNow e
    let term := integ + gain Config.loopProp ch.bwNow e
    let inside : Bool := decide (absR e ≤ w)
    let lost := ch.state == .locked && ch.crit && !inside
    let s1 := s.setChan n fun x =>
      { x with
        phaseErr := some e, integ := integ, loopTerm := term, agreed := term, aligning := 0,
        lockRun := if inside then x.lockRun + 1 else 0, crit := x.crit && inside,
        lockLosses := if lost then x.lockLosses + 1 else x.lockLosses }
    if lost then chanFlag n 0 s1 else s1

/-- An edge of candidate c at `t` reaches the phase detector of channel n where the channel tracks c (R138). -/
def edgeToChannel (c : Nat) (t : Rat) (s : State) (n : Nat) : State :=
  let ch := s.chan n
  if ch.cand ≠ some c ∨ !tracks ch ∨ ch.frozen.isSome then s
  else if ch.pdDiv + 1 < pdDivider s.cfg c then s.setChan n fun x => { x with pdDiv := x.pdDiv + 1 }
  else pdCycle n c t (s.setChan n fun x => { x with pdDiv := 0 })

/-- An on-time edge of candidate c at `t` reaches every channel that tracks it (R138). -/
def edgeToChannels (c : Nat) (t : Rat) (s : State) : State := (List.range 8).foldl (edgeToChannel c t) s

/-- FIRST_ALIGNMENT (R157): the first reference edge, at the pin at `t`, after the channel's outputs have stopped. -/
def firstAlignment (n : Nat) (t : Rat) (s : State) : State :=
  let ch := s.chan n
  match ch.cand with
  | none => s
  | some c => if ch.aligning = 1 ∧ tracks ch ∧ ch.frozen.isNone then realign n (t - delayNs s.cfg c) s else s

/-- The time of day `u` of candidate c's edge at `t` becomes known: an aligned channel second that waits for it is numbered, and the
channel seconds since with it (R190). -/
def labelAligned (c u : Nat) (t : Rat) (s : State) (n : Nat) : State :=
  let ch := s.chan n
  match ch.secAt with
  | none => s
  | some a =>
    if ch.relabel ∧ ch.cand = some c then
      s.setChan n fun x => { x with secNum := (u : Int) + ((a - t) / 1000000000 + 1 / 2).floor, relabel := false }
    else s

/-! ## The analogue lock monitor (R150) -/

/-- The duty cycle of `LDA_MON` (R150), in units of 0.01 %. -/
def ldaDutyNow (s : State) : Nat :=
  let n := s.cfg.ldaSelect
  if 7 < n then 0
  else
    let c := s.chan n
    match c.state with
    | .fenced => 0
    | .idle => 500
    | .holdover => 500
    | _ =>
      let w : Rat := (s.cfg.chan n).lockWindow
      let e := absR (c.taper.gap + c.phaseErr.getD 0)
      1000 + (readInt (8000 * (1 - min (e / (8 * w)) 1))).toNat

end Sys2Proof.Machine
end

