-- ==== Sys2Proof/Machine/Synth.lean ====
section
/-! DEFINITION. Synthesis cores, band cards, outputs, commits and Chimney's gates of clock outputs (R190 to R226). -/

namespace Sys2Proof.Machine

/-! ## Accessors -/

/-- Synthesis core c. -/
abbrev State.syn (s : State) (c : Nat) : Syn := nth s.sn.core c Syn.reset
/-- Synthesis core c changed. -/
abbrev State.setSyn (s : State) (c : Nat) (f : Syn → Syn) : State := { s with sn := { s.sn with core := upd s.sn.core c f } }
/-- Output n. -/
abbrev State.out (s : State) (n : Nat) : Out := nth s.ou.out n Out.reset
/-- Output n changed. -/
abbrev State.setOut (s : State) (n : Nat) (f : Out → Out) : State := { s with ou := { s.ou with out := upd s.ou.out n f } }
/-- Written configuration of output n. -/
abbrev Cfg.out (c : Cfg) (n : Nat) : CfgOu := nth c.ou n CfgOu.reset
/-- Written configuration of core c. -/
abbrev Cfg.syn (c : Cfg) (n : Nat) : CfgSn := nth c.sn n CfgSn.reset
/-- Chimney limits of output n. -/
abbrev Cfg.outLim (c : Cfg) (n : Nat) : LimOut := nth c.lim.out n LimOut.reset

/-- Output n is marked time-carrying (R219). -/
abbrev outTime (s : State) (n : Nat) : Bool := (s.cfg.outLim n).timeCarrying == 1

/-- The channel that output n follows (R20, R21). -/
abbrev outChannel (s : State) (n : Nat) : Nat := (s.syn (s.cfg.out n).core).channel

/-- The outputs of core c. -/
def coreOuts (s : State) (c : Nat) : List Nat := (List.range 32).filter fun n => (s.cfg.out n).core == c

/-! ## Frequencies and checks (R204 to R206, R215) -/

/-- Nominal frequency of divider settings on a plan (mHz), in Hz, exact (R204). -/
def nominalHz (plan : Nat) (d : Divider) : Rat :=
  if d.postDiv = 0 then 0
  else (plan : Rat) / 1000 / (((d.divInt : Rat) + (d.divFrac : Rat) / (2 ^ 32 : Nat)) * d.postDiv)

/-- `NOMINAL_FREQ` (R204): the nearest µHz. -/
def nominalMicroHz (plan : Nat) (d : Divider) : Nat := ((nominalHz plan d * 1000000 + 1 / 2).floor).toNat

/-- Frequency range of a format (R59), Hz. -/
def formatRange (f : Nat) : Rat × Rat :=
  if f = 0 ∨ f = 2 then (1 / 2, 1250000000) else if f = 1 then (1 / 2, 400000000)
  else if f = 3 then (1 / 2, 250000000) else (1000000, 250000000)

/-- `AMPLITUDE` values of a format (R59, R214). -/
def amplitudeOk (f a : Nat) : Bool :=
  if f = 0 then 250 ≤ a && a ≤ 450 && a % 25 == 0
  else if f = 1 then 650 ≤ a && a ≤ 850 && a % 50 == 0
  else if f = 2 then 600 ≤ a && a ≤ 900 && a % 50 == 0
  else if f = 3 then a == 1800 || a == 2500 || a == 3300
  else 4 ≤ a && a ≤ 13

/-- Default amplitude of a format (R214). -/
def amplitudeDefault (f : Nat) : Nat := if f = 0 then 350 else if f = 1 then 750 else if f = 2 then 800 else if f = 3 then 3300 else 10

/-- The cross-field rules of R205 and R206 for settings `d` on a plan and a channel, in a format. -/
def dividerOk (c : Cfg) (timeC : Bool) (format plan channel : Nat) (d : Divider) : Bool :=
  let f := nominalHz plan d
  let (lo, hi) := formatRange format
  (d.divFrac == 0 || 4 ≤ d.divInt) && decide (lo ≤ f) && decide (f ≤ hi)
    && (!timeC || ((f.den == 1 || f == 1 / 2) && (c.chan channel).timeCarrying == 1))

/-- The spread rules of R215 for settings on a plan, within the window `[fmin, fmax]` (µHz). -/
def spreadOk (timeC : Bool) (lim : LimOut) (plan : Nat) (d : Divider) : Bool :=
  if d.sscMode = 0 then true
  else
    let f := nominalHz plan d
    let dev : Rat := (d.sscDepth : Rat) / 10000
    let hi := if d.sscMode = 1 then f else f * (1 + dev)
    let range := if d.sscMode = 1 then (10, 150) else (5, 75)
    !timeC && 4 ≤ d.divInt && range.1 ≤ d.sscDepth && d.sscDepth ≤ range.2
      && decide ((lim.fmin : Rat) / 1000000 ≤ f * (1 - dev)) && decide (hi ≤ (lim.fmax : Rat) / 1000000)

/-! ## The signal of an output (R59, R192, R204, R210 to R213, R216) -/

/-- Frequency of core c's oscillator (R192), Hz: the active plan times 1 + y of its channel's DCO. -/
def coreHz (s : State) (c : Nat) : Rat := ((s.syn c).plan : Rat) / 1000 * (1 + dcoOffset s (s.syn c).channel / ppt1)

/-- Frequency of output n (R204), Hz: that of its core through its dividers. -/
def outHz (s : State) (n : Nat) : Rat :=
  nominalHz (s.syn (s.cfg.out n).core).plan (s.out n).active * (1 + dcoOffset s (outChannel s n) / ppt1)

/-- DCO phase of the channel of output n now, ns: on it the output's period does not change with y. -/
abbrev outNow (s : State) (n : Nat) : Rat := (s.chan (outChannel s n)).cyc

/-- Period of output n in ns of DCO phase; 0 where it has no frequency. -/
def outPeriod (s : State) (n : Nat) : Rat :=
  let f := nominalHz (s.syn (s.cfg.out n).core).plan (s.out n).active
  if f = 0 then 0 else 1000000000 / f

/-- Steps of the phase setting in ps (R213): 1/512 of the core's nominal period. -/
def phaseStepPs (plan : Nat) : Rat := if plan = 0 then 0 else ((10 ^ 15 : Nat) : Rat) / plan / 512

/-- The grid origin of output n (R210), as DCO phase: a channel second of a time-carrying output, for 0.5 Hz an even one. -/
def outOrigin (s : State) (n : Nat) : Rat :=
  let c := s.chan (outChannel s n)
  if outTime s n then
    let half : Bool := nominalHz (s.syn (s.cfg.out n).core).plan (s.out n).active == 1 / 2
    c.cyc - c.phase - (if half && c.secNum % 2 != 0 then 1000000000 else 0)
  else (s.out n).origin

/-- What `PHASE` adds to the grid of output n (R210), ns, as far as a move of a time-carrying output has gone (R213). -/
def outShift (s : State) (n : Nat) : Rat :=
  (((s.out n).active.phase : Rat) * phaseStepPs (s.syn (s.cfg.out n).core).plan - (s.out n).move.gap) / 1000

/-- Place on the grid of output n at DCO phase `x` (R210): rising edges lie at the whole multiples of the period. Spread moves it. -/
def gridPos (s : State) (n : Nat) (x : Rat) : Rat :=
  x - outOrigin s n - outShift s n + (match (s.out n).ssc with | some m => m.gain (x - m.since) | none => 0)

/-- Part of the present period of output n that has passed, 0 to 1: its first half is the high phase (R204). -/
def outPart (s : State) (n : Nat) : Rat :=
  let q := gridPos s n (outNow s n) / outPeriod s n
  q - (q.floor : Rat)

/-- The pulses of output n have begun. -/
def outBegun (s : State) (n : Nat) : Bool := match (s.out n).rise with | some r => decide (r ≤ outNow s n) | none => false

/-- Output n is in a high phase (R204, R212). -/
def outHigh (s : State) (n : Nat) : Bool :=
  if outBegun s n then decide (outPart s n < 1 / 2)
  else match (s.out n).fall with | some f => decide (outNow s n < f) | none => false

/-- DCO phase of the falling edge that ends the high phase in progress, or of the last one, on the present grid. -/
def outFall (s : State) (n : Nat) : Option Rat :=
  if outBegun s n then some (outNow s n + (1 / 2 - outPart s n) * outPeriod s n) else (s.out n).fall

/-- The rising edge with which output n starts or goes on (R211, R212): the next on its grid, one period later where it would come
less than half a period after the last falling edge. -/
def outFirstEdge (s : State) (n : Nat) : Rat :=
  let p := outPeriod s n
  let from_ := match (s.out n).fall with | some f => max (outNow s n) f | none => outNow s n
  let q := gridPos s n from_ / p
  let e := from_ + (ceilR q - q) * p
  match (s.out n).fall with | some f => if e < f + p / 2 then e + p else e | none => e

/-- Output n starts runt-free (R212, R216): with a full high phase at a grid edge, its spread at zero deviation. -/
def startOut (s : State) (n : Nat) : State :=
  let e := outFirstEdge s n
  s.setOut n fun o => { o with started := true, rise := some e, ssc := o.active.spread e }

/-- Output n stops runt-free (R212): it completes the high phase in progress and parks. -/
def stopOut (s : State) (n : Nat) : State :=
  let f := outFall s n
  s.setOut n fun o => { o with rise := none, fall := f, ssc := none }

/-- `AMPLITUDE` in force on output n (R214): a write acts at the next edge. -/
def ampNow (s : State) (n : Nat) : Nat :=
  match (s.out n).ampWas with | some (a, x) => if outNow s n < x then a else (s.cfg.out n).amplitude | none => (s.cfg.out n).amplitude

/-- `AMPLITUDE` of output n has been written: a running output keeps the old level to its next edge (R214). -/
def amplitudeWritten (n old : Nat) (s : State) : State :=
  let u := outPart s n
  let x := outNow s n + ((if u < 1 / 2 then 1 / 2 else 1) - u) * outPeriod s n
  s.setOut n fun o => { o with ampWas := if outBegun s n then some (old, x) else none }

/-- What one conductor of an output shows. -/
inductive Conductor where
  /-- Undriven, with 100 kΩ to ground (R60). -/
  | undriven
  /-- A level in mV, taken at the nominal offset. -/
  | mv (v : Rat)
  /-- The sine, in dBm. -/
  | sine (dbm : Nat)
  deriving DecidableEq, Repr

/-- The levels of the P and the N conductor in a format (R59), high or low; a parked output shows the low ones. -/
def formatLevels (format amp : Nat) (high : Bool) : Conductor × Conductor :=
  let pair (mid : Rat) : Conductor × Conductor :=
    let h : Conductor := .mv (mid + (amp : Rat) / 2)
    let l : Conductor := .mv (mid - (amp : Rat) / 2)
    if high then (h, l) else (l, h)
  if format = 0 then pair 1200
  else if format = 2 then pair 2000
  else if format = 1 then (if high then (.mv amp, .mv 0) else (.mv 0, .mv amp))
  else if format = 3 then (.mv (if high then amp else 0), .mv 0)
  else (.mv 0, .mv 0)

/-- What the conductors of output n show (R59, R60, R72, R212). -/
def outPins (s : State) (n : Nat) : Conductor × Conductor :=
  let c := s.cfg.out n
  if !(s.out n).started then (.undriven, .undriven)
  else if c.format = 4 ∧ (outBegun s n ∨ outHigh s n) then (.sine (ampNow s n), .mv 0)
  else formatLevels c.format (ampNow s n) (outHigh s n)

/-- The whole shadow set passes the checks of R209. -/
def shadowOk (s : State) : Bool :=
  (List.range 32).all fun n =>
    let o := s.cfg.out n
    let k := s.cfg.syn o.core
    dividerOk s.cfg (outTime s n) o.format k.plan k.channel o.shadow
      && spreadOk (outTime s n) (s.cfg.outLim n) k.plan o.shadow

/-- The active settings of output n pass the checks of R205 and R206 made on `ENABLE` written 1, for a core and a format. -/
def enableOk (s : State) (n core format : Nat) : Bool :=
  let k := s.syn core
  dividerOk s.cfg (outTime s n) format k.plan k.channel (s.out n).active

/-! ## Output states (R217, R218) -/

/-- The window gate of output n is closed (R220, R221, R358): by its tests, by a closed window, or held by a fence. -/
def winShut (s : State) (n : Nat) : Bool := (s.out n).winClosed || (s.cfg.outLim n).fmax == 0 || s.isFenced (.out n)

/-- The state of output n by the first condition that holds (R217). -/
def outStateNow (s : State) (n : Nat) : OutState :=
  let c := s.cfg.out n
  let o := s.out n
  let k := s.syn c.core
  let timeC := outTime s n
  let safe : Bool := s.md.mode == .safe
  if c.enable = 0 then .off
  else if safe ∧ (timeC ∨ (s.cfg.outLim n).safeAction = 0 ∨ !s.clk.running) then .parkedSafe
  else if winShut s n ∨ o.slewClosed then .squelched
  else if s.md.mode = .startup ∨ !s.md.sealed ∨ k.state ≠ .locked ∨ k.retune.isSome ∨ (s.chan k.channel).aligning ≠ 0
      ∨ (s.md.mode = .standby ∧ (timeC ∨ c.standbyOn = 0)) ∨ (!safe ∧ timeC ∧ !timeOutRuns s) then .held
  else if safe then .freerunSafe
  else .running

/-- The output is driven by its core. -/
def driven (st : OutState) : Bool := st == .running || st == .freerunSafe

/-- The signal of output n starts or stops with its state (R212, R218). With the engine clock stopped it parks at once (R369). -/
def settleWave (s : State) (n : Nat) : State :=
  if !s.clk.running then s.setOut n fun o => { o with rise := none, fall := none, ssc := none }
  else if driven (s.out n).state then (if (s.out n).rise.isSome then s else startOut s n)
  else if (s.out n).rise.isSome then stopOut s n
  else s

/-- Output n takes the state its conditions give (R218). -/
def settleOut (s : State) (n : Nat) : State :=
  let st := outStateNow s n
  let o := s.out n
  let s1 := settleWave (s.setOut n fun x =>
    { x with
      state := st, freerun := x.freerun || st == .freerunSafe,
      lastChange := if x.state = st then x.lastChange else s.clk.count }) n
  raiseIf (st != o.state) (88 + n) (s1.setOut n fun x => { x with move := if driven st then x.move else Taper.reset })

/-- Every output settles. -/
def settleOuts (s : State) : State := (List.range 32).foldl settleOut s

/-! ## Commits (R207 to R213) -/

/-- An armed commit is cancelled (R208, R209). -/
def cancelCommit (s : State) : State :=
  if s.sn.armed.isNone then s else raise 86 { s with sn := { s.sn with armed := none, commitState := 3 } }

/-- An armed commit whose timebase is fenced, or whose edge output stops (R218), is cancelled (R209). -/
def settleCommit (s : State) : State :=
  match s.sn.armed with
  | some (1, k, _) => if s.isFenced (.tb k) then cancelCommit s else s
  | some (2, k, _) => if driven (s.out k).state then s else cancelCommit s
  | _ => s

/-- The band card that core c may use (R197). -/
def usableCard (s : State) (c : Nat) : Option Card :=
  if (s.cfg.syn c).cardUse ≠ 1 then none
  else s.sn.cards.find? fun k =>
    k.valid && k.core == c && k.plan == (s.syn c).plan
      && decide ((s.pwr.tOcxo - k.tSearch).natAbs ≤ s.cfg.cardTempWindow)

/-- The last output of core c has stopped (R202 step 2): s0. The core loads the card's band and fine code, or begins a full search. -/
def tuneFrom (c : Nat) (r : Retune) (s : State) : State :=
  let k := usableCard s c
  s.setSyn c fun x =>
    { x with
      retune := some { r with s0 := some s.clk.count, card := k },
      band := match k with | some k => k.band | none => x.band, fine := match k with | some k => k.fine | none => x.fine }

/-- No output of core c is in a high phase. -/
def outsParked (s : State) (c : Nat) : Bool := (coreOuts s c).all fun n => !outHigh s n

/-- Every output of core c stops runt-free (R202 step 1). -/
def stopOuts (c : Nat) (s : State) : State := (coreOuts s c).foldl stopOut s

/-- A core begins to retune (R193, R202): its outputs stop, and s0 is at once where none of them is in a high phase. -/
def beginRetune (c : Nat) (s : State) : State :=
  let r : Retune := { Retune.reset with c0 := s.clk.count }
  let s1 := stopOuts c s
  let s2 := s1.setSyn c fun x => { x with state := .tuning, retune := some r }
  raiseIf ((s.syn c).state != .tuning) (80 + c) (if outsParked s1 c then tuneFrom c r s2 else s2)

/-- The phase move of a time-carrying output from its present phase to a new `PHASE` (R213). -/
def phaseMove (s : State) (n : Nat) (old : Divider) (o : Out) : Out :=
  let plan := (s.syn (s.cfg.out n).core).plan
  let cf := s.cfg.chan (outChannel s n)
  let f := nominalHz plan o.active
  let period : Rat := if f = 0 then 0 else ((10 ^ 12 : Nat) : Rat) / f
  let cur := (old.phase : Rat) * phaseStepPs plan - o.move.gap
  let g := wrapPhase period ((o.active.phase : Rat) * phaseStepPs plan - cur)
  let ramp : Rat := if cf.taperRamp = 0 then 0 else (cf.slopeTime : Rat) * 1000 / cf.taperRamp
  if driven o.state then { o with move := o.move.retarget g cf.slopeTime ramp } else { o with move := Taper.reset }

/-- The grid of output n begins now (R210), where the output is frequency-only. -/
def originNow (s : State) (n : Nat) : State :=
  if outTime s n then s
  else
    let x := outNow s n
    s.setOut n fun o =>
      { o with origin := x + (match o.ssc with | some m => m.gain (x - m.since) | none => 0) }

/-- The divider settings that set an output's period. -/
def Divider.ratio (d : Divider) : Nat × Nat × Nat := (d.divInt, d.divFrac, d.postDiv)

/-- One output takes its shadow at a commit (R208, R210, R211, R213): it completes the high phase it is in, and its next rising edge
lies on the new grid. A new `PHASE` moves a time-carrying output, which is not realigned by it. -/
def commitOut (s : State) (n : Nat) (new : Divider) : State :=
  let o := s.out n
  if o.active = new then s
  else
    let f := outFall s n
    let s1 := originNow (s.setOut n fun x => { x with active := new }) n
    let s2 := if outTime s n ∧ o.active.phase ≠ new.phase then s1.setOut n fun x => phaseMove s1 n o.active x else s1
    if o.rise.isNone ∨ (outTime s n ∧ o.active.ratio = new.ratio) then s2
    else
      let s3 := s2.setOut n fun x => { x with fall := f }
      let e := outFirstEdge s3 n
      s3.setOut n fun x => { x with rise := some e, ssc := match x.ssc with | some m => some m | none => new.spread e }


/-- One core takes its shadow at a commit (R193, R208): a core in use retunes, its outputs stopping as they were. -/
def commitCore (s : State) (c : Nat) (new : CfgSn) : State :=
  let k := s.syn c
  if k.plan = new.plan ∧ k.channel = new.channel then s
  else
    let s0 := stopOuts c s
    let d := (s.chan new.channel).cyc - (s.chan k.channel).cyc
    let s1 := (coreOuts s c).foldl (fun s n => s.setOut n (Out.shift d))
      (s0.setSyn c fun x => { x with plan := new.plan, channel := new.channel })
    if k.state = .locked ∨ k.state = .tuning then beginRetune c s1 else s1

/-- The shadows that a commit in this cycle copies (R32): as they stood before the writes that completed in the cycle itself. -/
def cutShadows (s : State) : List CfgSn × List CfgOu :=
  match s.sn.cut with
  | some (t, sn, ou) => if t = s.clk.count then (sn, ou) else (s.cfg.sn, s.cfg.ou)
  | none => (s.cfg.sn, s.cfg.ou)

/-- A write of a shadow completes (R32): those of the cycle before it are kept for a commit in this cycle. -/
def keepShadows (old : Cfg) (s : State) : State :=
  match s.sn.cut with
  | some (t, _, _) =>
    if t = s.clk.count then s else { s with sn := { s.sn with cut := some (s.clk.count, old.sn, old.ou) } }
  | none => { s with sn := { s.sn with cut := some (s.clk.count, old.sn, old.ou) } }

/-- The commit (R208): every shadow that differs is copied in one cycle. -/
def commitNow (s : State) : State :=
  let (sn, ou) := cutShadows s
  let s1 := [0, 1, 2, 3].foldl (fun s c => commitCore s c (nth sn c CfgSn.reset)) s
  let s2 := (List.range 32).foldl (fun s n => commitOut s n (nth ou n CfgOu.reset).shadow) s1
  raise 86 { s2 with sn := { s2.sn with armed := none, commitState := 2, lastCommit := s.clk.count } }

/-- A commit with boundary 0 takes effect in the cycle after its command (R208). -/
def commitPending (s : State) : Bool := match s.sn.armed with | some (0, _, _) => true | _ => false

/-- The whole second that a timebase is in. -/
def tbSecond (s : State) (k : Nat) : Int := (s.tbs k).now.floor / 1000000000

/-- `COMMIT` (R208, R209): the status and the state after it. -/
def commitCommand (v : Nat) (s : State) : Nat × State :=
  if v = 3 then (0x00, cancelCommit s)
  else if 3 < v ∨ !shadowOk s then (0x04, s)
  else if s.sn.armed.isSome then (0x08, s)
  else if v = 0 then (0x00, { s with sn := { s.sn with armed := some (0, 0, 0), commitState := 1 } })
  else if v = 1 then
    if s.isFenced (.tb s.cfg.commitTb) then (0x0C, s)
    else (0x00, { s with sn := { s.sn with
      armed := some (1, s.cfg.commitTb, tbSecond s s.cfg.commitTb), commitState := 1 } })
  else if (s.out s.cfg.commitEdgeOut).state ≠ .running then (0x04, s)
  else (0x00, { s with sn := { s.sn with armed := some (2, s.cfg.commitEdgeOut, 0), commitState := 1 } })

/-- COMMIT_INSTANT (R208): the armed commit's whole second or edge is reached. -/
def commitInstant (s : State) : State :=
  match s.sn.armed with
  | some (1, k, sec) => if tbSecond s k = sec then s else commitNow s
  | some (2, k, _) => if driven (s.out k).state then commitNow s else s
  | _ => s

/-! ## Cores and band cards (R193 to R203) -/

/-- `ENABLE` of core c is written (R193). -/
def enableCore (c v : Nat) (s : State) : State :=
  let k := s.syn c
  if k.state = .fenced then s
  else if v = 1 then (if k.state = .disabled then beginRetune c s else s)
  else if k.state = .disabled then s
  else raise (80 + c) (s.setSyn c fun x => { x with state := .disabled, retune := none })

/-- RETUNE_OUTPUTS_STOPPED (R202 step 2): s0, once every output of the core has completed its high phase. -/
def outputsStopped (c : Nat) (s : State) : State :=
  match (s.syn c).retune with
  | some r => if r.s0.isSome || !outsParked s c then s else tuneFrom c r s
  | none => s

/-- The slots that still hold a card, changed (R198, R199): another core may have replaced it since. -/
def onCard (k : Card) (f : Card → Card) (s : State) : State := { s with sn := { s.sn with cards := s.sn.cards.map fun x => if x = k then f x else x } }

/-- The slot a new card takes (R199). -/
def cardSlot (s : State) (c plan : Nat) : Nat :=
  let l := indexed s.sn.cards
  match l.find? (fun p => p.2.valid && p.2.core == c && p.2.plan == plan) with
  | some p => p.1
  | none =>
    match l.find? (fun p => !p.2.valid) with
    | some p => p.1
    | none => (l.foldl (fun (best : Nat × Nat) p => if p.2.lastUsed < best.2 then (p.1, p.2.lastUsed) else best)
        (0, (nth s.sn.cards 0 Card.reset).lastUsed)).1

/-- The cards are to be written to NV (R199). -/
def cardsChanged (s : State) : State := { s with nvc := { s.nvc with cardsDirty := some (s.nvc.cardsDirty.getD s.clk.count) } }

/-- A card of the search that core c has just made is stored (R199). -/
def storeCard (c band fine time : Nat) (s : State) : State :=
  let k : Card :=
    { valid := true, core := c, plan := (s.syn c).plan, band := band, fine := fine, tSearch := s.pwr.tOcxo,
      age := ageNow s, searchTime := time, lastUsed := ageNow s }
  cardsChanged { s with sn := { s.sn with cards := upd s.sn.cards (cardSlot s c k.plan) fun _ => k } }

/-- Core c locks (R194, R197, R199, R202 step 3): the release instant. `band` and `fine` are what a full search found; a core that uses a
card has the card's. -/
def lockCore (c band fine : Nat) (s : State) : State :=
  match (s.syn c).retune with
  | none => s
  | some r =>
    match r.s0 with
    | none => s
    | some t0 =>
      let gap := (readInt (((s.clk.count : Rat) - t0) / 1000)).toNat
      let s1 := raise (80 + c) (s.setSyn c fun x =>
        { x with
          state := .locked, retune := none, lastGap := gap,
          band := match r.card with | some k => k.band | none => band % 512,
          fine := match r.card with | some k => k.fine | none => fine % 4096,
          lastMethod := if r.card.isSome then 1 else if r.cardFailed then 3 else 2,
          relocks := x.relocks + 1, cardHits := if r.card.isSome then x.cardHits + 1 else x.cardHits })
      let s2 := match r.card with
        | some k => onCard k (fun k => { k with lastUsed := ageNow s }) s1
        | none => if (s.cfg.syn c).cardAuto = 1 then storeCard c (band % 512) (fine % 4096) gap s1 else s1
      (coreOuts s2 c).foldl originNow s2

/-- CARD_TIMEOUT (R198): a card has not brought lock within 60 µs. -/
def cardTimeout (c : Nat) (s : State) : State :=
  match (s.syn c).retune with
  | none => s
  | some r =>
    match r.s0, r.card with
    | some t0, some k =>
      if s.clk.count < t0 + 60000 then s
      else
        raise (80 + c) (cardsChanged ((onCard k (fun _ => Card.reset) s).setSyn c
          fun x => { x with retune := some { r with card := none, cardFailed := true } }))
    | _, _ => s

/-- Snuffer fences core c (R193, R195). -/
def fenceSyn (c : Nat) (s : State) : State :=
  if (s.syn c).state = .fenced then s
  else raise (80 + c) (s.setSyn c fun x => { x with state := .fenced, retune := none })

/-- The 252 bytes of a valid card before its CRC (R200). -/
def cardBody (serial : Nat) (k : Card) : List Byte :=
  natBytes 2 1 ++ natBytes 1 k.core ++ natBytes 1 1 ++ natBytes 8 k.plan ++ natBytes 2 k.band ++ natBytes 2 k.fine
    ++ intBytes 4 k.tSearch ++ natBytes 8 k.age ++ natBytes 4 serial ++ natBytes 4 k.searchTime ++ natBytes 4 k.lastUsed
    ++ List.replicate 212 0

/-- The 256 bytes of a slot (R200). -/
def cardBytes (serial : Nat) (k : Card) : List Byte :=
  if k.valid then cardBody serial k ++ natBytes 4 (crc32 (cardBody serial k)) else List.replicate 256 0

/-- The `CARDS` image (R201): 16,384 bytes. -/
def cardsImage (s : State) : List Byte := s.sn.cards.flatMap (cardBytes s.nv.factory.serial)

/-- The slot that 256 bytes spell, or none where R201 refuses it. -/
def readCard (serial : Nat) (b : List Byte) : Option Card :=
  let f (o n : Nat) : Nat := bytesNat ((b.drop o).take n)
  if b.all (· == 0) then some Card.reset
  else if f 0 2 ≠ 1 ∨ f 3 1 ≠ 1 ∨ 3 < f 2 1 ∨ f 252 4 ≠ crc32 (b.take 252) ∨ f 28 4 ≠ serial
      ∨ f 4 8 < 4800000000000 ∨ 6400000000000 < f 4 8 then none
  else some
    { valid := true, core := f 2 1, plan := f 4 8, band := f 12 2, fine := f 14 2, tSearch := toSigned 4 (f 16 4),
      age := f 20 8, searchTime := f 32 4, lastUsed := f 36 4 }

/-- The slots that an image carries, or none where R201 refuses it. -/
def readCards (s : State) (b : List Byte) : Option (List Card) :=
  if b.isEmpty then some (List.replicate 64 Card.reset)
  else if b.length ≠ 16384 then none
  else (List.range 64).mapM fun i => readCard s.nv.factory.serial ((b.drop (256 * i)).take 256)

/-- An accepted `CARDS` image replaces every card and goes to NV, or waits while PFAIL is set (R199); a core that is tuning keeps the
card it holds (R201). -/
def writeCards (b : List Byte) (s : State) : State :=
  let l := (readCards s b).getD s.sn.cards
  let s1 := { s with sn := { s.sn with cards := l } }
  if s.pwr.pfail then cardsChanged s1
  else { s1 with nv := { s.nv with cards := l }, nvc := { s.nvc with cardsDirty := none } }

/-- CARD_STORE (R199): the cards are written to NV; deferred while PFAIL is set. -/
def storeCards (s : State) : State :=
  if s.nvc.cardsDirty.isSome ∧ !s.pwr.pfail ∧ s.runs 0 then
    { s with nv := { s.nv with cards := s.sn.cards }, nvc := { s.nvc with cardsDirty := none } }
  else s

/-! ## Chimney's gates of clock outputs (R220 to R223) -/

/-- The window gate's two tests of output n (R221), on mean frequencies in µHz. -/
def frequencyPasses (s : State) (n : Nat) (fast fine : Rat) : Bool :=
  let l := s.cfg.outLim n
  l.fmax != 0
    && decide ((l.fmin : Rat) * 99 / 100 ≤ fast) && decide (fast ≤ (l.fmax : Rat) * 101 / 100)
    && decide ((l.fmin : Rat) ≤ fine) && decide (fine ≤ l.fmax)

/-- CHIMNEY_FREQUENCY_TEST (R221, R222). -/
def frequencyTest (n : Nat) (fast fine : Rat) (s : State) : State :=
  if (s.cfg.out n).enable ≠ 1 then s
  else
    let pass := frequencyPasses s n fast fine
    s.setOut n fun x =>
      { x with
        measured := (readInt fine).toNat, winClosed := x.winClosed || !pass,
        winGood := if pass then some (x.winGood.getD s.clk.count) else none,
        squelches := if !pass && !winShut s n then x.squelches + 1 else x.squelches,
        sticky := if !pass && !winShut s n then setBit8 x.sticky 0 else x.sticky }

/-- The slew gate's two tests of output n (R223), on phase movements in ns. -/
def slewPasses (s : State) (n : Nat) (short long : Rat) : Bool :=
  let l : Rat := (s.cfg.outLim n).slewLimit
  decide (absR short ≤ l / 100 + 20) && decide (absR long ≤ l + 20)

/-- CHIMNEY_SLEW_TEST (R222, R223), on time-carrying outputs only. -/
def slewTest (n : Nat) (short long : Rat) (s : State) : State :=
  if (s.cfg.out n).enable ≠ 1 ∨ !outTime s n then s
  else
    let pass := slewPasses s n short long
    s.setOut n fun x =>
      { x with
        slewNow := satInt 32 (readInt long), slewClosed := x.slewClosed || !pass,
        slewGood := if pass then some (x.slewGood.getD s.clk.count) else none,
        squelches := if !pass && !x.slewClosed then x.squelches + 1 else x.squelches,
        sticky := if !pass && !x.slewClosed then setBit8 x.sticky 1 else x.sticky }

/-- Both tests have passed without a break for 100 ms. -/
def goodFor100ms (now : Nat) (t : Option Nat) : Bool := match t with | some a => decide (a + 100000000 ≤ now) | none => false

/-- WINDOW_GATE_REOPEN (R222): a closed gate whose tests have passed for 100 ms opens. -/
def reopenGates (n : Nat) (s : State) : State :=
  s.setOut n fun x =>
    { x with
      winClosed := x.winClosed && !goodFor100ms s.clk.count x.winGood,
      slewClosed := x.slewClosed && !goodFor100ms s.clk.count x.slewGood }

/-! ## The heartbeat (R225) and the channel second (R190) -/

/-- HEARTBEAT_REFRESH (R225): the MGT core refreshes the register, which opens a closed gate. -/
def heartbeatRefresh (s : State) : State :=
  if s.runs 0 then level 85 false { s with ou := { s.ou with heartbeatAt := s.clk.count, heartbeatClosed := false } } else s

/-- HEARTBEAT_LAPSE (R225): no refresh within `HEARTBEAT_INTERVAL`. -/
def heartbeatLapse (s : State) : State :=
  if s.md.sealed ∧ !s.ou.heartbeatClosed ∧ s.ou.heartbeatAt + s.cfg.lim.heartbeatInterval * 1000000 ≤ s.clk.count then
    level 85 true { s with ou := { s.ou with heartbeatClosed := true, heartbeatLapses := s.ou.heartbeatLapses + 1 } }
  else s


/-- The DCO of channel n passes a whole second (R190): the second began when its phase stood there. -/
def channelSecond (n : Nat) (s : State) : State :=
  let at_ : Rat := (s.clk.count : Rat) - ((s.chan n).phase - 1000000000) / (1 + dcoOffset s n / ppt1)
  if (s.chan n).phase < 1000000000 then s
  else s.setChan n fun x => { x with phase := x.phase - 1000000000, secNum := x.secNum + 1, secAt := some at_ }

end Sys2Proof.Machine
end

