-- ==== Sys2Proof/Machine/Timebases.lean ====
section
/-! DEFINITION. Timebases and their time domains (R236 to R260): estimates, steps, states, the servo and UTC. -/

namespace Sys2Proof.Machine

/-! ## Updates and readings -/

/-- Timebase k changed. -/
abbrev State.setTb (s : State) (k : Nat) (f : Tb → Tb) : State := { s with tb := upd s.tb k f }
/-- Domain instance i changed. -/
abbrev State.setDom (s : State) (i : Nat) (f : Dom → Dom) : State := { s with dom := upd s.dom i f }
/-- Written UTC settings of timebase k. -/
abbrev Cfg.utcs (c : Cfg) (k : Nat) : CfgUtc := nth c.utc k CfgUtc.reset

/-- A threshold in ns as ps. -/
def nsPs (n : Nat) : Rat := (n : Rat) * 1000

/-- Counter of timebase k at an engine instant near the present, ns (log entry 16). -/
def tbAt (s : State) (k : Nat) (t : Rat) : Rat := (s.tbs k).now - ((s.clk.count : Rat) - t) * tbRate s k

/-- The domain measures (R247, R250): it is in one of the three states that it holds while it does. -/
def Dom.measures (d : Dom) : Bool := d.state == .qualifying || d.state == .qualified || d.state == .discontinuous

/-- The domain supplies its estimate (R247). -/
def Dom.supplies (d : Dom) : Bool := d.state == .qualifying || d.state == .qualified

/-- The two domain instances of timebase k. -/
def domainsOf (k : Nat) : List Nat := [2 * k, 2 * k + 1]

/-! ## Prediction (R248, R250) -/

/-- The least-squares line through estimates, read at `t`; none where there is no estimate. -/
def fitLine (l : List (Rat × Rat)) (t : Rat) : Option Rat :=
  match l with
  | [] => none
  | (t0, _) :: _ =>
    let n : Rat := l.length
    let xs := l.map fun p => (p.1 - t0) / 1000000000
    let mx := xs.foldl (· + ·) 0 / n
    let my := (l.map Prod.snd).foldl (· + ·) 0 / n
    let sxx := (xs.map fun x => (x - mx) * (x - mx)).foldl (· + ·) 0
    let sxy := ((xs.zip (l.map Prod.snd)).map fun p => (p.1 - mx) * (p.2 - my)).foldl (· + ·) 0
    some (if sxx = 0 then my else my + sxy / sxx * ((t - t0) / 1000000000 - mx))

/-- The accepted estimates of domain i within its last `QUAL_TIME`; the last one alone where none is so recent (log entry 18). -/
def recentEst (s : State) (i : Nat) (t : Rat) : List (Rat × Rat) :=
  let l := (s.domi i).est.filter fun p => decide (t - ((s.cfg.domi i).qualTime : Rat) * 1000000000 ≤ p.1)
  if l.isEmpty then (s.domi i).est.take 1 else l

/-- The predicted θ of domain i at `t`, ps (R250). -/
def predictTheta (s : State) (i : Nat) (t : Rat) : Option Rat := fitLine (recentEst s i t) t

/-- The domain's estimate of its master's time now, ns (R248). -/
def masterNow (s : State) (i : Nat) : Rat :=
  (s.tbs (i / 2)).now - (predictTheta s i s.clk.count).getD 0 / 1000

/-! ## Transitions (R250, R253, R270) -/

/-- Domain i enters a state. Its run ends; the accepted estimates are those since entry to QUALIFYING, and go with the source. -/
def domGo (i : Nat) (st : DomState) (s : State) : State :=
  let none? : Bool := st == .off || st == .noSource
  let keep : Bool := st == .qualified || st == .discontinuous
  raise (124 + i) (s.setDom i fun d =>
    { d with
      state := st, lastChange := s.clk.count, run := [], backRun := 0,
      est := if keep then d.est else [], qualSince := if keep then d.qualSince else none,
      theta := if none? then none else d.theta, edgeSec := if st = .qualifying ∨ st = .qualified then d.edgeSec else none,
      disconts := if st = .discontinuous then d.disconts + 1 else d.disconts })

/-- The capture records that still wait follow a change of timebase k in this cycle: a stamp taken in the cycle of a step belongs to the
new epoch (R285). -/
def restamp (k : Nat) (s : State) : State :=
  { s with ts := { s.ts with inp := s.ts.inp.map fun x =>
      { x with fifo := x.fifo.map (FifoRec.restamp (s.tbs k) k (tbRate s k) s.clk.count) } } }

/-- Timebase k enters a state (R253). -/
def tbGo (k : Nat) (st : TbState) (s : State) : State :=
  raise (120 + k) (restamp k (s.setTb k fun t =>
    { t with state := st, lastChange := s.clk.count, tracked := t.tracked || st == .tracking, past := t.pastAt s.clk.count }))

/-- Timebase k is tracking-capable (R253). -/
def trackCapable (s : State) (k : Nat) : Bool :=
  let c := (s.chan (s.cfg.tbs k).channel).state
  c != .holdover && c != .fenced

/-! ## The active domain (R254) -/

/-- Domain d of timebase k is eligible (R254). -/
def eligible (s : State) (k d : Nat) : Bool :=
  let x := s.domi (2 * k + d)
  let c := s.cfg.tbs k
  let within (lim : Nat) : Bool := match x.theta with | some th => decide (absR th ≤ nsPs lim) | none => false
  x.state == .qualified && decide (x.rank ≤ 14) &&
    match (s.tbs k).state with
    | .tracking => (s.tbs k).active == some d || within c.discThreshold
    | .holdover => within c.recoverLimit
    | _ => true

/-- Which of two wins (R254): lower rank, else `DOMAIN_REVERT`, else the present one, else domain 0. -/
def preferred (s : State) (k : Nat) (present : Option Nat) : Nat :=
  let r0 := (s.domi (2 * k)).rank
  let r1 := (s.domi (2 * k + 1)).rank
  if r0 < r1 then 0 else if r1 < r0 then 1
  else if (s.cfg.tbs k).domainRevert = 1 then 0 else present.getD 0

/-- The active domain that R254 chooses. -/
def chooseDomain (s : State) (k : Nat) : Option Nat :=
  match eligible s k 0, eligible s k 1 with
  | true, true => some (preferred s k (s.tbs k).active)
  | true, false => some 0
  | false, true => some 1
  | false, false => none

/-! ## The servo (R255, R258) -/

/-- Slope limit and ramp of a timebase's path, ps/s and ps/s² (R153, R255). -/
def tbRamp (c : CfgTb) : Rat := if c.taperRamp = 0 then 0 else (c.slope : Rat) * 1000 / c.taperRamp

/-- The phase term takes θ as its target (R255, R256): its path is formed again from the slope it has. -/
def aimAt (k : Nat) (theta : Rat) (s : State) : State :=
  let c := s.cfg.tbs k
  s.setTb k fun t =>
    { t with
      taper := { t.taper with slope := phaseTerm t t.taper.slope }.retarget (-theta) c.slope (tbRamp c), prop := none }

/-- History of c_f back to the last change at or before `a`. -/
def pruneHist (a : Nat) : List (Nat × Rat) → List (Nat × Rat)
  | [] => []
  | (t, v) :: rest => if t ≤ a then [(t, v)] else (t, v) :: pruneHist a rest

/-- c_f changes now. -/
def setFreqTerm (k : Nat) (v : Rat) (s : State) : State :=
  s.setTb k fun t => { t with cF := v, cfHist := pruneHist (s.clk.count - 3600000000000) ((s.clk.count, v) :: t.cfHist) }

/-- Natural frequency ω of the servo loop (R255), rad/s: the spec gives the bandwidth and the damping of 1.0, and not how the bandwidth
is measured (log entry 11). -/
def servoOmega (bw : Nat) : Rat := absR (Config.servoOmega bw)

/-- One servo update from an accepted θ (ps) of the active domain (R255), for a loop of damping 1: c_f integrates −ω²θ since the last
estimate, but not further toward the clamp; the proportional term −2ωθ moves the counter within the slope of the path. With the STEER
core stopped the rate holds (R33). -/
def servoUpdate (k : Nat) (theta : Rat) (s : State) : State :=
  let c := s.cfg.tbs k
  let t := s.tbs k
  if !s.runs 1 ∨ t.frozenC.isSome then s
  else
    let w := servoOmega c.servoBw
    let sec : Rat := match t.lastEst with | some a => ((s.clk.count : Rat) - a) / 1000000000 | none => 0
    let step := -(w * w * theta * sec)
    let wind : Bool := decide ((c.rateLimit : Rat) * ppm ≤ absR (tbSum t)) && decide (0 < step * tbSum t)
    let cf := if wind then t.cF else t.cF + step
    (aimAt k theta (setFreqTerm k cf s)).setTb k fun t =>
      { t with prop := some (2 * w * absR theta), lastEst := some s.clk.count }

/-- Weighted sum and weight of c_f over the interval from `a` to `b`, for changes newest first, the newest lasting until `upto`. -/
def cfSum (a b : Nat) : Nat → List (Nat × Rat) → Rat × Rat
  | _, [] => (0, 0)
  | upto, (t, v) :: rest =>
    let w : Rat := ((min upto b - max t a : Nat) : Rat)
    let (x, n) := cfSum a b t rest
    (x + v * w, n + w)

/-- The mean of c_f over the `HOLD_AVG` seconds that end at the last accepted estimate (R258). -/
def heldFreqTerm (s : State) (k : Nat) : Rat :=
  let t := s.tbs k
  match t.lastEst with
  | none => t.cF
  | some e =>
    let (x, n) := cfSum (e - (s.cfg.tbs k).holdAvg * 1000000000) e s.clk.count t.cfHist
    if n = 0 then t.cF else x / n

/-- Entry to HOLDOVER (R258): the pull ends with its slope returning at the ramp limit, and c_f is held at its recent mean. -/
def enterTbHoldover (k : Nat) (s : State) : State :=
  let s1 := tbGo k .holdover s
  if !s.runs 1 ∨ (s.tbs k).frozenC.isSome then s1
  else setFreqTerm k (heldFreqTerm s k) (s1.setTb k fun t =>
    { t with taper := { t.taper with slope := phaseTerm t t.taper.slope }.abandon, prop := none })

/-- A switch between domains (R256). -/
def countSwitch (k : Nat) (s : State) : State := raise (120 + k) (s.setTb k fun t => { t with switches := t.switches + 1 })

/-- The end of the current UTC day on the timebase, for an offset and a leap (R245): the pending leap second is the last of its day. -/
def endOfUtcDay (now : Rat) (offset : Int) (leap : Nat) : Time80 :=
  let day := (now.floor / 1000000000 - offset) / 86400
  let extra : Int := if leap = 1 then 1 else if leap = 2 then -1 else 0
  { sec := ((day + 1) * 86400 + offset + extra).toNat, ns := 0 }

/-- The second 23:59:60 of the leap that is armed in a timebase runs (R244, R245): it belongs to the day that ends with it. -/
def inLeapSecond (t : Tb) : Bool :=
  t.utc.leap == 1 && decide (t.now < Time80.toNs t.utc.leapAt) && decide ((Time80.toNs t.utc.leapAt : Rat) ≤ t.now + 1000000000)

/-- The written values reach the registers in force, in the cycle after the write (R245): a leap whose `LEAP_AT` has been reached is not armed, and the written
register is brought into line. A change of offset or leap in force raises the timebase's source. -/
def copyUtc (k : Nat) (s : State) : State :=
  let w := (s.cfg.utcs k).written
  let old := (s.tbs k).utc
  let reached : Bool := decide ((Time80.toNs w.leapAt : Rat) ≤ (s.tbs k).now)
  let w' : Utc := if w.leap ≠ 0 ∧ reached then { w with leap := 0 } else w
  let s1 := { (s.setTb k fun t => { t with utc := w' }) with
    cfg := { s.cfg with utc := upd s.cfg.utc k fun c => { c with written := w' } } }
  raiseIf (old.offset != w'.offset || old.leap != w'.leap) (120 + k) s1

/-- UTC values of an Announce of the active domain (R245), taken with `UTC_MODE` = 1 into the written registers. An Announce that still shows the leap second just
applied changes nothing of it. -/
def announceUtc (k : Nat) (d : Dataset) (s : State) : State :=
  let leap := if d.leap61 then 1 else if d.leap59 then 2 else 0
  if (s.cfg.utcs k).mode ≠ 1 ∨ s.isFenced (.tb k) then s
  else
    let t := s.tbs k
    let same : Bool := leap != 0 && (match t.leapDone with | some (l, o, _) => l == leap && o == d.utcOffset | none => false)
    let put (w : Utc) : Utc :=
      if same then { w with valid := b2n d.utcValid }
      else
        { offset := d.utcOffset, valid := b2n d.utcValid, leap := leap,
          leapAt := if leap = 1 ∧ inLeapSecond t then t.utc.leapAt else endOfUtcDay t.now d.utcOffset leap }
    { s with cfg := { s.cfg with utc := upd s.cfg.utc k fun c => { c with written := put c.written } } }

/-- With `UTC_MODE` = 1 the timebase takes the UTC values of the most recent Announce accepted on its active domain, of kind PTP
(R245). -/
def followUtc (k : Nat) (s : State) : State :=
  match (s.tbs k).active with
  | none => s
  | some d =>
    if (s.cfg.domi (2 * k + d)).kind ≠ 1 then s
    else match (nth s.pt.inst (2 * k + d) PtpInst.reset).parent with
      | some (_, x) => announceUtc k x s
      | none => s

/-- The instant of the last estimate that domain i has accepted, engine ns. -/
def lastAccepted (s : State) (i : Nat) : Option Nat := (s.domi i).est.head?.map fun e => e.1.floor.toNat

/-- The active domain becomes `d` (R254, R256): the phase term takes its θ as target, once the timebase is set. -/
def setActive (k : Nat) (d : Option Nat) (s : State) : State :=
  let old := (s.tbs k).active
  if old = d then s
  else
    let s1 := s.setTb k fun t => { t with active := d }
    match d with
    | none => s1
    | some e =>
      let i := 2 * k + e
      let s2 := if s.runs 1 ∧ (s.tbs k).frozenC.isNone ∧ (s.tbs k).state ≠ .unset then aimAt k ((s.domi i).theta.getD 0) s1 else s1
      let s3 := followUtc k (s2.setTb k fun t => { t with lastEst := (lastAccepted s i).or t.lastEst })
      if old.isSome then countSwitch k s3 else s3

/-- Causes 4 and 5 of R260 for timebase k: the pending re-step, the choice of the first step, the active domain and the state. -/
def settleTb (s : State) (k : Nat) : State :=
  let t := s.tbs k
  match t.state with
  | .fenced => s
  | .unset =>
    let keep : Bool := match t.stepFrom with | some d => (s.domi (2 * k + d)).state == .qualified | none => false
    let q (d : Nat) : Bool := (s.domi (2 * k + d)).state == .qualified
    let pick : Option Nat :=
      if q 0 && q 1 then some (preferred s k none) else if q 0 then some 0 else if q 1 then some 1 else none
    let s1 := s.setTb k fun t => { t with stepFrom := if keep then t.stepFrom else pick }
    if s.rf.stopped then s1 else setActive k (chooseDomain s1 k) s1
  | st =>
    let s1 := match t.restep with
      | some d =>
        if (s.domi (2 * k + d)).measures then s
        else raise (120 + k) (s.setTb k fun t => { t with restep := none, restepState := 3 })
      | none => s
    if s.rf.stopped then s1
    else
      let new := chooseDomain s1 k
      let s2 := setActive k new s1
      let on : Bool := new.isSome && trackCapable s2 k
      if st = .tracking ∧ !on then enterTbHoldover k s2
      else if st = .holdover ∧ on then tbGo k .tracking s2
      else s2

/-- The CLAMPED flag follows the sum (R255). -/
def settleTbClamp (s : State) (k : Nat) : State :=
  s.setTb k fun t =>
    { t with clamped := t.frozenC.isNone && decide (((s.cfg.tbs k).rateLimit : Rat) * ppm ≤ absR (tbSum t)) }

/-! ## Steps (R240, R243) -/

/-- What has passed of the present millisecond of the principal timebase, ns. -/
def beaconPart (s : State) : Rat :=
  let now := (s.tbs s.ptb).now
  now - ((now / 1000000).floor : Rat) * 1000000

/-- `BEACON` gives its pulses (R77): the module vouches and the first rising edge has come. -/
def beaconRuns (s : State) : Bool := s.md.vouching && decide (s.pins.beaconFrom ≤ s.clk.count)

/-- `BEACON` is high (R73, R77): for the first half of each millisecond of the principal timebase, or to the end of the high phase that
was in progress as the pulses ended. -/
def beaconHigh (s : State) : Bool :=
  (beaconRuns s && decide (beaconPart s < 500000))
    || match s.pins.beaconTo with | some t => decide ((s.clk.count : Rat) < t) | none => false

/-- The pulses end or are timed anew (R77, R243): the high phase in progress is completed, and the last rising edge is kept. -/
def cutBeacon (s : State) : State :=
  let rate := tbRate s s.ptb
  let part := beaconPart s
  if !beaconRuns s then s
  else { s with pins := { s.pins with
    beaconTo := if part < 500000 then some ((s.clk.count : Rat) + (500000 - part) / rate) else none,
    beaconLast := some ((s.clk.count : Rat) - part / rate) } }

/-- The next rising edge of `BEACON` after a step (R243), for the time `now` stepped to: the first whole millisecond at least 1 ms after
the last rising edge. -/
def beaconAfterStep (s : State) (k : Nat) (now : Rat) : Nat :=
  let rate := tbRate s k
  let wait : Rat := match s.pins.beaconLast with | some r => max 0 (r + 1000000 - s.clk.count) | none => 0
  let edge := ceilR ((now + wait * rate) / 1000000)
  (ceilR ((s.clk.count : Rat) + ((edge : Rat) * 1000000 - now) / rate)).toNat

/-- `BEACON` where timebase k is stepped to `now` (R243). -/
def stepBeacon (k : Nat) (now : Rat) (s : State) : State :=
  if s.ptb = k ∧ s.md.vouching then
    let s1 := cutBeacon s
    { s1 with pins := { s1.pins with beaconFrom := beaconAfterStep s1 k now } }
  else s

/-- An armed commit on timebase k waits for the next whole second of the stepped time, and a DOMAIN candidate's watch follows the
stepped seconds. -/
def shiftSeconds (k : Nat) (d : Int) (s : State) : State :=
  let s1 := match s.sn.armed with
    | some (1, j, sec) => if j = k then { s with sn := { s.sn with armed := some (1, j, sec + d) } } else s
    | _ => s
  let move (p : Nat × Cand) : Cand :=
    if 16 ≤ p.1 ∧ candKind s.cfg p.1 = .domain ∧ (s.cfg.lref (p.1 - 16)).source / 2 = k then
      { p.2 with lastWatch := p.2.lastWatch.map fun x => x + d }
    else p.2
  { s1 with rf := { s1.rf with cand := (indexed s1.rf.cand).map move } }

/-- A step of timebase k by `delta` ps (R240), which is in state `after` from this cycle on: counter, epoch, phase term, PHY copies,
anchors (R288), axis (R314, R330), `BEACON`. Stamps of the epoch before that a PTP exchange still holds are dropped. -/
def stepTb (k : Nat) (after : TbState) (delta : Rat) (s : State) : State :=
  let old := s.tbs k
  let now := counterValue (old.now + delta / 1000)
  let epoch := (old.epoch + 1) % 2 ^ 32
  let new : Tb :=
    { old with
      now := now, base := now, epoch := epoch, taper := { old.taper with gap := 0, slope := 0, ending := false }, prop := none,
      lastStep := readInt (delta / 1000), lastStepAt := s.clk.count, past := old.pastAt s.clk.count }
  let s := stepBeacon k now s
  let s1 : State :=
    { s with
      tb := upd s.tb k fun _ => new
      nv := { s.nv with epochs := upd s.nv.epochs k fun _ => some epoch }
      pt := { s.pt with
        port := s.pt.port.map fun p =>
          { p with
            copies := upd p.copies k fun _ => 0,
            pdelay := if p.pdelay.any (fun r => r.1 / 2 == k) then none else p.pdelay
            pdelayPrev := (indexed p.pdelayPrev).map fun (i, x) => if i / 2 = k then none else x }
        inst := (indexed s.pt.inst).map fun (x : Nat × PtpInst) =>
          if x.1 / 2 = k then { x.2 with wait := none, t1t2 := none, delayReq := none } else x.2 }
      ts :=
        ((({ s.ts with tbSec := upd s.ts.tbSec k fun _ => now.floor / 1000000000 } : Ts).addAnchor s.clk.count k
          (anchorOf { old with now := old.now - tbRate s k } k false true)).addAnchor s.clk.count k (anchorOf { new with state := after } k true false))
      dom := (indexed s.dom).map fun (p : Nat × Dom) =>
        if p.1 / 2 = k then
          { p.2 with theta := p.2.theta.map (· + delta), est := p.2.est.map fun e => (e.1, e.2 + delta) }
        else p.2 }
  let s2 := shiftSeconds k (now.floor / 1000000000 - old.now.floor / 1000000000) (restamp k s1)
  let s4 := raise (232 + k) { s2 with ax := upd s2.ax k fun a => { a with sticky := setBit8 a.sticky 3 } }
  rebaseAxis k (pos64 now - pos64 old.now) (raise (120 + k) s4)

/-- An estimate of this domain is used for a step (R241, R242, R260). -/
def stepDue (s : State) (i : Nat) : Bool :=
  let t := s.tbs (i / 2)
  t.state != .fenced && !s.rf.stopped &&
    (t.restep == some (i % 2)
      || (t.state == .unset && t.stepFrom == some (i % 2) && (s.domi i).state == .qualified && trackCapable s (i / 2)))

/-- The step that domain i's estimate θ makes (R240 to R242). -/
def makeStep (i : Nat) (theta : Rat) (s : State) : State :=
  let k := i / 2
  let d := i % 2
  let was := s.tbs k
  let s1 := stepTb k (if was.restep = some d then was.state else .tracking) (-theta) s
  if was.restep = some d then
    let s2 := s1.setTb k fun t => { t with restep := none, restepState := 2, active := some d, lastEst := some s.clk.count }
    let s3 := if was.active.isSome ∧ was.active ≠ some d then countSwitch k s2 else s2
    let s4 := s3.setDom i fun x => { x with latch := false, run := [], backRun := 0 }
    if (s4.domi i).state = .discontinuous then domGo i .qualified s4 else s4
  else tbGo k .tracking (s1.setTb k fun t => { t with active := some d, stepFrom := none, lastEst := some s.clk.count })

/-! ## Estimates (R250) -/

/-- An estimate joins the history that the prediction uses. -/
def acceptEst (i : Nat) (t theta : Rat) (s : State) : State :=
  let old := recentEst s i t
  s.setDom i fun d => { d with est := (t, theta) :: old, qualSince := d.qualSince.or (some t) }

/-- The history starts again with this estimate. -/
def restartEst (i : Nat) (t theta : Rat) (s : State) : State :=
  s.setDom i fun d => { d with est := [(t, theta)], qualSince := some t }

/-- The qualification time has run in QUALIFYING (R250). -/
def qualify (i : Nat) (t theta : Rat) (s : State) : State :=
  let d := s.domi i
  let thr := nsPs (s.cfg.tbs (i / 2)).discThreshold
  match d.qualSince with
  | none => s
  | some q =>
    if t - q < ((s.cfg.domi i).qualTime : Rat) * 1000000000 then s
    else if !d.latch ∨ absR theta ≤ thr then domGo i .qualified s
    else domGo i .discontinuous (s.setDom i fun d => { d with stepSize := readInt (-theta / 1000) })

/-- A residual above the threshold in QUALIFIED (R250). -/
def qualifiedRun (i : Nat) (t theta resid : Rat) (s : State) : State :=
  let c := s.cfg.tbs (i / 2)
  let thr := nsPs c.discThreshold
  let run := resid :: (s.domi i).run
  if run.length < c.discConfirm then s.setDom i fun d => { d with run := run, outliers := d.outliers + 1 }
  else
    let first := run.getLast?.getD resid
    if run.all (fun r => decide (absR (r - first) ≤ thr)) && (s.tbs (i / 2)).state != .unset then
      domGo i .discontinuous (s.setDom i fun d =>
        { d with latch := true, stepSize := readInt (-(meanR run) / 1000) })
    else restartEst i t theta (domGo i .qualifying s)

/-- The qualification time runs anew from the estimate at `t` (R250). -/
def requalify (i : Nat) (t : Rat) (s : State) : State := s.setDom i fun d => { d with qualSince := some t }

/-- The state tests of an estimate that is not used for a step (R250). -/
def judgeEst (i : Nat) (t theta resid : Rat) (s : State) : State :=
  let c := s.cfg.tbs (i / 2)
  let thr := nsPs c.discThreshold
  let above : Bool := decide (thr < absR resid)
  match (s.domi i).state with
  | .qualifying =>
    let s1 := acceptEst i t theta s
    qualify i t theta (if above then requalify i t s1 else s1)
  | .qualified =>
    if above then qualifiedRun i t theta resid s
    else acceptEst i t theta (s.setDom i fun d => { d with run := [] })
  | .discontinuous =>
    if thr < absR theta then s.setDom i fun d => { d with backRun := 0 }
    else
      let s1 := acceptEst i t theta s
      if (s.domi i).backRun + 1 < c.discConfirm then s1.setDom i fun d => { d with backRun := d.backRun + 1 }
      else domGo i .qualified (s1.setDom i fun d => { d with latch := false })
  | _ => s

/-- The whole second from which the next DOMAIN edge counts (R106). A master that has gone back gives its seconds again. -/
def noteEdgeSec (i : Nat) (s : State) : State :=
  if (s.domi i).supplies then
    let m := masterNow s i
    let sec := m.floor / 1000000000
    s.setDom i fun d => { d with edgeSec := match d.edgeSec with
      | some e => if m + 500000000 < (e : Rat) * 1000000000 then some sec else some e
      | none => some sec }
  else s

/-- An estimate θ (ps) of domain i at engine instant `t` makes the step that waits for it (R240 to R242). -/
def stepEst (i : Nat) (t theta : Rat) (s : State) : State :=
  let was := (s.domi i).state
  let s1 := makeStep i theta (s.setDom i fun d => { d with theta := some theta })
  noteEdgeSec i (if was = .discontinuous then restartEst i t 0 s1 else acceptEst i t 0 s1)

/-- An estimate θ (ps) of domain i at engine instant `t` that makes no step (R250, R255). An outlier is never passed to the servo. -/
def useEst (i : Nat) (t theta : Rat) (s : State) : State :=
  let k := i / 2
  let s1 := s.setDom i fun d => { d with theta := some theta }
  let resid := match predictTheta s i t with | some p => theta - p | none => 0
  let outlier : Bool := (s.domi i).state == .qualified && decide (nsPs (s.cfg.tbs k).discThreshold < absR resid)
  let serves : Bool := (s.tbs k).state == .tracking || (s.tbs k).state == .holdover
  let s2 := if (s.tbs k).active = some (i % 2) ∧ !outlier ∧ serves then servoUpdate k theta s1 else s1
  noteEdgeSec i (judgeEst i t theta resid s2)

/-- The domain takes estimates (R29, R33, R248): it measures, and the STEER core runs. -/
def takesEst (s : State) (i : Nat) : Bool := (s.domi i).measures && s.runs 1

/-- An estimate θ (ps) of domain i, taken at engine instant `t` (R248, R250, R255, R260). -/
def estimate (i : Nat) (t theta : Rat) (s : State) : State :=
  if !takesEst s i then s else if stepDue s i then stepEst i t theta s else useEst i t theta s

/-- θ of domain i for a master time (ns) at engine instant `t`, ps (R248). -/
def thetaAt (s : State) (i : Nat) (t master : Rat) : Rat := (tbAt s (i / 2) t - master) * 1000

/-- The estimates of one cycle, each a domain with its instant and master time (R260): steps come first, and the domain changes are
judged against their result. -/
def estimates (l : List (Nat × Rat × Rat)) (s : State) : State :=
  let one (acc : State × List (Nat × Rat × Rat)) (p : Nat × Rat × Rat) : State × List (Nat × Rat × Rat) :=
    if takesEst acc.1 p.1 && stepDue acc.1 p.1 then (stepEst p.1 p.2.1 (thetaAt acc.1 p.1 p.2.1 p.2.2) acc.1, acc.2)
    else (acc.1, acc.2 ++ [p])
  let (s1, rest) := l.foldl one (s, [])
  rest.foldl (fun s p => if takesEst s p.1 then useEst p.1 p.2.1 (thetaAt s p.1 p.2.1 p.2.2) s else s) s1

/-! ## Kinds TIME and LOCAL (R246, R247) -/

/-- The offset that converts a labelled pulse of UTC `u` (R246): the one that the leap second armed or applied last gives that second,
wherever the timebase itself stands. Second 60 takes the offset in force before `LEAP_AT`. -/
def convertOffset (t : Tb) (u : Nat) (sec60 : Bool) : Int :=
  let pick (old new : Int) (at_ : Time80) : Int :=
    if sec60 then old else if (at_.sec : Int) ≤ (u : Int) + new then new else old
  if t.utc.leap = 1 then pick t.utc.offset (t.utc.offset + 1) t.utc.leapAt
  else if t.utc.leap = 2 then pick t.utc.offset (t.utc.offset - 1) t.utc.leapAt
  else match t.leapDone with
    | some (_, old, at_) => pick old t.utc.offset at_
    | none => t.utc.offset

/-- A good labelled pulse of candidate c at `t` with UTC `u` gives every TIME domain on it an estimate (R246, R247). -/
def timePulse (c : Nat) (t : Rat) (u : Nat) (sec60 : Bool) (s : State) : State :=
  estimates (((List.range 8).filter fun i => (s.cfg.domi i).kind == 2 && (s.cfg.domi i).timeRef == c).map fun i =>
    (i, t, (((u : Int) + convertOffset (s.tbs (i / 2)) u sec60 : Int) : Rat) * 1000000000)) s

/-- The channel second of channel n at `t` gives the LOCAL domains of the timebases bound to it their estimates (R247, R275). -/
def localSecond (n : Nat) (t : Rat) (s : State) : State :=
  [0, 1, 2, 3].foldl (fun s k =>
    if (s.cfg.tbs k).channel = n then
      let s1 := s.setTb k fun t => { t with label := t.labelNext.or (t.label.map (· + 1)), labelNext := none }
      match (s1.tbs k).label with
      | none => s1
      | some l =>
        estimates (((domainsOf k).filter fun i => (s.cfg.domi i).kind == 3).map fun i => (i, t, (l : Rat) * 1000000000)) s1
    else s) s

/-- A channel second of channel n that has fallen since `was` gives the LOCAL estimates (R190, R247). -/
def secondFell (was s : State) (n : Nat) : State :=
  match (s.chan n).secAt with
  | some t => if (was.chan n).secAt = some t then s else localSecond n t s
  | none => s

/-- What `f` does, with the channel seconds that fall in it, those of a first alignment among them (R157, R190). -/
def withSeconds (f : State → State) (s : State) : State := (List.range 8).foldl (secondFell s) (f s)

/-- `LOCAL_LABEL` (R247, R275): the next channel second takes the label. -/
def writeLabel (k : Nat) (t : Time80) (s : State) : Nat × State :=
  if t.ns ≠ 0 then (0x04, s)
  else if s.isFenced (.tb k) then (0x0C, s)
  else if (domainsOf k).all fun i => (s.cfg.domi i).kind != 3 then (0x06, s)
  else (0x00, s.setTb k fun x => { x with labelNext := some t.sec })

/-! ## Commands of R242 and R250 -/

/-- `RESTEP` (R242). -/
def restepCommand (k arg : Nat) (s : State) : Nat × State :=
  let t := s.tbs k
  if 1 < arg then (0x04, s)
  else if t.state = .fenced then (0x0C, s)
  else if t.state = .unset ∨ !(s.domi (2 * k + arg)).measures then (0x06, s)
  else if t.restep.isSome then (0x08, s)
  else (0x00, s.setTb k fun t => { t with restep := some arg, restepState := 1 })

/-- `CLEAR_DISC` (R250, R275). -/
def clearDiscCommand (k arg : Nat) (s : State) : Nat × State :=
  let i := 2 * k + arg
  if 1 < arg then (0x04, s)
  else if s.isFenced (.tb k) then (0x0C, s)
  else if (s.domi i).state ≠ .discontinuous then (0x06, s)
  else (0x00, domGo i .qualifying (s.setDom i fun d => { d with latch := false }))

/-- `KIND` of domain i has been written (R250): the state follows, and a different source starts afresh. -/
def kindWritten (i old : Nat) (s : State) : State :=
  let k := (s.cfg.domi i).kind
  if k = old then s
  else
    let st := (s.domi i).state
    let s1 := s.setDom i fun d => { d with syncDue := none, annDue := none, gmInd := none, rankWait := none }
    if k = 0 then domGo i .off s1
    else if st = .noSource then s1
    else domGo i .noSource s1

/-! ## UTC (R244 to R246) -/

/-- The timebase reaches `LEAP_AT` (R245). -/
def applyLeap (k : Nat) (s : State) : State :=
  let t := s.tbs k
  let u := t.utc
  if u.leap = 0 ∨ t.now < Time80.toNs u.leapAt then s
  else
    let u' : Utc := { u with offset := if u.leap = 1 then u.offset + 1 else u.offset - 1, leap := 0 }
    raise (120 + k) { (s.setTb k fun t => { t with utc := u', leapDone := some (u.leap, u.offset, u.leapAt) }) with
      cfg := { s.cfg with utc := upd s.cfg.utc k fun c =>
        { c with written := { c.written with offset := u'.offset, leap := 0 } } } }


/-! ## Fencing, sleep and wake (R259) -/

/-- Snuffer fences timebase k: it keeps counting with c frozen. -/
def fenceTb (k : Nat) (s : State) : State :=
  let t := s.tbs k
  if t.state = .fenced then s
  else
    let c := tbCorr (s.cfg.tbs k) t
    tbGo k .fenced (s.setTb k fun t =>
      { t with
        frozenC := some c, active := none, stepFrom := none, restep := none,
        restepState := if t.restep.isSome then 3 else t.restepState })

/-- The rates hold their last values (R33, R259). -/
def freezeRates (s : State) : State :=
  { s with tb := (indexed s.tb).map fun (p : Nat × Tb) => { p.2 with frozenC := some (tbCorr (s.cfg.tbs p.1) p.2) } }

/-- The sleep commit (R259): every timebase that is not UNSET or FENCED is in HOLDOVER, every domain in NO_SOURCE. -/
def sleepTimebases (s : State) : State :=
  let s1 := (List.range 8).foldl (fun s i => if (s.domi i).measures then domGo i .noSource s else s) s
  let s2 := [0, 1, 2, 3].foldl (fun s k =>
    let s' := s.setTb k fun t => { t with active := none }
    if (s.tbs k).state = .tracking then tbGo k .holdover s' else s') s1
  freezeRates s2

/-- Wake (R259): c goes on from its last value under the servo. With the STEER core gone it stays held. -/
def wakeTimebases (s : State) : State :=
  if !s.runs 1 then s
  else
    [0, 1, 2, 3].foldl (fun s k =>
      match (s.tbs k).state, (s.tbs k).frozenC with
      | .fenced, _ => s
      | _, some c => setFreqTerm k c (s.setTb k fun t =>
          { t with frozenC := none, prop := none, taper := { t.taper with gap := 0, slope := 0, ending := false } })
      | _, none => s) s

/-! ## What R76 and R265 ask of a timebase -/

/-- The conditions of R76 for HOLDOVER with timebase k as principal. -/
def holdoverVouches (s : State) (k : Nat) : Bool :=
  s.md.ovenReady && (s.tbs k).state != .fenced && decide ((s.hov (s.cfg.tbs k).channel).bound ≤ s.cfg.sy.vouchLimit)

/-- The level of source 132 (R270). -/
def restepNeeded (s : State) : Bool :=
  s.dom.any (·.latch) ||
    (indexed s.dom).any fun p => p.2.measures && (s.tbs (p.1 / 2)).state == .holdover &&
      (match p.2.theta with
        | some th => decide (nsPs (s.cfg.tbs (p.1 / 2)).recoverLimit < absR th)
        | none => false)

end Sys2Proof.Machine
end

