-- ==== Sys2Proof/Machine/Ports.lean ====
section
/-! DEFINITION. PTP instances, their ports and messages, domain ranks and measuring, and layer 2 (R4, R247, R252, R261 to R269). -/

namespace Sys2Proof.Machine

/-! ## Updates and readings -/

/-- Port n. -/
abbrev State.port (s : State) (n : Nat) : Port := nth s.pt.port n Port.reset
/-- Port n changed. -/
abbrev State.setPort (s : State) (n : Nat) (f : Port → Port) : State := { s with pt := { s.pt with port := upd s.pt.port n f } }
/-- PTP instance i. -/
abbrev State.inst (s : State) (i : Nat) : PtpInst := nth s.pt.inst i PtpInst.reset
/-- PTP instance i changed. -/
abbrev State.setInst (s : State) (i : Nat) (f : PtpInst → PtpInst) : State :=
  { s with pt := { s.pt with inst := upd s.pt.inst i f } }
/-- Written configuration of port n. -/
abbrev Cfg.port (c : Cfg) (n : Nat) : CfgPort := nth c.pt n CfgPort.reset
/-- Message settings of instance i. -/
abbrev Cfg.insts (c : Cfg) (i : Nat) : CfgInst := nth c.inst i CfgInst.reset
/-- `ROLE` of port n in instance i. -/
abbrev Cfg.role (c : Cfg) (n i : Nat) : Nat := nth (c.port n).roles i 0
/-- State of port n in instance i. -/
abbrev State.portState (s : State) (n i : Nat) : PortState := nth (s.port n).states i .disabled
/-- A frame is sent. -/
def send (x : Tx) (s : State) : State := { s with tx := s.tx ++ [x] }

/-- 2^l seconds in ns. -/
def logNs (l : Int) : Nat := if 0 ≤ l then 1000000000 * 2 ^ l.toNat else 1000000000 / 2 ^ (-l).toNat

/-- Instance i is an active PTP instance (R261). -/
def instActive (s : State) (i : Nat) : Bool := (s.cfg.domi i).kind == 1
/-- Profile of instance i. -/
abbrev profileOf (s : State) (i : Nat) : Nat := (s.cfg.domi i).profile

/-- Port n can carry frames. -/
def portUp (s : State) (n : Nat) : Bool := (s.port n).link && (s.cfg.port n).enable == 1 && !(s.port n).asleep

/-- Port n can take part in a PTP instance: its PTP unit is not fenced (R358). -/
def ptpUp (s : State) (n : Nat) : Bool := portUp s n && !s.isFenced (.port n)

/-- The PTP stack handles frames of port n (R29, R72, R87, R268, R358). -/
def ptpAlive (s : State) (n : Nat) : Bool :=
  ptpUp s n && s.runs 0 && s.md.mode != .safe && s.md.mode != .standby

/-- The copy of timebase k in the PHY of port n, ns (R25): it runs with the engine's counter, from which an error may part it. -/
def copyOf (s : State) (n k : Nat) : Rat := (s.tbs k).now + nth (s.port n).copies k 0

/-- What a frame of a kind that port n sends for instance i carries (R262, R267). -/
def ptpHead (s : State) (n i : Nat) (peer : Bool) (seqId : Nat) (corr : Rat) (log : Int) : PtpTx :=
  { port := n, inst := i,
    dst := if peer || decide (2 ≤ profileOf s i) then 0x0180C200000E else 0x011B19000000,
    src := s.nv.factory.baseMac + n, etherType := 0x88F7, domain := (s.cfg.domi i).ptpDomain,
    gptp := decide (2 ≤ profileOf s i), identity := s.nv.factory.clockIdentity, portNumber := n + 1, seqId := seqId, corr := corr,
    logInterval := log }

/-- Port of instance i in state SLAVE. -/
def slavePort (s : State) (i : Nat) : Option Nat := (List.range 14).find? fun n => s.portState n i == .slave

/-- Delay of the master-to-slave path by `ASYMMETRY` of port n, ns (R249). -/
def asymNs (s : State) (n : Nat) : Rat := ((s.cfg.port n).asymmetry : Rat) / 1000

/-- Link delay in use on port n, ps (R269). -/
def linkDelayPs (s : State) (n : Nat) : Rat :=
  if (s.cfg.port n).pdelayMode = 1 then (s.cfg.port n).staticLinkDelay else (s.port n).linkDelay

/-! ## Datasets (R265) -/

/-- clockAccuracy for a bound in ns: the smallest enumeration of IEEE 1588-2019 whose limit is not below it (R265). -/
def accuracyOf (b : Nat) : Nat :=
  let table : List (Nat × Nat) :=
    [(1, 0x1D), (10, 0x1F), (25, 0x20), (100, 0x21), (250, 0x22), (1000, 0x23), (2500, 0x24), (10000, 0x25), (25000, 0x26),
     (100000, 0x27), (250000, 0x28), (1000000, 0x29), (2500000, 0x2A), (10000000, 0x2B), (25000000, 0x2C),
     (100000000, 0x2D), (250000000, 0x2E), (1000000000, 0x2F), (10000000000, 0x30)]
  if b = 0 then 0x17 else if b = 2 then 0x1E
  else match table.find? fun p => decide (b ≤ p.1) with | some p => p.2 | none => 0x31

/-- A leap flag is set only during the UTC day that ends at `LEAP_AT` (R265). -/
def leapShown (t : Tb) (kind : Nat) : Bool :=
  let len : Nat := if kind = 1 then 86401 else 86399
  t.utc.leap == kind && decide (((t.utc.leapAt.sec : Rat) - len) * 1000000000 ≤ t.now)
    && decide (t.now < Time80.toNs t.utc.leapAt)

/-- The module's own dataset in the last five rows of R265, with the priorities in force (R279). -/
def ownDataset (s : State) (i cls acc src : Nat) : Dataset :=
  let t := s.tbs (i / 2)
  let x := s.inst i
  { gmIdentity := s.nv.factory.clockIdentity, gmClass := cls, accuracy := acc, variance := 0xFFFF, priority1 := x.prio1,
    priority2 := x.prio2, steps := 0, timeSource := src, arbitrary := (s.cfg.tbs (i / 2)).timescale == 1,
    utcOffset := t.utc.offset, utcValid := t.utc.valid == 1, leap61 := leapShown t 1, leap59 := leapShown t 2 }

/-- A received dataset one step further on. -/
def onward (d : Dataset) : Dataset := { d with steps := d.steps + 1 }

/-- What the timebase of instance i gives where no port of the instance is SLAVE (R265). -/
def clockDataset (s : State) (i : Nat) : Dataset :=
  let k := i / 2
  let t := s.tbs k
  let held : Dataset :=
    if holdoverVouches s k then ownDataset s i 7 (accuracyOf (s.hov (s.cfg.tbs k).channel).bound) 0xA0
    else ownDataset s i 187 0xFE 0xA0
  match t.state, t.active with
  | .unset, _ => ownDataset s i 248 0xFE 0xA0
  | .tracking, some d =>
    let j := 2 * k + d
    if (s.cfg.domi j).kind = 2 then ownDataset s i 6 0x21 0x20
    else if (s.cfg.domi j).kind = 3 then ownDataset s i 13 0xFE 0x60
    else match (s.inst j).parent with
      | some (_, x) => onward x
      | none => held
  | _, _ => held

/-- The dataset that applies to instance i (R265): none while its timebase is fenced. -/
def advDataset (s : State) (i : Nat) : Option Dataset :=
  if (s.tbs (i / 2)).state = .fenced then none
  else match (s.inst i).parent with
    | some (_, x) => some (onward x)
    | none => some (clockDataset s i)

/-! ## Best master selection (R261, R263; the comparison of IEEE 1588-2019 and IEEE 802.1AS-2020) -/

/-- Order of two datasets by the numbers that the comparison takes one after another. -/
def lexLess : List Nat → List Nat → Bool
  | [], [] => false
  | [], _ :: _ => true
  | _ :: _, [] => false
  | a :: l, b :: m => decide (a < b) || (a == b && lexLess l m)

/-- What the comparison takes of a dataset: a sender's port and the receiving port last. -/
def dsKey (d : Dataset) (sender senderPort rx : Nat) : List Nat :=
  [d.priority1, d.gmClass, d.accuracy, d.variance, d.priority2, d.gmIdentity, d.steps, sender, senderPort, rx]

/-- Key of a received Announce. -/
def Foreign.key (f : Foreign) : List Nat := dsKey f.data f.sender f.senderPort f.port

/-- The roles that a profile lists (R263). -/
def roleListed (profile role : Nat) : Bool :=
  role == 0 || role == 2 || role == 3 || (role == 1 && decide (profile ≤ 2)) || (role == 4 && decide (profile ≤ 1))

/-- A port takes part in best master selection. -/
def hearsMasters (s : State) (i n : Nat) : Bool :=
  instActive s i && profileOf s i != 3 && ptpUp s n && (s.cfg.role n i == 1 || s.cfg.role n i == 3)
    && roleListed (profileOf s i) (s.cfg.role n i)

/-- The least of a list by key. -/
def bestForeign : List Foreign → Option Foreign
  | [] => none
  | f :: rest => match bestForeign rest with
    | none => some f
    | some g => if lexLess g.key f.key then some g else some f

/-- The best master that instance i hears. -/
def bestOf (s : State) (i : Nat) : Option Foreign := bestForeign ((s.inst i).foreign.filter fun f => hearsMasters s i f.port)

/-- The instance may become grandmaster (R279). -/
def gmCapable (s : State) (i : Nat) : Bool := !(profileOf s i == 2 && (s.inst i).prio1 == 255)

/-- The module's own dataset as best master selection compares it: what it would be without this instance's master. While the timebase
tracks that master, that is the module's own clock of class 248 (log entry 117). -/
def defaultDataset (s : State) (i : Nat) : Dataset :=
  let t := s.tbs (i / 2)
  if t.state = .tracking ∧ t.active = some (i % 2) then ownDataset s i 248 0xFE 0xA0 else clockDataset s i

/-- The decision of the profile for a port with role BMCA or SLAVE, before the role's own limit (R263). A port that has heard no master
stays LISTENING until its Announce receipt timeout. -/
def bmcaDecision (s : State) (i n : Nat) : PortState :=
  let me := s.nv.factory.clockIdentity
  let own := defaultDataset s i
  let ownKey := dsKey own me 0 0
  let mine := (s.inst i).foreign.find? fun f => f.port == n
  let fresh : Bool := s.portState n i == .listening || s.portState n i == .disabled
  match bestOf s i with
  | none => if s.portState n i == .master && gmCapable s i then .master else .listening
  | some b =>
    if mine.isNone && fresh then .listening
    else if gmCapable s i && lexLess ownKey b.key then .master
    else if profileOf s i ≤ 1 ∧ own.gmClass ≤ 127 then
      (match mine with | some f => if lexLess ownKey f.key then .master else .passive | none => .master)
    else if b.port = n then .slave
    else match mine with
      | none => .master
      | some f => if lexLess (dsKey (onward b.data) me (n + 1) n) f.key then .master else .passive

/-- State of port n in instance i (R261, R263). -/
def portStateNow (s : State) (i n : Nat) : PortState :=
  let role := s.cfg.role n i
  if !instActive s i || !ptpUp s n || role == 0 || !roleListed (profileOf s i) role then .disabled
  else if role = 4 then .transparent
  else if role = 2 then .master
  else if profileOf s i = 3 then .slave
  else
    let st := bmcaDecision s i n
    if role = 3 ∧ st = .master then .listening else st

/-- A port's state is shown and its change reported (R270). -/
def setPortState (i n : Nat) (st : PortState) (s : State) : State :=
  if s.portState n i = st then s
  else raise (136 + n) (s.setPort n fun p => { p with states := upd p.states i fun _ => st })

/-- Receipt timeouts of instance i, ns (R247, R279). -/
def announceTimeoutNs (s : State) (i : Nat) : Nat := (s.cfg.insts i).announceTimeout * logNs (s.cfg.insts i).logAnnounce
/-- Sync receipt timeout of instance i, ns. -/
def syncTimeoutNs (s : State) (i : Nat) : Nat := (s.cfg.insts i).syncTimeout * logNs (s.cfg.insts i).logSync

/-- The parent of instance i: the SLAVE port and the dataset received there. -/
def parentNow (s : State) (i : Nat) : Option (Nat × Dataset) :=
  (slavePort s i).map fun n =>
    (n, match (s.inst i).foreign.find? fun f => f.port == n with | some f => f.data | none => Dataset.unreceived)

/-- The grandmaster's identity as shown for instance i (R265, R280). -/
def gmOf (s : State) (i : Nat) : Option Dataset :=
  if !instActive s i then some { Dataset.unreceived with gmClass := 255 } else advDataset s i

/-- The registers `PT.05i` follow the dataset (R265, R280); a change of the grandmaster is counted and raises source 133 (R270). -/
def settleGm (s : State) (i : Nat) : State :=
  let x := s.inst i
  match gmOf s i with
  | none => s
  | some d =>
    let act := instActive s i
    let changed := x.gmIdentity != d.gmIdentity
    raiseIf changed 133 (s.setInst i fun x =>
      { x with
        gmIdentity := d.gmIdentity, gmClass := d.gmClass, steps := d.steps,
        advClass := if act then d.gmClass else 248, advAcc := if act then d.accuracy else 0xFE,
        gmChanges := if changed then x.gmChanges + 1 else x.gmChanges })

/-- The shown dataset of instance i follows the timebase states of the cycle (R265). The stack runs on the MGT core. -/
def settleAdvertised (s : State) (i : Nat) : State := if s.runs 0 then settleGm s i else s

/-- Instance i settles (R263): port states, parent, and the timers that a change of state starts. The stack runs on the MGT core, so
nothing changes while that has stopped. -/
def settleInst (s : State) (i : Nat) : State :=
  if !s.runs 0 then s
  else
    let was := slavePort s i
    let st := (List.range 14).map (portStateNow s i)
    let s1 := (indexed st).foldl (fun s p => setPortState i p.1 p.2 s) s
    let s2 := s1.setInst i fun x => { x with parent := parentNow s1 i }
    let now := slavePort s1 i
    let s3 :=
      if now = was then s2
      else (s2.setInst i fun x => { x with wait := none, t1t2 := none, delayReq := none, meanPath := 0 }).setDom i fun d =>
        { d with syncDue := now.map fun _ => s.clk.count + syncTimeoutNs s i }
    let listening : Bool := (List.range 14).any fun n => s3.portState n i == .listening && s3.cfg.role n i == 1
    settleGm (s3.setDom i fun d =>
      { d with annDue := if listening then d.annDue.or (some (s.clk.count + announceTimeoutNs s i)) else none }) i

/-- RECEIPT_TIMEOUT (R247, R263): the Sync or the Announce timeouts of instance i that have run out. -/
def receiptTimeout (i : Nat) (announce : Bool) (s : State) : State :=
  let due (o : Option Nat) : Bool := match o with | some t => decide (t ≤ s.clk.count) | none => false
  if !instActive s i then s
  else if !announce then (if due (s.domi i).syncDue ∧ s.runs 1 then s.setDom i fun d => { d with syncDue := none } else s)
  else if !s.runs 0 then s
  else
    let s1 := s.setInst i fun x => { x with foreign := x.foreign.filter fun f => decide (s.clk.count < f.due) }
    if !due (s.domi i).annDue ∨ !(gmCapable s i || (bestOf s1 i).isSome) then s1
    else
      (List.range 14).foldl (fun s n =>
        if s.portState n i == .listening && s.cfg.role n i == 1 then setPortState i n .master s else s)
        (s1.setDom i fun d => { d with annDue := none })

/-! ## Reception (R249, R262 to R264, R266, R269) -/

/-- The instance whose domainNumber and sdoId a message carries (R262). -/
def instOf (s : State) (h : PtpHdr) : Option Nat :=
  (List.range 8).find? fun i =>
    instActive s i && (s.cfg.domi i).ptpDomain == h.domain && (decide (2 ≤ profileOf s i) == h.gptp)

/-- A PTP frame on port n is discarded and counted (R261, R262, R278, R358). -/
def discardPtp (n : Nat) (s : State) : State := s.setPort n fun p => { p with rxDiscarded := p.rxDiscarded + 1 }

/-- A PTP frame on port n is handled by its instance, or discarded and counted (R262); a fenced port counts every one (R358). -/
def ptpReceive (n : Nat) (h : PtpHdr) (f : Nat → State → State) (s : State) : State :=
  if portUp s n && s.isFenced (.port n) then discardPtp n s
  else if !ptpAlive s n then s
  else match instOf s h with
    | none => discardPtp n s
    | some i => f i s

/-- Path delay of instance i on its SLAVE port n, ns (R249). -/
def pathDelayNs (s : State) (i n : Nat) : Rat := if profileOf s i = 0 then (s.inst i).meanPath else linkDelayPs s n / 1000

/-- A completed Sync gives its domain an estimate (R248, R249). -/
def syncComplete (i n : Nat) (at_ : Nat) (rx origin corr ratio : Rat) (s : State) : State :=
  let corr' : Rat := if 2 ≤ profileOf s i then corr * (1 + ratio / ppt1) else corr
  let theta := rx - origin - corr' - pathDelayNs s i n - asymNs s n
  estimate i at_ (theta * 1000) (s.setInst i fun x =>
    { x with
      t1t2 := some (origin + corr' + asymNs s n, rx), rateRatio := ratio, wait := none,
      relay := some (origin, corr' + pathDelayNs s i n + asymNs s n) })

/-- gmTimeBaseIndicator and lastGmPhaseChange of a Follow_Up or of a one-step Sync, in the profiles of IEEE 802.1AS (R266). -/
def noteGm (i : Nat) (g : Option (Nat × Int)) (s : State) : State :=
  match g with
  | none => s
  | some (v, phase) =>
    if profileOf s i < 2 then s
    else
      let changed : Bool := match (s.domi i).gmInd with | some w => w != v | none => false
      let s1 := (s.setDom i fun d => { d with gmInd := some v }).setInst i fun x => { x with gmPhase := phase }
      if changed then raise 133 (s1.setInst i fun x => { x with gmChanges := x.gmChanges + 1 }) else s1

/-- SYNC_RECEIVE (R249, R266): stamped at the PHY against its copy (R25). -/
def syncReceive (n : Nat) (h : PtpHdr) (kind : SyncKind) (origin ratio : Rat) (i : Nat) (s : State) : State :=
  if s.portState n i ≠ .slave then s
  else
    let rx := copyOf s n (i / 2)
    let s1 := s.setDom i fun d => { d with syncDue := some (s.clk.count + syncTimeoutNs s i) }
    match kind with
    | .twoStep =>
      s1.setInst i fun x =>
        { x with wait := some { port := n, seqId := h.seqId, rx := rx, corr := h.corr, atNs := s.clk.count } }
    | .oneStep gm => syncComplete i n s.clk.count rx origin h.corr ratio (noteGm i gm s1)

/-- FOLLOW_UP_RECEIVE (R249, R266). -/
def followUpReceive (n : Nat) (h : PtpHdr) (origin ratio : Rat) (gm : Option (Nat × Int)) (i : Nat) (s : State) : State :=
  if s.portState n i ≠ .slave then s
  else
    let s1 := noteGm i gm s
    match (s.inst i).wait with
    | none => s1
    | some w =>
      if w.port = n ∧ w.seqId = h.seqId then syncComplete i n w.atNs w.rx origin (w.corr + h.corr) ratio s1 else s1

/-- The priorities written take effect with the next Announce of the instance (R279). -/
def takePriorities (i : Nat) (s : State) : State :=
  s.setInst i fun x => { x with prio1 := (s.cfg.insts i).priority1, prio2 := (s.cfg.insts i).priority2 }

/-- ANNOUNCE_RECEIVE (R245, R252, R263, R265). -/
def announceReceive (n : Nat) (h : PtpHdr) (d : Dataset) (i : Nat) (s : State) : State :=
  if !hearsMasters s i n || h.sender == s.nv.factory.clockIdentity || decide (255 ≤ d.steps) then s
  else
    let f : Foreign :=
      { port := n, due := s.clk.count + announceTimeoutNs s i, sender := h.sender, senderPort := h.senderPort, data := d }
    let s1 := settleInst ((takePriorities i s).setInst i fun x =>
      { x with foreign := x.foreign.filter (fun g => g.port != n) ++ [f] }) i
    if s1.portState n i ≠ .slave then s1
    else
      let s2 := s1.setInst i fun x => { x with annClass := some d.gmClass, rxUtcOffset := d.utcOffset }
      if (s.tbs (i / 2)).active = some (i % 2) then announceUtc (i / 2) d s2 else s2

/-- DELAY_REQ_RECEIVE (R249, R264): answered on a MASTER port in profile 0. -/
def delayReqReceive (n : Nat) (h : PtpHdr) (i : Nat) (s : State) : State :=
  if profileOf s i = 0 ∧ s.portState n i = .master then
    send (.delayResp (ptpHead s n i false h.seqId h.corr (s.cfg.insts i).logPdelay) (copyOf s n (i / 2)) h.sender h.senderPort) s
  else s

/-- This module and port are the ones that a response answers (R267). -/
def answersUs (s : State) (n ident port : Nat) : Bool := ident == s.nv.factory.clockIdentity && port == n + 1

/-- DELAY_RESP_RECEIVE (R249): meanPathDelay. -/
def delayRespReceive (n : Nat) (h : PtpHdr) (receive : Rat) (ident port : Nat) (i : Nat) (s : State) : State :=
  let x := s.inst i
  match x.delayReq, x.t1t2 with
  | some (p, q, t3), some (t1, t2) =>
    if profileOf s i = 0 ∧ s.portState n i = .slave ∧ p = n ∧ q = h.seqId ∧ answersUs s n ident port then
      s.setInst i fun x => { x with meanPath := ((t2 - t1) + (receive - t3) - h.corr) / 2, delayReq := none }
    else s
  | _, _ => s

/-- PDELAY_REQ_RECEIVE (R269): answered at once wherever the peer delay mechanism runs. -/
def pdelayReqReceive (n : Nat) (h : PtpHdr) (i : Nat) (s : State) : State :=
  let t := copyOf s n (i / 2)
  if profileOf s i ≠ 0 ∧ s.portState n i ≠ .disabled then
    send (.pdelayResp (ptpHead s n i true h.seqId 0 0x7F) t t h.sender h.senderPort) s
  else s

/-- PDELAY_RESP_RECEIVE (R269): link delay and neighbour rate. -/
def pdelayRespReceive (n : Nat) (h : PtpHdr) (t2 t3 : Rat) (ident port : Nat) (i : Nat) (s : State) : State :=
  let p := s.port n
  match p.pdelay with
  | none => s
  | some (j, q, t1) =>
    if j = i ∧ q = h.seqId ∧ answersUs s n ident port then
      let t4 := copyOf s n (i / 2)
      let rate : Rat := match nth p.pdelayPrev i none with
        | some (a, b) => if t4 = b then 1 else (t3 - a) / (t4 - b)
        | none => 1
      let corr := if profileOf s i = 1 then h.corr + asymNs s n else h.corr
      s.setPort n fun p =>
        { p with
          linkDelay := ((t4 - t1) * rate - (t3 - t2) - corr) / 2 * 1000, neighborRate := (rate - 1) * ppt1,
          pdelay := none, pdelayPrev := upd p.pdelayPrev i fun _ => some (t3, t4) }
    else s

/-- The residence kept of the two-step Sync that a Follow_Up on port n matches (R264), ns. -/
def keptResidence (s : State) (i n : Nat) (h : PtpHdr) : Option Rat :=
  ((s.inst i).residences.find? fun r => r.1 == n && r.2.1 == h.sender && r.2.2.1 == h.senderPort && r.2.2.2.1 == h.seqId).map
    fun r => r.2.2.2.2

/-- The residences kept of port n's sender, without those that a new entry replaces: one is kept of each sender. -/
def dropResidence (n : Nat) (h : PtpHdr) (l : List (Nat × Nat × Nat × Nat × Rat)) : List (Nat × Nat × Nat × Nat × Rat) :=
  l.filter fun r => !(r.1 == n && r.2.1 == h.sender && r.2.2.1 == h.senderPort)

/-- What TRANSPARENT_FORWARD adds to the correctionField of a message on port n (R264), ns: a one-step Sync takes its own residence, a
Follow_Up that of its Sync; in profile 1 with the ingress link delay. -/
def forwardExtra (s : State) (i n : Nat) (h : PtpHdr) (kind : PtpKind) (twoStep : Bool) (residence : Rat) : Rat :=
  let link : Rat := if profileOf s i = 1 then linkDelayPs s n / 1000 else 0
  match kind with
  | .sync => if twoStep then 0 else residence + link
  | .followUp => (match keptResidence s i n h with | some r => r + link | none => 0)
  | _ => 0

/-- The residence of a two-step Sync is kept for its Follow_Up, which takes it away (R264). -/
def noteResidence (i n : Nat) (h : PtpHdr) (kind : PtpKind) (twoStep : Bool) (residence : Rat) (s : State) : State :=
  if kind = .sync ∧ twoStep then
    s.setInst i fun x => { x with residences := (n, h.sender, h.senderPort, h.seqId, residence) :: dropResidence n h x.residences }
  else if kind = .followUp ∧ (keptResidence s i n h).isSome then
    s.setInst i fun x => { x with residences := dropResidence n h x.residences }
  else s

/-- TRANSPARENT_FORWARD (R264): in switch hardware, also while the MGT core is stopped; not in STANDBY and not in SAFE. A fenced port
counts the frame (R358). -/
def transparentForward (n : Nat) (h : PtpHdr) (kind : PtpKind) (twoStep : Bool) (residence : Rat) (s : State) : State :=
  if !portUp s n || s.md.mode == .safe || s.md.mode == .standby then s
  else if s.isFenced (.port n) then discardPtp n s
  else match instOf s h with
    | none => discardPtp n s
    | some i =>
      let peer : Bool := kind == .pdelayReq || kind == .pdelayResp || kind == .pdelayRespFollowUp
      if s.portState n i ≠ .transparent ∨ (peer ∧ profileOf s i = 1) then s
      else
        let corr : Rat := h.corr + forwardExtra s i n h kind twoStep residence
        let others := (List.range 14).filter fun m => m != n && s.portState m i == .transparent
        others.foldl (fun t m => send (.forwarded
            { ptpHead s m i peer h.seqId corr 0x7F with identity := h.sender, portNumber := h.senderPort } kind) t)
          (noteResidence i n h kind twoStep residence s)

/-! ## Transmission (R249, R264 to R266, R268, R269) -/

/-- Next sequenceId number `j` of instance i. -/
def nextSeq (i j : Nat) (s : State) : Nat × State :=
  (nth (s.inst i).seqs j 0, s.setInst i fun x => { x with seqs := upd x.seqs j fun q => (q + 1) % 65536 })

/-- A message of kind `j` may be sent: the interval after the one before it has run (R279). -/
def txDueNow (s : State) (n i j : Nat) : Bool :=
  match (s.port n).txDue.find? fun e => e.1 == i && e.2.1 == j with
  | some e => decide (e.2.2 ≤ s.clk.count)
  | none => true

/-- The interval to the next message of kind `j` begins, with the setting now written (R279). -/
def txNext (n i j : Nat) (log : Int) (s : State) : State :=
  s.setPort n fun p =>
    { p with txDue := (i, j, s.clk.count + logNs log) :: p.txDue.filter fun e => !(e.1 == i && e.2.1 == j) }

/-- Origination on the MASTER ports is stopped (R268). -/
def originationStopped (s : State) : Bool := s.ou.heartbeatClosed || !ptpRuns s || !s.runs 0

/-- A MASTER port of instance i whose message of kind `j` is due: withheld and counted, or sent by `f` (R265, R268, R279). -/
def originate (n i j : Nat) (log : Int) (f : Dataset → State → State) (s : State) : State :=
  if !instActive s i || !ptpUp s n || s.portState n i != .master || s.md.mode == .standby || !txDueNow s n i j then s
  else match advDataset s i with
    | none => s
    | some d =>
      let s1 := txNext n i j log s
      if originationStopped s then s1.setPort n fun p => { p with suppressed := p.suppressed + 1 } else f d s1

/-- ANNOUNCE_TRANSMIT (R261, R265, R279): no Announce in profile 3. -/
def announceTransmit (n i : Nat) (s : State) : State :=
  let log := (s.cfg.insts i).logAnnounce
  if profileOf s i = 3 then s
  else originate n i 0 log (fun d s => let (q, s1) := nextSeq i 0 s; send (.announce (ptpHead s n i false q 0 log) d) s1)
    (takePriorities i s)

/-- What the Follow_Up of a Sync sent at `tx` carries (R263, R264, R266): correctionField, precise origin time, rate ratio − 1, and in
profiles 2 and 3 the grandmaster's values. A grandmaster or a boundary clock gives the timebase's own time. A time-aware relay passes on
the time of its grandmaster, with what has passed since the Sync came. -/
def followUpOf (s : State) (i : Nat) (tx : Rat) : Rat × Rat × Rat × Option (Nat × Int) :=
  let t := s.tbs (i / 2)
  let x := s.inst i
  if profileOf s i = 2 ∧ x.parent.isSome then
    (match x.relay, x.t1t2 with
      | some (o, c), some (_, rx) =>
        (c + (tx - rx) * (1 + x.rateRatio / ppt1), o, x.rateRatio, (s.domi i).gmInd.map fun v => (v, x.gmPhase))
      | _, _ => (0, tx, 0, none))
  else (0, tx, 0, if 2 ≤ profileOf s i ∧ x.parent.isNone then some (t.epoch % 65536, t.lastStep * 65536) else none)

/-- SYNC_TRANSMIT (R264, R266, R279): two-step, stamped against the PHY's copy (R25). -/
def syncTransmit (n i : Nat) (s : State) : State :=
  let log := (s.cfg.insts i).logSync
  originate n i 1 log (fun _ s =>
    let (q, s1) := nextSeq i 1 s
    let (corr, origin, ratio, gm) := followUpOf s i (copyOf s n (i / 2))
    send (.sync (ptpHead s n i false q corr log) origin ratio gm) s1) s

/-- DELAY_REQ_TRANSMIT (R249, R279). -/
def delayReqTransmit (n i : Nat) (s : State) : State :=
  if instActive s i ∧ profileOf s i = 0 ∧ s.portState n i = .slave ∧ ptpAlive s n ∧ txDueNow s n i 2 then
    let (q, s1) := nextSeq i 2 (txNext n i 2 (s.cfg.insts i).logPdelay s)
    send (.delayReq (ptpHead s n i false q (-(asymNs s n)) 0x7F))
      (s1.setInst i fun x => { x with delayReq := some (n, q, copyOf s n (i / 2)) })
  else s

/-- PDELAY_REQ_TRANSMIT (R269, R279). -/
def pdelayReqTransmit (n i : Nat) (s : State) : State :=
  if instActive s i ∧ profileOf s i ≠ 0 ∧ s.portState n i ≠ .disabled ∧ ptpAlive s n ∧ (s.cfg.port n).pdelayMode = 0
      ∧ txDueNow s n i 3 then
    let q := (s.port n).pdelaySeq
    let corr := if profileOf s i = 1 then -(asymNs s n) else 0
    send (.pdelayReq (ptpHead s n i true q corr (s.cfg.insts i).logPdelay)) ((txNext n i 3 (s.cfg.insts i).logPdelay s).setPort n fun p =>
      { p with pdelay := some (i, q, copyOf s n (i / 2)), pdelaySeq := (q + 1) % 65536 })
  else s

/-! ## Links and roles (R25, R67, R68, R263, R270) -/

/-- The ports have a link layer: from the processor boot on, and not while they sleep (R69, R72, R83). -/
def portsBooted (s : State) : Bool :=
  s.powered && (s.md.phase == .hold || s.md.phase == .done || s.md.phase == .ended)

/-- LINK_CHANGE (R68, R270): a port whose PHY role matches its partner's does not link. -/
def linkChange (n : Nat) (up partnerMaster : Bool) (s : State) : State :=
  let c := s.cfg.port n
  let on : Bool := up && c.enable == 1 && ((c.phyRole == 1) != partnerMaster) && portsBooted s && !(s.port n).asleep
  if (s.port n).link = on then s
  else
    let s1 := raise (136 + n) (s.setPort n fun p =>
      { p with link := on, linkChanges := p.linkChanges + 1, pdelay := none, pdelayPrev := List.replicate 8 none })
    { s1 with pt := { s1.pt with inst := s1.pt.inst.map fun x => { x with foreign := x.foreign.filter fun f => f.port != n } } }

/-- The check of a `ROLE` write (R263, R271). -/
def roleRefused (s : State) (n i v : Nat) : Bool :=
  decide (4 < v) || !roleListed (profileOf s i) v ||
    (v == 3 && profileOf s i == 3 && (List.range 14).any fun m => m != n && s.cfg.role m i == 3)

/-- The PHY's copies are re-aligned with the engine's counters (R25). How far a copy that disagrees lies off is a free value. -/
def realignCopies (n : Nat) (mismatch : BitVec 4) (s : State) : State :=
  { (s.setPort n fun p =>
      { p with copies := (List.range 4).map fun k => if mismatch.getLsbD k then Config.freeRat (s.free + k) else 0 }) with
    free := s.free + 4 }

/-! ## Ranks and measuring of domains (R125, R126, R247, R252) -/

/-- The table of R126. -/
def classRank (c : Nat) : Nat :=
  if c = 6 then 1 else if c = 13 then 2 else if c = 7 then 4 else if c = 14 then 5
  else if c = 52 ∨ c = 58 ∨ c = 187 ∨ c = 193 then 10 else if c = 248 then 12 else if c = 255 then 15 else 14

/-- Rank of a PTP domain (R125, R252). -/
def ptpRank (s : State) (i : Nat) : Nat :=
  if profileOf s i = 3 then (s.cfg.domi i).quality
  else match (s.inst i).annClass with | some c => classRank c | none => 15

/-- Rank of domain i as R252 sets it, before the wait of a better PTP rank. -/
def domRankNow (s : State) (i : Nat) : Nat :=
  let c := s.cfg.domi i
  if c.kind = 1 then ptpRank s i
  else if c.kind = 2 then (s.cand c.timeRef).rank
  else if c.kind = 3 then c.quality
  else 15

/-- The rank of domain i follows (R252): a worse rank at once; for kind PTP a better one waits. -/
def settleDomRank (s : State) (i : Nat) : State :=
  let d := s.domi i
  let r := domRankNow s i
  if r = d.rank then (if d.rankWait.isNone then s else s.setDom i fun d => { d with rankWait := none })
  else if (s.cfg.domi i).kind = 1 ∧ r < d.rank then
    (match d.rankWait with
      | some (q, _) => if q = r then s else s.setDom i fun d => { d with rankWait := some (r, s.clk.count) }
      | none => s.setDom i fun d => { d with rankWait := some (r, s.clk.count) })
  else raise (124 + i) (s.setDom i fun d => { d with rank := r, rankWait := none })

/-- DOMAIN_RANK_WAIT (R252). -/
def domainRankWait (i : Nat) (s : State) : State :=
  match (s.domi i).rankWait with
  | some (r, t) =>
    if s.clk.count < t + (s.cfg.domi i).qualTime * 1000000000 then s
    else raise (124 + i) (s.setDom i fun d => { d with rank := r, rankWait := none })
  | none => s

/-- Domain i measures (last column of R247). -/
def measuringNow (s : State) (i : Nat) : Bool :=
  let c := s.cfg.domi i
  let k := i / 2
  if s.rf.stopped then false
  else if c.kind = 1 then (slavePort s i).isSome && (s.domi i).syncDue.isSome
  else if c.kind = 2 then
    ((s.cand c.timeRef).state == .qualified || (s.cand c.timeRef).state == .selected) && (s.tbs k).utc.valid == 1
  else if c.kind = 3 then
    let n := (s.cfg.tbs k).channel
    (s.chan n).state == .locked && (s.chan n).aligned && (s.cfg.chan n).timeCarrying == 1
      && ((s.tbs k).label.isSome || (s.tbs k).labelNext.isSome)
  else false

/-- Domain i begins or stops to measure (R250). -/
def settleDom (s : State) (i : Nat) : State :=
  let d := s.domi i
  let m := measuringNow s i
  if d.state = .noSource ∧ m then domGo i .qualifying s
  else if d.measures ∧ !m then domGo i .noSource s
  else s

/-- `KIND` of domain i has been written (R250): its PTP instance, too, starts afresh. -/
def kindChanged (i old : Nat) (s : State) : State :=
  if (s.cfg.domi i).kind = old then s
  else kindWritten i old ((takePriorities i s).setInst i fun x =>
    { x with
      foreign := [], annClass := none, wait := none, t1t2 := none, delayReq := none, meanPath := 0, relay := none,
      residences := [] })

/-! ## Layer 2 (R4, R72) -/

/-- The header fields of a PTP frame that say who handles it (R262): messageType, whether sdoId names IEEE 802.1AS, domainNumber. None
where the frame is too short for a header of 34 bytes. -/
def ptpFields (payload : List Byte) : Option (Nat × PtpHdr) :=
  if payload.length < 34 then none
  else
    let b0 := (payload.getD 0 0).toNat
    some (b0 % 16, { domain := (payload.getD 4 0).toNat, gptp := b0 / 16 == 1, seqId := bytesNat ((payload.drop 30).take 2), corr := 0,
                     sender := bytesNat ((payload.drop 20).take 8), senderPort := bytesNat ((payload.drop 28).take 2) })

/-- A PTP frame that no instance handles (R261, R262): a management message, one of no active instance, or one that cannot be read. -/
def ptpForeign (s : State) (payload : List Byte) : Bool :=
  match ptpFields payload with
  | none => true
  | some (kind, h) => kind == 0xD || (instOf s h).isNone

/-- LAYER_2_FORWARDING (R4, R262): the switch learns the source and forwards to the learned port, or to every other port (log entry 14).
A PTP frame is never forwarded by it: it is discarded and counted, or handled by its instance as the command of its message says (log
entry 118). -/
def layer2 (n dst src etherType : Nat) (payload : List Byte) (s : State) : State :=
  if !portUp s n || s.md.mode == .standby then s
  else if etherType = 0x88F7 then
    (if s.isFenced (.port n) || (ptpAlive s n && ptpForeign s payload) then discardPtp n s else s)
  else
    let s1 := { s with pt := { s.pt with learned := (src, n) :: s.pt.learned.filter fun p => p.1 != src } }
    let others := (List.range 14).filter fun m => m != n && portUp s m
    let dest : List Nat :=
      match s.pt.learned.find? fun p => p.1 == dst with
      | some (_, m) => others.filter (· == m)
      | none => others
    dest.foldl (fun s m => send (.l2 m dst src etherType payload) s) s1

end Sys2Proof.Machine
end

