-- ==== Sys2Proof/Machine/References.lean ====
section
/-! DEFINITION. Wellhead: activity, frequency and drift monitors, the GNSS time messages, candidate states, ranks and selectors (R100
to R130, R462). -/

namespace Sys2Proof.Machine

/-! ## Candidates -/

/-- Candidate c changed. -/
abbrev State.setCand (s : State) (c : Nat) (f : Cand → Cand) : State := { s with rf := { s.rf with cand := upd s.rf.cand c f } }
/-- The GNSS port changed. -/
abbrev State.setGnss (s : State) (f : Gnss → Gnss) : State := { s with rf := { s.rf with gnss := f s.rf.gnss } }

/-- Candidate c is monitored now. -/
def candLive (s : State) (c : Nat) : Bool :=
  (s.cand c).state != .absent && (s.cand c).state != .fenced && !s.rf.stopped && s.clk.running

/-- Candidate c is QUALIFIED or SELECTED. -/
def candUsable (x : Cand) : Bool := x.state == .qualified || x.state == .selected

/-- The windows and the drift history are discarded (R116). With no window left the frequency fault and the drift fault are clear: R117
does not say what a discard does to them (DESIGN CHOICE, log entry 129). -/
def Cand.discard (x : Cand) : Cand :=
  { x with
    winCount := 0, winLast := none, marks := [], mark100 := none, y1 := none, y10 := none, y100 := none, samples := [],
    drift := none, freqFault := false, driftFault := false }

/-- The activity counter is set to the threshold with the fault asserted (R113, R116). These resets do not set the activity bit of
`STICKY`, which marks an event: R135 does not say whether a reset is one (DESIGN CHOICE, log entry 130). -/
def Cand.resetActivity (thr : Nat) (x : Cand) : Cand :=
  { x.discard with
    actCount := thr, onTimeRun := 0, actFault := true, anchor := none, edgeDiv := 0, lastWatch := none }

/-- Candidate c enters a state (R121, R124). Leaving QUALIFIED or SELECTED drops its samples in quarantine (R171). -/
def candGo (c : Nat) (st : CandState) (s : State) : State :=
  let was := candUsable (s.cand c)
  let s1 := raise (48 + c) (s.setCand c fun x => { x with state := st, lastChange := s.clk.count, wtrSince := none })
  if was && st != .qualified && st != .selected then dropSamples c s1 else s1

/-- A missing edge of candidate c (R113, R116). -/
def missEdge (c : Nat) (s : State) : State :=
  let thr := (candCfg s.cfg c).act
  s.setCand c fun x =>
    let y := { x with missing := x.missing + 1, onTimeRun := 0, actCount := min thr (x.actCount + 1) }
    if thr ≤ y.actCount ∧ !x.actFault then { y.discard with actFault := true, sticky := setBit8 x.sticky 0 } else y

/-- An edge meets a counter that a write of `ACT_THRESHOLD` has left at or above the threshold (R103, R113). -/
def Cand.atThreshold (thr : Nat) (x : Cand) : Cand :=
  if x.actCount < thr then x
  else
    { x with
      actCount := thr, onTimeRun := if x.actFault then x.onTimeRun else 0, actFault := true,
      sticky := if x.actFault then x.sticky else setBit8 x.sticky 0 }

/-- Periods of the signal since the last edge of the windows (R116): a CLK candidate counts its watched edges, any other the nominal
periods of the interval between its on-time edges. -/
def periodsSince (period : Option Rat) (t : Rat) (x : Cand) : Nat :=
  match period, x.winLast with
  | some p, some l => max 1 ((t - l) / p + 1 / 2).floor.toNat
  | _, _ => 1

/-- An edge of a candidate that arrives on time at `t` (R113, R116). `period` is none for CLK. -/
def Cand.onTime (thr : Nat) (period : Option Rat) (t : Rat) (c : Cand) : Cand :=
  let x := c.atThreshold thr
  let run := x.onTimeRun + 1
  let cnt := if run < 4 then x.actCount else x.actCount - 1
  let n := x.winCount + periodsSince period t x
  { x with
    onTimeRun := run % 4, actCount := cnt, actFault := x.actFault && !(decide (4 ≤ run) && cnt == 0),
    anchor := some t, lastWatch := some t, winCount := n, winLast := some t,
    marks := if x.marks.isEmpty then [(t, n)] else x.marks, mark100 := x.mark100.or (some (t, n)) }

/-- Candidate c takes an edge on time at `t`. -/
def candEdge (c : Nat) (t : Rat) (s : State) : State :=
  s.setCand c (Cand.onTime (candCfg s.cfg c).act (if candKind s.cfg c = .clk then none else some (nominalPeriod s.cfg c)) t)

/-- An extra edge (R114): counted, and one missing edge. -/
def extraEdge (c : Nat) (s : State) : State :=
  missEdge c (s.setCand c fun x => { x with extra := x.extra + 1, sticky := setBit8 x.sticky 4 })

/-! ## GNSS time messages (R107 to R111, R462) -/

/-- Days from 1970-01-01 to a date of the proleptic Gregorian calendar. -/
def civilDays (y m d : Nat) : Int :=
  let y' : Int := if m ≤ 2 then (y : Int) - 1 else y
  let m' : Int := ((m + 9) % 12 : Nat)
  365 * y' + y' / 4 - y' / 100 + y' / 400 + (153 * m' + 2) / 5 + d - 1 - 719468

/-- Days of a month. -/
def monthDays (y m : Nat) : Nat :=
  if m = 2 then (if (y % 4 = 0 ∧ y % 100 ≠ 0) ∨ y % 400 = 0 then 29 else 28)
  else if m = 4 ∨ m = 6 ∨ m = 9 ∨ m = 11 then 30 else 31

/-- A decimal number, or none where a character is no digit or there is none. -/
def decimal (l : List Byte) : Option Nat :=
  if l.isEmpty || l.any (fun b => decide (b.toNat < 48) || decide (57 < b.toNat)) then none
  else some (l.foldl (fun a b => a * 10 + (b.toNat - 48)) 0)

/-- A hexadecimal digit. -/
def hexDigit (b : Byte) : Option Nat :=
  let n := b.toNat
  if 48 ≤ n ∧ n ≤ 57 then some (n - 48) else if 65 ≤ n ∧ n ≤ 70 then some (n - 55)
  else if 97 ≤ n ∧ n ≤ 102 then some (n - 87) else none

/-- The fields between commas. -/
def fieldsOf : List Byte → List (List Byte)
  | [] => [[]]
  | b :: rest =>
    if b = 44#8 then [] :: fieldsOf rest
    else match fieldsOf rest with
      | [] => [[b]]
      | f :: fs => (b :: f) :: fs

/-- A sentence of GNSS0: the characters between `$` and `*`, and whether its checksum field is present and right (R107). -/
structure Sentence where
  /-- Fields, the address first. -/
  fields : List (List Byte)
  /-- Checksum present and right. -/
  sumOk : Bool
  /-- Characters, start character and line ending included. -/
  length : Nat
  deriving DecidableEq, Repr

/-- The characters without their line ending. -/
def stripEnd (l : List Byte) : List Byte := l.takeWhile fun b => b != 13#8 && b != 10#8

/-- A sentence read from its characters; none where it does not begin with `$`. -/
def readSentence (l : List Byte) : Option Sentence :=
  match stripEnd l with
  | [] => none
  | b :: body =>
    if b ≠ 36#8 then none
    else
      let head := body.takeWhile (· != 42#8)
      let tail := body.drop (head.length + 1)
      let sum := head.foldl (fun a c => a ^^^ c) 0#8
      let ok : Bool := match tail with
        | [h, l'] => (match hexDigit h, hexDigit l' with
            | some a, some c => decide (head.length < body.length) && a * 16 + c == sum.toNat
            | _, _ => false)
        | _ => false
      some { fields := fieldsOf head, sumOk := ok, length := body.length + 3 }

/-- ZDA (false) or RMC (true) with a two-letter talker; none for any other sentence (R107). A talker that begins with P marks a
proprietary sentence. -/
def sentenceType (a : List Byte) : Option Bool :=
  match a with
  | [t1, t2, x, y, z] =>
    let letter (b : Byte) : Bool := decide (65 ≤ b.toNat) && decide (b.toNat ≤ 90)
    if !letter t1 || !letter t2 || t1 == 80#8 then none
    else if x = 90#8 ∧ y = 68#8 ∧ z = 65#8 then some false
    else if x = 82#8 ∧ y = 77#8 ∧ z = 67#8 then some true
    else none
  | _ => none

/-- Field `n`, empty beyond the last. -/
def fieldAt (f : List (List Byte)) (n : Nat) : List Byte := nth f n []

/-- Time of day hhmmss with a fraction of zeros or none (R108): hours, minutes, seconds. -/
def timeOfDay (l : List Byte) : Option (Nat × Nat × Nat) :=
  let main := l.take 6
  let whole : Bool := match l.drop 6 with
    | [] => true
    | d :: fr => d == 46#8 && fr.all (· == 48#8)
  match decimal (main.take 2), decimal ((main.drop 2).take 2), decimal (main.drop 4) with
  | some h, some m, some x =>
    if main.length = 6 ∧ whole ∧ h ≤ 23 ∧ m ≤ 59 ∧ x ≤ 60 then some (h, m, x) else none
  | _, _, _ => none

/-- Date of a sentence: day, month, full year (R109: with RMC 2000 plus its two digits). -/
def dateOf (rmc : Bool) (f : List (List Byte)) : Option (Nat × Nat × Nat) :=
  let d := fieldAt f 9
  let r := if rmc then
      (if d.length = 6 then (decimal (d.take 2), decimal ((d.drop 2).take 2), (decimal (d.drop 4)).map (· + 2000))
        else (none, none, none))
    else (decimal (fieldAt f 2), decimal (fieldAt f 3),
      if (fieldAt f 4).length = 4 then decimal (fieldAt f 4) else none)
  match r with
  | (some d, some m, some y) =>
    if 1 ≤ m ∧ m ≤ 12 ∧ 1 ≤ d ∧ d ≤ monthDays y m ∧ 0 ≤ civilDays y m d then some (d, m, y) else none
  | _ => none

/-- The time a sentence gives (R108, R109). -/
def sentenceTime (rmc : Bool) (f : List (List Byte)) : GSent :=
  match timeOfDay (fieldAt f 1), dateOf rmc f with
  | some (h, m, x), some (d, mo, y) =>
    { rmc := rmc, valid := !rmc || fieldAt f 2 == [65#8] || fieldAt f 2 == [86#8],
      key := ((((d * 100 + mo) * 100 + y % 100) * 100 + h) * 100 + m) * 100 + x,
      utc := (civilDays y mo d).toNat * 86400 + h * 3600 + m * 60 + x, sec60 := x == 60 }
  | _, _ => { GSent.reset with rmc := rmc }

/-- What an RMC sentence says of the fix (R110): 1 valid, 2 estimated, 3 none. A status other than A and V, which R110 does not treat,
makes the sentence invalid and leaves the fix and the rank before it standing (DESIGN CHOICE, log entry 127). -/
def fixOf (f : List (List Byte)) : Option Nat :=
  let mode := fieldAt f 12
  if fieldAt f 2 = [86#8] then some 3
  else if fieldAt f 2 ≠ [65#8] then none
  else if mode = [] ∨ mode = [65#8] ∨ mode = [68#8] ∨ mode = [80#8] ∨ mode = [82#8] ∨ mode = [70#8] then some 1
  else if mode = [69#8] then some 2
  else some 3

/-- The rank that a fix gives (R110). -/
def fixRankOf (fix quality : Nat) : Nat := if fix = 1 then quality else if fix = 2 then max quality 12 else 15

/-- Rank of a GNSS logical reference with a `QUALITY` (R110). -/
def gnssRank (s : State) (quality : Nat) : Nat :=
  if bit8 s.cfg.gnss.sentences 1 then fixRankOf s.rf.gnss.fix quality else quality

/-- The enabled logical reference of kind GNSS (R105: at most one). -/
def gnssCand (s : State) : Option Nat :=
  (List.range 8).findSome? fun n =>
    if (s.cfg.lref n).enable = 1 ∧ (s.cfg.lref n).kind = 0 then some (16 + n) else none

/-- The live GNSS logical reference whose source is input k. -/
def gnssOf (s : State) (k : Nat) : Option Nat :=
  match gnssCand s with
  | some c => if (s.cfg.lref (c - 16)).source = k ∧ candLive s c then some c else none
  | none => none

/-- The sentences of a pulse agree with one another (R109). -/
def sentsAgree (l : List GSent) : Bool :=
  match l with
  | [] => false
  | a :: _ => l.all (fun x => x.valid && x.key == a.key) && (l.filter fun x => !x.rmc).all fun x =>
      match l.find? fun y => !y.rmc with | some y => y.utc == x.utc | none => true

/-- The time that an agreeing set gives: the full date of ZDA where there is one. -/
def setTime (l : List GSent) : GSent := ((l.find? fun x => !x.rmc).or l.head?).getD GSent.reset

/-- The comparison with the previous good labelled pulse (R109). -/
def secondsAgree (s : State) (c : Nat) (t : Rat) (x : GSent) : Bool :=
  match s.rf.gnss.prevGood with
  | none => true
  | some (t0, u0, leap0) =>
    (s.cand c).actFault ||
      (let n := ((t - t0) / nominalPeriod s.cfg (s.cfg.lref (c - 16)).source + 1 / 2).floor
       (x.utc : Int) + b2n leap0 == (u0 : Int) + n)

/-- The judgement of the labelled pulse at `t` (R109 to R111, R462). -/
def judgePulse (c : Nat) (t : Rat) (s : State) : State :=
  let l := s.rf.gnss.sents
  let s0 := s.setGnss fun g => { g with judged := true, sents := [] }
  if !s.runs 0 ∨ l.isEmpty then missEdge c s0
  else
    let x := setTime l
    if !sentsAgree l || !secondsAgree s c t x then
      missEdge c (s0.setGnss fun g => { g with inconsistent := g.inconsistent + 1 })
    else if gnssRank s (candCfg s.cfg c).quality = 15 then missEdge c s0
    else
      let s1 := s0.setGnss fun g =>
        { g with
          prevGood := some (t, x.utc, x.sec60), pairing := some (t, x.utc), lastUtc := { sec := x.utc, ns := 0 } }
      let s2 := (List.range 8).foldl (labelAligned c x.utc t) (candEdge c t s1)
      timePulse c t x.utc x.sec60 s2

/-- A pulse that LABEL 0 has not judged yet is judged. -/
def judgeOpen (c : Nat) (s : State) : State :=
  match s.rf.gnss.pulseAt with
  | some t => if s.rf.gnss.judged then s else judgePulse c t s
  | none => s

/-- The labelled pulse at `t` has been judged good. -/
def judgedGood (s : State) (t : Rat) : Bool :=
  match s.rf.gnss.prevGood with
  | some (t0, _, _) => t0 == t
  | none => false

/-- A pulse of the source input on time at `t` is a labelled pulse of candidate c (R105, R462). With `LABEL` = 1 it is judged at once,
and reaches the phase detectors where it is good (R138). With `LABEL` = 0 it reaches them at the pulse, and the monitors of the logical
reference take it at its judgement (log entry 35). -/
def labelledPulse (c : Nat) (t : Rat) (s : State) : State :=
  let sel : Bool := (s.cand c).state == .selected
  let opened (s' : State) : State := s'.setGnss fun g => { g with pulseAt := some t, judged := false, countBase := s.clk.count }
  if s.cfg.gnss.label = 0 then
    let s1 := judgeOpen c s
    (opened (if sel then edgeToChannels c t s1 else s1)).setGnss fun g => { g with sents := [] }
  else
    let s1 := judgePulse c t (opened s)
    if sel && judgedGood s1 t then edgeToChannels c t s1 else s1

/-- A pulse of the source input is missing (R114, R462). -/
def labelledMissing (c : Nat) (s : State) : State :=
  missEdge c (if s.cfg.gnss.label = 0 then s else s.setGnss fun g => { g with sents := [] })

/-- GNSS_SENTENCE (R107, R108, R110, R462). `began` is how long ago its first character began. Two points that the rules leave open are
the model's choice (DESIGN CHOICE, log entry 128): a sentence that is both too long and wrong in its checksum is counted in `OVERLONG`
only, and `FIX_RANK` keeps the rank formed with the `QUALITY` of the instant at which the RMC sentence came, of LREF0 where no GNSS
reference is enabled. -/
def gnssSentence (chars : List Byte) (began : Nat) (s : State) : State :=
  match readSentence chars with
  | none => s
  | some x =>
    match sentenceType (fieldAt x.fields 0) with
    | none => s
    | some rmc =>
      let g := s.rf.gnss
      let c := s.cfg.gnss
      if !s.runs 0 || !bit8 c.sentences (if rmc then 1 else 0) then s
      else if 82 < x.length then s.setGnss fun g => { g with overlong := g.overlong + 1 }
      else if !x.sumOk then s.setGnss fun g => { g with checksumErrors := g.checksumErrors + 1 }
      else
        let onTime : Bool := match g.pulseAt with
          | some p => decide (p ≤ ((s.clk.count - began : Nat) : Rat))
              && decide ((s.clk.count : Rat) ≤ p + (c.msgLatest : Rat) * 1000000)
          | none => false
        if !onTime then s.setGnss fun g => { g with late := g.late + 1 }
        else if c.label = 0 ∧ g.judged then s
        else
          let q := match gnssCand s with | some k => (candCfg s.cfg k).quality | none => (s.cfg.lref 0).quality
          let fix := if rmc then (fixOf x.fields).getD g.fix else g.fix
          let s1 := s.setGnss fun g =>
            { g with
              sentencesOk := g.sentencesOk + 1, sents := g.sents ++ [sentenceTime rmc x.fields], fix := fix,
              fixRank := if rmc then fixRankOf fix q else g.fixRank }
          let got (r : Bool) : Bool := s1.rf.gnss.sents.any fun y => y.rmc == r
          let full : Bool := (!bit8 c.sentences 0 || got false) && (!bit8 c.sentences 1 || got true)
          match gnssCand s with
          | some k => if c.label = 0 ∧ full then judgeOpen k s1 else s1
          | none => s1

/-- MSG_LATEST_EXPIRY (R462). -/
def msgLatestExpiry (s : State) : State :=
  match s.rf.gnss.pulseAt, gnssCand s with
  | some p, some c =>
    if s.cfg.gnss.label = 0 ∧ candLive s c ∧ p + (s.cfg.gnss.msgLatest : Rat) * 1000000 ≤ s.clk.count then judgeOpen c s else s
  | _, _ => s

/-- GNSS_SOURCE_MISSING_PULSE (R105): the source of LREFn is disabled, is fenced, or has another class. -/
def gnssSourceMissing (n : Nat) (s : State) : State :=
  let c := 16 + n
  let k := (s.cfg.lref n).source
  let off : Bool := !candLive s k || candKind s.cfg k != .pulse
  if gnssCand s = some c ∧ candLive s c ∧ off ∧ s.rf.gnss.countBase + 1000000000 ≤ s.clk.count then
    missEdge c (s.setGnss fun g => { g with countBase := g.countBase + 1000000000 })
  else s

/-! ## Edges (R114, R115) -/

/-- An active edge of a CLK input (R114, R138). -/
def clkEdge (c : Nat) (t : Rat) (s : State) : State :=
  let d := watchDivider (nominalMhz s.cfg c)
  let s1 := if (s.cand c).edgeDiv + 1 < d then s.setCand c fun x => { x with edgeDiv := x.edgeDiv + 1 }
    else (candEdge c t s).setCand c fun x => { x with edgeDiv := 0 }
  if (s.cand c).state = .selected then edgeToChannels c t s1 else s1

/-- A PULSE edge is on time (R114, R115): within `PULSE_WINDOW` of a whole number of periods after the anchor. A second edge inside the
window of the anchor itself, the multiple 0, is an extra edge: R115 does not say whether 0 is among the whole multiples (DESIGN CHOICE,
log entry 123). -/
def pulseOnTime (s : State) (c : Nat) (t : Rat) : Bool :=
  let x := s.cand c
  let p := nominalPeriod s.cfg c
  x.actFault || match x.anchor with
    | none => true
    | some a =>
      let n := ((t - a) / p + 1 / 2).floor
      decide (1 ≤ n) && decide (absR (t - a - n * p) ≤ ((s.cfg.ref c).pulseWindow : Rat))

/-- An active edge of a PULSE input at its corrected instant `t` (R104, R114, R115), and of the GNSS reference built on it. -/
def pulseEdge (c : Nat) (t : Rat) (s : State) : State :=
  let x := s.cand c
  if pulseOnTime s c t then
    let s1 := candEdge c t (s.setCand c fun y => { y with sticky := if x.actFault then setBit8 y.sticky 3 else y.sticky })
    let s2 := if x.state = .selected then edgeToChannels c t s1 else s1
    match gnssOf s c with | some l => labelledPulse l t s2 | none => s2
  else
    let s1 := extraEdge c s
    match gnssOf s c with | some l => extraEdge l s1 | none => s1

/-- REFERENCE_EDGE (R104, R114): an active edge at the pin of REFn at engine instant `pin`; `REF8`–`REF11` are absent while J2 has
an invalid coding (R45, R46). -/
def referenceEdge (n : Nat) (pin : Rat) (s : State) : State :=
  if !candLive s n || (decide (8 ≤ n ∧ n < 12) && s.isFenced (.conn 2)) then s
  else match candKind s.cfg n with
    | .clk => clkEdge n pin s
    | _ => pulseEdge n (pin - delayNs s.cfg n) s

/-- DOMAIN_EDGE (R106, R114): the whole second of domain i's estimate of its master's time. -/
def domainEdge (i : Nat) (s : State) : State :=
  let d := s.domi i
  let m := masterNow s i
  let sec := m.floor / 1000000000
  let t := (s.clk.count : Rat) - (m - (sec : Rat) * 1000000000)
  let due : Bool := match d.edgeSec with | some e => decide (e < sec) | none => false
  if !d.supplies ∨ d.est.isEmpty ∨ !due then s
  else
    let local_ := tbAt s (i / 2) t
    let tsec := local_.floor / 1000000000
    let near : Bool := decide (local_ - (tsec : Rat) * 1000000000 ≤ 1000000)
    (List.range 8).foldl (fun s n =>
      let c := 16 + n
      if candKind s.cfg c = .domain ∧ (s.cfg.lref n).source = i ∧ candLive s c ∧ near
          ∧ (s.cand c).lastWatch ≠ some (tsec : Rat) then
        let s1 := (candEdge c t s).setCand c fun x => { x with lastWatch := some (tsec : Rat) }
        let s2 := if (s.cand c).state = .selected then edgeToChannels c t s1 else s1
        (List.range 8).foldl (labelAligned c sec.toNat t) s2
      else s) (s.setDom i fun d => { d with edgeSec := some sec })

/-- MISSING_EDGE (R114) of candidate c, where its window or watched period has closed. -/
def missingEdge (c : Nat) (s : State) : State :=
  let x := s.cand c
  if !candLive s c then s
  else match candKind s.cfg c, x.lastWatch with
    | .clk, some l =>
      let p := watchPeriod s.cfg c
      if (s.clk.count : Rat) < l + p * 3 / 2 then s else missEdge c (s.setCand c fun x => { x with lastWatch := some (l + p) })
    | .pulse, some l =>
      let p := nominalPeriod s.cfg c
      let late := max 0 (delayNs s.cfg c)
      if (s.clk.count : Rat) < l + p + (s.cfg.ref c).pulseWindow + late then s
      else
        let s1 := missEdge c (s.setCand c fun x => { x with lastWatch := x.anchor.map fun a =>
          a + p * (((l - a) / p + 1 / 2).floor + 1) })
        match gnssOf s c with | some k => labelledMissing k s1 | none => s1
    | .domain, some l =>
      let k := (s.cfg.lref (c - 16)).source / 2
      if (s.tbs k).now ≤ (l + 1) * 1000000000 + 1000000 then s
      else missEdge c (s.setCand c fun x => { x with lastWatch := some (l + 1) })
    | _, _ => s

/-! ## Frequency and drift (R116 to R119) -/

/-- Fractional offset over a window, ppt (R116): n watched periods of nominal length p in the time measured. -/
def windowOffset (p : Rat) (t0 : Rat) (n0 : Nat) (t1 : Rat) (n1 : Nat) : Option Rat :=
  if t1 ≤ t0 then none else some ((((n1 - n0 : Nat) : Rat) * p / (t1 - t0) - 1) * ppt1)

/-- Marks back to the newest that lies a window of `len` before `t`. -/
def pruneMarks (t len : Rat) : List (Rat × Nat) → List (Rat × Nat)
  | [] => []
  | m :: rest => if len ≤ t - m.1 then [m] else m :: pruneMarks t len rest

/-- The newest mark at least `len` before `t`. -/
def markBefore (t len : Rat) (l : List (Rat × Nat)) : Option (Rat × Nat) := l.find? fun m => decide (len ≤ t - m.1)

/-- The drift estimate (R119), ppt per hour: formed from 7 samples over 600 s. A sample counts as one horizon, or 600 s, before another
within half a window. -/
def driftOf (horizon : Nat) (l : List (Nat × Rat)) : Option Rat :=
  match l, l.getLast? with
  | (t, y) :: _, some old =>
    if l.length < 7 ∨ t - old.1 < 550000000000 then none
    else
      let ref := (l.find? fun p => decide (p.1 + horizon * 1000000000 ≤ t + 50000000000)).getD old
      if t ≤ ref.1 then none else some ((y - ref.2) * 3600000000000 / ((t - ref.1 : Nat) : Rat))
  | _, _ => none

/-- The faults as the windows now give them (R117, R119), with their sticky bits. -/
def Cand.rejudge (c : CandCfg) (x : Cand) : Cand :=
  let ys := [x.y1, x.y10, x.y100].filterMap id |>.map absR
  let rej : Rat := (c.reject : Rat) * 1000
  let acc : Rat := (c.accept : Rat) * 1000
  let lim : Rat := (c.driftLimit : Rat) * 100
  let f : Bool := c.freqOn && (if ys.any (fun y => decide (rej < y)) then true
    else if ys.all (fun y => decide (y ≤ acc)) then false else x.freqFault)
  let d : Bool := c.driftOn && match x.drift with
    | none => false
    | some v => if lim < absR v then true else if absR v ≤ lim / 2 then false else x.driftFault
  let st := if f && !x.freqFault then setBit8 x.sticky 1 else x.sticky
  { x with freqFault := f, driftFault := d, sticky := if d && !x.driftFault then setBit8 st 2 else st }

/-- The windows of a candidate at its last watched edge (R116). -/
def Cand.windows (c : CandCfg) (p : Rat) (x : Cand) : Cand :=
  match x.winLast, x.marks with
  | some t, (t0, n0) :: _ =>
    if t ≤ t0 ∨ t - t0 < 1000000000 - p / 2 then x
    else
      let n := x.winCount
      let far := markBefore t (10000000000 - p / 2) x.marks
      let x1 := { x with
        y1 := windowOffset p t0 n0 t n, y10 := (far.bind fun m => windowOffset p m.1 m.2 t n),
        marks := pruneMarks t (10000000000 - p / 2) ((t, n) :: x.marks) }
      let x2 := match x.mark100 with
        | some (a, k) =>
          if t - a < 100000000000 - p / 2 then x1
          else
            let y := windowOffset p a k t n
            let l := (t.floor.toNat, y.getD 0) :: x.samples.filter fun q =>
              decide (t.floor.toNat ≤ q.1 + (c.horizon + 100) * 1000000000)
            { x1 with y100 := y, mark100 := some (t, n), samples := l, drift := driftOf c.horizon l }
        | none => x1
      x2.rejudge c
  | _, _ => x

/-- FREQUENCY_WINDOW_UPDATE (R116 to R119). -/
def frequencyUpdate (c : Nat) (s : State) : State :=
  if candLive s c then s.setCand c fun x => x.windows (candCfg s.cfg c) (watchPeriod s.cfg c) else s

/-- Sources of the consensus test with their 10 s offsets, ppt (R118): a GNSS reference and its source input count as one. Where both
take part, the rule does not say whose offset enters: the model takes the source input's (DESIGN CHOICE, log entry 124). -/
def consensusOffsets (s : State) : List Rat :=
  let in? (c : Nat) : Bool := candLive s c && (candCfg s.cfg c).freqOn && (s.cand c).y10.isSome && !(s.cand c).actFault
  let twin (c : Nat) : Bool := match candKind s.cfg c with | .gnss => in? (s.cfg.lref (c - 16)).source | _ => false
  ((List.range 24).filter fun c => in? c && !twin c).filterMap fun c => (s.cand c).y10

/-- The OCXO consensus test (R118): it holds, and the mean offset, ppt. -/
def consensus (s : State) : Bool × Rat :=
  let l := consensusOffsets s
  let m := meanR l
  (decide (2 ≤ l.length) && l.all (fun y => decide (2000000 < absR y)) && l.all (fun y => decide (absR (y - m) ≤ 200000)), m)

/-! ## States (R112, R121, R122) -/

/-- The candidate is clean (R112). -/
def candClean (c : CandCfg) (x : Cand) : Bool :=
  !x.actFault && (!c.freqOn || (!x.freqFault && x.y1.isSome)) && (!c.driftOn || !x.driftFault)

/-- Candidate c enters MONITORING with its monitors reset (R113, R121, R122). One that is MONITORING already, at a wake or at a start
from step 1 again, raises its event and sets `LAST_CHANGE` as well: R122 does not say whether it enters the state anew (DESIGN CHOICE,
log entry 125). -/
def startCand (c : Nat) (s : State) : State :=
  let s1 := candGo c .monitoring (s.setCand c fun x => x.resetActivity (candCfg s.cfg c).act)
  match candKind s.cfg c with
  | .gnss => s1.setGnss fun g => { g with prevGood := none, countBase := s.clk.count }
  | .domain => s1.setCand c fun x =>
      { x with lastWatch := some ((tbSecond s ((s.cfg.lref (c - 16)).source / 2) : Int) : Rat) }
  | _ => s1

/-- `ENABLE` of candidate c has been written (R121, R135): counters since enable start at 0. -/
def enableWritten (c : Nat) (s : State) : State :=
  let x := s.cand c
  if (candCfg s.cfg c).enable = 1 then
    (if x.state = .absent then startCand c (s.setCand c fun x => { x with missing := 0, extra := 0, disq := 0 }) else s)
  else
    if x.state = .absent ∨ x.state = .fenced then s
    else candGo c .absent (s.setCand c fun x => { x.discard with actFault := false, actCount := 0 })

/-- Candidate c becomes QUALIFIED (R121). -/
def qualifyCand (c : Nat) (s : State) : State :=
  (candGo c .qualified s).setCand c fun x => { x with qualifiedAt := some s.clk.count }

/-- A transition to DISQUALIFIED, which is counted (R121, R135). -/
def candDisqualified (c : Nat) (s : State) : State :=
  candGo c .disqualified (s.setCand c fun x => { x with disq := x.disq + 1 })

/-- A monitor fault of the cycle in which the timer expired wins (R121): the candidate does not qualify, and the transition of the
cycle is the one out of QUALIFYING that the fault makes. -/
def Cand.withdraw (now : Nat) (x : Cand) : Cand :=
  { x with
    state := if x.fromDisq then .disqualified else .monitoring, disq := if x.fromDisq then x.disq + 1 else x.disq,
    lastChange := now, qualifiedAt := none }

/-- The state of candidate c follows its monitors (R121). -/
def settleCand (s : State) (c : Nat) : State :=
  let x := s.cand c
  let cf := candCfg s.cfg c
  let ok := candClean cf x
  if s.rf.stopped then s
  else match x.state with
    | .monitoring =>
      if ok then
        let s1 := (candGo c .qualifying s).setCand c fun x => { x with fromDisq := false, wtrSince := some s.clk.count }
        if cf.wtr = 0 then qualifyCand c s1 else s1
      else s
    | .disqualified =>
      if ok then
        let s1 := (candGo c .qualifying s).setCand c fun x => { x with fromDisq := true, wtrSince := some s.clk.count }
        if cf.wtr = 0 then qualifyCand c s1 else s1
      else s
    | .qualifying =>
      if ok then s else if x.fromDisq then candDisqualified c s else candGo c .monitoring s
    | .qualified =>
      if ok then s
      else if x.qualifiedAt = some s.clk.count then s.setCand c (Cand.withdraw s.clk.count)
      else candDisqualified c s
    | .selected => if ok then s else candDisqualified c s
    | _ => s

/-- The wait-to-restore timer has reached `WTR` (R103, R121): the candidate qualifies unless a monitor fault stands. -/
def wtrReached (c : Nat) (s : State) : State :=
  let x := s.cand c
  let cf := candCfg s.cfg c
  match x.state, x.wtrSince with
  | .qualifying, some t =>
    if candClean cf x ∧ t + cf.wtr * 1000000000 ≤ s.clk.count ∧ !s.rf.stopped then qualifyCand c s else s
  | _, _ => s

/-! ## Ranks (R125, R127) -/

/-- Derived rank of candidate c (R125). -/
def derivedRank (s : State) (c : Nat) : Nat :=
  let q := (candCfg s.cfg c).quality
  match candKind s.cfg c with
  | .gnss => gnssRank s q
  | .domain =>
    let i := (s.cfg.lref (c - 16)).source
    let d := s.cfg.domi i
    if d.kind = 0 then 15
    else if d.kind = 1 then (if d.profile = 3 then q else ptpRank s i)
    else (s.domi i).rank
  | _ => q

/-- The effective rank of candidate c follows the derived rank (R127). -/
def settleRank (s : State) (c : Nat) : State :=
  let x := s.cand c
  let r := derivedRank s c
  if s.rf.stopped then s
  else if r = x.rank then (if x.improve.isNone then s else s.setCand c fun x => { x with improve := none })
  else if candUsable x ∧ r < x.rank ∧ (candCfg s.cfg c).wtr ≠ 0 then
    (match x.improve with
      | some (q, _) => if q = r then s else s.setCand c fun x => { x with improve := some (r, s.clk.count) }
      | none => s.setCand c fun x => { x with improve := some (r, s.clk.count) })
  else raise (48 + c) (s.setCand c fun x => { x with rank := r, improve := none })

/-- RANK_IMPROVEMENT_EXPIRY (R127). -/
def rankImprovement (c : Nat) (s : State) : State :=
  match (s.cand c).improve with
  | some (r, t) =>
    if t + (candCfg s.cfg c).wtr * 1000000000 ≤ s.clk.count ∧ !s.rf.stopped then
      raise (48 + c) (s.setCand c fun x => { x with rank := r, improve := none })
    else s
  | none => s

/-! ## Selection (R128 to R130) -/

/-- Written selector of channel n. -/
abbrev Cfg.sel (c : Cfg) (n : Nat) : CfgSel := nth c.sels n CfgSel.reset

/-- Candidate c is eligible for channel n (R128). -/
def selectable (s : State) (n c : Nat) : Bool :=
  (s.cfg.sel n).mask.getLsbD c && candUsable (s.cand c) && decide ((s.cand c).rank ≤ 14)

/-- Candidate c is better than d for channel n (R128): lower rank, then lower priority value, then lower index. -/
def betterCand (s : State) (n c d : Nat) : Bool :=
  let r (x : Nat) : Nat := (s.cand x).rank
  let p (x : Nat) : Nat := nth (s.cfg.sel n).priority x 0
  decide (r c < r d) || (r c == r d && (decide (p c < p d) || (p c == p d && decide (c < d))))

/-- The best of some candidates. -/
def firstBest (better : Nat → Nat → Bool) : List Nat → Option Nat
  | [] => none
  | c :: rest => match firstBest better rest with
    | none => some c
    | some d => if better d c then some d else some c

/-- The best eligible candidate of channel n (R128). -/
def bestCand (s : State) (n : Nat) : Option Nat := firstBest (betterCand s n) ((List.range 24).filter (selectable s n))

/-- The candidate that channel n selects (R129). -/
def choose (s : State) (n : Nat) : Option Nat :=
  let c := s.cfg.sel n
  if c.selectMode = 2 then (if candUsable (s.cand c.forceIndex) then some c.forceIndex else none)
  else if c.selectMode = 1 then
    match s.selected n with
    | some k => if selectable s n k then some k else bestCand s n
    | none => bestCand s n
  else bestCand s n

/-- The selector of channel n evaluates (R130). -/
def settleSel (s : State) (n : Nat) : State :=
  if s.rf.stopped then s
  else
    let old := s.selected n
    let new := choose s n
    if old = new then s
    else noteSelection n old new { s with rf := { s.rf with sel := upd s.rf.sel n fun x =>
      { selected := new, switches := x.switches + 1 } } }

/-- SELECTED follows the selectors (R121). -/
def settleSelected (s : State) (c : Nat) : State :=
  let taken : Bool := s.rf.sel.any fun x => x.selected == some c
  match (s.cand c).state with
  | .qualified => if taken && !s.rf.stopped then candGo c .selected s else s
  | .selected => if taken || s.rf.stopped then s else candGo c .qualified s
  | _ => s

/-- A selector would choose otherwise now: it evaluates in the next cycle (R130). -/
def selectionDue (s : State) : Bool :=
  s.clk.running && !s.rf.stopped && (List.range 8).any fun n => choose s n != s.selected n

/-- The selectors evaluate (R130), and SELECTED follows them (R121). -/
def evaluateSelectors (s : State) : State :=
  (List.range 24).foldl settleSelected ((List.range 8).foldl settleSel s)

/-- Snuffer fences candidate c (R123): each selector that had it evaluates in that same cycle. -/
def fenceCand (c : Nat) (s : State) : State :=
  if (s.cand c).state = .fenced then s
  else
    (List.range 24).foldl settleSelected
      (((List.range 8).filter fun n => s.selected n == some c).foldl settleSel (candGo c .fenced s))

/-- `SELECTED_BY` (R135). -/
def selectedBy (s : State) (c : Nat) : Nat :=
  ((indexed s.rf.sel).filter fun p => p.2.selected == some c).foldl (fun a p => a + 2 ^ p.1) 0

/-- `WTR_LEFT` (R135): seconds left on the wait-to-restore timer or on a rank improvement wait. A part of a second counts as a whole
one: the rule states no rounding (DESIGN CHOICE, log entry 126). -/
def wtrLeft (s : State) (c : Nat) : Nat :=
  let x := s.cand c
  let due (t : Nat) : Nat := (t + (candCfg s.cfg c).wtr * 1000000000 - s.clk.count + 999999999) / 1000000000
  match x.state, x.wtrSince, x.improve with
  | .qualifying, some t, _ => due t
  | _, _, some (_, t) => due t
  | _, _, none => 0

end Sys2Proof.Machine
end

