-- ==== Sys2Proof/Machine/Journal.lean ====
section
/-! DEFINITION. The change journal (R430 to R433), as operations on the state. -/

namespace Sys2Proof.Machine

/-- Records the journal keeps (R430). -/
def journalSize : Nat := 8192

/-- Every record is in NV (R93, R94, R432). -/
def flushJournal (s : State) : State :=
  { s with nv := { s.nv with journal := s.jr.recs, nextIndex := s.jr.next }, jr := { s.jr with unflushed := 0 } }

/-- A record is made (R430, R431): the next index, the instants, the epoch; source 252. While PFAIL is set it goes to NV at once (R93). -/
def record (r : JRec) (s : State) : State :=
  let r' : JRec :=
    { r with
      index := s.jr.next, engineTime := s.clk.count, tbTime := nsToTime80 (s.tbs s.ptb).now.floor.toNat,
      epoch16 := (s.tbs s.ptb).epoch % 65536 }
  let all := s.jr.recs ++ [r']
  let s1 : State := { s with jr :=
    { s.jr with recs := all.drop (all.length - journalSize), next := s.jr.next + 1,
                unflushed := min journalSize (s.jr.unflushed + 1) } }
  raise 252 (if s.pwr.pfail then flushJournal s1 else s1)

/-- A value right-aligned in ten bytes (R431). -/
def rightAlign (b : List Byte) : List Byte := List.replicate (10 - b.length) 0#8 ++ b

/-- OLD or NEW of a BLOB (R431): its length and its CRC-32. -/
def blobMark (b : List Byte) : List Byte := natBytes 4 b.length ++ natBytes 4 (crc32 b) ++ [0#8, 0#8]

/-- The 64 bytes of a record (R431). -/
def JRec.bytes (r : JRec) : List Byte :=
  let ten (b : List Byte) : List Byte := if b.isEmpty then List.replicate 10 0#8 else b
  natBytes 8 r.index ++ natBytes 8 r.engineTime ++ natBytes 6 r.tbTime.sec ++ natBytes 4 r.tbTime.ns ++ natBytes 2 r.epoch16
    ++ natBytes 1 r.kind ++ natBytes 1 r.iface ++ natBytes 1 r.opcode ++ natBytes 1 r.status ++ natBytes 4 r.address
    ++ natBytes 4 r.source ++ natBytes 2 r.sourcePort ++ natBytes 1 r.type ++ natBytes 1 r.size ++ ten r.old ++ ten r.new

/-- The `JOURNAL` image (R433). -/
def journalImage (s : State) : List Byte := s.jr.recs.flatMap JRec.bytes

/-- INDEX of the oldest kept record (R439). -/
def firstIndex (s : State) : Nat := match s.jr.recs with | r :: _ => r.index | [] => 0

/-- JOURNAL_FLUSH (R432): the MGT core writes what waits to NV; not while it has stopped (R33). -/
def journalFlush (s : State) : State := if s.runs 0 then flushJournal s else s

end Sys2Proof.Machine
end

