-- ==== Sys2Proof/Machine/Settle.lean ====
section
/-! DEFINITION. What follows in the same cycle from every change (R57, R75 to R81, R97, R121 to R146, R217, R241 to R270, R393 to R398):
the states that hardware derives from others settle once, in the order in which they depend on each other. -/

namespace Sys2Proof.Machine

/-! ## Mode, vouching, BEACON (R75 to R81) -/

/-- A change that may close the Vouching gate to the trigger outputs stops them in its cycle (R78). -/
def gated (f : State → State) (s : State) : State :=
  let s1 := f s
  if trgRuns s && !trgRuns s1 then stopTriggers s1 else s1

/-- The module vouches for time (R76). -/
def vouchNow (s : State) : Bool :=
  match s.md.mode with
  | .tracking => true
  | .holdover => holdoverVouches s s.ptb
  | .startup => false
  | .standby => false
  | .freerun => false
  | .safe => false

/-- The first whole millisecond of the principal timebase from now, as an engine instant (R77). -/
def firstMillisecond (s : State) : Nat :=
  let now := (s.tbs s.ptb).now
  let edge : Rat := (ceilR (now / 1000000) * 1000000 : Int)
  (ceilR ((s.clk.count : Rat) + (edge - now) / tbRate s s.ptb)).toNat

/-- `VOUCHING`, `BEACON` and the Vouching gate follow the condition (R76, R77, R235); source 6. -/
def settleVouch (s : State) : State :=
  let v := vouchNow s
  let s1 := { s with ou := { s.ou with vouchClosed := !v } }
  if v = s.md.vouching then s1
  else
    let s2 := cutBeacon s1
    raise 6 { s2 with
      md := { s2.md with vouching := v },
      pins := { s2.pins with beaconFrom := if v then firstMillisecond s2 else s2.pins.beaconFrom } }

/-- A mode has been entered in the present cycle (R81). -/
def moved (s : State) : Bool := s.md.modeEntry == s.clk.count && s.md.prevMode != 0

/-- A transition of R80: source 0. An entry to SAFE takes the place of another transition of its cycle (R81). -/
def enterMode (m : Mode) (s : State) : State :=
  if s.md.mode = m then s
  else gated (fun s => settleVouch (raise 0 { s with md :=
    { s.md with
      mode := m, prevMode := if moved s then s.md.prevMode else s.md.mode.code, modeEntry := s.clk.count, holdWaits := false } })) s

/-- The HOLDOVER condition of R75 for the principal timebase. -/
def heldTime (s : State) : Bool :=
  let t := s.tbs s.ptb
  t.tracked && (t.state == .holdover || t.state == .fenced)

/-- The mode that R75 gives in FREERUN, TRACKING and HOLDOVER, by the transitions of R80. FREERUN goes to HOLDOVER only by a write of
`PRINCIPAL_TB`, see `principalWritten`; `holdWaits` where that fell in the cycle of another transition. -/
def modeNow (s : State) : Mode :=
  let t := s.tbs s.ptb
  match s.md.mode with
  | .freerun => if t.state = .tracking then .tracking else if s.md.holdWaits ∧ heldTime s then .holdover else .freerun
  | .tracking => if t.state = .tracking then .tracking else .holdover
  | .holdover => if t.state = .tracking then .tracking else .holdover
  | m => m

/-- A change among FREERUN, TRACKING and HOLDOVER is due, and waits for the cycle after another transition (R81). -/
def modeWaits (s : State) : Bool := moved s && modeNow s != s.md.mode

/-- The mode follows the principal timebase, and vouching the mode. -/
def settleMode (s : State) : State := gated settleVouch (if moved s then s else enterMode (modeNow s) s)

/-- A write of `PRINCIPAL_TB` in FREERUN that names a timebase meeting the HOLDOVER condition (R80). -/
def principalWritten (s : State) : State :=
  if s.md.mode = .freerun ∧ heldTime s then
    (if moved s then { s with md := { s.md with holdWaits := true } } else enterMode .holdover s)
  else s

/-! ## Level sources (R97, R227, R270, R434) -/

/-- The baseplate lies above its threshold or outside the range of R97. -/
def tooHot (s : State) : Bool :=
  decide (s.cfg.pw.tempWarnHigh < s.pwr.tBase) || decide (s.pwr.tBase < -40000) || decide (85000 < s.pwr.tBase)

/-- Every level source follows its condition. -/
def settleLevels (s : State) : State :=
  [(1, s.pwr.pfail), (3, s.pwr.lowInput), (4, s.pwr.overVoltage), (11, decide (s.pwr.holdupEst < s.cfg.pw.holdupWarn)),
   (12, tooHot s), (14, s.md.ocxoSuspect), (85, s.ou.heartbeatClosed), (132, restepNeeded s), (255, s.nvc.attention)].foldl
    (fun s p => level p.1 p.2 s) s

/-! ## Deliveries (R393, R396 to R398, R402) -/

/-- The MGT core can take a delivery (R397). -/
def hostTakes (s : State) : Bool := s.runs 0 && !s.dop.subs.isEmpty

/-- The target has an arrival that no delivery has been decided for. -/
def EvTarget.fresh (t : EvTarget) : Bool := t.arrivals != t.seen

/-- The target's settings come into force (R402). -/
def EvTarget.configure (c : CfgTarget) (t : EvTarget) : EvTarget := { t with count := c.count, time := c.time }

/-- The target's settings in force are those written. -/
def EvTarget.configured (c : CfgTarget) (t : EvTarget) : Bool := t.count == c.count && t.time == c.time && t.alertMode == c.alertMode

/-- The level sources delivered in FOLLOW mode and still asserted (R398). -/
def Ev.dropFollowed (e : Ev) : Ev :=
  { e with targets := e.targets.map fun t => { t with followed := t.followed.filter fun n => (e.source n).level } }

/-- `ALERT_MODE` of both lines follows its setting (R402). -/
def Ev.followModes (cfg : CfgEv) (now : Nat) (e : Ev) : Ev :=
  [1, 2].foldl (fun e k =>
    let m := (nth cfg.targets k CfgTarget.reset).alertMode
    if (nth e.targets k EvTarget.reset).alertMode = m then e else e.setAlertMode cfg now k m) e

/-- Deliveries of the cycle: targets with new arrivals, and a host delivery held back. -/
def settleDeliveries (s : State) : State :=
  let cfg := s.cfg.ev
  let now := s.clk.count
  let t (e : Ev) (k : Nat) : EvTarget := nth e.targets k EvTarget.reset
  let e0 := s.ev.dropFollowed
  let e1 := if (t e0 0).fresh || e0.deferring then e0.deliverHost cfg now (hostTakes s) else e0
  let e2 := if (t e1 1).fresh then e1.deliverAlert cfg now 1 else e1
  let e3 := if (t e2 2).fresh then e2.deliverAlert cfg now 2 else e2
  let e4 := { e3 with targets := e3.targets.map fun (t : EvTarget) => { t with seen := t.arrivals } }
  { s with ev := e4.applyModes cfg }

/-! ## Pins (R45, R57, R72, R79) -/

/-- `HOLD` (R79). -/
def holdPin (s : State) : Bool :=
  s.md.mode == .holdover || (s.md.mode == .standby && (s.md.sleptFrom == .tracking || s.md.sleptFrom == .holdover))

/-- The level of alert line k (1 ALERT_A, 2 ALERT_B) inside the module: in SAFE both are high (R72, R398). -/
def alertLine (s : State) (k : Nat) : Bool := s.md.mode == .safe || s.ev.lineHigh s.cfg.ev s.clk.count k

/-- A bit vector from a predicate on its bits. -/
def bitSet (w : Nat) (f : Nat → Bool) : BitVec w :=
  BitVec.ofNat w ((List.range w).foldl (fun a n => if f n then a + 2 ^ n else a) 0)

/-- The pins follow the state. With an invalid coding J4's LVCMOS outputs are undriven, and their pull-downs hold them low (R45, R50). -/
def settlePins (s : State) : State :=
  let j4 := s.isFenced (.conn 4)
  let safe : Bool := s.md.mode == .safe
  let a := alertLine s 1 && !j4
  let b := alertLine s 2 && !j4
  { s with
    ev := { s.ev with targets := upd (upd s.ev.targets 1 fun t => { t with line := a }) 2 fun t => { t with line := b } },
    pins := { s.pins with
      mode := if j4 then 0#3 else BitVec.ofNat 3 s.md.mode.code,
      hold := holdPin s && !j4,
      lock := if j4 || safe then 0#8 else bitSet 8 fun n => (s.chan n).inLock,
      beacon := beaconHigh s && s.clk.running && !j4, dbgTx := true,
      alertA := a, alertB := b, pfailOut := !s.pwr.pfail,
      trg := if j4 || !s.clk.running then 0#48 else bitSet 48 fun n => (s.trg n).pin } }

/-! ## Everything -/

/-- A settlement of several like units, in order. -/
def forEach (n : Nat) (f : State → Nat → State) (s : State) : State := (List.range n).foldl f s

/-- Wellhead settles: ranks and candidate states (R121, R127). The selectors evaluate in the next cycle, see `pass`. -/
def settleRefs (s : State) : State :=
  forEach 24 settleRank (forEach 24 settleCand (forEach 24 settleRank (forEach 8 settleDomRank (forEach 24 settleRank s))))

/-- The channels settle: selection, bandwidth, lock, clamp, the conditions of learning (R140, R144, R146, R166, R171). -/
def settleChannels (s : State) : State :=
  settleLearn (forEach 8 settleClamp (forEach 8 settleLock (forEach 8 settleBandwidth (forEach 8 followSelection s))))

/-- PTP instances, domains and timebases settle (R247, R250, R253, R263). -/
def settleTime (s : State) : State :=
  forEach 8 settleAdvertised (forEach 4 settleTbClamp (forEach 4 settleTb (forEach 8 settleDom (forEach 8 settleInst s))))

/-- A powered module with its engine clock running settles. -/
def settleEngine (s : State) : State :=
  settlePins (settleDeliveries (settleLevels (settleCommit (settleOuts (settleMode (settleTime (settleChannels (settleRefs s))))))))

/-- The module settles after a command. With the engine clock stopped only the outputs and the pins follow (R369); unpowered, the pins
are at rest (R72). -/
def settle (s : State) : State :=
  if !s.powered then { s with pins := Pins.reset }
  else if s.clk.running then settleEngine s
  else settlePins (settleOuts s)

/-! ## The passing of time -/

/-- A written setting of a delivery target (R402) or written UTC values (R245) are not in force yet. -/
def settingsDue (s : State) : Bool :=
  (indexed s.ev.targets).any (fun (p : Nat × EvTarget) => !p.2.configured (nth s.cfg.ev.targets p.1 CfgTarget.reset))
    || (List.range 4).any fun k => (s.cfg.utcs k).written != (s.tbs k).utc

/-- `COALESCE_COUNT`, `COALESCE_TIME` and `ALERT_MODE` come into force, delivering nothing (R402). -/
def takeTargetSettings (s : State) : State :=
  let cfg := s.cfg.ev
  let e := { s.ev with
    targets := (indexed s.ev.targets).map fun (p : Nat × EvTarget) => p.2.configure (nth cfg.targets p.1 CfgTarget.reset) }
  { s with ev := e.followModes cfg s.clk.count }

/-- What was written in the cycle before comes into force (R245, R402). -/
def takeSettings (s : State) : State :=
  (List.range 4).foldl (fun s k => if (s.cfg.utcs k).written = (s.tbs k).utc then s else copyUtc k s) (takeTargetSettings s)

/-- Something of the present cycle takes effect in the next one: a commit with boundary 0 (R208), a mode change (R81), a selection
(R130), a written setting (R245, R402). -/
def nextCycleDue (s : State) : Bool := commitPending s || modeWaits s || selectionDue s || settingsDue s

/-- What takes effect in the cycle after a command, where it was due (R81, R130, R208): the settings written before are in force. -/
def nextCycle (commit mode sel : Bool) (s : State) : State :=
  let s1 := if commit then commitNow s else s
  let s2 := if sel then evaluateSelectors s1 else s1
  settle (if mode then settleMode s2 else s2)

/-- Engine time passes, what waits for the next cycle taking effect in it, for at most so many cycles running (R18, R81, R130, R208, R245,
R402). -/
def passCycles : Nat → Nat → State → State
  | 0, dt, s => advance dt s
  | n + 1, dt, s =>
    if nextCycleDue s && s.clk.running && decide (0 < dt) then
      passCycles n (dt - 1) (nextCycle (commitPending s) (modeWaits s) (selectionDue s) (takeSettings (advance 1 s)))
    else advance dt s

/-- Engine time passes: a commit, a mode change and a selection may follow from one another in successive cycles. -/
def pass (dt : Nat) (s : State) : State := passCycles 4 dt s

/-- Engine time passes (R18), with what the servo notes on the way. -/
def elapse (dt : Nat) (s : State) : State := noteTargets true (pass dt s)

end Sys2Proof.Machine
end

