-- ==== Sys2Proof/Machine/Collector.lean ====
section
/-! DEFINITION. The fault collector (R350 to R376, R463): checkers and classes, Tarn, fencing, consequence masks, SAFE, injection. -/

namespace Sys2Proof.Machine

/-! ## Checkers (R353 to R355, R463) -/

/-- Instances of a checker type, from 0; type 0x15 has instances 2 to 4 (R353). -/
def instancesOf (t : Nat) : Nat :=
  match t with
  | 0x01 => 24 | 0x02 => 8 | 0x03 => 4 | 0x04 => 4 | 0x05 => 14 | 0x06 => 64 | 0x07 => 16 | 0x08 => 4 | 0x09 => 1
  | 0x0A => 32 | 0x0B => 48 | 0x0C => 3 | 0x0D => 4 | 0x0E => 5 | 0x0F => 4 | 0x10 => 12 | 0x11 => 3 | 0x12 => 3
  | 0x13 => 4 | 0x14 => 1 | 0x15 => 5 | 0x16 => 1 | 0x17 => 1 | 0x1E => 1 | 0x1F => 1 | _ => 0

/-- Type of a checker identity. -/
abbrev typeOf (id : Nat) : Nat := id / 256
/-- Instance of a checker identity. -/
abbrev instanceOf (id : Nat) : Nat := id % 256

/-- The identity names a checker of R353. -/
def isChecker (id : Nat) : Bool :=
  decide (id < 65536) && decide (instanceOf id < instancesOf (typeOf id)) && !(typeOf id == 0x15 && decide (instanceOf id < 2))

/-- The identity is a hardware checker with a dual-rail path (R353): all but types 0x17 and 0x1E. -/
def hasPath (id : Nat) : Bool := isChecker id && typeOf id != 0x17 && typeOf id != 0x1E

/-- Every identity of R353, in order. -/
def allCheckers : List Nat := (List.range 32).flatMap fun t => ((List.range (instancesOf t)).map fun i => 256 * t + i).filter isChecker

/-- The unit of R353 that checker type `t`, instance `i`, belongs to. -/
def unitOfType (t i : Nat) : Option FUnit :=
  match t with
  | 0x01 => some (.cand i) | 0x02 => some (.dp i) | 0x03 => some (.sn i) | 0x04 => some (.tb i) | 0x05 => some (.port i)
  | 0x06 => some (.tsi i) | 0x07 => some (.tc i) | 0x08 => some (.axis (i + 4)) | 0x09 => some .calendar | 0x0A => some (.out i)
  | 0x0B => some (.trg i) | 0x11 => some (.core i) | 0x12 => some (.core i) | 0x14 => some .streamer | 0x15 => some (.conn i)
  | _ => none

/-- The unit whose fence leaves a checker unarmed (R351). -/
def ownerUnit (id : Nat) : Option FUnit :=
  let t := typeOf id
  let i := instanceOf id
  if t = 0x0E then (if i = 1 then some .calendar else none)
  else if t = 0x0F ∨ t = 0x13 then (if i < 3 then some (.core i) else none)
  else unitOfType t i

/-- UNCORRECTABLE of an ECC syndrome (R354). -/
abbrev uncorrectable (syn : BitVec 32) : Bool := syn.getLsbD 31
/-- TEST of an ECC syndrome (R354). -/
abbrev inTestWord (syn : BitVec 32) : Bool := syn.getLsbD 30
/-- ADDRESS of an ECC syndrome (R354). -/
abbrev eccAddress (syn : BitVec 32) : Nat := syn.toNat % 2 ^ 24

/-- Class of an uncorrectable error of an ECC region, and its path class (R354). -/
def eccClass (t i : Nat) : Nat :=
  if t = 0x0E then (if i = 1 then 1 else if i = 4 then 3 else 0) else (if i = 3 then 3 else 1)

/-- The unit that a register-file parity syndrome names (R355): OWNER and INSTANCE. -/
def parityUnit (syn : BitVec 32) : Option FUnit :=
  let o := syn.toNat / 2 ^ 24
  let i := syn.toNat / 2 ^ 12 % 2 ^ 12
  if o = 0x20 then (if i < 1024 then some .calendar else none)
  else if ((1 ≤ o ∧ o ≤ 0x0B) ∨ o = 0x14 ∨ o = 0x15) ∧ isChecker (256 * o + i) ∧ i < 256 then unitOfType o i
  else none

/-- The class of a unit's error (R353): C2 for a channel or a timebase, else C1. -/
def unitClass (u : FUnit) : Nat := match u with | .dp _ => 2 | .tb _ => 2 | _ => 1

/-- Class of a report (R353 to R355). -/
def classOf (id : Nat) (syn : BitVec 32) (path : Bool) : Nat :=
  let t := typeOf id
  let i := instanceOf id
  if t = 0x0E ∨ t = 0x0F then (if path || uncorrectable syn then eccClass t i else 0)
  else if t = 0x10 then (if path then 3 else match parityUnit syn with | some u => unitClass u | none => 3)
  else if t = 0x02 ∨ t = 0x04 then 2
  else if t = 0x0D then (if i = 3 ∧ !path then 0 else 3)
  else if t = 0x12 then (if path then 1 else 0)
  else if t = 0x13 then (if i = 3 ∨ path then 3 else 1)
  else if t = 0x0C ∨ t = 0x16 ∨ t = 0x17 ∨ t = 0x1E ∨ t = 0x1F then 3
  else 1

/-- The unit that a report of class C1 or C2 fences (R353 to R355). -/
def unitOf (id : Nat) (syn : BitVec 32) (path : Bool) : Option FUnit :=
  if typeOf id = 0x10 then (if path then none else parityUnit syn) else ownerUnit id

/-- The expected injected syndrome (R463); 0 for types 0x17 and 0x1E. -/
def expectedSyndrome (id : Nat) : BitVec 32 :=
  if !hasPath id then 0
  else match typeOf id with
    | 0x01 => 7 | 0x02 => 3 | 0x05 => 0xF | 0x0A => 3 | 0x0B => 3
    | 0x0D => if instanceOf id = 3 then 0x7FFFFFFF else 1
    | 0x0E => 0x40000000 | 0x0F => 0x40000000 | 0x10 => 0xFFF | _ => 1

/-! ## Tarn (R364 to R366) -/

/-- The 16 bytes of a record (R364). -/
def TarnRec.bytes (r : TarnRec) : List Byte :=
  natBytes 8 r.time ++ natBytes 2 r.checker ++ natBytes 4 r.syndrome.toNat
    ++ natBytes 2 (r.cls * 2 ^ 14 + b2n r.first * 2 ^ 13 + b2n r.injected * 2 ^ 12 + b2n r.consequential * 2 ^ 11
        + b2n r.path * 2 ^ 10 + r.mode * 2 ^ 7)

/-- Records Tarn holds (R364). -/
def tarnSize : Nat := 64

/-- A record for the present cycle (R364), not yet written. -/
def tarnRec (s : State) (id : Nat) (syn : BitVec 32) (cls : Nat) (path injected conseq : Bool) : TarnRec :=
  { time := s.clk.count, checker := id, syndrome := syn, cls := cls,
    first := s.fc.firstEvent.isNone && !injected && !conseq && decide (s.cfg.fc.firstMinClass ≤ cls),
    injected := injected, consequential := conseq, path := path, mode := s.md.mode.code }

/-- A record enters Tarn (R364, R365, R379): source 16 where it is pinned as the first event. -/
def writeTarn (r : TarnRec) (s : State) : State :=
  let all := s.fc.tarn ++ [r]
  let full := decide (tarnSize < all.length)
  raiseIf r.first 16 { s with fc :=
    { s.fc with
      tarn := if full then all.drop 1 else all,
      overwritten := if full then s.fc.overwritten + 1 else s.fc.overwritten,
      firstEvent := if r.first then some r else s.fc.firstEvent,
      worst := if r.injected then s.fc.worst else some (max (s.fc.worst.getD 0) r.cls) } }

/-- `CLEAR` (R366). -/
def clearTarn (s : State) : State := { s with fc := { s.fc with tarn := [], firstEvent := none, overwritten := 0 } }

/-! ## Cores (R33, R356, R387) -/

/-- What stops with the STEER core (R33). -/
def steerStops (c : Nat) (s : State) : State := if c = 1 then freezeRates s else s

/-- Core c enters a state in which it does not execute; its watchdog runs from there (R353). -/
def stopCore (c : Nat) (st : CoreState) (s : State) : State :=
  if s.core c = .fenced then s
  else steerStops c { s with
    cores := upd s.cores c fun _ => st, stoppedAt := upd s.stoppedAt c fun _ => some s.clk.count }

/-- Core c is fenced (R356, R387). -/
def fenceCore (c : Nat) (s : State) : State := let s1 := stopCore c .fenced s; { s1 with ev := s1.ev.fenceCore c }

/-! ## Consequence masks (R359 to R362) -/

/-- The cores bound to channel n. -/
def coresOn (s : State) (n : Nat) : List Nat := (List.range 4).filter fun c => (s.syn c).channel == n

/-- The outputs on any of some cores. -/
def outsOn (s : State) (l : List Nat) : List Nat := (List.range 32).filter fun n => l.contains (s.cfg.out n).core

/-- The timebases that tick on channel n. -/
def tbsOn (s : State) (n : Nat) : List Nat := (List.range 4).filter fun k => (s.cfg.tbs k).channel == n

/-- The mask that the fence of a unit opens over its declared dependents (R359, R360). -/
def maskOf (s : State) (u : FUnit) (cls : Nat) : FMask :=
  let m := { FMask.reset with unit := u, openedAt := s.clk.count, cls := cls }
  match u with
  | .dp n =>
    let cs := coresOn s n
    { m with deps := cs.map (0x0300 + ·) ++ (outsOn s cs).map (0x0A00 + ·) ++ (tbsOn s n).map (0x0400 + ·),
             tbs := tbsOn s n, cores := cs }
  | .sn c => { m with deps := (outsOn s [c]).map (0x0A00 + ·) }
  | .tb k => { m with tbs := [k] }
  | .tsi n =>
    { m with deps := ((List.range 16).filter fun k =>
        (s.cfg.tcs k).run != 0 && (tcInputs (s.cfg.tcs k)).contains n).map (0x0700 + ·) }
  | .calendar => { m with deps := (List.range 48).map (0x0B00 + ·) }
  | .core c => { m with deps := [0x1300 + c] }
  | _ => m

/-- The report is of a declared dependent (R359): a checker of the list, or a PHY copy error that names only the mask's timebases. -/
def FMask.depends (m : FMask) (id : Nat) (syn : BitVec 32) : Bool :=
  m.deps.contains id ||
    (typeOf id == 0x05 && syn != 0 && (List.range 32).all fun b => !syn.getLsbD b || m.tbs.contains b)

/-- The mask applies to an error (R361). -/
def FMask.applies (m : FMask) (id : Nat) (syn : BitVec 32) (cls : Nat) : Bool := m.depends id syn && decide (cls ≤ m.cls)

/-- A mask closes now (R360): 2 ms after the fence, or later while an affected core whose retune began in them is not released; 6 ms at
most. -/
def FMask.closing (s : State) (m : FMask) : Bool :=
  let awaited := m.cores.any fun c =>
    match (s.syn c).retune with
    | some r => decide (r.c0 < m.openedAt + 2000000)
    | none => false
  decide (m.openedAt + 2000000 ≤ s.clk.count) && (!awaited || decide (m.openedAt + 6000000 ≤ s.clk.count))

/-- CONSEQUENCE_MASK_CLOSE (R360, R362): the masks whose time has come close, and the checkers they alone held are re-armed. -/
def closeMasks (s : State) : State := { s with fc := { s.fc with masks := s.fc.masks.filter fun m => !m.closing s } }

/-- The checker is armed (R351, R362). -/
def armed (s : State) (id : Nat) : Bool :=
  !s.fc.unarmed.contains id && !(s.fc.masks.any fun m => m.held.contains id)
    && (match ownerUnit id with | some u => !s.isFenced u | none => true)

/-! ## Fencing (R358) -/

/-- What the fence does in the unit itself. -/
def fenceEffect (u : FUnit) (s : State) : State :=
  match u with
  | .cand n => fenceCand n s
  | .dp n => fenceChannel n s
  | .sn c => fenceSyn c s
  | .tb k => fenceTb k s
  | .port _ => s
  | .tsi n => fenceTsi n s
  | .tc k => fenceTc k s
  | .axis a => fenceAxis a s
  | .calendar => fenceCalendar s
  | .out _ => s
  | .trg n => s.setTrg n fun t => { t with latchPassed := false, pulsePassed := false }.settle
  | .core c => fenceCore c s
  | .streamer => { s with ts := s.ts.closeStream }
  | .conn _ => s

/-- Snuffer fences a unit and opens its mask (R357, R358, R360). -/
def fenceUnit (u : FUnit) (cls : Nat) (s : State) : State :=
  if s.isFenced u then s
  else fenceEffect u { s with fc := { s.fc with fenced := s.fc.fenced ++ [u], masks := s.fc.masks ++ [maskOf s u cls] } }

/-! ## SAFE (R367 to R370) -/

/-- The DCO words are held as they are (R191), and every pull ends (R155). -/
def holdWords (s : State) : State :=
  let s1 := { s with dp := (indexed s.dp).map fun (n, c) => { c with frozen := some (c.frozen.getD (dcoWord s n)) } }
  (List.range 8).foldl (fun s n => endPull n s) s1

/-- What the sleep commit stopped runs again in SAFE (R92, R299, R332): interval channels and their TDCs, capture, the calendar and the
axis trackers, and the cores that serve DOP. -/
def leaveStandby (s : State) : State :=
  wakeCalendar (wakeTcs (tdcRestart { s with
    rf := { s.rf with stopped := false },
    cores := (indexed s.cores).map fun (c, x) => if c != 1 && x == .halted then .running else x }))

/-- Entry to SAFE with the record that caused it (R367, R370): DCO words are held, the STEER core halts, what STANDBY had stopped
resumes, and the SAFE record waits to be written. A start-up that has not sealed ends. -/
def enterSafeMode (cause : Option TarnRec) (s : State) : State :=
  if s.md.mode = .safe then s
  else
    let s1 := enterMode .safe { holdWords s with nvc := { s.nvc with safePending := some (cause, s.fc.firstEvent) } }
    let s2 := if s.md.mode = .standby then leaveStandby s1 else s1
    let s3 := if s2.runs 1 then stopCore 1 .halted s2 else s2
    { s3 with md := { s3.md with phase := if s3.md.phase = .done then .done else .ended, waking := none } }

/-- SAFE_RECORD_WRITE (R370): Lamplighter writes the record that waits. -/
def writeSafeRecord (s : State) : State :=
  match s.nvc.safePending with
  | none => s
  | some (r, f) =>
    { s with
      nv := { s.nv with safeRecord := r, safeFirst := f, safeEntries := s.nv.safeEntries + 1 },
      nvc := { s.nvc with safePending := none } }

/-- The engine clock has stopped (R369): engine and cores stop, links are lost. -/
def engineStops (s : State) : State :=
  { s with
    clk := { s.clk with running := false },
    cores := s.cores.map fun x => if x == .fenced then x else .halted,
    md := { s.md with sleep := none },
    ts := s.ts.closeStream,
    pt := { s.pt with port := s.pt.port.map fun p =>
      { p with link := false, linkChanges := if p.link then p.linkChanges + 1 else p.linkChanges } } }

/-! ## Reactions of the ECC regions (R354) -/

/-- Records of the capture ring whose word lies at an address are dropped: slot = SEQ modulo 16,384. -/
def dropRecord (address : Nat) (t : Ts) : Ts :=
  { t with ring := t.ring.filter fun r => r.2.toNat % 16384 != address / 12 }

/-- The reaction to an uncorrectable error that fences nothing (R354): region 0 drops the record, 2 invalidates the card, 3 marks the
history record. Each card takes 256 bytes, each history record 16 bytes, 12,288 records to a channel. -/
def eccReaction (id : Nat) (syn : BitVec 32) (s : State) : State :=
  let a := eccAddress syn
  if typeOf id ≠ 0x0E ∨ !uncorrectable syn ∨ inTestWord syn then s
  else match instanceOf id with
    | 0 => { s with ts := dropRecord a s.ts }
    | 2 => { s with sn := { s.sn with cards := upd s.sn.cards (a / 256) fun k => { k with valid := false } } }
    | 3 => s.setHo (a / 196608) fun h =>
        { h with hist := h.hist.map fun r => if r.atNs / 1000000000 % 12288 = a % 196608 / 16 then { r with ok := false } else r }
    | _ => s

/-! ## Taking a report (R350 to R352, R357, R361, R363, R373, R377) -/

/-- The fault statistics stand (R33): the MON core has stopped. The spec does not say which data they are: the model takes them to be
the counters of `FC.040` (DESIGN CHOICE, log entry 114). -/
def statsStand (s : State) : Bool := s.core 2 == .stopped || s.core 2 == .fenced

/-- A change of the counters of `FC.040` (R33, R382). -/
def tallied (f : Fc → Fc) (s : State) : State := if statsStand s then s else { s with fc := f s.fc }

/-- Counters of a report handled as independent (R382). They are among the fault statistics that stop with the MON core (log
entry 114). -/
def countReport (cls : Nat) (path : Bool) (f : Fc) : Fc :=
  { f with countC := upd f.countC cls (· + 1), countPath := if path then f.countPath + 1 else f.countPath }

/-- The reaction of the report's class (R351, R357). -/
def reactTo (id : Nat) (syn : BitVec 32) (path : Bool) (cls : Nat) (r : TarnRec) (s : State) : State :=
  match cls with
  | 0 => { s with fc := { s.fc with c0Last := (id, s.clk.count) :: s.fc.c0Last.filter fun p => p.1 != id } }
  | 3 => enterSafeMode (some r) { s with fc := { s.fc with unarmed := id :: s.fc.unarmed } }
  | _ => match unitOf id syn path with
    | some u => fenceUnit u cls s
    | none => s

/-- A C0 report comes less than 10 ms after the last recorded one of its checker (R352). -/
def suppressed (s : State) (id : Nat) : Bool := s.fc.c0Last.any fun p => p.1 == id && decide (s.clk.count < p.2 + 10000000)

/-- The collector handles a report of an armed checker as an independent fault (R357, R377). -/
def independent (id : Nat) (syn : BitVec 32) (path : Bool) (cls : Nat) (s : State) : State :=
  let r := tarnRec s id syn cls path false false
  let s1 := raise (16 + typeOf id) (writeTarn r (tallied (countReport cls path) s))
  reactTo id syn path cls r s1

/-- The collector handles a report as a consequence (R361, R362): its checker is held unarmed by every open mask that covers it. -/
def consequential (id : Nat) (syn : BitVec 32) (cls : Nat) (s : State) : State :=
  let s1 := tallied (fun f => { f with countConseq := f.countConseq + 1 }) (writeTarn (tarnRec s id syn cls false false true) s)
  { s1 with fc := { s1.fc with
      masks := s1.fc.masks.map fun m => if m.depends id syn then { m with held := id :: m.held } else m } }

/-- The collector takes a report (R351): an error with its syndrome, or a path fault. -/
def takeReport (id : Nat) (syn : BitVec 32) (path : Bool) (s : State) : State :=
  if !s.clk.running || !armed s id then s
  else
    let cls := classOf id syn path
    let ecc : Bool := typeOf id == 0x0E || typeOf id == 0x0F
    let s0 := if ecc && !path && !uncorrectable syn then tallied (fun f => { f with eccCorrected := f.eccCorrected + 1 }) s else s
    let s1 := if path then s0 else eccReaction id syn s0
    if cls = 0 ∧ suppressed s1 id then tallied (fun f => { f with c0Suppressed := f.c0Suppressed + 1 }) s1
    else if !path && (s1.fc.masks.any fun m => m.applies id syn cls) then consequential id syn cls s1
    else
      let s2 := independent id syn path cls s1
      if id = 0x0D00 ∧ !path then engineStops s2 else s2

/-- The syndrome of a path fault (R350). -/
def pathSyndrome (high : Bool) : BitVec 32 := if high then 0xFFFFFFFF else 0

/-- A report of a checker whose real syndrome the spec does not state: it is a free value. -/
def reportFree (id : Nat) (s : State) : State :=
  takeReport id (BitVec.ofNat 32 (Config.freeNat s.free)) false { s with free := s.free + 1 }

/-- The path fault of a checker that does not report its injected syndrome (R84, R373). R350 gives a syndrome only to a path fault with
equal rails: here it is a free value (log entry 138). -/
def noReport (id : Nat) (s : State) : State :=
  takeReport id (BitVec.ofNat 32 (Config.freeNat s.free)) true { s with free := s.free + 1 }

/-- COLLECTOR_SELF_FAULT (R368): SAFE without classification; Tarn records it where the record path is intact. Its checker is unarmed
from then on (R351). -/
def selfFault (recordPath : Bool) (s : State) : State :=
  if !s.clk.running || !armed s 0x1F00 then s
  else
    let u := { s with fc := { s.fc with unarmed := 0x1F00 :: s.fc.unarmed } }
    if recordPath then
      let r := tarnRec s 0x1F00 (BitVec.ofNat 32 (Config.freeNat s.free)) 3 false false false
      enterSafeMode (some r) (raise 47 (writeTarn r (tallied (countReport 3 false) { u with free := s.free + 1 })))
    else enterSafeMode none u

/-! ## Injection (R372 to R376) -/

/-- The report of an injection check at i0 is injected (R373). -/
def injectedReport (id : Nat) (s : State) : State :=
  tallied (fun f => { f with countInjected := f.countInjected + 1 })
    (writeTarn (tarnRec s id (expectedSyndrome id) (classOf id (expectedSyndrome id) false) false true false) s)

/-- A real report of the checker under injection. -/
def realReport (id : Nat) (o : Option (BitVec 32)) (s : State) : State :=
  match o with
  | some w => takeReport id w false s
  | none => s

/-- The injection check of a checker (R373): the reports at i0, a second at i0, and at i1. `show_` writes a passing report to Tarn. -/
def injectionCheck (id : Nat) (show_ : Bool) (i0 i0b i1 : Option (BitVec 32)) (s : State) : State :=
  let s1 := match i0 with
    | none => noReport id s
    | some w =>
      if w = expectedSyndrome id then (if show_ && armed s id then injectedReport id s else s) else takeReport id w false s
  realReport id i1 (realReport id i0b s1)

/-- The result of an injection check (R381): 1 passed, 2 no report, 3 verify failed, 4 other syndrome. -/
def injectionResult (id : Nat) (i0 i0b i1 : Option (BitVec 32)) : Nat :=
  match i0 with
  | none => 2
  | some w =>
    if w ≠ expectedSyndrome id ∨ i0b.isSome then 4 else if i1.isSome then 3 else 1

/-- Why `INJECT` or `SWEEP` is refused (R374), in the order of its table; `one` is the checker that `INJECT` names. -/
def injectStatus (s : State) (one : Option Nat) : Nat :=
  if s.md.mode = .safe then 0x0E
  else if s.md.mode = .startup then 0x06
  else if s.isFenced (.core 2) || (match one with
      | some id => (match ownerUnit id with | some u => s.isFenced u | none => false)
      | none => false) then 0x0C
  else if (match one with
      | some id => !isChecker id || typeOf id == 0x17 || typeOf id == 0x1E || typeOf id == 0x1F
      | none => false) then 0x04
  else if s.fc.injecting.isSome || !s.fc.sweepLeft.isEmpty || !s.fc.masks.isEmpty then 0x08
  else 0x00

/-- The MON core writes the injection register for `INJECT` (R372). -/
def startInjection (id : Nat) (s : State) : State :=
  { s with fc := { s.fc with injecting := some { checker := id, sweep := false } } }

/-- INJECTION_CHECK (R373): the injection in progress completes; source 45. -/
def completeInjection (i0 i0b i1 : Option (BitVec 32)) (s : State) : State :=
  match s.fc.injecting with
  | none => s
  | some j =>
    let res := if armed s j.checker then injectionResult j.checker i0 i0b i1 else 2
    let s1 := injectionCheck j.checker true i0 i0b i1 { s with fc := { s.fc with injecting := none, injectResult := res } }
    raise 45 (if j.sweep then
      { s1 with fc := { s1.fc with sweepDone := s1.fc.sweepDone + 1,
                                   sweepFailed := if res = 1 then s1.fc.sweepFailed else s1.fc.sweepFailed + 1 } }
      else s1)

/-- `SWEEP` starts (R376). -/
def startSweep (s : State) : State :=
  { s with fc := { s.fc with
      sweepLeft := allCheckers.filter fun id => hasPath id && typeOf id != 0x1F, sweepAt := s.clk.count,
      sweepDone := 0, sweepFailed := 0 } }

/-- The checkers of fenced units are skipped (R376). -/
def skipFenced (s : State) (l : List Nat) : List Nat :=
  l.dropWhile fun id => match ownerUnit id with | some u => s.isFenced u | none => false

/-- SWEEP_STEP (R376): the next checker is injected, one each millisecond; the sweep pauses while a mask is open and ends with the MON
core or with SAFE. -/
def sweepStep (i0 i0b i1 : Option (BitVec 32)) (s : State) : State :=
  if s.fc.sweepLeft.isEmpty then s
  else if s.md.mode = .safe ∨ !s.runs 2 then
    (if s.md.mode = .standby then s else { s with fc := { s.fc with sweepLeft := [] } })
  else if !s.fc.masks.isEmpty ∨ s.fc.injecting.isSome ∨ s.clk.count < s.fc.sweepAt then s
  else
    match skipFenced s s.fc.sweepLeft with
    | [] => { s with fc := { s.fc with sweepLeft := [] } }
    | id :: rest =>
      completeInjection i0 i0b i1
        { s with fc :=
          { s.fc with sweepLeft := rest, sweepAt := s.clk.count + 1000000, injecting := some { checker := id, sweep := true } } }

/-- The start-up injection of step 2 into one checker (R375): `bad` where it does not report its syndrome. -/
def startupInjection (bad : List Nat) (s : State) (id : Nat) : State :=
  if bad.contains id then noReport id s else s

end Sys2Proof.Machine
end

