-- ==== Sys2Proof/Machine/Operands.lean ====
section
/-! DEFINITION. The forms of an operand: the types of R413, the address word of R412, the access classes of R414, and an element of
an object as the object tables give it. -/

namespace Sys2Proof.Machine

/-! ## Types (R413, R431) -/

/-- The types of R413. -/
inductive ElTy where
  | u8 | u16 | u32 | u64 | i8 | i16 | i32 | i64 | time80 | freq64 | blob
  deriving DecidableEq, Repr

/-- Size in bytes; 0 for a BLOB. -/
def ElTy.size : ElTy → Nat
  | .u8 => 1 | .i8 => 1 | .u16 => 2 | .i16 => 2 | .u32 => 4 | .i32 => 4 | .u64 => 8 | .i64 => 8 | .time80 => 10 | .freq64 => 8
  | .blob => 0

/-- The TYPE code of a journal record (R431). -/
def ElTy.code : ElTy → Nat
  | .u8 => 0 | .u16 => 1 | .u32 => 2 | .u64 => 3 | .i8 => 4 | .i16 => 5 | .i32 => 6 | .i64 => 7 | .time80 => 8 | .freq64 => 9
  | .blob => 10

/-- Signed types are two's complement. -/
def ElTy.signed : ElTy → Bool
  | .i8 => true | .i16 => true | .i32 => true | .i64 => true | .freq64 => true | _ => false

/-- Least value a type holds. -/
def ElTy.least (t : ElTy) : Int := if t.signed then -((256 ^ t.size / 2 : Nat) : Int) else 0

/-- Greatest value a type holds. -/
def ElTy.greatest (t : ElTy) : Int :=
  if t.signed then ((256 ^ t.size / 2 : Nat) : Int) - 1 else ((256 ^ t.size : Nat) : Int) - 1

/-- The bytes of a value (R13, R413). Where the type cannot hold the value, the spec states no bytes (log entry 17). -/
def ElTy.encode (t : ElTy) (v : Int) : List Byte :=
  if t.least ≤ v ∧ v ≤ t.greatest then intBytes t.size v else natBytes t.size (Config.overRange t.size v)

/-- The value that bytes spell. -/
def ElTy.decode (t : ElTy) (b : List Byte) : Int := if t.signed then toSigned t.size (bytesNat b) else bytesNat b

/-! ## Addresses (R412, R14) -/

/-- Area code of an ADDRESS. -/
abbrev areaOf (a : Nat) : Nat := a / 2 ^ 24 % 256
/-- Object number of an ADDRESS. -/
abbrev objectOf (a : Nat) : Nat := a / 2 ^ 12 % 4096
/-- Element number of an ADDRESS. -/
abbrev elementOf (a : Nat) : Nat := a / 16 % 256
/-- The address word; bits [3:0] are reserved. -/
abbrev addrWord (area obj el : Nat) : Nat := area * 2 ^ 24 + obj * 2 ^ 12 + el * 16

/-! ## Elements (R414) -/

/-- The access classes of R414. -/
inductive Access where
  | ro | rw | rws | seal | cmd
  deriving DecidableEq, Repr

/-- One element of an object. A write changes the configuration by `put` and then acts by `after`; a command acts by `run`, which also
gives its status; a BLOB has its own reading and writing. -/
structure Elem where
  /-- Element number. -/
  no : Nat
  /-- Type. -/
  ty : ElTy
  /-- Access class. -/
  acc : Access
  /-- The value a read gives. -/
  get : State → Int := fun _ => 0
  /-- Status of the element's own checks of a written value, MODE and BUSY apart, in the state whose configuration holds what the write
  carries (R418); 0 where they pass. -/
  own : State → Int → Nat := fun _ _ => 0
  /-- Status of its MODE and BUSY checks, in the state before the write. -/
  late : State → Int → Nat := fun _ _ => 0
  /-- The configuration with the value written. -/
  put : Int → Cfg → Cfg := fun _ c => c
  /-- What else the write does, once the configuration holds it: the state before the write, the value and the present state. -/
  after : State → Int → State → State := fun _ _ s => s
  /-- Status and effect of a command with its argument. -/
  run : Int → State → Nat × State := fun _ s => (0, s)
  /-- The bytes of a BLOB. -/
  image : State → List Byte := fun _ => []
  /-- Status and effect of a completed BLOB write. -/
  load : List Byte → State → Nat × State := fun _ s => (0, s)
  /-- Refusal of segment 0 of a BLOB write, where the chapter states one. -/
  opening : State → Nat := fun _ => 0
  /-- What segment 0 of an accepted BLOB write does. -/
  opened : State → State := fun s => s
  /-- The core that the request is passed to (R461), 0 where the MGT core serves it itself. -/
  via : Nat := 0

/-- An object: its assigned elements in order, and the cross-field rules that a write must leave satisfied. -/
structure Obj where
  /-- Elements. -/
  els : List Elem
  /-- The cross-field rules hold of the configuration as written, the numbers of the written elements given. -/
  cross : State → List Nat → Cfg → Bool := fun _ _ _ => true

/-- A status element. -/
def ro (no : Nat) (ty : ElTy) (get : State → Int) : Elem := { no := no, ty := ty, acc := .ro, get := get }

/-- A natural-number status element. -/
def roN (no : Nat) (ty : ElTy) (get : State → Nat) : Elem := { no := no, ty := ty, acc := .ro, get := fun s => get s }

/-- A yes-or-no status element. -/
def roB (no : Nat) (get : State → Bool) : Elem := { no := no, ty := .u8, acc := .ro, get := fun s => b2n (get s) }

/-- A read-only BLOB. -/
def roBlob (no : Nat) (image : State → List Byte) : Elem := { no := no, ty := .blob, acc := .ro, image := image }

/-- A command. -/
def command (no : Nat) (ty : ElTy) (run : Int → State → Nat × State) : Elem := { no := no, ty := ty, acc := .cmd, run := run }

end Sys2Proof.Machine
end

