-- ==== Sys2Proof/Machine/Flags.lean ====
section
/-! DEFINITION. The status codes of R415 and the checks of a written value in their order (R416, R424). -/

namespace Sys2Proof.Machine

/-! ## Status codes (R415) -/

/-- Done. -/
abbrev stOk : Nat := 0x00
/-- No such area, object, element or instance. -/
abbrev stUnknown : Nat := 0x01
/-- The access class or the interface does not allow it. -/
abbrev stAccess : Nat := 0x02
/-- The payload does not fit the type. -/
abbrev stType : Nat := 0x03
/-- Outside the range, or against a cross-field rule. -/
abbrev stRange : Nat := 0x04
/-- Zero is refused. -/
abbrev stZero : Nat := 0x05
/-- Not in this mode or state. -/
abbrev stMode : Nat := 0x06
/-- A SEAL element after the seal. -/
abbrev stSealed : Nat := 0x07
/-- A conflicting operation is in progress. -/
abbrev stBusy : Nat := 0x08
/-- A calendar target passed under REJECT. -/
abbrev stTooLate : Nat := 0x09
/-- A segment out of order. -/
abbrev stSegment : Nat := 0x0A
/-- A bulk image failed its check. -/
abbrev stCheck : Nat := 0x0B
/-- The unit is fenced. -/
abbrev stFenced : Nat := 0x0C
/-- SLEEP lost to a wake. -/
abbrev stAborted : Nat := 0x0D
/-- DOP is read-only in SAFE. -/
abbrev stSafe : Nat := 0x0E

/-! ## Checks -/

/-- The first of two checks that fails. -/
def orElse (a b : Nat) : Nat := if a = 0 then b else a

/-- The value lies in a range. -/
def within (lo hi v : Int) : Nat := if lo ≤ v ∧ v ≤ hi then stOk else stRange

/-- The value lies in a range, and zero is refused as INVALID_ZERO (R424). -/
def nonzero (lo hi v : Int) : Nat := if v = 0 then stZero else within lo hi v

/-- The value is one of a list. -/
def oneOf (l : List Int) (v : Int) : Nat := if l.contains v then stOk else stRange

/-- A refusal under a condition. -/
def refuseIf (b : Bool) (st : Nat) : Nat := if b then st else stOk

/-- A written element: its number, type, value in the configuration, own check of the value and way to write it. -/
def field (no : Nat) (ty : ElTy) (get : Cfg → Int) (check : Int → Nat) (put : Int → Cfg → Cfg) : Elem :=
  { no := no, ty := ty, acc := .rw, get := fun s => get s.cfg, own := fun _ v => check v, put := put }

/-- A natural-number written element. -/
def fieldN (no : Nat) (ty : ElTy) (get : Cfg → Nat) (check : Int → Nat) (put : Nat → Cfg → Cfg) : Elem :=
  field no ty (fun c => get c) check fun v => put v.toNat

/-- A field of bits [hi:0] whose upper bits are reserved: they are ignored on a write (R14). -/
def fieldBits (no : Nat) (ty : ElTy) (w : Nat) (get : Cfg → Nat) (put : Nat → Cfg → Cfg) : Elem :=
  field no ty (fun c => get c) (fun _ => stOk) fun v => put (v.toNat % 2 ^ w)

/-- An element with a further check before the others, such as FENCED. -/
def Elem.first (f : State → Nat) (e : Elem) : Elem := { e with own := fun s v => orElse (f s) (e.own s v) }

/-- An element with a MODE or BUSY check. -/
def Elem.lastly (f : State → Int → Nat) (e : Elem) : Elem := { e with late := f }

/-- An element whose write has an effect beyond the configuration. -/
def Elem.thenDo (f : Int → State → State) (e : Elem) : Elem := { e with after := fun _ => f }

/-- An element whose write has an effect that also looks at the state before it. -/
def Elem.follow (f : State → Int → State → State) (e : Elem) : Elem := { e with after := f }

/-- An element of another access class. -/
def Elem.as (a : Access) (e : Elem) : Elem := { e with acc := a }

/-- A STICKY element (R425): writing 1 to a bit clears it (R135). -/
def stickyEl (no : Nat) (get : State → BitVec 8) (clear : BitVec 8 → State → State) : Elem :=
  { no := no, ty := .u8, acc := .rw, get := fun s => (get s).toNat, after := fun _ v => clear (BitVec.ofInt 8 v) }

/-- A byte with the bits of a mask cleared. -/
def clearBits (m b : BitVec 8) : BitVec 8 := b &&& ~~~m

end Sys2Proof.Machine
end

