-- ==== Sys2Proof/Machine/Modes.lean ====
section
/-! DEFINITION. Start-up, standby and power failure (R40, R44, R83 to R97, R182, R239), as operations on the state. -/

namespace Sys2Proof.Machine

/-! ## The supply (R40, R93 to R97) -/

/-- The MGT core can do its power-failure work: in STANDBY it resumes for it (R94). -/
def mgtServes (s : State) : Bool := s.runs 0 || (s.core 0 == .halted && s.md.mode == .standby)

/-- Steps 1 to 3 of start-up are complete: the hold is part of step 3 (R83, R85). -/
def booted (s : State) : Bool := s.md.phase == .done || s.md.phase == .ended

/-- LOW_INPUT (R40, R97). -/
def lowInput (s : State) : State :=
  if !s.powered || s.pwr.lowInput then s
  else { s with pwr := { s.pwr with lowInput := true }, nv := { s.nv with lowInputCount := s.nv.lowInputCount + 1 } }

/-- The PFAIL flag is set (R93). In the start-up hold, which is part of step 3, there is nothing to write and Lamplighter waits (R94). -/
def setPfail (s : State) : State :=
  if !s.powered || s.pwr.pfail then s
  else
    { s with
      md := { s.md with phase := if s.md.phase = .hold then .waiting else s.md.phase },
      pwr := { s.pwr with pfail := true, pfailAt := s.clk.count, writeDone := !booted s,
                          holdupWriteResult := if booted s then 2 else s.pwr.holdupWriteResult },
      nv := { s.nv with pfailCount := s.nv.pfailCount + 1, lastHoldup := if booted s then 2 else s.nv.lastHoldup } }

/-- OVER_VOLTAGE (R40, R97): above 80 V the input stage disconnects, which counts as a power fail. -/
def overVoltage (mv : Nat) (s : State) : State :=
  if !s.powered || mv ≤ 75000 then s
  else
    let s1 := if s.pwr.overVoltage then s
      else { s with pwr := { s.pwr with overVoltage := true }, nv := { s.nv with overvoltCount := s.nv.overvoltCount + 1 } }
    if mv ≤ 80000 then s1 else setPfail { s1 with pwr := { s1.pwr with disconnected := true } }

/-- OPERATING_INPUT_RESTORED (R40, R97): each level source follows the voltage. -/
def inputRestored (mv : Nat) (s : State) : State :=
  { s with pwr :=
    { s.pwr with
      lowInput := s.pwr.lowInput && decide (mv < 36000), overVoltage := s.pwr.overVoltage && decide (75000 < mv),
      disconnected := s.pwr.disconnected && decide (80000 < mv) } }

/-- The hold-up record of this instant (R94). -/
def holdupRecord (s : State) : HoldupRec :=
  { journal := s.jr.recs.drop (s.jr.recs.length - s.jr.unflushed), loopTerms := s.dp.map (·.agreed), model := s.ln.model,
    modelOk := true, age := ageNow s, tOcxo := s.pwr.tOcxo, load := s.pwr.load, epochs := s.tb.map (·.epoch), times := s.tb.map (·.now),
    count := s.clk.count, tarn := s.fc.tarn }

/-- HOLDUP_WRITE_COMPLETE (R94). -/
def holdupWritten (s : State) : State :=
  if !s.pwr.pfail || s.pwr.writeDone || !mgtServes s then s
  else
    { s with
      nv := { s.nv with
        holdup := upd s.nv.holdup s.nv.holdupArea fun _ => some (holdupRecord s), holdupArea := 1 - s.nv.holdupArea,
        lastHoldup := 1, holdupTimes := s.tb.map (·.now) },
      pwr := { s.pwr with
        writeDone := true, copyPending := some s.nv.holdupArea, holdupWriteResult := 1,
        holdupWriteTime := (readInt (((s.clk.count : Rat) - s.pwr.pfailAt) / 1000)).toNat } }

/-- PFAIL_CLEAR (R95): not before the hold-up write has completed; source 2. -/
def clearPfail (s : State) : State :=
  if s.pwr.pfail && s.pwr.writeDone then raise 2 { s with pwr := { s.pwr with pfail := false } } else s

/-- A hold-up record enters the main store (R95): its journal records beyond those kept there, and its model where it is the newer
by AGE (R182). -/
def copyHoldup (o : Option HoldupRec) (nv : Nv) : Nv :=
  match o with
  | none => nv
  | some h =>
    let more := h.journal.filter fun r => decide (nv.nextIndex ≤ r.index)
    let all := nv.journal ++ more
    let newer : Bool := h.modelOk && (nv.model.isNone || decide (nv.modelAge ≤ h.age))
    { nv with
      journal := all.drop (all.length - journalSize),
      nextIndex := match more.getLast? with | some r => r.index + 1 | none => nv.nextIndex,
      model := if newer then some h.model else nv.model, modelAge := if newer then h.age else nv.modelAge }

/-- Both hold-up areas are copied, the older first, and erased (R95). -/
def copyHoldups (nv : Nv) : Nv :=
  let a := nth nv.holdup nv.holdupArea none
  let b := nth nv.holdup (1 - nv.holdupArea) none
  { copyHoldup b (copyHoldup a nv) with holdup := [none, none] }

/-- HOLDUP_RECORD_COPY (R95). -/
def holdupCopied (s : State) : State :=
  if s.pwr.pfail || s.pwr.copyPending.isNone || !mgtServes s then s
  else { s with nv := copyHoldups s.nv, pwr := { s.pwr with copyPending := none } }

/-- The two copies of the stored configuration with the older one spoilt (R425). -/
def spoilOlder (nv : Nv) : Nv :=
  if nv.copyA.seq ≤ nv.copyB.seq then { nv with copyA := { nv.copyA with valid := false } }
  else { nv with copyB := { nv.copyB with valid := false } }

/-- What is left of a module without power (R96): the nonvolatile store, with a store in progress interrupted and the powered age
brought up to date. -/
def powerLost (s : State) : State :=
  let nv := { s.nv with age := ageNow s }
  { State.reset with
    pending := s.pending, free := s.free,
    nv := if s.nvc.storeOp.isSome then spoilOlder nv else nv }

/-- ORDERLY_STOP (R96) and the fall of the rails. -/
def orderlyStop (s : State) : State := if s.powered && s.pwr.pfail then powerLost s else s

/-! ## Start-up (R43, R44, R83, R84, R94, R182, R239, R375) -/

/-- The level that a connector's coding selects (R43, R98): 0 invalid. The pair is `VSEL1` and `VSEL0`, true where open. -/
def levelOf (c : Bool × Bool) : Nat :=
  match c with
  | (true, true) => 2 | (true, false) => 1 | (false, true) => 3 | (false, false) => 0

/-- The newer valid copy of the stored configuration (R425). -/
def newestCopy (nv : Nv) : Option CfgCopy :=
  match nv.copyA.valid, nv.copyB.valid with
  | true, true => some (if nv.copyA.seq < nv.copyB.seq then nv.copyB else nv.copyA)
  | true, false => some nv.copyA
  | false, true => some nv.copyB
  | false, false => none

/-- The copies as the CRC check of step 1 finds them. -/
def checkCopies (i : StartIn) (nv : Nv) : Nv :=
  { nv with copyA := { nv.copyA with valid := nv.copyA.valid && i.copyA }, copyB := { nv.copyB with valid := nv.copyB.valid && i.copyB } }

/-- The fail-closed factory limit set (R220). -/
def closedLimits : Limits :=
  { out := List.replicate 32 { LimOut.reset with fmin := 0, fmax := 0, timeCarrying := 1, safeAction := 0 },
    trg := List.replicate 48 { LimTrg.reset with maxRate := 0 }, heartbeatInterval := 250 }

/-- A configuration with the factory limit set in its SEAL elements. -/
def Cfg.failClosed (c : Cfg) : Cfg :=
  { c with lim := closedLimits, sy := { c.sy with vouchLimit := CfgSy.reset.vouchLimit, freerunPermit := CfgSy.reset.freerunPermit } }

/-- A configuration with the SEAL elements of another. -/
def Cfg.withLimits (from_ c : Cfg) : Cfg :=
  { c with lim := from_.lim, sy := { c.sy with vouchLimit := from_.sy.vouchLimit, freerunPermit := from_.sy.freerunPermit } }

/-- Rail qualification (R18, R83, R239): the engine clock starts at 0, the levels are latched, the timebases start and MODE shows
STARTUP. Of the state before, the nonvolatile store remains. -/
def railsQualified (i : StartIn) (s : State) : State :=
  let t0 (k : Nat) : Rat := if s.nv.lastHoldup = 1 then nth s.nv.holdupTimes k 0 + 1000000000 else 0
  let epoch (k : Nat) : Nat := match nth s.nv.epochs k none with | some e => e + 1 | none => 1
  let r := State.reset
  raise 0 { r with
    pending := s.pending, free := s.free,
    nv := { s.nv with startCount := s.nv.startCount + 1, epochs := (List.range 4).map fun k => some (epoch k) },
    pwr := { r.pwr with
      supply := .on, vin := i.sensors.vin, iin := i.sensors.iin, pin := i.sensors.pin, load := i.sensors.load,
      tBase := i.sensors.tBase, tOcxo := i.sensors.tOcxo },
    clk := { r.clk with running := true },
    md := { r.md with
      startedAt := -(i.rail : Int), levels := i.vsel.map levelOf, lastShutdown := s.nv.lastHoldup },
    tb := (List.range 4).map fun k =>
      { Tb.reset with epoch := epoch k, now := t0 k, base := t0 k, cfHist := [(0, 0)] },
    ou := { r.ou with vouchClosed := true } }

/-- The invalid codings are reported (R45). -/
def reportCodings (s : State) : State :=
  [0, 1, 2].foldl (fun s j => if nth s.md.levels j 2 = 0 then reportFree (0x1502 + j) s else s) s

/-- The link-local address (R435). -/
def linkLocal (baseMac : Nat) : Nat :=
  169 * 2 ^ 24 + 254 * 2 ^ 16 + (1 + baseMac / 256 % 256 % 254) * 256 + baseMac % 256

/-- Step 1 loads the configuration (R83, R84, R425): values, interface settings, actions, active copies. -/
def loadConfig (i : StartIn) (s : State) : State :=
  let nv := checkCopies i s.nv
  let copy := newestCopy nv
  let limitsOk : Bool := i.limits && copy.isSome
  let cfg0 : Cfg := match copy with | some k => k.cfg | none => Cfg.reset
  let cfg := if limitsOk then cfg0 else cfg0.failClosed
  raiseIf copy.isNone 10 { s with
    nv := nv, cfg := cfg,
    md := { s.md with configSource := if copy.isSome then 0 else 1, limitsOk := limitsOk },
    dop := { s.dop with
      active := cfg.nv, addressInUse := if cfg.nv.ipv4 = 0 then linkLocal nv.factory.baseMac else cfg.nv.ipv4 } }

/-- The stores of the model as their checks find them (R182): an invalid copy is passed over. -/
def checkModels (i : StartIn) (nv : Nv) : Nv :=
  { nv with
    model := if i.model then nv.model else none,
    holdup := (indexed nv.holdup).map fun (n, o) =>
      o.map fun h => { h with modelOk := h.modelOk && (if n = 0 then i.holdupA else i.holdupB) } }

/-- Step 1 loads the model, the journal and the band cards (R83, R182). -/
def loadStores (i : StartIn) (s : State) : State :=
  let nv := copyHoldups (checkModels i s.nv)
  let m := nv.model.getD (emptyModel nv.factory)
  { s with
    nv := nv,
    ln := { s.ln with model := m, work := m, sums := sumsOf m },
    jr := { s.jr with recs := nv.journal, next := nv.nextIndex, unflushed := 0 },
    sn := { s.sn with cards := nv.cards } }

/-- Step 1 with candidate c: a start from step 1 again resets an enabled one as the first start does (R94, R113, R122). -/
def startCandidate (s : State) (c : Nat) : State :=
  let x := s.cand c
  if (candCfg s.cfg c).enable = 1 ∧ x.state ≠ .absent ∧ x.state ≠ .fenced then startCand c s else enableWritten c s

/-- A candidate that has never qualified has its derived rank from the start (R127, R135), which is no change of rank. -/
def startRanks (s : State) : State :=
  (List.range 24).foldl (fun s c => s.setCand c fun x => { x with rank := derivedRank s c }) s

/-- Step 1 brings the loaded configuration into force in the blocks (R122, R193, R207, R245, R250, R298, R319, R332, R337). -/
def startBlocks (s : State) : State :=
  let s1 := (List.range 4).foldl (fun s c => commitCore s c (s.cfg.syn c)) { s with
    ou := { s.ou with out := (indexed s.ou.out).map fun (n, x) => { x with active := (s.cfg.out n).shadow } } }
  let s2 := (List.range 4).foldl (fun s c => enableCore c (s.cfg.syn c).enable s) s1
  let s3 := (List.range 8).foldl (fun s i => takePriorities i s) ((List.range 24).foldl startCandidate s2)
  let s4 := (List.range 8).foldl (fun s j => if (s.cfg.domi j).kind = 0 then s else domGo j .noSource s) s3
  let s5 := (List.range 4).foldl (fun s k => { copyUtc k s with ev := s.ev }) s4
  let s6 := loadTcs (loadAxes (loadActions (startRanks s5)))
  (List.range 48).foldl (fun s k =>
    if (s.cfg.slot k).enable = 0 then s
    else
      let off := { s with cfg := { s.cfg with servo := upd s.cfg.servo k fun c => { c with enable := 0 } } }
      if servoMayEnable s k then enableServo k 1 off else off) s6

/-- The end of step 1 (R83). -/
def stepOne (i : StartIn) (s : State) : State :=
  startBlocks (loadStores i (loadConfig i { s with pwr := { s.pwr with holdupEst := i.holdup } }))

/-- Step 2 (R84, R375): the injection into every checker. -/
def stepTwo (i : StartIn) (s : State) : State :=
  let l := allCheckers.filter hasPath
  let bad := l.filter i.bistFails.contains
  l.foldl (startupInjection i.bistFails) { s with md := { s.md with bistFails := bad.length } }

/-- A firmware slot passes its check: it must hold a valid image. -/
def slotPasses (i : StartIn) (nv : Nv) (n : Nat) : Bool :=
  (nth nv.slots n FwSlot.reset).state == 1 && (if n = 0 then i.slot0 else i.slot1)

/-- The slots as their checks find them (R84, R429): one that fails, or was being written when power was lost, is invalid. -/
def checkSlots (i : StartIn) (nv : Nv) : Nv :=
  { nv with slots := (indexed nv.slots).map fun (n, x) =>
      if x.state = 0 then x else if slotPasses i nv n then x else { x with state := 2 } }

/-- The choice of a firmware slot (R84): the next slot, or the other where it fails, which becomes active. None: both fail. -/
def bootSlot (i : StartIn) (nv : Nv) : Option Nat :=
  if slotPasses i nv nv.nextSlot then some nv.nextSlot
  else if slotPasses i nv (1 - nv.nextSlot) then some (1 - nv.nextSlot)
  else none

/-- The cores start (R83, R84): in SAFE the STEER core stays halted (R367). -/
def startCores (i : StartIn) (s : State) : State :=
  let rom := s.md.bootRom
  let st (c : Nat) (x : CoreState) : CoreState :=
    if x = .fenced then x
    else if i.coreFails.contains c && !(rom && c != 0) then .stopped
    else if rom && c != 0 then .halted
    else if c = 1 ∧ s.md.mode = .safe then .halted
    else .running
  { s with cores := (indexed s.cores).map fun (c, x) => st c x }

/-- A record of the module's own (R430, R431). -/
def ownRecord (kind iface : Nat) : JRec := { JRec.reset with kind := kind, iface := iface }

/-- The journal records of a start (R430): a preloaded image once, then the start. -/
def recordStart (s : State) : State :=
  if !s.runs 0 then s
  else
    let s1 := if s.nv.factory.imagePreloaded then
        record (ownRecord 3 0xFF) { s with nv := { s.nv with factory := { s.nv.factory with imagePreloaded := false } } }
      else s
    record (ownRecord 5 0xFE) s1

/-- The end of step 3 (R83, R84): firmware, cores, watchdog reports of those that do not start, START record. -/
def stepThree (i : StartIn) (s : State) : State :=
  let boot := bootSlot i s.nv
  let act := s.nv.nextSlot
  let s1 := { s with
    nv := { checkSlots i s.nv with nextSlot := boot.getD act },
    md := { s.md with fwSlot := boot.getD act, bootRom := boot.isNone } }
  let s2 := raiseIf (boot != some act) 10 s1
  let s3 := if boot.isNone then reportFree 0x1700 s2 else s2
  let s4 := startCores i s3
  let s5 := (List.range 3).foldl (fun s c => if s.core c = .stopped then reportFree (0x1100 + c) s else s) s4
  recordStart s5

/-- The TDC tables are complete 20 ms after the end of step 1 (R282). -/
def tablesAfter (dt : Nat) (s : State) : State :=
  if dt < 20000000 then s
  else { s with ts := { s.ts with inp := s.ts.inp.map fun x => { x with tables := [true, true] } } }

/-- Step 4 (R35, R84, R219): the limits come from NV and the seal is set; the heartbeat is timed from it (R225). -/
def sealLimits (s : State) : State :=
  let cfg := if s.md.limitsOk then (match newestCopy s.nv with | some k => k.cfg.withLimits s.cfg | none => s.cfg.failClosed)
    else s.cfg.failClosed
  let ok : Bool := s.md.limitsOk && (newestCopy s.nv).isSome
  raiseIf (!ok) 10 { s with
    cfg := cfg, md := { s.md with sealed := true, limitSource := if ok then 0 else 1 },
    ou := { s.ou with heartbeatAt := s.clk.count } }

/-- Step 5 (R80, R83, R98, R332): FREERUN; actions with ARM_ON_LOAD are armed. -/
def enterFreerun (s : State) : State :=
  armLoaded (enterMode .freerun { s with md :=
    { s.md with phase := .done, startDuration := (readInt (((s.clk.count : Rat) - s.md.startedAt) / 1000)).toNat } })

/-- Steps 4 and 5, where the sequence has not ended in SAFE. -/
def finishStart (sealDur entryDur : Nat) (s : State) : State :=
  if s.md.phase ≠ .hold ∨ s.md.mode = .safe then s
  else enterFreerun (elapse entryDur (settle (sealLimits (elapse sealDur s))))

/-- The end of the hold or none (R85): `hold` is STARTUP_HOLD as loaded. -/
def startHold (sealDur entryDur : Nat) (s : State) : State :=
  let s1 := { s with md := { s.md with
    phase := if s.md.mode = .safe then .ended else .hold, holdEnd := s.clk.count + s.cfg.sy.startupHold * 1000000000 } }
  if s.cfg.sy.startupHold = 0 then finishStart sealDur entryDur s1 else s1

/-- PFAIL is set before step 3 has completed (R94): there is nothing to write; Lamplighter waits. -/
def stopStart (s : State) : State := setPfail { s with md := { s.md with phase := .waiting } }

/-- Steps 1 to 5 from the end of rail qualification (R83, R94): `i.stopped` cuts the sequence. -/
def runSteps (i : StartIn) (sealDur entryDur : Nat) (s : State) : State :=
  let one (s : State) : State := settle (stepOne i (elapse i.load s))
  let two (s : State) : State := settle (stepTwo i (elapse i.bist s))
  match i.stopped with
  | none =>
    startHold sealDur entryDur (settle (stepThree i (tablesAfter (i.bist + i.boot) (elapse i.boot (two (one s))))))
  | some t =>
    if t < i.load then stopStart (elapse t s)
    else if t < i.load + i.bist then stopStart (elapse (t - i.load) (one s))
    else stopStart (elapse (t - i.load - i.bist) (two (one s)))

/-- POWER_UP (R83): from no power, or from step 1 again after a wait for PFAIL to clear (R94). t0 stays the first one: the rules do not
say where it lies for the second, and `START_DURATION` goes on counting from it (DESIGN CHOICE, log entry 119). -/
def powerUp (i : StartIn) (sealDur entryDur : Nat) (s : State) : State :=
  if !s.powered then runSteps i sealDur entryDur (reportCodings (railsQualified i s))
  else if s.md.phase = .waiting ∧ !s.pwr.pfail then runSteps i sealDur entryDur s
  else s

/-- STARTUP_HOLD_EXPIRY (R85). -/
def holdExpiry (sealDur entryDur : Nat) (s : State) : State :=
  if s.md.phase = .hold ∧ !s.md.sealed ∧ s.md.holdEnd ≤ s.clk.count then finishStart sealDur entryDur s else s

/-! ## Oven and measurements (R86, R99) -/

/-- OVEN_READY (R86). -/
def setOvenReady (s : State) : State :=
  if !s.clk.running || s.md.ovenReady then s
  else raise 5 { s with md := { s.md with ovenReady := true, ovenReadyAt := s.clk.count } }

/-- A report to the collector for which the spec names no checker: which checker of R353 it is, is a free value (log entry 120). -/
def reportUnnamed (s : State) : State :=
  reportFree (nth allCheckers (Config.freeNat s.free % allCheckers.length) 0x0101) { s with free := s.free + 1 }

/-- OVEN_EXCURSION (R86): source 13, and a report to the fault collector. -/
def ovenExcursion (s : State) : State := if s.md.ovenReady && s.clk.running then reportUnnamed (raise 13 s) else s

/-- MEASUREMENT_REFRESH (R99). -/
def refreshMeasurements (m : Sensors) (s : State) : State :=
  if !s.powered then s
  else { s with pwr :=
    { s.pwr with vin := m.vin, iin := m.iin, pin := m.pin, load := m.load, tBase := m.tBase, tOcxo := m.tOcxo } }

/-! ## Standby (R87 to R92) -/

/-- Why `SLEEP` is refused (R88). A second `SLEEP` while one is under way conflicts with it (R415). -/
def sleepStatus (s : State) : Nat :=
  if s.md.mode = .startup then 0x06
  else if s.md.mode = .safe then 0x0E
  else if s.pwr.pfail then 0x08
  else if s.cfg.sy.wakeEnable &&& 0x0F#8 = 0#8 then 0x04
  else if s.md.sleep.isSome then 0x08
  else 0x00

/-- Instant A of an accepted `SLEEP` (R89, R182). -/
def acceptSleep (arg : Nat) (s : State) : State :=
  let s1 := flushJournal s
  let s2 := if s1.runs 1 then saveModel s1 else s1
  { s2 with md := { s2.md with
      sleep := some { SleepSeq.reset with atNs := s.clk.count, arg := arg }, wakeLatched := none } }

/-- The alarm is enabled and its timebase has reached `ALARM_TIME` (R90). -/
def alarmReached (s : State) : Bool :=
  bit8 s.cfg.sy.wakeEnable 3 && decide ((Time80.toNs s.cfg.sy.alarmTime : Rat) ≤ (s.tbs s.cfg.sy.alarmTb).now)

/-- A wake source is latched or asserted (R89). -/
def wakeStands (s : State) : Bool :=
  s.md.wakeLatched.isSome || (s.md.wakePinHigh && bit8 s.cfg.sy.wakeEnable 0) || alarmReached s

/-- w0 of a wake (R91): the cores resume, the ports wake, the cause is recorded. -/
def beginWake (cause port : Nat) (s : State) : State :=
  { s with
    cores := s.cores.map fun x => if x = .halted then .running else x,
    md := { s.md with waking := some s.clk.count, lastWakeCause := cause, lastWakePort := port, wakeLatched := none },
    pt := { s.pt with port := s.pt.port.map fun p => { p with asleep := false } } }

/-- An enabled wake source is recognised (R89 to R91): a wake in STANDBY, latched while a sleep is under way, nothing else. -/
def wakeSource (bit port : Nat) (s : State) : State :=
  if !bit8 s.cfg.sy.wakeEnable bit || !s.clk.running then s
  else if s.md.mode = .standby then (if s.md.waking.isSome then s else beginWake (bit + 1) port s)
  else if s.md.sleep.isSome ∧ s.md.wakeLatched.isNone then { s with md := { s.md with wakeLatched := some (bit + 1, port) } }
  else s

/-- WAKE_PIN (R56, R90). -/
def wakePin (held : Bool) (s : State) : State := wakeSource 0 0 { s with md := { s.md with wakePinHigh := held } }

/-- CAN_WAKE_FRAME (R90). -/
def canWake (ch ident : Nat) (s : State) : State :=
  if ident = s.cfg.sy.wakeCanId ∧ bit8 s.cfg.sy.wakeCanChannels ch then wakeSource 1 ch s else s

/-- T1_WAKE (R90). -/
def t1Wake (port : Nat) (s : State) : State := if s.cfg.sy.wakeT1Ports.getLsbD port then wakeSource 2 port s else s

/-- TIMEBASE_ALARM (R90). -/
def timebaseAlarm (s : State) : State := if alarmReached s then wakeSource 3 0 s else s

/-- Every selector is left without a candidate (R122, R140). -/
def deselectAll (s : State) : State :=
  (List.range 8).foldl (fun s n =>
    match s.selected n with
    | none => s
    | some c => noteSelection n (some c) none
        { s with rf := { s.rf with sel := upd s.rf.sel n fun x => { selected := none, switches := x.switches + 1 } } }) s

/-- The ports sleep (R69, R270): every link goes down. -/
def sleepPorts (s : State) : State :=
  (List.range 14).foldl (fun s n => (linkChange n false false s).setPort n fun p => { p with asleep := true }) s

/-- What stops at the sleep commit (R87, R122, R259, R299, R320, R332, R421). -/
def standbyStops (s : State) : State :=
  let s1 := deselectAll { s with rf := { s.rf with stopped := true } }
  let s2 := sleepTimebases (forEach 8 followSelection s1)
  let s3 := sleepPorts (sleepCalendar (sleepTcs s2))
  { s3 with
    ts := s3.ts.closeStream,
    cores := s3.cores.map fun x => if x = .running then .halted else x }

/-- The sleep commit (R89): from FREERUN, TRACKING or HOLDOVER (R80). A wake held since D follows at once. -/
def commitSleep (s : State) : State :=
  let from_ := s.md.mode
  let s1 := { s with md := { s.md with sleep := none, sleptFrom := from_ } }
  if from_ = .freerun ∨ from_ = .tracking ∨ from_ = .holdover then
    let s2 := standbyStops (enterMode .standby s1)
    match s2.md.wakeLatched with
    | some (c, p) => beginWake c p s2
    | none => s2
  else { s1 with md := { s1.md with wakeLatched := none } }

/-- SLEEP_COMMIT (R89): 2 ms after D. It waits out the cycle of another transition, whose mode it then records (R81). -/
def sleepCommit (s : State) : State :=
  match s.md.sleep with
  | some q => (match q.decided with
    | some d => if d + 2000000 ≤ s.clk.count ∧ !moved s then commitSleep s else s
    | none => s)
  | none => s

/-- WAKE (R91, R122, R259, R282, R299, R320, R332): the mode is chosen and everything resumes; source 8. -/
def wakeComplete (s : State) : State :=
  if s.md.mode ≠ .standby ∨ s.md.waking.isNone then s
  else
    let held : Bool := (s.md.sleptFrom == .tracking || s.md.sleptFrom == .holdover) && !s.isFenced (.tb s.ptb)
    let s1 := enterMode (if held then .holdover else .freerun)
      { s with md := { s.md with waking := none }, rf := { s.rf with stopped := false } }
    let s2 := (List.range 24).foldl (fun s c =>
      if (candCfg s.cfg c).enable = 1 ∧ (s.cand c).state ≠ .fenced then startCand c s else s) s1
    raise 8 (wakeCalendar (wakeTcs (tdcRestart (wakeTimebases s2))))

/-- CODING_CHANGE (R44): the level stays; source 9. -/
def codingChange (s : State) : State := if s.powered then raise 9 s else s

end Sys2Proof.Machine
end

