-- ==== Sys2Proof/Machine/NvStore.lean ====
section
/-! DEFINITION. The nonvolatile store's commands (R425 to R429): STORE, ERASE_CONFIG, FIRMWARE, ACTIVATE, the refresh pass. -/

namespace Sys2Proof.Machine

/-! ## The store's regions (R427) -/

/-- The regions of the 32 MiB store and their sizes in KiB, in the order of R427. -/
def nvRegions : List (String × Nat) :=
  [("factory data", 1024), ("firmware slot 0", 8192), ("firmware slot 1", 8192), ("stored configuration", 1024),
   ("Lantern model", 128), ("band cards", 128), ("calendar image", 256), ("journal", 1024), ("hold-up areas", 32),
   ("SAFE record area", 64), ("counters, epochs, powered age", 256), ("refresh and spare blocks", 12448)]

/-- Bytes of a region. -/
def regionBytes (name : String) : Nat := 1024 * ((nvRegions.lookup name).getD 0)

/-! ## STORE and ERASE_CONFIG (R425, R426) -/

/-- The ADDRESS of `FIRMWARE`. -/
def firmwareAddress : Nat := addrWord 0x50 10 0

/-- A `FIRMWARE` write is in progress (R425). -/
def firmwareOpen (s : State) : Bool := s.dop.wx.any fun x => x.address == firmwareAddress

/-- A store cannot begin now (R425). -/
def storeBusy (s : State) : Bool := s.nvc.storeOp.isSome || firmwareOpen s || s.pwr.pfail

/-- An accepted `STORE` or `ERASE_CONFIG` begins; `erase` for the latter. -/
def beginStore (erase : Bool) (s : State) : State :=
  { s with nvc := { s.nvc with storeState := 1, storeOp := some (erase, if erase then Cfg.reset else s.cfg) } }

/-- `STORE` (R425). -/
def storeCommand (arg : Int) (s : State) : Nat × State :=
  if arg ≠ 0 then (0x04, s) else if storeBusy s then (0x08, s) else (0x00, beginStore false s)

/-- `ERASE_CONFIG` (R426). -/
def eraseCommand (arg : Int) (s : State) : Nat × State :=
  if arg ≠ 0xA5 then (0x04, s) else if storeBusy s then (0x08, s) else (0x00, beginStore true s)

/-- The sequence number of the newer valid copy (R435). -/
def configSequence (nv : Nv) : Nat := match newestCopy nv with | some k => k.seq | none => 0

/-- The copies after a completed store: the older, or an invalid one, is overwritten (R425); an erase replaces both (R426). -/
def writeCopies (erase : Bool) (c : Cfg) (nv : Nv) : Nv :=
  let new : CfgCopy := { valid := true, seq := configSequence nv + 1, cfg := c }
  if erase then { nv with copyA := new, copyB := new }
  else if !nv.copyA.valid || (nv.copyB.valid && nv.copyA.seq ≤ nv.copyB.seq) then { nv with copyA := new }
  else { nv with copyB := new }

/-- The copy that an unfinished store was overwriting is no longer valid (R425). -/
def spoilTarget (nv : Nv) : Nv :=
  if !nv.copyA.valid || !nv.copyB.valid then nv else spoilOlder nv

/-- STORE_COMPLETE (R425, R426, R435), by the MGT core, which alone has access to NV (R29): source 254. -/
def storeComplete (e : StoreEnd) (s : State) : State :=
  match s.nvc.storeOp with
  | none => s
  | some (erase, c) =>
    if !s.runs 0 then s
    else
      let done : Bool := e == .done
      let nv := if done then { writeCopies erase c s.nv with storeCount := s.nv.storeCount + 1 } else spoilTarget s.nv
      raise 254 { s with
        nv := nv,
        nvc := { s.nvc with
          storeOp := none, storeState := (match e with | .done => 2 | .interrupted => 3 | .failed => 4),
          lastStore := if done then s.clk.count else s.nvc.lastStore } }

/-! ## Firmware (R429) -/

/-- The slot that is not active. -/
def inactiveSlot (s : State) : Nat := 1 - s.md.fwSlot

/-- The inactive slot changed. -/
def setSlot (f : FwSlot → FwSlot) (s : State) : State :=
  { s with nv := { s.nv with slots := upd s.nv.slots (inactiveSlot s) f } }

/-- A field of an image. -/
def fieldOf (b : List Byte) (o n : Nat) : Nat := bytesNat ((b.drop o).take n)

/-- The image passes its check (R429). -/
def firmwareOk (b : List Byte) : Bool :=
  decide (64 ≤ b.length) && decide (b.length ≤ 8388608) && fieldOf b 0 2 == 1 && fieldOf b 2 2 == 0x9600
    && fieldOf b 10 4 == b.length
    && fieldOf b 60 4 == crc32 (b.take 60 ++ [0#8, 0#8, 0#8, 0#8] ++ b.drop 64)

/-- Segment 0 of a `FIRMWARE` write: the slot reads as being written (R429). -/
def openFirmware (s : State) : State := setSlot (fun x => { x with state := 3 }) s

/-- A `FIRMWARE` transfer that ends without its check: the slot is invalid (R429). -/
def dropFirmware (s : State) : State := setSlot (fun x => if x.state = 3 then { x with state := 2, version := 0 } else x) s

/-- A complete `FIRMWARE` image (R429, R434). No bytes erase the slot (R424). -/
def loadFirmware (b : List Byte) (s : State) : Nat × State :=
  if s.pwr.pfail then (0x08, s)
  else if b.isEmpty then (0x00, raise 254 (setSlot (fun _ => FwSlot.reset) s))
  else if firmwareOk b then
    (0x00, raise 254 (setSlot (fun _ => { state := 1, version := fieldOf b 4 4, image := b }) s))
  else (0x0B, raise 254 (setSlot (fun _ => { state := 2, version := 0, image := b }) s))

/-- `ACTIVATE` (R429). -/
def activateCommand (arg : Int) (s : State) : Nat × State :=
  if arg ≠ 0 ∧ arg ≠ 1 then (0x04, s)
  else if (nth s.nv.slots arg.toNat FwSlot.reset).state ≠ 1 then (0x0B, s)
  else (0x00, { s with nv := { s.nv with nextSlot := arg.toNat } })

/-- `SLOT_STATE` (R436). -/
def slotStates (s : State) : Nat := (nth s.nv.slots 1 FwSlot.reset).state * 4 + (nth s.nv.slots 0 FwSlot.reset).state

/-! ## The refresh pass (R428) -/

/-- NV_REFRESH (R428, R434, R435): the blocks found due are rewritten but for those that cannot be. -/
def refreshPass (due failed spare erase : Nat) (s : State) : State :=
  if !s.runs 0 then s
  else
    raise 254 { s with
      nv := { s.nv with lastRefresh := ageNow s, spareBlocks := spare, eraseMax := erase },
      nvc := { s.nvc with refreshDue := min due failed, attention := decide (0 < failed) || decide (spare < 64) } }

end Sys2Proof.Machine
end

