-- ==== Sys2Proof/Machine/ObjReference.lean ====
section
/-! DEFINITION. The objects of the areas RF, DP and LN (R102 to R106, R131 to R136, R143, R160 to R163, R181, R186 to R189). -/

namespace Sys2Proof.Machine

/-! ## RF: candidates (R102 to R106, R131 to R133) -/

/-- Configuration with REFn changed. -/
def Cfg.setRef (n : Nat) (f : CfgRef → CfgRef) (c : Cfg) : Cfg := { c with refs := upd c.refs n f }
/-- Configuration with LREFn changed. -/
def Cfg.setLref (n : Nat) (f : CfgLref → CfgLref) (c : Cfg) : Cfg := { c with lrefs := upd c.lrefs n f }

/-- A natural-number element of REFn. -/
def refN (n no : Nat) (ty : ElTy) (get : CfgRef → Nat) (check : Int → Nat) (put : Nat → CfgRef → CfgRef) : Elem :=
  fieldN no ty (fun c => get (c.ref n)) check fun v => Cfg.setRef n (put v)

/-- A natural-number element of LREFn. -/
def lrefN (n no : Nat) (ty : ElTy) (get : CfgLref → Nat) (check : Int → Nat) (put : Nat → CfgLref → CfgLref) : Elem :=
  fieldN no ty (fun c => get (c.lref n)) check fun v => Cfg.setLref n (put v)

/-- The check FENCED of candidate c (R123, R358). -/
def candFenced (c : Nat) (s : State) : Nat := refuseIf (s.isFenced (.cand c)) stFenced

/-- BUSY while candidate c is enabled (R103). -/
def candBusy (c : Nat) (s : State) (_ : Int) : Nat := refuseIf ((candCfg s.cfg c).enable == 1) stBusy

/-- Greatest rate of electrical mode m (R62, R63), mHz. -/
def modeCeiling (m : Nat) : Nat :=
  if m = 0 then 1250000000000 else if m = 1 then 500000000000 else if m = 4 then 1000000000 else 100000000000

/-- Least frequency of electrical mode m (R62), mHz. -/
def modeFloor (m : Nat) : Nat := if m ≤ 1 then 1000000 else if m = 4 then 0 else 500

/-- The electrical mode is available on input n (R62, R63, R132). -/
def modeAvailable (n m : Nat) : Bool :=
  if n < 8 then decide (m ≤ 1) else if n < 12 then m == 4 else decide (m ≤ 3)

/-- The class is allowed for input n (R101). -/
def classAllowed (n cls : Nat) : Bool := if n < 8 then cls == 0 else if n < 12 then cls == 1 else decide (cls ≤ 1)

/-- A PULSE rate of R102: 500 mHz, or a whole number of hertz that divides 1 MHz. -/
def pulseRate (mhz : Nat) : Bool := mhz == 500 || (mhz != 0 && mhz % 1000 == 0 && 1000000 % (mhz / 1000) == 0)

/-- The valid combinations of R102 for input n. -/
def refValid (n : Nat) (r : CfgRef) : Bool :=
  classAllowed n r.cls && modeAvailable n r.elecMode
    && (if r.cls = 0 then decide (modeFloor r.elecMode ≤ r.nominal) && decide (r.nominal ≤ modeCeiling r.elecMode)
        else (decide (n < 12) || r.elecMode == 2 || r.elecMode == 3) && pulseRate r.nominal
          && decide (r.nominal ≤ modeCeiling r.elecMode)
          && decide (r.pulseWindow * r.nominal * 4 ≤ 1000000000000))
    && decide (r.freqAccept < r.freqReject)

/-- The conditions of R105 and R106 for LREFn to be enabled. -/
def lrefValid (n : Nat) (c : Cfg) : Bool :=
  let l := c.lref n
  decide (l.freqAccept < l.freqReject) &&
    (if l.kind = 0 then
      decide (8 ≤ l.source) && decide (l.source ≤ 15) && (c.ref l.source).enable == 1 && (c.ref l.source).cls == 1
        && (c.ref l.source).nominal == 1000
        && !((List.range 8).any fun m => m != n && (c.lref m).enable == 1 && (c.lref m).kind == 0)
    else decide (l.source ≤ 7))

/-- Object of REFn (R132). -/
def objRef (n : Nat) : Obj :=
  { els := (
      [(refN n 0 .u8 (·.enable) (within 0 1) fun v r => { r with enable := v }).thenDo (fun _ s => enableWritten n s),
       (refN n 1 .u8 (·.cls) (within 0 1) fun v r => { r with cls := v }).lastly (candBusy n),
       (refN n 2 .u8 (·.elecMode) (within 0 4) fun v r => { r with elecMode := v }).lastly (candBusy n),
       (refN n 3 .u64 (·.nominal) (nonzero 0 ElTy.u64.greatest) fun v r => { r with nominal := v }).lastly (candBusy n),
       (refN n 4 .u8 (·.edge) (within 0 1) fun v r => { r with edge := v }).lastly (candBusy n),
       refN n 5 .u8 (·.quality) (within 0 15) fun v r => { r with quality := v },
       (refN n 6 .u16 (·.wtr) (within 0 4095) fun v r => { r with wtr := v }).thenDo fun _ s => rankImprovement n (wtrReached n s),
       refN n 7 .u8 (·.actThreshold) (nonzero 2 15) fun v r => { r with actThreshold := v },
       refN n 8 .u32 (·.freqReject) (nonzero 100 200000) fun v r => { r with freqReject := v },
       refN n 9 .u32 (·.freqAccept) (nonzero 50 200000) fun v r => { r with freqAccept := v },
       refN n 10 .u32 (·.driftLimit) (nonzero 1 100000) fun v r => { r with driftLimit := v },
       refN n 11 .u32 (·.driftHorizon) (fun v => orElse (nonzero 600 86400 v) (refuseIf (v % 100 != 0) stRange))
         fun v r => { r with driftHorizon := v },
       fieldBits 12 .u8 2 (fun c => (c.ref n).monitorEnable.toNat)
         (fun v => Cfg.setRef n fun r => { r with monitorEnable := BitVec.ofNat 8 v }),
       refN n 13 .u32 (·.pulseWindow) (nonzero 100 1000000) fun v r => { r with pulseWindow := v },
       (field 14 .i32 (fun c => (c.ref n).delayComp) (within (-1000000) 1000000)
         fun v => Cfg.setRef n fun r => { r with delayComp := v }).lastly
           fun s _ => refuseIf ((s.cand n).state == .selected) stBusy] : List Elem).map (Elem.first (candFenced n))
    cross := fun _ w c =>
      let r := c.ref n
      (r.enable == 0 || refValid n r) && (!w.contains 9 || decide (r.freqAccept < r.freqReject)) }

/-- Object of LREFn (R133). -/
def objLref (n : Nat) : Obj :=
  { els := (
      [(lrefN n 0 .u8 (·.enable) (within 0 1) fun v r => { r with enable := v }).thenDo (fun _ s => enableWritten (16 + n) s),
       (lrefN n 1 .u8 (·.kind) (within 0 1) fun v r => { r with kind := v }).lastly (candBusy (16 + n)),
       (lrefN n 2 .u8 (·.source) (within 0 15) fun v r => { r with source := v }).lastly (candBusy (16 + n)),
       lrefN n 3 .u8 (·.quality) (within 0 15) fun v r => { r with quality := v },
       (lrefN n 4 .u16 (·.wtr) (within 0 4095) fun v r => { r with wtr := v }).thenDo fun _ s =>
         rankImprovement (16 + n) (wtrReached (16 + n) s),
       lrefN n 5 .u8 (·.actThreshold) (nonzero 2 15) fun v r => { r with actThreshold := v },
       lrefN n 6 .u32 (·.freqReject) (nonzero 100 200000) fun v r => { r with freqReject := v },
       lrefN n 7 .u32 (·.freqAccept) (nonzero 50 200000) fun v r => { r with freqAccept := v },
       lrefN n 8 .u32 (·.driftLimit) (nonzero 1 100000) fun v r => { r with driftLimit := v },
       lrefN n 9 .u32 (·.driftHorizon) (fun v => orElse (nonzero 600 86400 v) (refuseIf (v % 100 != 0) stRange))
         fun v r => { r with driftHorizon := v },
       fieldBits 10 .u8 2 (fun c => (c.lref n).monitorEnable.toNat)
         (fun v => Cfg.setLref n fun r => { r with monitorEnable := BitVec.ofNat 8 v })] : List Elem).map
           (Elem.first (candFenced (16 + n)))
    cross := fun _ w c =>
      let r := c.lref n
      (!w.contains 0 || r.enable == 0 || lrefValid n c)
        && ((r.enable == 0 && !w.contains 7) || decide (r.freqAccept < r.freqReject)) }

/-! ## RF: the GNSS port, status and selectors (R134 to R136) -/

/-- The value that offsets and drift read without a window or an estimate (R135). -/
def noOffset : Int := -2147483648

/-- A real value that may be absent, as I32. -/
def offsetOf (o : Option Rat) : Int := match o with | some q => readInt q | none => noOffset

/-- State code of R135. -/
def CandState.code : CandState → Nat
  | .absent => 0 | .monitoring => 1 | .qualifying => 2 | .qualified => 3 | .selected => 4 | .disqualified => 5 | .fenced => 6

/-- `FAULTS` (R135). -/
def Cand.faults (x : Cand) : Nat := b2n x.driftFault * 4 + b2n x.freqFault * 2 + b2n x.actFault

/-- Object of the GNSS port's settings (R134). -/
def objGnss : Obj :=
  let set (f : CfgGnss → CfgGnss) (c : Cfg) : Cfg := { c with gnss := f c.gnss }
  { els := [
      fieldN 0 .u32 (·.gnss.baud) (oneOf [4800, 9600, 19200, 38400, 57600, 115200]) (fun v => set fun g => { g with baud := v }),
      field 1 .u8 (·.gnss.sentences.toNat) (fun v => refuseIf (v % 4 == 0) stRange)
        (fun v => set fun g => { g with sentences := BitVec.ofInt 8 v &&& 3#8 }),
      fieldN 2 .u8 (·.gnss.label) (within 0 1) (fun v => set fun g => { g with label := v }),
      fieldN 3 .u16 (·.gnss.msgLatest) (nonzero 100 990) (fun v => set fun g => { g with msgLatest := v })] }

/-- Object of candidate c's status (R135). -/
def objCand (c : Nat) : Obj :=
  { els := [
      roN 0 .u8 (fun s => (s.cand c).state.code), roN 1 .u8 (fun s => (s.cand c).faults),
      stickyEl 2 (fun s => (s.cand c).sticky) (fun m s => s.setCand c fun x => { x with sticky := clearBits m x.sticky }),
      roN 3 .u8 (fun s => (s.cand c).rank), ro 4 .i32 (fun s => offsetOf (s.cand c).y1),
      ro 5 .i32 (fun s => offsetOf (s.cand c).y10), ro 6 .i32 (fun s => offsetOf (s.cand c).y100),
      ro 7 .i32 (fun s => offsetOf (s.cand c).drift), roN 8 .u16 (fun s => wtrLeft s c),
      roN 9 .u32 (fun s => (s.cand c).missing), roN 10 .u32 (fun s => (s.cand c).extra),
      roN 11 .u32 (fun s => (s.cand c).disq), roN 12 .u8 (fun s => selectedBy s c),
      roN 13 .u64 (fun s => (s.cand c).lastChange)] }

/-- Object of channel n's selector (R136). -/
def objSel (n : Nat) : Obj :=
  let set (f : CfgSel → CfgSel) (c : Cfg) : Cfg := { c with sels := upd c.sels n f }
  { els := [
      fieldBits 0 .u32 24 (fun c => (c.sel n).mask.toNat) (fun v => set fun x => { x with mask := BitVec.ofNat 32 v }),
      fieldN 1 .u8 (fun c => (c.sel n).selectMode) (within 0 2) (fun v => set fun x => { x with selectMode := v }),
      fieldN 2 .u8 (fun c => (c.sel n).forceIndex) (within 0 23) (fun v => set fun x => { x with forceIndex := v }),
      roN 3 .u8 (fun s => (s.selected n).getD 0xFF), roN 4 .u32 (fun s => (nth s.rf.sel n Sel.reset).switches)] }

/-- Object of channel n's priorities (R136). -/
def objPriority (n : Nat) : Obj :=
  { els := (List.range 24).map fun e =>
      fieldN e .u8 (fun c => nth (c.sel n).priority e 0) (within 0 15)
        (fun v c => { c with sels := upd c.sels n fun x => { x with priority := upd x.priority e fun _ => v } }) }

/-- Objects of the area RF. -/
def objRf (obj : Nat) : Option Obj :=
  if obj < 16 then some (objRef obj)
  else if obj < 24 then some (objLref (obj - 16))
  else if obj = 30 then some objGnss
  else if obj = 31 then some { els := [
      roN 0 .u32 (·.rf.gnss.sentencesOk), roN 1 .u32 (·.rf.gnss.checksumErrors), roN 2 .u32 (·.rf.gnss.late),
      roN 3 .u32 (·.rf.gnss.inconsistent), roN 4 .u8 (·.rf.gnss.fixRank), ro 5 .time80 (fun s => Time80.code s.rf.gnss.lastUtc),
      roN 6 .u32 (·.rf.gnss.overlong)] }
  else if 40 ≤ obj ∧ obj < 64 then some (objCand (obj - 40))
  else if 100 ≤ obj ∧ obj < 108 then some (objSel (obj - 100))
  else if 110 ≤ obj ∧ obj < 118 then some (objPriority (obj - 110))
  else none

/-! ## DP (R143, R160 to R163) -/

/-- An element of channel n. -/
def dpN (n no : Nat) (ty : ElTy) (get : CfgDp → Nat) (check : Int → Nat) (put : Nat → CfgDp → CfgDp) : Elem :=
  fieldN no ty (fun c => get (c.chan n)) check fun v c => { c with dp := upd c.dp n (put v) }

/-- The steps in use do not increase (R143). -/
def scheduleOk (c : CfgDp) : Bool :=
  let l := c.bw.take c.bwSteps
  (l.zip (l.drop 1)).all fun p => decide (p.2 ≤ p.1)

/-- Object of channel n's configuration (R161). -/
def objDpll (n : Nat) : Obj :=
  let step (k : Nat) : Elem :=
    dpN n (3 + k) .u32 (fun c => nth c.bw k 0) (nonzero 1 100000000) fun v c => { c with bw := upd c.bw k fun _ => v }
  { els := (
      [dpN n 0 .u8 (·.enable) (within 0 1) fun v c => { c with enable := v },
       (dpN n 1 .u8 (·.timeCarrying) (within 0 1) fun v c => { c with timeCarrying := v }).as .rws,
       dpN n 2 .u8 (·.bwSteps) (nonzero 1 8) fun v c => { c with bwSteps := v }] ++ (List.range 8).map step ++
      [dpN n 11 .u32 (·.lockWindow) (nonzero 100 1000000) fun v c => { c with lockWindow := v },
       dpN n 12 .u32 (·.lockCount) (nonzero 16 1048576) fun v c => { c with lockCount := v },
       dpN n 13 .u32 (·.slopeTime) (nonzero 100 10000000) fun v c => { c with slopeTime := v },
       dpN n 14 .u32 (·.slopeFreq) (nonzero 100 10000000) fun v c => { c with slopeFreq := v },
       dpN n 15 .u32 (·.taperRamp) (nonzero 10 100000) fun v c => { c with taperRamp := v },
       dpN n 16 .u8 (·.pboEnable) (within 0 1) fun v c => { c with pboEnable := v },
       dpN n 17 .u8 (·.firstAlign) (within 0 1) fun v c => { c with firstAlign := v }] : List Elem).map
         (Elem.first fun s => refuseIf (s.isFenced (.dp n)) stFenced)
    cross := fun _ _ c => scheduleOk (c.chan n) }

/-- State code of R162. -/
def ChanState.code : ChanState → Nat
  | .idle => 0 | .acquire => 1 | .narrowing => 2 | .locked => 3 | .holdover => 4 | .fenced => 5

/-- A value in ppt as FREQ64 (R413). -/
def toFreq64 (q : Rat) : Int := readInt (q * 65536)

/-- Object of channel n's status (R162). -/
def objChan (n : Nat) : Obj :=
  { els := [
      roN 0 .u8 (fun s => (s.chan n).state.code), roN 1 .u8 (fun s => (s.chan n).step), roN 2 .u32 (fun s => (s.chan n).bwNow),
      roB 3 (fun s => (s.chan n).inLock), ro 4 .i32 (fun s => offsetOf (s.chan n).phaseErr),
      ro 5 .i64 (fun s => readInt (s.chan n).taper.gap), ro 6 .i32 (fun s => readInt (s.chan n).taper.slope),
      ro 7 .i64 (fun s => readInt (s.chan n).buildout), ro 8 .freq64 (fun s => toFreq64 (s.chan n).loopTerm),
      ro 9 .freq64 (fun s => toFreq64 (s.chan n).agreed), roN 10 .u32 (fun s => (s.chan n).pdRate),
      stickyEl 11 (fun s => (s.chan n).sticky) (fun m s => s.setChan n fun x => { x with sticky := clearBits m x.sticky }),
      roN 12 .u32 (fun s => (s.chan n).lockLosses), roN 13 .u32 (fun s => (s.chan n).hoEntries),
      roN 14 .u64 (fun s => (s.chan n).lastChange), roB 15 (fun s => (s.chan n).aligned)] }

/-- Objects of the area DP. -/
def objDp (obj : Nat) : Option Obj :=
  if obj < 8 then some (objDpll obj)
  else if 10 ≤ obj ∧ obj < 18 then some (objChan (obj - 10))
  else if obj = 100 then some { els := [
      fieldN 0 .u8 (·.ldaSelect) (fun v => refuseIf (decide (7 < v) && v != 0xFF) stRange) (fun v c => { c with ldaSelect := v })] }
  else none

/-! ## LN (R181, R184, R186 to R189): every write goes through the STEER core (R461) -/

/-- An element that the STEER core serves. -/
def Elem.viaSteer (e : Elem) : Elem := { e with via := 1 }

/-- An element of Lantern's configuration. -/
def lnN (no : Nat) (ty : ElTy) (get : CfgLn → Nat) (check : Int → Nat) (put : Nat → CfgLn → CfgLn) : Elem :=
  (fieldN no ty (fun c => get c.ln) check fun v c => { c with ln := put v c.ln }).viaSteer

/-- `MODEL_STORE` (R182, R187). -/
def modelStoreRun (_ : Int) (s : State) : Nat × State := if s.pwr.pfail then (stBusy, s) else (stOk, saveModel s)

/-- A completed write of `MODEL` (R184). -/
def modelLoad (b : List Byte) (s : State) : Nat × State :=
  if modelAccepted s b then (stOk, writeModel b s) else (stCheck, s)

/-- A steering term of ±1,000 ppm, as FREQ64 (R181). -/
def steeringLimit : Int := 1000 * 1000000 * 65536

/-- Object of channel n's Lantern registers (R189). -/
def objHo (n : Nat) : Obj :=
  { els := [
      ({ no := 0, ty := .freq64, acc := .rw, get := fun s => (s.hov n).steering,
         own := fun _ v => within (-steeringLimit) steeringLimit v, after := fun _ => writeSteering n } : Elem).viaSteer,
      roN 1 .u8 (fun s => hoQuality (s.hov n).conditions), roN 2 .u8 (fun s => (s.hov n).conditions.toNat),
      roN 3 .u32 (fun s => (s.hov n).bound), ro 4 .freq64 (fun s => toFreq64 (s.hov n).u0),
      ro 5 .freq64 (fun s => toFreq64 (modelTerm (s.chan n) (s.hov n))), roN 6 .u64 (fun s => (s.hov n).h0),
      ro 7 .u32 (fun s => readInt (s.hov n).uy),
      ({ no := 8, ty := .u8, acc := .rw, get := fun s => b2n (s.hov n).clamped, own := fun _ v => within 0 1 v,
         after := fun _ v s => if v = 1 then s.setHo n fun h => { h with clamped := false } else s } : Elem).viaSteer] }

/-- Objects of the area LN. -/
def objLn (obj : Nat) : Option Obj :=
  if 10 ≤ obj ∧ obj < 18 then some (objHo (obj - 10))
  else match obj with
  | 0 => some { els := [
      lnN 0 .u8 (·.modelEnable) (within 0 1) (fun v c => { c with modelEnable := v }),
      lnN 1 .u8 (·.learnChannel) (fun v => refuseIf (decide (7 < v) && v != 0xFF) stRange)
        (fun v c => { c with learnChannel := v }),
      lnN 2 .u16 (·.quarantine) (within 0 3600) (fun v c => { c with quarantine := v }),
      lnN 3 .u16 (·.avgWindow) (nonzero 10 3600) (fun v c => { c with avgWindow := v }),
      lnN 4 .u32 (·.cellMin) (nonzero 600 86400) (fun v c => { c with cellMin := v }),
      lnN 5 .u16 (·.tempLag) (within 0 7200) (fun v c => { c with tempLag := v }),
      lnN 6 .u16 (·.loadLag) (within 0 7200) (fun v c => { c with loadLag := v }),
      lnN 7 .u8 (·.learnRank) (within 0 14) (fun v c => { c with learnRank := v })] }
  | 1 => some { els := [
      roN 0 .u32 (·.ln.model.learnTime), roN 1 .u8 (fun s => (populatedCells s.cfg.ln s.ln.model).length),
      roN 2 .u64 (fun s => coverage s % 2 ^ 64), roN 3 .u8 (fun s => coverage s / 2 ^ 64), roN 4 .u32 (·.ln.model.rT),
      roN 5 .u32 (·.ln.model.rA), ro 6 .i32 (fun s => readInt (ageingRate s)), roN 7 .u64 ageNow, roN 8 .u32 (·.ln.commits),
      ro 9 .i32 (fun s => readInt (tempNow s)), ro 10 .u32 (fun s => readInt (loadNow s)),
      roN 11 .u8 (fun s => cellOf (tempNow s) (loadNow s)), ro 12 .freq64 (fun s => toFreq64 s.ln.f)] }
  | 2 => some { els := [
      ({ no := 0, ty := .blob, acc := .rw, image := modelImage, load := modelLoad } : Elem).viaSteer,
      (command 1 .u8 modelStoreRun).viaSteer] }
  | _ => none

end Sys2Proof.Machine
end

