-- ==== Sys2Proof/Machine/ObjMotion.lean ====
section
/-! DEFINITION. The objects of the areas AX and SC (R341 to R349). -/

namespace Sys2Proof.Machine

/-! ## AX (R342, R343) -/

/-- State code of R342. -/
def AxisState.code : AxisState → Nat
  | .off => 0 | .unhomed => 1 | .tracking => 2 | .stalled => 3 | .fault => 4 | .fenced => 5

/-- Object of axis a's status (R342). -/
def objAxis (a : Nat) : Obj :=
  { els := [
      roN 0 .u8 (fun s => (axisState s a).code), roN 1 .u64 (fun s => (axisPos s a).toNat), ro 2 .i64 (fun s => readInt (axisVel s a)),
      roN 3 .u64 (fun s => (s.axis a).edges), roN 4 .u32 (fun s => (s.axis a).indexErrors), roN 5 .u32 (fun s => (s.axis a).illegal),
      roN 6 .u32 (fun s => (s.axis a).stalls), roB 7 (fun s => (s.axis a).backward), roN 8 .u64 (fun s => (s.axis a).lastIndex),
      roN 9 .u64 (fun s => (s.axis a).lastChange),
      stickyEl 10 (fun s => (s.axis a).sticky) (fun m s => s.setAxis a fun x => { x with sticky := clearBits m x.sticky })] }

/-- Configuration with AXIk changed. -/
def Cfg.setAx (k : Nat) (f : CfgAx → CfgAx) (c : Cfg) : Cfg := { c with ax := upd c.ax k f }

/-- An element of AXIk. -/
def axN (k no : Nat) (ty : ElTy) (get : CfgAx → Nat) (check : Int → Nat) (put : Nat → CfgAx → CfgAx) : Elem :=
  fieldN no ty (fun c => get (c.axi k)) check fun v => Cfg.setAx k (put v)

/-- An element of AXIk that is BUSY while `KIND` ≠ 0 (R343). -/
def axKept (k no : Nat) (ty : ElTy) (get : CfgAx → Nat) (check : Int → Nat) (put : Nat → CfgAx → CfgAx) : Elem :=
  (axN k no ty get check put).lastly fun s _ => refuseIf ((s.cfg.axi k).kind != 0) stBusy

/-- `KIND` of AXIk (R343). -/
def axKind (k : Nat) : Elem :=
  { axN k 0 .u8 (·.kind) (within 0 2) (fun v c => { c with kind := v }) with
      late := fun s v => refuseIf (v == 0 && axisBusy s (k + 4)) stBusy,
      after := fun old v s =>
        writeKind k v.toNat { s with cfg := s.cfg.setAx k fun c => { c with kind := (old.cfg.axi k).kind } } }

/-- Object of AXIk's configuration (R343). -/
def objAxi (k : Nat) : Obj :=
  { els := (
      [axKind k, axKept k 1 .u16 (·.lines) (nonzero 1 65535) fun v c => { c with lines := v },
       axKept k 2 .u8 (·.countMode) (within 0 1) fun v c => { c with countMode := v },
       axKept k 3 .u8 (·.invert) (within 0 1) fun v c => { c with invert := v },
       axN k 4 .u32 (·.indexOffset) (fun _ => stOk) fun v c => { c with indexOffset := v },
       axN k 5 .u8 (·.indexTol) (fun _ => stOk) fun v c => { c with indexTol := v },
       axN k 6 .u32 (·.trackBw) (nonzero 10 10000) fun v c => { c with trackBw := v },
       axN k 7 .u8 (·.stallEdges) (nonzero 2 64) fun v c => { c with stallEdges := v },
       axKept k 8 .u8 (·.travelMode) (within 0 2) fun v c => { c with travelMode := v },
       axKept k 9 .u32 (·.scale) (nonzero 1 4294967295) fun v c => { c with scale := v }] : List Elem).map
         (Elem.first fun s => refuseIf (s.isFenced (.axis (k + 4))) stFenced) ++
      [command 10 .u64 fun v => presetAxis k v.toNat] }

/-- Objects of the area AX. -/
def objAx (obj : Nat) : Option Obj :=
  if 10 ≤ obj ∧ obj < 18 then some (objAxis (obj - 10))
  else if 20 ≤ obj ∧ obj < 24 then some (objAxi (obj - 20))
  else none

/-! ## SC: actions (R344, R345) -/

/-- Configuration with action a changed. -/
def Cfg.setAct (a : Nat) (f : CfgAct → CfgAct) (c : Cfg) : Cfg := { c with act := upd c.act a f }

/-- The action is ARMED or SUSPENDED. -/
def actPending (s : State) (a : Nat) : Bool := (s.action a).status == .armed || (s.action a).status == .suspended

/-- An element of action a. -/
def actN (a no : Nat) (ty : ElTy) (get : CfgAct → Nat) (check : Int → Nat) (put : Nat → CfgAct → CfgAct) : Elem :=
  fieldN no ty (fun c => get (c.action a)) check fun v => Cfg.setAct a (put v)

/-- `CONTROL` of action a (R325, R329). -/
def controlRun (a : Nat) (v : Int) (s : State) : Nat × State :=
  if v = 1 then armAction a s
  else if v = 2 then (if actPending s a then (stOk, disarmAction a s) else (stMode, s))
  else (stRange, s)

/-- Object of action a's configuration (R344): BUSY while it is ARMED or SUSPENDED (R328). -/
def objAction (a : Nat) : Obj :=
  { els := ((
      [{ actN a 0 .u8 (·.kind) (within 0 7) (fun v c => { c with kind := v }) with after := fun _ v => writeActKind a v.toNat },
       actN a 1 .u8 (·.axis) (within 0 7) fun v c => { c with axis := v },
       actN a 2 .u8 (·.direction) (within 0 2) fun v c => { c with direction := v },
       actN a 3 .u8 (·.latePolicy) (within 0 3) fun v c => { c with latePolicy := v },
       actN a 4 .u8 (·.output) (fun _ => stOk) fun v c => { c with output := v },
       actN a 5 .u8 (·.tag) (fun _ => stOk) fun v c => { c with tag := v },
       fieldBits 6 .u16 3 (fun c => (c.action a).options.toNat) fun v => Cfg.setAct a fun c => { c with options := BitVec.ofNat 16 v },
       actN a 7 .u64 (·.target.toNat) (fun _ => stOk) fun v c => { c with target := BitVec.ofNat 64 v },
       actN a 8 .u64 (·.period) (fun _ => stOk) fun v c => { c with period := v },
       actN a 9 .u32 (·.count) (nonzero 1 4294967295) fun v c => { c with count := v },
       actN a 10 .u32 (·.width) (nonzero 1 4294967295) fun v c => { c with width := v }] : List Elem).map fun e =>
         (e.lastly fun s _ => refuseIf (actPending s a) stBusy).first fun s => refuseIf (s.isFenced .calendar) stFenced) ++
      [command 11 .u8 (controlRun a)] }

/-- State code of R345. -/
def ActState.code : ActState → Nat
  | .empty => 0 | .idle => 1 | .armed => 2 | .suspended => 3 | .done => 4 | .tooLate => 5 | .discarded => 6 | .cancelled => 7
  | .fenced => 8

/-- Object of action a's status (R345). -/
def objActStatus (a : Nat) : Obj :=
  { els := [
      roN 0 .u8 (fun s => (s.action a).status.code), roN 1 .u64 (fun s => (s.action a).next.toNat),
      roN 2 .u32 (fun s => (s.action a).remaining), roN 3 .u32 (fun s => (s.action a).fires),
      roN 4 .u32 (fun s => (s.action a).lateCount), roN 5 .u32 (fun s => (s.action a).skipped),
      roN 6 .u64 (fun s => (s.action a).lastFire), ro 7 .i64 (fun s => (s.action a).lastLateness),
      roN 8 .u8 (fun s => (s.action a).lastFlags.toNat)] }

/-! ## SC: the calendar and the servo (R346 to R349) -/

/-- Actions in a state. -/
def actCount (s : State) (st : ActState) : Nat := (actionsWhere s fun _ _ x => x.status == st).length

/-- A completed write of `CALENDAR` (R347). -/
def calendarLoad (b : List Byte) (s : State) : Nat × State :=
  let st := calendarStatus s b
  if st = 0 then (stOk, writeCalendar b s) else (st, s)

/-- A word with bit n set where an element of a list satisfies a test. -/
def bitsWhere {α : Type} (l : List α) (p : α → Bool) : Nat := (indexed l).foldl (fun a x => if p x.2 then a + 2 ^ x.1 else a) 0

/-- Object of the calendar (R346). -/
def objCalendar : Obj :=
  { els := [
      { no := 0, ty := .blob, acc := .rw, image := calendarImage, load := calendarLoad },
      roN 1 .u16 (fun s => actCount s .armed), roN 2 .u16 (fun s => actCount s .suspended), roN 3 .u16 (·.sc.lastStatus),
      roN 4 .u32 (·.sc.overruns), command 5 .u8 (fun _ s => (stOk, disarmAll s)),
      roN 6 .u64 (fun s => bitsWhere s.sc.win (·.isOpen)), roN 7 .u64 (fun s => bitsWhere s.ou.trg (·.latch))] }

/-- Configuration with slot k changed. -/
def Cfg.setSlot (k : Nat) (f : CfgServo → CfgServo) (c : Cfg) : Cfg := { c with servo := upd c.servo k f }

/-- An element of slot k. -/
def svN (k no : Nat) (ty : ElTy) (get : CfgServo → Nat) (check : Int → Nat) (put : Nat → CfgServo → CfgServo) : Elem :=
  fieldN no ty (fun c => get (c.slot k)) check fun v => Cfg.setSlot k (put v)

/-- BUSY while slot k is enabled (R337). -/
def svBusy (k : Nat) (s : State) (_ : Int) : Nat := refuseIf ((s.cfg.slot k).enable == 1) stBusy

/-- `ENABLE` of slot k (R337): 1 only under the conditions of R337. -/
def svEnable (k : Nat) : Elem :=
  { svN k 0 .u8 (·.enable) (within 0 1) (fun v c => { c with enable := v }) with
      own := fun s v => orElse (within 0 1 v) (refuseIf (v == 1 && !servoMayEnable s k) stRange),
      after := fun old v s =>
        enableServo k v.toNat { s with cfg := s.cfg.setSlot k fun c => { c with enable := (old.cfg.slot k).enable } } }

/-- Object of slot k's configuration (R348). -/
def objServo (k : Nat) : Obj :=
  { els := [
      svEnable k, (svN k 1 .u16 (·.action) (within 0 1023) fun v c => { c with action := v }).lastly (svBusy k),
      (svN k 2 .u8 (·.strobeInput) (within 0 63) fun v c => { c with strobeInput := v }).lastly (svBusy k),
      svN k 3 .u8 (·.strobePolarity) (within 0 1) fun v c => { c with strobePolarity := v },
      svN k 4 .u16 (·.gain) (nonzero 1 256) fun v c => { c with gain := v },
      svN k 5 .u32 (·.leadInit) (fun _ => stOk) fun v c => { c with leadInit := v },
      svN k 6 .u32 (·.leadMin) (within 0 100000000) fun v c => { c with leadMin := v },
      svN k 7 .u32 (·.leadMax) (within 0 100000000) fun v c => { c with leadMax := v },
      svN k 8 .u32 (·.stepMax) (nonzero 1 100000000) fun v c => { c with stepMax := v },
      svN k 9 .u32 (·.strobeWindow) (nonzero 1000 100000000) fun v c => { c with strobeWindow := v },
      svN k 10 .u32 (·.maxExposure) (nonzero 1000 1000000000) fun v c => { c with maxExposure := v }] }

/-- Object of slot k's status (R349). -/
def objServoStatus (k : Nat) : Obj :=
  { els := [
      roN 0 .u32 (fun s => (s.servo k).lead), ro 1 .i32 (fun s => (s.servo k).lastError),
      roN 2 .u32 (fun s => (s.servo k).lastExposure), roN 3 .u32 (fun s => (s.servo k).frames),
      roN 4 .u32 (fun s => (s.servo k).misses), roN 5 .u32 (fun s => (s.servo k).clamps), roN 6 .u32 (fun s => (s.servo k).stray)] }

/-- Objects of the area SC. -/
def objSc (obj : Nat) : Option Obj :=
  if obj < 1024 then some (objAction obj)
  else if obj < 2048 then some (objActStatus (obj - 1024))
  else if obj = 2048 then some objCalendar
  else if 2050 ≤ obj ∧ obj < 2098 then some (objServo (obj - 2050))
  else if 2100 ≤ obj ∧ obj < 2148 then some (objServoStatus (obj - 2100))
  else none

end Sys2Proof.Machine
end

