-- ==== Sys2Proof/Machine/ObjStamp.lean ====
section
/-! DEFINITION. The objects of the areas TS and TC (R306 to R311). -/

namespace Sys2Proof.Machine

/-! ## TS (R307 to R309) -/

/-- Configuration with input n changed. -/
def Cfg.setTsi (n : Nat) (f : CfgTsi → CfgTsi) (c : Cfg) : Cfg := { c with ts := upd c.ts n f }

/-- An element of input n. -/
def tsN (n no : Nat) (ty : ElTy) (get : CfgTsi → Nat) (check : Int → Nat) (put : Nat → CfgTsi → CfgTsi) : Elem :=
  fieldN no ty (fun c => get (c.tsi n)) check fun v => Cfg.setTsi n (put v)

/-- Object of input n's configuration (R307). -/
def objTsi (n : Nat) : Obj :=
  { els := (
      [(tsN n 0 .u8 (·.enable) (within 0 1) fun v c => { c with enable := v }).thenDo fun v => enableTsi n v.toNat,
       (tsN n 1 .u8 (·.elecMode) (within 0 1) fun v c => { c with elecMode := v }).lastly
         fun s _ => refuseIf ((s.cfg.tsi n).enable == 1) stBusy,
       field 2 .u8 (fun c => (c.tsi n).edges.toNat) (fun v => refuseIf (v % 4 == 0) stRange)
         fun v => Cfg.setTsi n fun c => { c with edges := BitVec.ofInt 8 v &&& 3#8 },
       tsN n 3 .u8 (·.timebase) (within 0 3) fun v c => { c with timebase := v },
       field 4 .i32 (fun c => (c.tsi n).delayComp) (within (-1000000) 1000000)
         fun v => Cfg.setTsi n fun c => { c with delayComp := v },
       tsN n 5 .u8 (·.toRing) (within 0 1) fun v c => { c with toRing := v },
       tsN n 6 .u8 (·.gating) (within 0 1) fun v c => { c with gating := v },
       tsN n 7 .u16 (·.decimate) (nonzero 1 65535) fun v c => { c with decimate := v },
       tsN n 8 .u8 (·.edgeEvent) (within 0 1) fun v c => { c with edgeEvent := v }] : List Elem).map
         (Elem.first fun s => refuseIf (s.isFenced (.tsi n)) stFenced) }

/-- Object of input n's status (R308). -/
def objTsiStatus (n : Nat) : Obj :=
  { els := [
      roN 0 .u64 (fun s => (s.tsi n).captured), roN 1 .u32 (fun s => (s.tsi n).lost), roN 2 .u32 (fun s => (s.tsi n).stale),
      roN 3 .u32 (fun s => (s.tsi n).outside), roN 4 .u8 (fun s => (s.tsi n).fifoPeak),
      stickyEl 5 (fun s => (s.tsi n).sticky) (fun m s => s.setTsi n fun x => { x with sticky := clearBits m x.sticky }),
      roB 6 (fun s => s.isFenced (.tsi n))] }

/-- `RING_FLUSH` (R294, R309). -/
def ringFlush (_ : Int) (s : State) : Nat × State :=
  if s.ts.stream.isNone then (stMode, s) else (stOk, { s with ts := s.ts.refill s.clk.count s.tb })

/-- Objects of the area TS. -/
def objTs (obj : Nat) : Option Obj :=
  if obj < 64 then some (objTsi obj)
  else if 100 ≤ obj ∧ obj < 164 then some (objTsiStatus (obj - 100))
  else if obj = 200 then some { els := [
      roN 0 .u16 (fun s => s.ts.ring.length), roN 1 .u16 (·.ts.peak), roN 2 .u16 (·.ts.nextSeq),
      roN 3 .u32 (·.ts.anchorsDropped), roN 4 .u32 (·.ts.markersLost), roN 5 .u64 (·.ts.streamed),
      command 6 .u8 ringFlush] }
  else none

/-! ## TC (R298, R310, R311) -/

/-- An element of channel k, BUSY while `RUN` ≠ 0 (R298). -/
def tcN (k no : Nat) (ty : ElTy) (get : CfgTc → Nat) (check : Int → Nat) (put : Nat → CfgTc → CfgTc) : Elem :=
  ((fieldN no ty (fun c => get (c.tcs k)) check fun v c => { c with tc := upd c.tc k (put v) }).lastly
    fun s _ => refuseIf ((s.cfg.tcs k).run != 0) stBusy).first fun s => refuseIf (s.isFenced (.tc k)) stFenced

/-- `RUN` of channel k (R298). The checks of its table are made on the inputs as the write leaves them. -/
def runEl (k : Nat) : Elem :=
  { fieldN 0 .u8 (fun c => (c.tcs k).run) (within 0 2) (fun v c => { c with tc := upd c.tc k fun x => { x with run := v } }) with
      own := fun s v => orElse (within 0 2 v) (orElse (runStatus s k v.toNat) (refuseIf (s.isFenced (.tc k)) stFenced)),
      after := fun _ v => writeRun k v.toNat }

/-- Object of channel k's configuration (R310). -/
def objTcCfg (k : Nat) : Obj :=
  { els := [
      runEl k, tcN k 1 .u8 (·.mode) (within 0 1) fun v c => { c with mode := v },
      tcN k 2 .u8 (·.startInput) (within 0 63) fun v c => { c with startInput := v },
      tcN k 3 .u8 (·.startEdge) (within 0 1) fun v c => { c with startEdge := v },
      tcN k 4 .u8 (·.stopInput) (within 0 63) fun v c => { c with stopInput := v },
      tcN k 5 .u8 (·.stopEdge) (within 0 1) fun v c => { c with stopEdge := v },
      tcN k 6 .u32 (·.gate) (nonzero 1 1000000) fun v c => { c with gate := v },
      tcN k 7 .u32 (·.maxStamps) (nonzero 3 65536) fun v c => { c with maxStamps := v },
      tcN k 8 .u16 (·.coincidence) (within 0 10000) fun v c => { c with coincidence := v },
      tcN k 9 .u64 (·.nominal) (nonzero 1 ElTy.u64.greatest) fun v c => { c with nominal := v }] }

/-- A time in ns as the elements carry it, in units of 2⁻¹⁶ ns. -/
def toUnits (q : Rat) : Int := readInt (q * 65536)

/-- Object of channel k's results (R311). -/
def objTcStatus (k : Nat) : Obj :=
  { els := [
      roN 0 .u8 (fun s => (s.tcs k).status), roN 1 .u32 (fun s => (s.tcs k).gates), roN 2 .u8 (fun s => (s.tcs k).flags.toNat),
      roN 3 .u64 (fun s => (s.tcs k).gateEnd), roN 4 .u32 (fun s => (s.tcs k).count), ro 5 .i64 (fun s => toUnits (s.tcs k).mean),
      roN 6 .u64 (fun s => (s.tcs k).stddev), ro 7 .i64 (fun s => toUnits (s.tcs k).min),
      ro 8 .i64 (fun s => toUnits (s.tcs k).max), ro 9 .i64 (fun s => toUnits (s.tcs k).last),
      roN 10 .u8 (fun s => (s.tcs k).lastFlags.toNat), roN 11 .u32 (fun s => (s.tcs k).reversed),
      roN 12 .u32 (fun s => (s.tcs k).subres), roN 13 .u32 (fun s => (s.tcs k).early), roN 14 .u32 (fun s => (s.tcs k).unpaired),
      ro 15 .u64 (fun s => readInt ((s.tcs k).freq * 1000000)), ro 16 .freq64 (fun s => toFreq64 (s.tcs k).offset),
      roN 17 .u32 (fun s => (s.tcs k).rms), roN 18 .u32 (fun s => (s.tcs k).decimation)] }

/-- Objects of the area TC. -/
def objTc (obj : Nat) : Option Obj :=
  if obj < 16 then some (objTcCfg obj)
  else if 20 ≤ obj ∧ obj < 36 then some (objTcStatus (obj - 20))
  else none

end Sys2Proof.Machine
end

