-- ==== Sys2Proof/Machine/ObjSynth.lean ====
section
/-! DEFINITION. The objects of the areas SN and OU (R229 to R235). -/

namespace Sys2Proof.Machine

/-! ## SN (R229 to R231) -/

/-- Configuration with core c changed. -/
def Cfg.setSyn (c : Nat) (f : CfgSn → CfgSn) (k : Cfg) : Cfg := { k with sn := upd k.sn c f }

/-- An element of core c. -/
def snN (c no : Nat) (ty : ElTy) (get : CfgSn → Nat) (check : Int → Nat) (put : Nat → CfgSn → CfgSn) : Elem :=
  fieldN no ty (fun k => get (k.syn c)) check fun v => Cfg.setSyn c (put v)

/-- Object of core c's configuration (R229). The channel and the plan are shadows (R207). -/
def objCore (c : Nat) : Obj :=
  { els := (
      [(snN c 0 .u8 (·.enable) (within 0 1) fun v k => { k with enable := v }).thenDo fun v => enableCore c v.toNat,
       (snN c 1 .u8 (·.channel) (within 0 7) fun v k => { k with channel := v }).follow fun old _ => keepShadows old.cfg,
       (snN c 2 .u64 (·.plan) (within 4800000000000 6400000000000) fun v k => { k with plan := v }).follow
         fun old _ => keepShadows old.cfg,
       snN c 3 .u8 (·.cardUse) (within 0 1) fun v k => { k with cardUse := v },
       snN c 4 .u8 (·.cardAuto) (within 0 1) fun v k => { k with cardAuto := v }] : List Elem).map
         (Elem.first fun s => refuseIf ((s.syn c).state == .fenced) stFenced) }

/-- State code of R230. -/
def SynState.code : SynState → Nat
  | .disabled => 0 | .tuning => 1 | .locked => 2 | .fenced => 3

/-- Object of core c's status (R230). -/
def objCoreStatus (c : Nat) : Obj :=
  { els := [
      roN 0 .u8 (fun s => (s.syn c).state.code), roN 1 .u64 (fun s => (s.syn c).plan), roN 2 .u8 (fun s => (s.syn c).channel),
      roN 3 .u16 (fun s => (s.syn c).band), roN 4 .u16 (fun s => (s.syn c).fine), roN 5 .u32 (fun s => (s.syn c).lastGap),
      roN 6 .u8 (fun s => (s.syn c).lastMethod), roN 7 .u32 (fun s => (s.syn c).relocks),
      roN 8 .u32 (fun s => (s.syn c).cardHits)] }

/-- A completed write of `CARDS` (R201). -/
def cardsLoad (b : List Byte) (s : State) : Nat × State := if (readCards s b).isSome then (stOk, writeCards b s) else (stCheck, s)

/-- Objects of the area SN. -/
def objSn (obj : Nat) : Option Obj :=
  if obj < 4 then some (objCore obj)
  else if 10 ≤ obj ∧ obj < 14 then some (objCoreStatus (obj - 10))
  else if obj = 20 then some { els := [
      command 0 .u8 (fun v => commitCommand v.toNat),
      fieldN 1 .u8 (·.commitTb) (within 0 3) (fun v c => { c with commitTb := v }),
      fieldN 2 .u8 (·.commitEdgeOut) (within 0 31) (fun v c => { c with commitEdgeOut := v }),
      roN 3 .u8 (·.sn.commitState), roN 4 .u64 (·.sn.lastCommit)] }
  else if obj = 30 then some { els := [
      { no := 0, ty := .blob, acc := .rw, image := cardsImage, load := cardsLoad },
      roN 1 .u8 (fun s => s.sn.cards.countP (·.valid)),
      fieldN 2 .u32 (·.cardTempWindow) (nonzero 1000 40000) (fun v c => { c with cardTempWindow := v })] }
  else none

/-! ## OU: configuration (R232) -/

/-- Configuration with output n changed. -/
def Cfg.setOut (n : Nat) (f : CfgOu → CfgOu) (c : Cfg) : Cfg := { c with ou := upd c.ou n f }

/-- An element of output n. -/
def ouN (n no : Nat) (ty : ElTy) (get : CfgOu → Nat) (check : Int → Nat) (put : Nat → CfgOu → CfgOu) : Elem :=
  fieldN no ty (fun c => get (c.out n)) check fun v => Cfg.setOut n (put v)

/-- A shadow element of output n (R207). -/
def ouShadow (n no : Nat) (ty : ElTy) (get : Divider → Nat) (check : Int → Nat) (put : Nat → Divider → Divider) : Elem :=
  (ouN n no ty (fun c => get c.shadow) check fun v c => { c with shadow := put v c.shadow }).follow fun old _ => keepShadows old.cfg

/-- BUSY while output n is enabled (R214). -/
def outBusy (n : Nat) (s : State) (_ : Int) : Nat := refuseIf ((s.cfg.out n).enable == 1) stBusy

/-- The rules of R205, R206 and R214 that a write to output n must leave satisfied. -/
def outCross (n : Nat) (s : State) (w : List Nat) (c : Cfg) : Bool :=
  (!w.contains 0 || (c.out n).enable == 0 || enableOk { s with cfg := c } n (c.out n).core (c.out n).format)
    && (!w.contains 3 || amplitudeOk (c.out n).format (c.out n).amplitude)

/-- `ENABLE` of output n takes effect: the grid of a frequency-only output begins at the write of 1 (R210). -/
def enableOut (n : Nat) (old : State) (v : Int) (s : State) : State :=
  if v = 1 ∧ (old.cfg.out n).enable = 0 then originNow s n else s

/-- `CORE` of output n is written: the phases kept of the output are counted on the new core's channel. -/
def coreWritten (n : Nat) (old : State) (s : State) : State :=
  s.setOut n (Out.shift (outNow s n - outNow old n))

/-- Object of output n's configuration (R232). -/
def objOut (n : Nat) : Obj :=
  { els := (
      [(ouN n 0 .u8 (·.enable) (within 0 1) fun v c => { c with enable := v }).follow fun old v => enableOut n old v,
       ((ouN n 1 .u8 (·.core) (within 0 3) fun v c => { c with core := v }).lastly (outBusy n)).follow
         fun old _ => coreWritten n old,
       (ouN n 2 .u8 (·.format) (within 0 4) fun v c => { c with format := v, amplitude := amplitudeDefault v }).lastly
         (outBusy n),
       (ouN n 3 .u16 (·.amplitude) (fun _ => stOk) fun v c => { c with amplitude := v }).follow
         fun old _ => amplitudeWritten n (old.cfg.out n).amplitude,
       ouShadow n 4 .u32 (·.divInt) (nonzero 2 16777216) fun v d => { d with divInt := v },
       ouShadow n 5 .u32 (·.divFrac) (fun _ => stOk) fun v d => { d with divFrac := v },
       ouShadow n 6 .u32 (·.postDiv) (nonzero 1 4294967295) fun v d => { d with postDiv := v },
       (field 7 .i32 (fun c => (c.out n).shadow.phase) (fun _ => stOk)
         fun v => Cfg.setOut n fun c => { c with shadow := { c.shadow with phase := v } }).follow
           fun old _ => keepShadows old.cfg,
       ouShadow n 8 .u8 (·.sscMode) (within 0 2) fun v d => { d with sscMode := v },
       ouShadow n 9 .u16 (·.sscDepth) (within 0 150) fun v d => { d with sscDepth := v },
       ouShadow n 10 .u32 (·.sscRate) (nonzero 20000 120000) fun v d => { d with sscRate := v },
       ouN n 11 .u8 (·.standbyOn) (within 0 1) fun v c => { c with standbyOn := v }] : List Elem).map
         (Elem.first fun s => refuseIf (s.isFenced (.out n)) stFenced)
    cross := outCross n }

/-! ## OU: status (R233) -/

/-- State code of R217. -/
def OutState.code : OutState → Nat
  | .off => 0 | .running => 1 | .held => 2 | .squelched => 3 | .parkedSafe => 4 | .freerunSafe => 5

/-- `FLAGS` of an output (R233). -/
def outFlags (s : State) (n : Nat) : Nat :=
  b2n (s.out n).freerun * 8 + b2n (s.out n).ssc.isSome * 4 + b2n (s.out n).slewClosed * 2 + b2n (winShut s n)

/-- Object of output n's status (R233). -/
def objOutStatus (n : Nat) : Obj :=
  { els := [
      roN 0 .u8 (fun s => (s.out n).state.code), roN 1 .u8 (fun s => outFlags s n),
      roN 2 .u64 (fun s => nominalMicroHz (s.syn (s.cfg.out n).core).plan (s.out n).active),
      roN 3 .u64 (fun s => (s.out n).measured), ro 4 .i32 (fun s => if outTime s n then (s.out n).slewNow else 0),
      roN 5 .u32 (fun s => (s.out n).squelches),
      stickyEl 6 (fun s => (s.out n).sticky) (fun m s => s.setOut n fun x => { x with sticky := clearBits m x.sticky }),
      roN 7 .u64 (fun s => (s.out n).lastChange)] }

/-! ## OU: Chimney limits (R234, R235) -/

/-- A limit of output n. -/
def limN (n no : Nat) (ty : ElTy) (get : LimOut → Nat) (check : Int → Nat) (put : Nat → LimOut → LimOut) : Elem :=
  (fieldN no ty (fun c => get (c.outLim n)) check
    fun v c => { c with lim := { c.lim with out := upd c.lim.out n (put v) } }).as .seal

/-- The cross-field rules of an output's limits (R228, R234): `FMAX` not below `FMIN` and the window no narrower than 100 ppm of `FMAX`
when either is written, and never both marks at 1. -/
def limCross (n : Nat) (w : List Nat) (c : Cfg) : Bool :=
  let l := c.outLim n
  (!(w.contains 0 || w.contains 1) ||
      (decide (l.fmin ≤ l.fmax) && decide (l.fmax ≤ 10000 * (l.fmax - l.fmin))))
    && !(l.timeCarrying == 1 && l.safeAction == 1)

/-- Object of output n's limits (R234). -/
def objOutLim (n : Nat) : Obj :=
  { els := [
      limN n 0 .u64 (·.fmin) (nonzero 400000 1300000000000000) fun v l => { l with fmin := v },
      limN n 1 .u64 (·.fmax) (nonzero 400000 1300000000000000) fun v l => { l with fmax := v },
      limN n 2 .u32 (·.slewLimit) (nonzero 100 100000) fun v l => { l with slewLimit := v },
      limN n 3 .u8 (·.timeCarrying) (within 0 1) fun v l => { l with timeCarrying := v },
      limN n 4 .u8 (·.safeAction) (within 0 1) fun v l => { l with safeAction := v }]
    cross := fun _ w c => limCross n w c }

/-- A limit of trigger n. -/
def trgLimN (n no : Nat) (get : LimTrg → Nat) (check : Int → Nat) (put : Nat → LimTrg → LimTrg) : Elem :=
  (fieldN no .u32 (fun c => get (nth c.lim.trg n LimTrg.reset)) check
    fun v c => { c with lim := { c.lim with trg := upd c.lim.trg n (put v) } }).as .seal

/-- Object of trigger n's limits (R235). -/
def objTrgLim (n : Nat) : Obj :=
  { els := [
      trgLimN n 0 (·.minSpacing) (nonzero 20 1000000000) fun v l => { l with minSpacing := v },
      trgLimN n 1 (·.maxRate) (within 0 50000000) fun v l => { l with maxRate := v },
      roN 2 .u32 (fun s => (nth s.ou.trg n Trg.reset).withheld)] }

/-- Objects of the area OU. -/
def objOu (obj : Nat) : Option Obj :=
  if obj < 32 then some (objOut obj)
  else if 40 ≤ obj ∧ obj < 72 then some (objOutStatus (obj - 40))
  else if 100 ≤ obj ∧ obj < 132 then some (objOutLim (obj - 100))
  else if 140 ≤ obj ∧ obj < 188 then some (objTrgLim (obj - 140))
  else if obj = 200 then some { els := [
      (fieldN 0 .u16 (·.lim.heartbeatInterval) (nonzero 50 1000)
        (fun v c => { c with lim := { c.lim with heartbeatInterval := v } })).as .seal,
      roN 1 .u32 (·.ou.heartbeatLapses), roN 2 .u8 (fun s => b2n s.ou.vouchClosed * 2 + b2n s.ou.heartbeatClosed),
      roB 3 (·.md.sealed)] }
  else none

end Sys2Proof.Machine
end

