-- ==== Sys2Proof/Machine/ObjSystem.lean ====
section
/-! DEFINITION. The objects of the areas SY, PW, FC and EV (R5, R98, R99, R379 to R382, R400 to R402). -/

namespace Sys2Proof.Machine

/-! ## SY (R5, R98) -/

/-- The status by which the server knows a command that answers later (R410): `SLEEP`. -/
abbrev stWait : Nat := 0x100

/-- `SY` configuration with a change. -/
def Cfg.setSy (f : CfgSy → CfgSy) (c : Cfg) : Cfg := { c with sy := f c.sy }

/-- The instance counts of R5, element by element. -/
def countTable : List Int := [17, 0x9600, 16, 8, 8, 4, 32, 4, 14, 64, 16, 4, 48, 1024, 256, 2, 1]

/-- `FW_VERSION` (R98). -/
def fwVersion (s : State) : Nat :=
  if s.md.bootRom then Config.bootRomVersion.toNat else (nth s.nv.slots s.md.fwSlot FwSlot.reset).version

/-- An identifier lies in one of the three ranges of 16 that R437 gives DOP. -/
def inDopRanges (n : CfgNv) (ident : Nat) : Bool :=
  [n.reqBase, n.rspBase, n.evtBase].any fun b => decide (b ≤ ident) && decide (ident < b + 16)

/-- The identifier rules of R98 and R437 hold: the ranges lie apart from one another and from the wake frame. -/
def identOk (c : Cfg) : Bool :=
  let n := c.nv
  n.reqBase != n.rspBase && n.reqBase != n.evtBase && n.rspBase != n.evtBase && !inDopRanges n c.sy.wakeCanId

/-- `SLEEP` (R88, R89): accepted, it is answered at D. -/
def sleepRun (v : Int) (s : State) : Nat × State :=
  let st := sleepStatus s
  if st = 0 then (stWait, acceptSleep v.toNat s) else (st, s)

/-- `SEAL_NOW` (R85): it ends the hold, step 4 taking `sealDur` ns and step 5 `entryDur` ns; outside the hold SEALED. -/
def sealNowRun (sealDur entryDur : Nat) (_ : Int) (s : State) : Nat × State :=
  if s.md.phase = .hold ∧ !s.md.sealed then (stOk, finishStart sealDur entryDur s) else (stSealed, s)

/-- `ENTER_SAFE` (R82, R353): a C3 event of identity 0x1E00; its syndrome is not stated. -/
def enterSafeRun (_ : Int) (s : State) : Nat × State := (stOk, reportFree 0x1E00 s)

/-- Objects of the area SY. -/
def objSy (obj : Nat) : Option Obj :=
  match obj with
  | 0 => some { els := [
      roN 0 .u8 (·.md.mode.code), roN 1 .u8 (·.md.prevMode), roN 2 .u64 (·.md.modeEntry), roB 3 (·.md.vouching),
      roB 4 (·.md.ovenReady), roN 5 .u64 (·.md.ovenReadyAt), roB 6 (·.md.ocxoSuspect)] }
  | 1 => some { els := [
      roN 0 .u32 (·.nv.factory.serial), roN 1 .u16 (·.nv.factory.hwRevision), roN 2 .u32 fwVersion, roN 3 .u8 (·.md.fwSlot),
      roN 4 .u8 (·.nv.factory.grade), roN 5 .u8 (·.nv.factory.baseplate), roN 6 .u8 (·.nv.factory.configImage),
      roN 7 .u16 fun _ => 1] }
  | 2 => some { els := (indexed countTable).map fun p => ro p.1 .u16 fun _ => p.2 }
  | 3 => some { els := [
      roN 0 .u32 (·.nv.startCount), roN 1 .u32 (·.md.startDuration), roN 2 .u8 (·.md.configSource),
      roN 3 .u8 (·.md.limitSource), roN 4 .u16 (·.md.bistFails), roN 5 .u8 (·.md.lastShutdown),
      roN 6 .u8 (fun s => nth s.md.levels 0 0), roN 7 .u8 (fun s => nth s.md.levels 1 0),
      roN 8 .u8 (fun s => nth s.md.levels 2 0)] }
  | 10 => some { els := [
      ((fieldN 0 .u8 (·.sy.principalTb) (within 0 3) fun v => Cfg.setSy fun c => { c with principalTb := v }).as .rws).thenDo
        (fun _ s => principalWritten s),
      (fieldN 1 .u32 (·.sy.vouchLimit) (within 50 50000) fun v => Cfg.setSy fun c => { c with vouchLimit := v }).as .seal,
      (fieldBits 2 .u8 3 (·.sy.freerunPermit.toNat) fun v => Cfg.setSy fun c =>
        { c with freerunPermit := BitVec.ofNat 8 v }).as .seal,
      fieldN 3 .u16 (·.sy.startupHold) (within 0 600) fun v => Cfg.setSy fun c => { c with startupHold := v }] }
  | 11 => some {
      els := [
        fieldBits 0 .u8 4 (·.sy.wakeEnable.toNat) (fun v => Cfg.setSy fun c => { c with wakeEnable := BitVec.ofNat 8 v }),
        fieldBits 1 .u16 12 (·.sy.wakeT1Ports.toNat) (fun v => Cfg.setSy fun c => { c with wakeT1Ports := BitVec.ofNat 16 v }),
        fieldBits 2 .u8 2 (·.sy.wakeCanChannels.toNat)
          (fun v => Cfg.setSy fun c => { c with wakeCanChannels := BitVec.ofNat 8 v }),
        fieldBits 3 .u32 29 (·.sy.wakeCanId) (fun v => Cfg.setSy fun c => { c with wakeCanId := v }),
        fieldN 4 .u8 (·.sy.alarmTb) (within 0 3) (fun v => Cfg.setSy fun c => { c with alarmTb := v }),
        field 5 .time80 (fun c => Time80.code c.sy.alarmTime) (fun _ => stOk)
          (fun v => Cfg.setSy fun c => { c with alarmTime := decodeTime80 v }),
        roN 6 .u8 (·.md.lastWakeCause), roN 7 .u8 (·.md.lastWakePort)]
      cross := fun _ w c => !w.contains 3 || identOk c }
  | 12 => some { els := [command 0 .u8 sleepRun, command 1 .u8 (sealNowRun 0 0), command 2 .u8 enterSafeRun] }
  | _ => none

/-! ## PW (R99) -/

/-- Objects of the area PW. -/
def objPw (obj : Nat) : Option Obj :=
  match obj with
  | 0 => some { els := [
      roN 0 .u32 (·.pwr.vin), roN 1 .u32 (·.pwr.iin), roN 2 .u32 (·.pwr.pin), roN 3 .u32 (·.pwr.load),
      ro 4 .i32 (·.pwr.tBase), ro 5 .i32 (·.pwr.tOcxo), roB 6 (·.pwr.pfail), roN 7 .u16 (·.pwr.holdupEst)] }
  | 1 => some { els := [
      roN 0 .u32 (·.nv.pfailCount), roN 1 .u32 (·.nv.lowInputCount), roN 2 .u32 (·.nv.overvoltCount),
      roN 3 .u32 (·.pwr.holdupWriteTime), roN 4 .u8 (·.pwr.holdupWriteResult)] }
  | 2 => some { els := [
      fieldN 0 .u16 (·.pw.holdupWarn) (within 200 1000) (fun v c => { c with pw := { c.pw with holdupWarn := v } }),
      field 1 .i32 (·.pw.tempWarnHigh) (fun _ => stOk) (fun v c => { c with pw := { c.pw with tempWarnHigh := v } })] }
  | _ => none

/-! ## FC (R379 to R382) -/

/-- The bytes of a record that may be absent. -/
def recordBytes (o : Option TarnRec) : List Byte := match o with | some r => r.bytes | none => []

/-- A word with bit n set where unit `f n` is fenced. -/
def fencedBits (w : Nat) (f : Nat → FUnit) (s : State) : Nat :=
  (List.range w).foldl (fun a n => if s.isFenced (f n) then a + 2 ^ n else a) 0

/-- `FENCED_OTHER` (R380). -/
def fencedOther (s : State) : Nat :=
  let b (u : FUnit) (n : Nat) : Nat := if s.isFenced u then 2 ^ n else 0
  b (.core 0) 2 + b (.core 1) 3 + b (.core 2) 4 + b .calendar 5 + b .streamer 6 + b (.conn 2) 7 + b (.conn 3) 8 + b (.conn 4) 9

/-- `INJECT` (R372, R374): the result of the check comes with it. -/
def injectRun (_ : Int) (s : State) : Nat × State :=
  let id := s.cfg.fc.injectChecker
  let st := injectStatus s (some id)
  if st = 0 then (stOk, startInjection id s) else (st, s)

/-- `SWEEP` (R374, R376). -/
def sweepRun (_ : Int) (s : State) : Nat × State :=
  let st := injectStatus s none
  if st = 0 then (stOk, startSweep s) else (st, s)

/-- Objects of the area FC. `INJECT` and `SWEEP` go through the MON core (R461). -/
def objFc (obj : Nat) : Option Obj :=
  match obj with
  | 0 => some { els := [
      roN 0 .u8 (·.fc.worst.getD 0xFF), roN 1 .u8 (·.fc.tarn.length), roN 2 .u32 (·.fc.overwritten),
      roN 3 .u8 (·.fc.masks.length),
      fieldN 4 .u8 (·.fc.firstMinClass) (within 0 3) (fun v c => { c with fc := { c.fc with firstMinClass := v } })] }
  | 1 => some { els := [roBlob 0 fun s => recordBytes s.fc.firstEvent] }
  | 2 => some { els := [roBlob 0 fun s => s.fc.tarn.flatMap TarnRec.bytes] }
  | 3 => some { els := [command 0 .u8 fun _ s => (stOk, clearTarn s)] }
  | 10 => some { els := [
      roN 0 .u32 (fencedBits 24 .cand), roN 1 .u8 (fencedBits 8 .dp), roN 2 .u8 (fencedBits 4 .sn),
      roN 3 .u8 (fencedBits 4 .tb), roN 4 .u16 (fencedBits 14 .port), roN 5 .u64 (fencedBits 64 .tsi),
      roN 6 .u16 (fencedBits 16 .tc), roN 7 .u32 (fencedBits 32 .out), roN 8 .u64 (fencedBits 48 .trg),
      roN 9 .u16 fencedOther, roN 10 .u8 (fencedBits 4 fun k => .axis (k + 4))] }
  | 20 => some { els := [
      fieldN 0 .u16 (·.fc.injectChecker) (fun v => refuseIf (!isChecker v.toNat) stRange)
        (fun v c => { c with fc := { c.fc with injectChecker := v } }),
      { command 1 .u8 injectRun with via := 2, own := fun s _ => injectStatus s (some s.cfg.fc.injectChecker) },
      roN 2 .u8 (·.fc.injectResult), roN 3 .u32 (fun s => (expectedSyndrome s.cfg.fc.injectChecker).toNat),
      { command 4 .u8 sweepRun with via := 2, own := fun s _ => injectStatus s none },
      roN 5 .u16 (·.fc.sweepDone), roN 6 .u16 (·.fc.sweepFailed)] }
  | 30 => some { els := [
      roBlob 0 (fun s => recordBytes s.nv.safeRecord), roBlob 1 (fun s => recordBytes s.nv.safeFirst),
      roN 2 .u32 (·.nv.safeEntries)] }
  | 40 => some { els := [
      roN 0 .u32 (fun s => nth s.fc.countC 0 0), roN 1 .u32 (fun s => nth s.fc.countC 1 0),
      roN 2 .u32 (fun s => nth s.fc.countC 2 0), roN 3 .u32 (fun s => nth s.fc.countC 3 0), roN 4 .u32 (·.fc.countConseq),
      roN 5 .u32 (·.fc.countPath), roN 6 .u32 (·.fc.countInjected), roN 7 .u32 (·.fc.c0Suppressed),
      roN 8 .u32 (·.fc.eccCorrected)] }
  | _ => none

/-! ## EV (R385, R400 to R402) -/

/-- State code of R386. -/
def SrcState.code : SrcState → Nat
  | .idle => 0 | .pending => 1 | .active => 2 | .activePending => 3 | .held => 4 | .latched => 5

/-- The MODE and BUSY checks of a `ROUTE` write (R385): the source must be IDLE, or the write must clear the enable of a PENDING or
HELD one. -/
def routeBusy (s : State) (n : Nat) (v : Int) : Nat :=
  let st := (s.ev.source n).state
  let off : Bool := v.toNat / 128 % 2 == 0
  refuseIf (!(st == .idle || (off && (st == .pending || st == .held)))) stBusy

/-- The collecting of target k starts afresh where no source is HELD for it any more. -/
def Ev.dropCollection (cfg : CfgEv) (k : Nat) (e : Ev) : Ev :=
  if (heldFor cfg e k).isEmpty then
    { e with targets := upd e.targets k fun t => { t with arrivals := 0, seen := 0, firstAt := none, fastSeen := false } }
  else e

/-- `ROUTE` of source n is written (R385): a disabled source is IDLE. -/
def routeWritten (n : Nat) (v : Int) (s : State) : State :=
  let held : Bool := (s.ev.source n).state == .held
  if v.toNat / 128 % 2 = 0 then
    let e := s.ev.setSrc n fun x => { x with state := .idle, relatch := false }
    { s with ev := if held then [0, 1, 2].foldl (fun e k => e.dropCollection s.cfg.ev k) e else e }
  else s

/-- `ROUTE` without its reserved bits (R14, R400). -/
def routeByte (v : Int) : BitVec 8 := BitVec.ofInt 8 v &&& 0xC7#8

/-- `ROUTE` of source n. -/
def routeEl (n : Nat) : Elem :=
  ((field n .u8 (fun c => (c.ev.route n).toNat) (fun v => refuseIf (decide (5 < v.toNat % 8)) stRange)
    (fun v c => { c with ev := { c.ev with routes := upd c.ev.routes n fun _ => routeByte v } })).lastly
      fun s v => routeBusy s n v).thenDo (routeWritten n)

/-- `COMPLETION_MODE` of core c. -/
def completionEl (c : Nat) : Elem :=
  fieldN 0 .u8 (fun k => nth k.ev.completionMode c 1) (within 0 1)
    (fun v k => { k with ev := { k.ev with completionMode := upd k.ev.completionMode c fun _ => v } })

/-- An element of a target's coalescing settings. -/
def targetN (k no : Nat) (ty : ElTy) (get : CfgTarget → Nat) (check : Int → Nat) (put : Nat → CfgTarget → CfgTarget) : Elem :=
  fieldN no ty (fun c => get (nth c.ev.targets k CfgTarget.reset)) check
    (fun v c => { c with ev := { c.ev with targets := upd c.ev.targets k (put v) } })

/-- `ALERT_ACK` of line k (R398, R402). -/
def ackRun (k : Nat) (_ : Int) (s : State) : Nat × State :=
  if (nth s.cfg.ev.targets k CfgTarget.reset).alertMode = 1 then (stMode, s)
  else (stOk, { s with ev := s.ev.ack s.cfg.ev k })

/-- Elements that HOST and the alert lines share (R402). -/
def targetEls (k : Nat) : List Elem :=
  [targetN k 0 .u8 (·.count) (fun _ => stOk) (fun v t => { t with count := v }),
   targetN k 1 .u32 (·.time) (fun v => if v = 0 then stOk else within 10 1000000 v) (fun v t => { t with time := v }),
   roN 2 .u16 (fun s => (heldFor s.cfg.ev s.ev k).length),
   roN 3 .u32 (fun s => (nth s.ev.targets k EvTarget.reset).deliveries)]

/-- Elements of the alert lines alone. -/
def alertEls (k : Nat) : List Elem :=
  [targetN k 5 .u8 (·.alertMode) (within 0 1) (fun v t => { t with alertMode := v }),
   command 6 .u8 (ackRun k), roB 7 (fun s => (nth s.ev.targets k EvTarget.reset).line),
   roN 8 .u16 (fun s => (latchedFor s.cfg.ev s.ev k).length)]

/-- One element for each event source. -/
def perSource (f : Nat → Elem) : Obj := { els := (List.range 256).map f }

/-- Objects of the area EV. -/
def objEv (obj : Nat) : Option Obj :=
  if 10 ≤ obj ∧ obj ≤ 12 then
    let c := obj - 10
    let k (s : State) : EvCore := nth s.ev.cores c EvCore.reset
    some { els := [
      completionEl c, roN 1 .u32 (fun s => (k s).stackWord), roN 2 .u32 (fun s => (k s).bad), roN 3 .u32 (fun s => (k s).nested),
      roN 4 .u32 (fun s => (k s).normalClaims), roN 5 .u32 (fun s => (k s).fastClaims)] }
  else match obj with
  | 0 => some (perSource routeEl)
  | 1 => some (perSource fun n => roN n .u8 fun _ => kindOf n)
  | 2 => some (perSource fun n => roN n .u8 fun s => (s.ev.source n).state.code)
  | 3 => some (perSource fun n => roB n fun s => kindOf n == 1 && (s.ev.source n).level)
  | 4 => some (perSource fun n => roN n .u32 fun s => (s.ev.source n).arrivals)
  | 5 => some (perSource fun n => roN n .u16 fun s => (s.ev.source n).vanished)
  | 6 => some (perSource fun n => roN n .u64 fun s => (s.ev.source n).lastAt)
  | 7 => some (perSource fun n => stickyEl n (fun s => (s.ev.source n).sticky) fun m s =>
      { s with ev := s.ev.setSrc n fun x => { x with sticky := clearBits m x.sticky } })
  | 20 => some { els := targetEls 0 ++ [roN 4 .u32 (·.ev.hostDeferred)] }
  | 21 => some { els := targetEls 1 ++ alertEls 1 }
  | 22 => some { els := targetEls 2 ++ alertEls 2 }
  | _ => none

end Sys2Proof.Machine
end

