-- ==== Sys2Proof/Machine/ObjTime.lean ====
section
/-! DEFINITION. The objects of the areas TB and PT (R271 to R280). -/

namespace Sys2Proof.Machine

/-! ## TB: timebases (R271, R272) -/

/-- Configuration with timebase k changed. -/
def Cfg.setTb (k : Nat) (f : CfgTb → CfgTb) (c : Cfg) : Cfg := { c with tb := upd c.tb k f }
/-- Configuration with domain i changed. -/
def Cfg.setDom (i : Nat) (f : CfgDom → CfgDom) (c : Cfg) : Cfg := { c with dom := upd c.dom i f }
/-- Configuration with the UTC values of timebase k changed. -/
def Cfg.setUtc (k : Nat) (f : CfgUtc → CfgUtc) (c : Cfg) : Cfg := { c with utc := upd c.utc k f }

/-- An element of timebase k. -/
def tbN (k no : Nat) (ty : ElTy) (get : CfgTb → Nat) (check : Int → Nat) (put : Nat → CfgTb → CfgTb) : Elem :=
  fieldN no ty (fun c => get (c.tbs k)) check fun v => Cfg.setTb k (put v)

/-- Object of timebase k's configuration (R272). -/
def objTimebase (k : Nat) : Obj :=
  { els := (
      [(tbN k 0 .u8 (·.channel) (within 0 7) fun v c => { c with channel := v }).as .rws,
       tbN k 1 .u16 (·.rateLimit) (nonzero 1 500) fun v c => { c with rateLimit := v },
       tbN k 2 .u32 (·.servoBw) (nonzero 10 100000) fun v c => { c with servoBw := v },
       tbN k 3 .u32 (·.discThreshold) (nonzero 50 1000000) fun v c => { c with discThreshold := v },
       tbN k 4 .u8 (·.discConfirm) (nonzero 2 16) fun v c => { c with discConfirm := v },
       tbN k 5 .u32 (·.recoverLimit) (nonzero 1000 1000000000) fun v c => { c with recoverLimit := v },
       tbN k 6 .u32 (·.slope) (nonzero 100 10000000) fun v c => { c with slope := v },
       tbN k 7 .u32 (·.taperRamp) (nonzero 10 100000) fun v c => { c with taperRamp := v },
       tbN k 8 .u8 (·.domainRevert) (within 0 1) fun v c => { c with domainRevert := v },
       tbN k 9 .u16 (·.holdAvg) (nonzero 1 3600) fun v c => { c with holdAvg := v },
       tbN k 10 .u8 (·.timescale) (within 0 1) fun v c => { c with timescale := v }] : List Elem).map
         (Elem.first fun s => refuseIf (s.isFenced (.tb k)) stFenced)
    cross := fun _ w c => !(w.contains 3 || w.contains 5) || decide ((c.tbs k).discThreshold ≤ (c.tbs k).recoverLimit) }

/-! ## TB: domains (R261, R271, R273) -/

/-- An element of domain i. -/
def domN (i no : Nat) (ty : ElTy) (get : CfgDom → Nat) (check : Int → Nat) (put : Nat → CfgDom → CfgDom) : Elem :=
  fieldN no ty (fun c => get (c.domi i)) check fun v => Cfg.setDom i (put v)

/-- BUSY while the domain's kind is not 0 (R271). -/
def domBusy (i : Nat) (s : State) (_ : Int) : Nat := refuseIf ((s.cfg.domi i).kind != 0) stBusy

/-- `TIME_REF` names a logical reference of kind GNSS (R271). -/
def timeRefOk (s : State) (v : Int) : Nat :=
  orElse (within 16 23 v) (refuseIf ((s.cfg.lref (v.toNat - 16)).kind != 0) stRange)

/-- The domain number of an instance enabled as PTP is unique among the active ones (R262). -/
def ptpDomainUnique (i : Nat) (c : Cfg) : Bool :=
  !((List.range 8).any fun j => j != i && (c.domi j).kind == 1 && (c.domi j).ptpDomain == (c.domi i).ptpDomain)

/-- Object of domain i's configuration (R273). -/
def objDomain (i : Nat) : Obj :=
  { els := [
      { domN i 0 .u8 (·.kind) (within 0 3) (fun v d => { d with kind := v }) with
          after := fun old _ => kindChanged i (old.cfg.domi i).kind },
      (domN i 1 .u8 (·.ptpDomain) (within 0 127) fun v d => { d with ptpDomain := v }).lastly (domBusy i),
      (domN i 2 .u8 (·.profile) (within 0 3) fun v d => { d with profile := v }).lastly (domBusy i),
      ({ domN i 3 .u8 (·.timeRef) (fun _ => stOk) (fun v d => { d with timeRef := v }) with own := timeRefOk }).lastly (domBusy i),
      domN i 4 .u16 (·.qualTime) (nonzero 2 600) fun v d => { d with qualTime := v },
      domN i 5 .u8 (·.quality) (within 0 15) fun v d => { d with quality := v }]
    cross := fun _ w c => !w.contains 0 || (c.domi i).kind != 1 || ptpDomainUnique i c }

/-! ## TB: UTC, status and commands (R244, R245, R274 to R276) -/

/-- An element of the UTC values: it reads the value in force and writes the written register, in force from the next
cycle on (R31, R245, see `takeSettings`). -/
def utcEl (k no : Nat) (ty : ElTy) (get : Utc → Int) (check : Int → Nat) (put : Int → Utc → Utc) : Elem :=
  { no := no, ty := ty, acc := .rw, get := fun s => get (s.tbs k).utc, own := fun _ v => check v,
    late := fun s _ => refuseIf ((s.cfg.utcs k).mode == 1) stMode,
    put := fun v => Cfg.setUtc k fun c => { c with written := put v c.written } }

/-- Object of timebase k's UTC values (R274). -/
def objUtc (k : Nat) : Obj :=
  { els := ([
      (fieldN 0 .u8 (fun c => (c.utcs k).mode) (within 0 1) (fun v => Cfg.setUtc k fun c => { c with mode := v })).thenDo
        fun _ => followUtc k,
      utcEl k 1 .i16 (·.offset) (fun _ => stOk) fun v u => { u with offset := v },
      utcEl k 2 .u8 (fun u => u.valid) (within 0 1) fun v u => { u with valid := v.toNat },
      utcEl k 3 .u8 (fun u => u.leap) (within 0 2) fun v u => { u with leap := v.toNat },
      utcEl k 4 .time80 (fun u => Time80.code u.leapAt) (fun _ => stOk) fun v u => { u with leapAt := decodeTime80 v }] : List Elem).map
        (Elem.first fun s => refuseIf (s.isFenced (.tb k)) stFenced) }

/-- Object of timebase k's status (R275). -/
def objTbStatus (k : Nat) : Obj :=
  { els := [
      roN 0 .u8 (fun s => (s.tbs k).state.code), roN 1 .u8 (fun s => (s.tbs k).active.getD 0xFF),
      roN 2 .u32 (fun s => (s.tbs k).epoch), ro 3 .time80 (fun s => Time80.code (nsToTime80 (s.tbs k).now.floor.toNat)),
      roN 4 .u16 (fun s => frac16 (s.tbs k).now), ro 5 .freq64 (fun s => toFreq64 (tbCorr (s.cfg.tbs k) (s.tbs k))),
      ro 6 .freq64 (fun s => toFreq64 (s.tbs k).cF), ro 7 .i64 (fun s => readInt (-(s.tbs k).taper.gap)),
      ro 8 .i32 (fun s => readInt (phaseTerm (s.tbs k) (s.tbs k).taper.slope)), ro 9 .i64 (fun s => (s.tbs k).lastStep),
      roN 10 .u64 (fun s => (s.tbs k).lastStepAt), roN 11 .u32 (fun s => (s.tbs k).switches),
      roB 12 (fun s => (s.tbs k).clamped), roN 13 .u64 (fun s => (s.tbs k).lastChange),
      roN 14 .u8 (fun s => (s.tbs k).restepState)] }

/-- State code of R276. -/
def DomState.code : DomState → Nat
  | .off => 0 | .noSource => 1 | .qualifying => 2 | .qualified => 3 | .discontinuous => 4

/-- Object of domain i's status (R276). -/
def objDomStatus (i : Nat) : Obj :=
  { els := [
      roN 0 .u8 (fun s => (s.domi i).state.code), roB 1 (fun s => (s.domi i).latch),
      ro 2 .i64 (fun s => match (s.domi i).theta with
        | some q => if (s.domi i).measures then readInt q else -9223372036854775808
        | none => -9223372036854775808),
      roN 3 .u8 (fun s => (s.domi i).rank), ro 4 .i64 (fun s => (s.domi i).stepSize), roN 5 .u32 (fun s => (s.domi i).outliers),
      roN 6 .u32 (fun s => (s.domi i).disconts), roN 7 .u64 (fun s => (s.domi i).lastChange)] }

/-- Objects of the area TB. -/
def objTb (obj : Nat) : Option Obj :=
  if obj < 4 then some (objTimebase obj)
  else if 10 ≤ obj ∧ obj < 18 then some (objDomain (obj - 10))
  else if 20 ≤ obj ∧ obj < 24 then some (objUtc (obj - 20))
  else if 30 ≤ obj ∧ obj < 34 then some (objTbStatus (obj - 30))
  else if 40 ≤ obj ∧ obj < 48 then some (objDomStatus (obj - 40))
  else if 50 ≤ obj ∧ obj < 54 then
    let k := obj - 50
    some { els := [
      command 0 .u8 (fun v => restepCommand k v.toNat), command 1 .u8 (fun v => clearDiscCommand k v.toNat),
      command 2 .time80 (fun v => writeLabel k (decodeTime80 v))] }
  else none

/-! ## PT: ports (R263, R270, R271, R277, R278) -/

/-- Configuration with port n changed. -/
def Cfg.setPort (n : Nat) (f : CfgPort → CfgPort) (c : Cfg) : Cfg := { c with pt := upd c.pt n f }

/-- An element of port n. -/
def ptN (n no : Nat) (ty : ElTy) (get : CfgPort → Nat) (check : Int → Nat) (put : Nat → CfgPort → CfgPort) : Elem :=
  fieldN no ty (fun c => get (c.port n)) check fun v => Cfg.setPort n (put v)

/-- BUSY while port n is enabled (R277). -/
def portBusy (n : Nat) (s : State) (_ : Int) : Nat := refuseIf ((s.cfg.port n).enable == 1) stBusy

/-- `ROLE` of port n for instance i (R263). -/
def roleEl (n i : Nat) : Elem :=
  { no := 8 + i, ty := .u8, acc := .rw, get := fun s => s.cfg.role n i,
    own := fun s v => refuseIf (roleRefused s n i v.toNat) stRange,
    put := fun v => Cfg.setPort n fun c => { c with roles := upd c.roles i fun _ => v.toNat } }

/-- Object of port n's configuration (R277). A disabled port has no link. -/
def objPort (n : Nat) : Obj :=
  { els := (
      [(ptN n 0 .u8 (·.enable) (within 0 1) fun v c => { c with enable := v }).thenDo
         fun v s => if v = 0 then linkChange n false false s else s,
       (ptN n 1 .u8 (·.rate) (if n < 12 then within 0 0 else within 1 3) fun v c => { c with rate := v }).lastly (portBusy n),
       (ptN n 2 .u8 (·.phyRole) (within 0 1) fun v c => { c with phyRole := v }).lastly (portBusy n),
       field 3 .i32 (fun c => (c.port n).asymmetry) (within (-1000000) 1000000)
         fun v => Cfg.setPort n fun c => { c with asymmetry := v },
       ptN n 4 .u8 (·.pdelayMode) (within 0 1) fun v c => { c with pdelayMode := v },
       ptN n 5 .u32 (·.staticLinkDelay) (within 0 1000000) fun v c => { c with staticLinkDelay := v }] ++
      (List.range 8).map (roleEl n)).map (Elem.first fun s => refuseIf (s.isFenced (.port n)) stFenced) }

/-- State code of R278. -/
def PortState.code : PortState → Nat
  | .disabled => 0 | .listening => 1 | .master => 2 | .slave => 3 | .passive => 4 | .transparent => 5

/-- `LINK_DELAY` (R278), ps: the mean path delay where the port is the SLAVE of a profile 0 instance. -/
def linkDelayShown (s : State) (n : Nat) : Rat :=
  match (List.range 8).find? fun i => instActive s i && profileOf s i == 0 && s.portState n i == .slave with
  | some i => (s.inst i).meanPath * 1000
  | none => linkDelayPs s n

/-- Object of port n's status (R278). -/
def objPortStatus (n : Nat) : Obj :=
  { els := [
      roB 0 (fun s => (s.port n).link), roN 1 .u32 (fun s => (s.port n).linkChanges),
      ro 2 .i64 (fun s => readInt (linkDelayShown s n)), ro 3 .freq64 (fun s => toFreq64 (s.port n).neighborRate),
      roN 4 .u32 (fun s => (s.port n).suppressed), roN 5 .u32 (fun s => (s.port n).rxDiscarded)] ++
      (List.range 8).map fun i => roN (8 + i) .u8 fun s => (s.portState n i).code }

/-! ## PT: instances (R279, R280) -/

/-- Configuration with instance i changed. -/
def Cfg.setInst (i : Nat) (f : CfgInst → CfgInst) (c : Cfg) : Cfg := { c with inst := upd c.inst i f }

/-- An element of instance i. -/
def instEl (i no : Nat) (ty : ElTy) (get : CfgInst → Int) (check : Int → Nat) (put : Int → CfgInst → CfgInst) : Elem :=
  field no ty (fun c => get (c.insts i)) check fun v => Cfg.setInst i (put v)

/-- Object of instance i's message settings (R279). -/
def objInst (i : Nat) : Obj :=
  { els := [
      instEl i 0 .i8 (·.logSync) (within (-7) 1) fun v c => { c with logSync := v },
      instEl i 1 .i8 (·.logAnnounce) (within (-3) 4) fun v c => { c with logAnnounce := v },
      instEl i 2 .u8 (fun c => c.announceTimeout) (nonzero 2 10) fun v c => { c with announceTimeout := v.toNat },
      instEl i 3 .u8 (fun c => c.syncTimeout) (nonzero 2 10) fun v c => { c with syncTimeout := v.toNat },
      instEl i 4 .i8 (·.logPdelay) (within (-3) 5) fun v c => { c with logPdelay := v },
      instEl i 5 .u8 (fun c => c.priority1) (fun _ => stOk) fun v c => { c with priority1 := v.toNat },
      instEl i 6 .u8 (fun c => c.priority2) (fun _ => stOk) fun v c => { c with priority2 := v.toNat }] }

/-- Object of instance i's status (R280). -/
def objInstStatus (i : Nat) : Obj :=
  { els := [
      roN 0 .u64 (fun s => (s.inst i).gmIdentity), roN 1 .u8 (fun s => (s.inst i).gmClass), roN 2 .u16 (fun s => (s.inst i).steps),
      roN 3 .u8 (fun s => (slavePort s i).getD 0xFF), roN 4 .u8 (fun s => (s.inst i).advClass),
      roN 5 .u8 (fun s => (s.inst i).advAcc), ro 6 .i16 (fun s => (s.inst i).rxUtcOffset),
      roN 7 .u32 (fun s => (s.inst i).gmChanges)] }

/-- Objects of the area PT. -/
def objPt (obj : Nat) : Option Obj :=
  if obj < 14 then some (objPort obj)
  else if 20 ≤ obj ∧ obj < 34 then some (objPortStatus (obj - 20))
  else if 40 ≤ obj ∧ obj < 48 then some (objInst (obj - 40))
  else if 50 ≤ obj ∧ obj < 58 then some (objInstStatus (obj - 50))
  else if obj = 60 then some { els := [roN 0 .u64 (·.nv.factory.clockIdentity), roN 1 .u64 (·.nv.factory.baseMac)] }
  else none

end Sys2Proof.Machine
end

