-- ==== Sys2Proof/Machine/ObjStore.lean ====
section
/-! DEFINITION. The objects of the areas NV and JR (R435 to R439), and the dictionary of R412. -/

namespace Sys2Proof.Machine

/-! ## NV (R435 to R438) -/

/-- Configuration with the interface settings changed. -/
def Cfg.setNv (f : CfgNv → CfgNv) (c : Cfg) : Cfg := { c with nv := f c.nv }

/-- An element of the interface settings. -/
def nvN (no : Nat) (ty : ElTy) (get : CfgNv → Nat) (check : Int → Nat) (put : Nat → CfgNv → CfgNv) : Elem :=
  fieldN no ty (fun c => get c.nv) check fun v => Cfg.setNv (put v)

/-- One of the identifier bases (R437): 29 bits, with bits [3:0] 0. -/
def nvBase (no : Nat) (get : CfgNv → Nat) (put : Nat → CfgNv → CfgNv) : Elem :=
  nvN no .u32 get (fun v => refuseIf (v % 16 != 0) stRange) fun v => put (v % 2 ^ 29)

/-- A write may not leave both interfaces closed (R424). -/
def someInterface (c : Cfg) : Bool := c.nv.dopPorts != 0 || c.nv.canEnable != 0

/-- A rate of a list; zero is refused as INVALID_ZERO (R424). -/
def rateOf (l : List Int) (v : Int) : Nat := if v = 0 then stZero else oneOf l v

/-- Objects of the area NV. -/
def objNv (obj : Nat) : Option Obj :=
  match obj with
  | 0 => some { els := [
      command 0 .u8 storeCommand, command 1 .u8 eraseCommand, roN 2 .u8 (·.nvc.storeState), roN 3 .u32 (·.nv.storeCount),
      roN 4 .u64 (·.nvc.lastStore)] }
  | 1 => some { els := [
      roN 0 .u32 (fun s => configSequence s.nv), roN 1 .u16 (·.nv.spareBlocks), roN 2 .u32 (·.nvc.refreshDue),
      roN 3 .u64 (·.nv.lastRefresh), roN 4 .u32 (·.nv.eraseMax)] }
  | 10 => some { els := [
      { no := 0, ty := .blob, acc := .rw, image := fun s => (nth s.nv.slots (inactiveSlot s) FwSlot.reset).image,
        load := loadFirmware, opening := fun s => refuseIf s.pwr.pfail stBusy, opened := openFirmware },
      roN 1 .u32 (fun s => (nth s.nv.slots 0 FwSlot.reset).version), roN 2 .u32 (fun s => (nth s.nv.slots 1 FwSlot.reset).version),
      roN 3 .u8 slotStates, roN 4 .u8 (·.nv.nextSlot), command 5 .u8 activateCommand] }
  | 20 => some {
      els := [
        nvN 0 .u32 (·.ipv4) (fun _ => stOk) fun v c => { c with ipv4 := v },
        nvN 1 .u8 (·.pfx) (nonzero 8 30) fun v c => { c with pfx := v },
        fieldBits 2 .u16 14 (·.nv.dopPorts.toNat) (fun v => Cfg.setNv fun c => { c with dopPorts := BitVec.ofNat 16 v }),
        roN 3 .u32 (·.dop.addressInUse)]
      cross := fun _ w c => !w.contains 2 || someInterface c }
  | 21 => some {
      els := [
        fieldBits 0 .u8 2 (·.nv.canEnable.toNat) (fun v => Cfg.setNv fun c => { c with canEnable := BitVec.ofNat 8 v }),
        nvN 1 .u32 (·.nominalRate) (rateOf [250000, 500000, 1000000]) fun v c => { c with nominalRate := v },
        nvN 2 .u32 (·.dataRate) (rateOf [1000000, 2000000, 4000000, 5000000]) fun v c => { c with dataRate := v },
        nvBase 3 (·.reqBase) fun v c => { c with reqBase := v }, nvBase 4 (·.rspBase) fun v c => { c with rspBase := v },
        nvBase 5 (·.evtBase) fun v c => { c with evtBase := v }]
      cross := fun _ w c => (!w.contains 0 || someInterface c) && (!(w.any fun e => 3 ≤ e) || identOk c) }
  | 30 => some { els := [
      roN 0 .u32 (·.dop.requests), roN 1 .u32 (·.dop.discarded), roN 2 .u32 (·.dop.queueDrops), roN 3 .u32 (·.dop.cachedReplies),
      roN 4 .u8 (·.dop.subs.length), roN 5 .u8 (fun s => match s.ts.stream with | some x => x.iface | none => 0xFF),
      roN 6 .u32 (·.dop.eventPackets)] }
  | _ => none

/-! ## JR (R439) -/

/-- Objects of the area JR. -/
def objJr (obj : Nat) : Option Obj :=
  match obj with
  | 0 => some { els := [
      roBlob 0 journalImage, roN 1 .u16 (fun s => s.jr.recs.length), roN 2 .u64 firstIndex, roN 3 .u64 (·.jr.next),
      roN 4 .u16 (·.jr.unflushed)] }
  | _ => none

/-! ## The dictionary (R412, R440) -/

/-- The object that an area and a number name; none where the area, the object or the instance does not exist (R6, R412). While the
MGT core runs its boot ROM only SY, PW, FC and JR exist. -/
def objectAt (s : State) (area obj : Nat) : Option Obj :=
  match area with
  | 0x01 => objSy obj
  | 0x02 => objPw obj
  | 0x03 => objFc obj
  | 0x51 => objJr obj
  | _ =>
    if s.md.bootRom then none
    else match area with
      | 0x04 => objEv obj
      | 0x10 => objRf obj
      | 0x11 => objDp obj
      | 0x12 => objLn obj
      | 0x13 => objSn obj
      | 0x14 => objOu obj
      | 0x20 => objTb obj
      | 0x21 => objPt obj
      | 0x30 => objTs obj
      | 0x31 => objTc obj
      | 0x40 => objAx obj
      | 0x41 => objSc obj
      | 0x50 => objNv obj
      | _ => none

/-- The element of an object with a number. -/
def Obj.find (o : Obj) (n : Nat) : Option Elem := o.els.find? fun e => e.no == n

end Sys2Proof.Machine
end

