-- ==== Sys2Proof/Machine/Dop.lean ====
section
/-! DEFINITION. The Dvorim Object Protocol (R403 to R423) and the passing of a request to another core (R461). -/

namespace Sys2Proof.Machine

/-! ## Interfaces, keys, frames (R403, R404, R408) -/

/-- The interface is a CAN channel. -/
abbrev onCan (iface : Nat) : Bool := decide (14 ≤ iface)

/-- The three interfaces of R403: Ethernet as a whole is 0. -/
def ifaceClass (iface : Nat) : Nat := if onCan iface then iface else 0

/-- SEQ as the interface carries it (R408). -/
def seqOf (r : Requester) : Nat := if onCan r.iface then r.seq % 256 else r.seq % 65536

/-- Data bytes of a segment, S (R418). -/
def segmentSize (iface : Nat) : Nat := if onCan iface then 54 else 1024

/-- Greatest payload of a frame (R404, R408): on CAN FD two bytes of a segment are its number. -/
def payloadLimit (iface : Nat) (segFlag : Bool) : Nat := if onCan iface then (if segFlag then 54 else 56) else 1024

/-- FLAGS of a frame (R404). -/
def flagsOf (response segFlag : Bool) (reserved : Nat) : Nat := b2n response * 128 + b2n segFlag * 64 + reserved % 64

/-- Header and payload of an Ethernet request (R404), over which its CRC-32 runs. -/
def frameBytes (r : Requester) (f : Frame) : List Byte :=
  natBytes 2 f.magic ++ natBytes 1 r.version ++ natBytes 1 f.opcode ++ natBytes 2 r.seq ++ natBytes 1 f.status
    ++ natBytes 1 (flagsOf f.response f.segFlag f.reserved) ++ natBytes 4 f.address ++ natBytes 2 f.length ++ natBytes 2 f.segment
    ++ f.payload.take f.length

/-- What of a request its header and payload say (R410): padding and CRC left out. -/
def canonFrame (f : Frame) : Frame := { f with payload := f.payload.take f.length, crc := 0, whole := true }

/-- A request as a host builds it: `segment` where it belongs to a segmented transfer. -/
def mkFrame (r : Requester) (opcode address : Nat) (segment : Option Nat) (payload : List Byte) : Frame :=
  let f : Frame :=
    { Frame.blank with opcode := opcode, address := address, segFlag := segment.isSome, segment := segment.getD 0,
                       length := payload.length, payload := payload }
  { f with crc := crc32 (frameBytes r f) }

/-- DOP is served (R33, R83, R87): the MGT core runs, and not in STANDBY. -/
def dopUp (s : State) : Bool := s.runs 0 && s.md.mode != .standby

/-- The frame reaches the MGT core: its port has a link, or its identifier is one of the channel's sixteen (R407). -/
def arrives (s : State) (r : Requester) : Bool :=
  dopUp s && (if onCan r.iface then (r.iface == 0x40 || r.iface == 0x41) && decide (r.source < 16) else (s.port r.iface).link)

/-- The interface serves DOP (R403, R437): by the settings in force since the last start. -/
def serves (s : State) (iface : Nat) : Bool :=
  if onCan iface then bit8 s.dop.active.canEnable (iface - 0x40) else s.dop.active.dopPorts.getLsbD iface

/-- The discard tests of R405. -/
def discards (s : State) (r : Requester) (f : Frame) : Bool :=
  (!onCan r.iface && (f.magic != 0x4456 || f.crc != crc32 (frameBytes r f)))
    || !f.whole || decide (f.payload.length < f.length) || decide (payloadLimit r.iface f.segFlag < f.length)
    || !(decide (1 ≤ f.opcode) && decide (f.opcode ≤ 6)) || f.response || !serves s r.iface

/-! ## Responses (R403, R406, R410) -/

/-- A frame goes out on its interface; a port without link sends nothing. -/
def emit (r : Requester) (version opcode seq status flags address segment : Nat) (payload : List Byte) (s : State) : State :=
  if onCan r.iface || (s.port r.iface).link then
    send (.dop r.iface r.source r.sport r.mac version opcode seq status (BitVec.ofNat 8 flags) address segment payload) s
  else s

/-- The response to a request: the same OPCODE, SEQ, ADDRESS and SEGMENT, with RESPONSE set. -/
def respond (r : Requester) (f : Frame) (version status : Nat) (payload : List Byte) (s : State) : State :=
  emit r version f.opcode (seqOf r) status (flagsOf true f.segFlag 0) f.address f.segment payload s

/-- The kept response of a request. -/
def cacheEntry (r : Requester) (f : Frame) (version status : Nat) (payload : List Byte) (now : Nat) : CacheEnt :=
  { atNs := now, iface := ifaceClass r.iface, source := r.source, sport := r.sport, request := canonFrame f, reqVersion := r.version,
    seq := seqOf r, status := status, rversion := version, payload := payload }

/-- A request is answered, and the response kept among the last 64 (R410). -/
def answer (r : Requester) (f : Frame) (version status : Nat) (payload : List Byte) (s : State) : State :=
  respond r f version status payload
    { s with dop := { s.dop with cache := (cacheEntry r f version status payload s.clk.count :: s.dop.cache).take 64 } }

/-- The kept response that a request repeats (R410). -/
def cached (s : State) (r : Requester) (f : Frame) : Option CacheEnt :=
  s.dop.cache.find? fun e =>
    e.iface == ifaceClass r.iface && e.source == r.source && e.sport == r.sport
      && e.seq == seqOf r && e.reqVersion == r.version && e.request == canonFrame f

/-- Whether a response of that age is still kept: within 2 s it is; beyond, the spec leaves it open (R410). -/
def stillKept (s : State) (e : CacheEnt) : Bool := decide (s.clk.count < e.atNs + 2000000000) || Config.freeBool s.free

/-! ## The journal of requests (R430, R431) -/

/-- The journal record of a request that completed with OK. -/
def requestRecord (r : Requester) (kind opcode address type size : Nat) (old new : List Byte) : JRec :=
  { JRec.reset with
    kind := kind, iface := r.iface, opcode := opcode, address := address, source := r.source, sourcePort := r.sport,
    type := type, size := size, old := old, new := new }

/-- The ADDRESS of an element of the object that a request names. -/
def elementAddress (address el : Nat) : Nat := addrWord (areaOf address) (objectOf address) el

/-! ## The checks of R416 -/

/-- The opcode writes or commands. -/
abbrev changes (opcode : Nat) : Bool := opcode == 2 || opcode == 4 || opcode == 5

/-- The two addresses of R421, bits [3:0] apart. -/
abbrev eventAddress : Nat := addrWord 0x04 0 0
/-- The address of the capture stream. -/
abbrev streamAddress : Nat := addrWord 0x30 200 0

/-- An ADDRESS without its reserved bits (R14, R412). -/
abbrev plainAddress (a : Nat) : Nat := elementAddress a (elementOf a)

/-- Step 5: the access class (R414). -/
def accessStatus (f : Frame) (acc : Access) : Nat :=
  let writable : Bool := acc == .rw || acc == .rws || acc == .seal
  let ok : Bool :=
    if f.opcode = 1 ∨ f.opcode = 3 then acc != .cmd
    else if f.opcode = 2 ∨ f.opcode = 4 then writable
    else if f.opcode = 5 then acc == .cmd
    else plainAddress f.address == eventAddress || plainAddress f.address == streamAddress
  refuseIf (!ok) stAccess

/-- Step 6: LENGTH, BLOBs and the SEGMENT flag (R416, R421). -/
def typeStatus (f : Frame) (ty : ElTy) : Nat :=
  let block : Bool := f.opcode == 3 || f.opcode == 4
  let bad : Bool :=
    f.segFlag != block
      || ((f.opcode == 1 || f.opcode == 2) && ty == .blob)
      || (f.opcode == 1 && f.length != 0)
      || ((f.opcode == 2 || f.opcode == 5) && f.length != ty.size)
      || (f.opcode == 6 && f.length != (if plainAddress f.address = eventAddress then 34 else 2))
  refuseIf bad stType

/-- Step 7: the mode tests of the access class (R414). -/
def modeStatus (s : State) (acc : Access) : Nat :=
  match acc with
  | .rws => refuseIf (s.md.mode == .tracking || s.md.mode == .holdover) stMode
  | .seal => refuseIf (!(s.md.mode == .startup && !s.md.sealed)) stSealed
  | _ => stOk

/-- The core that a request is passed to is fenced (R461). -/
def viaFenced (s : State) (via : Nat) : Nat := refuseIf (via != 0 && s.core via == .fenced) stFenced

/-- The configuration with every value of a write in it. -/
def putAll (l : List (Elem × Int)) (c : Cfg) : Cfg := l.foldl (fun c p => p.1.put p.2 c) c

/-- The numbers of the written elements. -/
def numbersOf (l : List (Elem × Int)) : List Nat := l.map fun p => p.1.no

/-- Step 9 for a WRITE: FENCED, INVALID_ZERO and RANGE, the cross-field rules, then MODE and BUSY. -/
def checkOne (o : Obj) (e : Elem) (v : Int) (s : State) : Nat :=
  let c := e.put v s.cfg
  orElse (e.own { s with cfg := c } v) (orElse (refuseIf (!o.cross s [e.no] c) stRange) (e.late s v))

/-- Step 9 for a WRITE_BLOCK (R418): each element's own checks in order, then the cross-field rules. -/
def checkBlock (o : Obj) (l : List (Elem × Int)) (s : State) : Nat :=
  let c := putAll l s.cfg
  orElse (l.foldl (fun st p => orElse st (orElse (p.1.own { s with cfg := c } p.2) (p.1.late s p.2))) stOk)
    (refuseIf (!o.cross s (numbersOf l) c) stRange)

/-- An accepted write takes effect whole (R32, R411). -/
def applyWrite (l : List (Elem × Int)) (s : State) : State :=
  l.foldl (fun t p => p.1.after s p.2 t) { s with cfg := putAll l s.cfg }

/-- The journal records of an accepted write, one for each element (R430). -/
def journalWrite (r : Requester) (f : Frame) (l : List (Elem × Int)) (old s : State) : State :=
  l.foldl (fun t p =>
    record (requestRecord r 0 f.opcode (elementAddress f.address p.1.no) p.1.ty.code p.1.ty.size
      (rightAlign (p.1.ty.encode (p.1.get old))) (rightAlign (p.1.ty.encode p.2))) t) s

/-! ## Passing a request to another core (R461) -/

/-- The request waits for the other core's confirmation. -/
def waitRelay (r : Requester) (f : Frame) (via : Nat) (s : State) : State :=
  { s with dop := { s.dop with relays := s.dop.relays ++ [{ req := r, frame := f, core := via, since := s.clk.count }] } }

/-- A checked request is served by the core it is passed to: at once where that core runs; FENCED where it is fenced; else it waits. -/
def handOver (r : Requester) (f : Frame) (via : Nat) (served : State → Nat × State) (s : State) : Nat × List Byte × State :=
  if via = 0 ∨ s.runs via then
    let (st, s') := served s
    (st, [], s')
  else if s.core via = .fenced then (stFenced, [], s)
  else (stWait, [], waitRelay r f via s)

/-! ## WRITE and COMMAND (R417) -/

/-- A checked write of elements: applied and journalled. -/
def commitWrite (r : Requester) (f : Frame) (l : List (Elem × Int)) (s : State) : Nat × State :=
  (stOk, journalWrite r f l s (applyWrite l s))

/-- WRITE of one element. -/
def writeOne (r : Requester) (f : Frame) (o : Obj) (e : Elem) (s : State) : Nat × List Byte × State :=
  let v := e.ty.decode (f.payload.take f.length)
  let st := orElse (viaFenced s e.via) (checkOne o e v s)
  if st = 0 then handOver r f e.via (commitWrite r f [(e, v)]) s else (st, [], s)

/-- A command's status and effect; with OK it is journalled, its OLD being 0. A `SLEEP` under way keeps its requester. -/
def runCommand (r : Requester) (f : Frame) (e : Elem) (v : Int) (s : State) : Nat × State :=
  let (st, s') := e.run v s
  if st = stWait then
    (st, { s' with md := { s'.md with sleep := s'.md.sleep.map fun q => { q with req := r, frame := f } } })
  else if st = 0 then
    (st, record (requestRecord r 1 f.opcode (plainAddress f.address) e.ty.code e.ty.size [] (rightAlign (e.ty.encode v))) s')
  else (st, s')

/-- COMMAND. -/
def commandOne (r : Requester) (f : Frame) (e : Elem) (s : State) : Nat × List Byte × State :=
  let v := e.ty.decode (f.payload.take f.length)
  let st := orElse (e.own s v) (e.late s v)
  if st = 0 then handOver r f e.via (runCommand r f e v) s else (st, [], s)

/-! ## Segmented writes (R418, R419) -/

/-- The transfer belongs to the request's interface, host and ADDRESS. -/
def WXfer.sameKey (x : WXfer) (r : Requester) (a : Nat) : Bool :=
  x.iface == ifaceClass r.iface && x.source == r.source && x.sport == r.sport && x.address == a

/-- The read transfer belongs to the request's interface, host and ADDRESS. -/
def RXfer.sameKey (x : RXfer) (r : Requester) (a : Nat) : Bool :=
  x.iface == ifaceClass r.iface && x.source == r.source && x.sport == r.sport && x.address == a

/-- The request's transfer ends. -/
def endWrite (r : Requester) (a : Nat) (s : State) : State :=
  { s with dop := { s.dop with wx := s.dop.wx.filter fun x => !x.sameKey r a } }

/-- A FIRMWARE write ends without its check: its slot is invalid; source 254 (R429, R434). -/
def interruptFirmware (s : State) : State := raise 254 (dropFirmware s)

/-- The request's transfer is discarded. -/
def discardWrite (r : Requester) (a : Nat) (s : State) : State :=
  if s.dop.wx.any (fun x => x.sameKey r a) then
    (if a = firmwareAddress then interruptFirmware (endWrite r a s) else endWrite r a s)
  else s

/-- The values that data carry for consecutive elements, the elements covered, and whether the data end on a boundary inside the
object (R418). -/
def splitBlock : List Elem → List Byte → List (Elem × Int) × List Elem × Bool
  | _, [] => ([], [], true)
  | [], _ :: _ => ([], [], false)
  | e :: rest, b :: data =>
    if e.ty = .blob ∨ (b :: data).length < e.ty.size then ([], [e], false)
    else
      let (vs, cs, ok) := splitBlock rest ((b :: data).drop e.ty.size)
      ((e, e.ty.decode ((b :: data).take e.ty.size)) :: vs, e :: cs, ok)

/-- The end of a WRITE_BLOCK on elements (R418): checked as one write, applied whole. -/
def finishBlock (r : Requester) (f : Frame) (o : Obj) (e : Elem) (data : List Byte) (s : State) : Nat × List Byte × State :=
  let (vs, cs, ok) := splitBlock (o.els.dropWhile fun x => x.no != e.no) data
  let st := orElse (refuseIf (cs.any fun x => x.ty == .blob || x.acc == .cmd || x.acc == .ro) stAccess)
    (orElse (refuseIf (!ok || data.isEmpty) stType)
      (orElse (cs.foldl (fun st x => orElse st (modeStatus s x.acc)) stOk)
        (orElse (viaFenced s e.via) (checkBlock o vs s))))
  if st = 0 then handOver r f e.via (commitWrite r f vs) s else (st, [], s)

/-- A complete BLOB is loaded; with OK it is journalled by length and CRC-32 (R430, R431). -/
def loadBlob (r : Requester) (f : Frame) (e : Elem) (data : List Byte) (s : State) : Nat × State :=
  let (st, s') := e.load data s
  if st = 0 then
    (st, record (requestRecord r 2 f.opcode (plainAddress f.address) e.ty.code 10 (blobMark (e.image s)) (blobMark data)) s')
  else (st, s')

/-- The end segment of a write transfer. -/
def finishWrite (r : Requester) (f : Frame) (o : Obj) (e : Elem) (data : List Byte) (s : State) : Nat × List Byte × State :=
  if e.ty = .blob then
    (if viaFenced s e.via = 0 then handOver r f e.via (loadBlob r f e data) s else (stFenced, [], s))
  else finishBlock r f o e data s

/-- Why segment 0 of a write is BUSY (R419): another host writes there, or the BLOB is being read. -/
def openRefused (r : Requester) (a : Nat) (e : Elem) (s : State) : Nat :=
  refuseIf (s.dop.wx.any (fun x => x.address == a && !x.sameKey r a) || (e.ty == .blob && s.dop.rx.any fun x => x.address == a)) stBusy

/-- Segment 0 of a write transfer. -/
def openWrite (r : Requester) (f : Frame) (o : Obj) (e : Elem) (s : State) : Nat × List Byte × State :=
  let a := plainAddress f.address
  let data := f.payload.take f.length
  let st := orElse (openRefused r a e s) (e.opening s)
  if st ≠ 0 then (st, [], s)
  else
    let s1 := discardWrite r a s
    if data.isEmpty then finishWrite r f o e [] s1
    else
      let x : WXfer :=
        { iface := ifaceClass r.iface, source := r.source, sport := r.sport, address := a, lastSeg := 0, atNs := s.clk.count,
          data := data }
      (stOk, [], e.opened { s1 with dop := { s1.dop with wx := s1.dop.wx ++ [x] } })

/-- A segment of a write transfer (R419). -/
def writeSegment (r : Requester) (f : Frame) (o : Obj) (e : Elem) (s : State) : Nat × List Byte × State :=
  let a := plainAddress f.address
  let data := f.payload.take f.length
  if f.segment = 0 then openWrite r f o e s
  else
    match s.dop.wx.find? fun x => x.sameKey r a with
    | none => (stSegment, [], s)
    | some x =>
      if f.segment ≠ x.lastSeg + 1 then (stSegment, [], discardWrite r a s)
      else if e.opening s ≠ 0 then (e.opening s, [], s)
      else if data.isEmpty then finishWrite r f o e x.data (endWrite r a s)
      else
        let x' := { x with lastSeg := f.segment, atNs := s.clk.count, data := x.data ++ data }
        (stOk, [], { s with dop := { s.dop with wx := s.dop.wx.map fun y => if y.sameKey r a then x' else y } })

/-! ## Segmented reads (R418, R420) -/

/-- The bytes of a block read: the element and those after it, without CMD and BLOB elements (R418). -/
def blockImage (o : Obj) (e : Elem) (s : State) : List Byte :=
  ((o.els.dropWhile fun x => x.no != e.no).filter fun x => x.ty != .blob && x.acc != .cmd).flatMap fun x => x.ty.encode (x.get s)

/-- `JOURNAL` and `FIRMWARE`, of which one readout at most is open (R420). -/
def readouts : List Nat := [addrWord 0x51 0 0, firmwareAddress]

/-- Read segment n of a snapshot is served; the end segment releases the snapshot. -/
def serveSegment (r : Requester) (n : Nat) (x : RXfer) (s : State) : Nat × List Byte × State :=
  let size := segmentSize r.iface
  let chunk := (x.data.drop (n * size)).take size
  let others := s.dop.rx.filter fun y => !y.sameKey r x.address
  let x' := { x with lastSeg := n, atNs := s.clk.count }
  (stOk, chunk, { s with dop := { s.dop with rx := if chunk.isEmpty then others else others ++ [x'] } })

/-- A segment of a read transfer. -/
def readSegment (r : Requester) (f : Frame) (o : Obj) (e : Elem) (s : State) : Nat × List Byte × State :=
  let a := plainAddress f.address
  if f.segment = 0 then
    let others := s.dop.rx.filter fun y => !y.sameKey r a
    if 4 ≤ others.length ∨ (readouts.contains a ∧ others.any fun y => readouts.contains y.address) then (stBusy, [], s)
    else
      serveSegment r 0
        { iface := ifaceClass r.iface, source := r.source, sport := r.sport, address := a, lastSeg := 0, atNs := s.clk.count,
          data := if e.ty = .blob then e.image s else blockImage o e s } s
  else
    match s.dop.rx.find? fun y => y.sameKey r a with
    | none => (stSegment, [], s)
    | some x => if f.segment = x.lastSeg ∨ f.segment = x.lastSeg + 1 then serveSegment r f.segment x s else (stSegment, [], s)

/-! ## SUBSCRIBE (R421) -/

/-- The subscription belongs to the request's interface and host. -/
def Sub.sameKey (x : Sub) (r : Requester) : Bool :=
  ifaceClass x.req.iface == ifaceClass r.iface && x.req.source == r.source && x.req.sport == r.sport

/-- SUBSCRIBE to event messages. -/
def subscribeEvents (r : Requester) (lease : Nat) (mask : BitVec 256) (s : State) : Nat × List Byte × State :=
  let others := s.dop.subs.filter fun x => !x.sameKey r
  let ends := s.clk.count + lease * 1000000000
  if lease ≠ 0 ∧ 8 ≤ others.length then (stBusy, [], s)
  else if 3600 < lease then (stRange, [], s)
  else if lease = 0 then (stOk, [], { s with dop := { s.dop with subs := others } })
  else
    let subs := match s.dop.subs.find? fun x => x.sameKey r with
      | some x => s.dop.subs.map fun y => if y.sameKey r then { x with req := r, mask := mask, ends := ends } else y
      | none => s.dop.subs ++ [{ req := r, mask := mask, ends := ends, seq := 0 }]
    (stOk, [], { s with dop := { s.dop with subs := subs } })

/-- The open stream is the requester's. -/
def Stream.sameKey (x : Stream) (r : Requester) : Bool := x.source == r.source && x.sport == r.sport

/-- SUBSCRIBE to the capture stream. -/
def subscribeStream (r : Requester) (lease : Nat) (s : State) : Nat × List Byte × State :=
  let ends := s.clk.count + lease * 1000000000
  let mine : Bool := match s.ts.stream with | some x => x.sameKey r | none => false
  if onCan r.iface then (stAccess, [], s)
  else if lease ≠ 0 ∧ s.ts.stream.isSome ∧ !mine then (stBusy, [], s)
  else if s.isFenced .streamer then (stFenced, [], s)
  else if 3600 < lease then (stRange, [], s)
  else if lease = 0 then (stOk, [], if mine then { s with ts := s.ts.closeStream } else s)
  else
    let new : Stream :=
      { iface := r.iface, source := r.source, sport := r.sport, mac := r.mac, version := r.version, ends := ends, seq := 0 }
    match s.ts.stream with
    | some x => (stOk, [], { s with ts := { s.ts with stream := some { new with seq := x.seq } } })
    | none => (stOk, [], { s with ts := s.ts.openStream s.clk.count s.tb new })

/-- SUBSCRIBE. -/
def subscribe (r : Requester) (f : Frame) (s : State) : Nat × List Byte × State :=
  let data := f.payload.take f.length
  let lease := bytesNat (data.take 2)
  if plainAddress f.address = eventAddress then subscribeEvents r lease (BitVec.ofNat 256 (bytesNat (data.drop 2))) s
  else subscribeStream r lease s

/-! ## Serving a request (R405, R410, R416) -/

/-- A request that has passed steps 1 to 7. -/
def perform (r : Requester) (f : Frame) (o : Obj) (e : Elem) (s : State) : Nat × List Byte × State :=
  match f.opcode with
  | 1 => (stOk, e.ty.encode (e.get s), s)
  | 2 => writeOne r f o e s
  | 3 => readSegment r f o e s
  | 4 => writeSegment r f o e s
  | 5 => commandOne r f e s
  | _ => subscribe r f s

/-- Steps 4 to 7 of R416. -/
def admitStatus (f : Frame) (e : Elem) (s : State) : Nat :=
  orElse (refuseIf (changes f.opcode && s.md.mode == .safe) stSafe)
    (orElse (accessStatus f e.acc)
      (orElse (typeStatus f e.ty) (if f.opcode = 2 ∨ f.opcode = 4 then modeStatus s e.acc else stOk)))

/-- Steps 3 to 9 of R416: status, payload and the state after. -/
def dispatch (tweak : Elem → Elem) (r : Requester) (f : Frame) (s : State) : Nat × List Byte × State :=
  match objectAt s (areaOf f.address) (objectOf f.address) with
  | none => (stUnknown, [], s)
  | some o =>
    match o.find (elementOf f.address) with
    | none => (stUnknown, [], s)
    | some e0 =>
      let e := tweak e0
      let st := admitStatus f e s
      if st = 0 then perform r f o e s else (st, [], s)

/-- A request is executed and, but where it waits, answered (R409). -/
def execute (tweak : Elem → Elem) (r : Requester) (f : Frame) (s : State) : Nat × State :=
  let s1 := { s with dop := { s.dop with requests := s.dop.requests + 1 } }
  if r.version ≠ 1 then (stRange, answer r f 1 stRange [] s1)
  else
    let (st, payload, s2) := dispatch tweak r f s1
    if st = stWait then (st, s2) else (st, answer r f 1 st payload s2)

/-- The status that stands for no response. -/
abbrev stSilent : Nat := 0x200

/-- A discarded frame (R405): source 253. -/
def discardFrame (s : State) : State := raise 253 { s with dop := { s.dop with discarded := s.dop.discarded + 1 } }

/-- A frame arrives: discarded, answered from the kept responses, or executed. -/
def receive (tweak : Elem → Elem) (r : Requester) (f : Frame) (s : State) : Nat × State :=
  if !arrives s r then (stSilent, s)
  else if discards s r f then (stSilent, discardFrame s)
  else if 32 ≤ s.dop.relays.length then
    (stSilent, raise 253 { s with dop := { s.dop with queueDrops := s.dop.queueDrops + 1 } })
  else
    match cached s r f with
    | some e =>
      let s1 := { s with free := s.free + 1 }
      if stillKept s e then
        (stSilent, respond r f e.rversion e.status e.payload
          { s1 with dop := { s1.dop with cachedReplies := s1.dop.cachedReplies + 1 } })
      else execute tweak r f s1
    | none => execute tweak r f s

/-- A frame arrives. -/
def serve (r : Requester) (f : Frame) (s : State) : State := (receive id r f s).2

/-- A WRITE of one element. -/
def serveWrite (r : Requester) (address size : Nat) (v : Int) (s : State) : State :=
  serve r (mkFrame r 2 address none (intBytes size v)) s

/-- A COMMAND. -/
def serveCommand (r : Requester) (address size : Nat) (v : Int) (s : State) : State :=
  serve r (mkFrame r 5 address none (intBytes size v)) s

/-- The pieces of an image, each with its segment number. -/
def segmentsOf (size : Nat) (image : List Byte) : List (Nat × List Byte) :=
  let k := (image.length + size - 1) / size
  (List.range k).map (fun i => (i, (image.drop (i * size)).take size)) ++ [(k, [])]

/-- A whole BLOB write (R419): segments with rising SEQ, each sent once the one before has been accepted. -/
def serveBlob (r : Requester) (address : Nat) (image : List Byte) (s : State) : State :=
  ((segmentsOf (segmentSize r.iface) image).foldl (fun (a : Nat × State) p =>
    if a.1 = 0 then
      let q := { r with seq := r.seq + p.1 }
      receive id q (mkFrame q 4 address (some p.1) p.2) a.2
    else a) (0, s)).2

/-! ## Relays, transfers and leases that end (R419 to R421, R461) -/

/-- A relay is withdrawn or refused: its requester is answered. -/
def endRelay (status : Nat) (s : State) (x : Relay) : State := if dopUp s then answer x.req x.frame 1 status [] s else s

/-- RELAY_TIMEOUT (R461): requests handed over 10 ms ago are withdrawn with BUSY. -/
def relayTimeout (s : State) : State :=
  let late (x : Relay) : Bool := decide (x.since + 10000000 ≤ s.clk.count)
  (s.dop.relays.filter late).foldl (endRelay stBusy)
    { s with dop := { s.dop with relays := s.dop.relays.filter fun x => !late x } }

/-- Requests waiting for a core that has been fenced complete with FENCED (R461). -/
def settleRelays (s : State) : State :=
  let gone (x : Relay) : Bool := s.core x.core == .fenced
  (s.dop.relays.filter gone).foldl (endRelay stFenced)
    { s with dop := { s.dop with relays := s.dop.relays.filter fun x => !gone x } }

/-- TRANSFER_TIMEOUT (R419, R420): transfers with no segment for 5 s are discarded. -/
def transferTimeout (s : State) : State :=
  let old (t : Nat) : Bool := decide (t + 5000000000 ≤ s.clk.count)
  let fw : Bool := s.dop.wx.any fun x => old x.atNs && x.address == firmwareAddress
  let s1 := { s with dop :=
    { s.dop with wx := s.dop.wx.filter (fun x => !old x.atNs), rx := s.dop.rx.filter fun x => !old x.atNs } }
  if fw then interruptFirmware s1 else s1

/-- LEASE_EXPIRY (R421): subscriptions and the stream whose leases have ended close. -/
def leaseExpiry (s : State) : State :=
  let ended : Bool := match s.ts.stream with | some x => decide (x.ends ≤ s.clk.count) | none => false
  { s with
    dop := { s.dop with subs := s.dop.subs.filter fun x => decide (s.clk.count < x.ends) },
    ts := if ended then s.ts.closeStream else s.ts }

/-! ## Packets of the module's own (R422, R423) -/

/-- Delivery records of one event message (R422). -/
def recordsPerMessage (iface : Nat) : Nat := if onCan iface then 3 else 64

/-- SEQ after one more packet (R422). -/
def nextPacketSeq (iface seq : Nat) : Nat := (seq + 1) % (if onCan iface then 256 else 65536)

/-- One event message to the subscriber at index k. -/
def sendEvents (k : Nat) (l : List DRec) (s : State) : State :=
  match s.dop.subs[k]? with
  | none => s
  | some x =>
    let s1 := emit x.req x.req.version 7 x.seq 0 0 eventAddress 0 (l.flatMap DRec.bytes) s
    { s1 with dop :=
      { s1.dop with
        eventPackets := s1.dop.eventPackets + 1,
        subs := upd s1.dop.subs k fun x => { x with seq := nextPacketSeq x.req.iface x.seq } } }

/-- Pieces of at most n of a list. -/
def piecesOf {α : Type} (n : Nat) (l : List α) : List (List α) :=
  (List.range ((l.length + n - 1) / n)).map fun i => (l.drop (i * n)).take n

/-- A delivery goes to the subscriber at index k: the records its mask selects, in as many packets as they need. -/
def sendDelivery (l : List DRec) (s : State) (k : Nat) : State :=
  match s.dop.subs[k]? with
  | none => s
  | some x =>
    (piecesOf (recordsPerMessage x.req.iface) (l.filter fun d => x.mask.getLsbD d.source)).foldl (fun s p => sendEvents k p s) s

/-- EVENT_MESSAGE (R422): the oldest queued delivery is sent to every subscription that selects a source of it. -/
def eventMessage (s : State) : State :=
  match s.ev.queue with
  | [] => s
  | l :: rest =>
    if dopUp s then
      (List.range s.dop.subs.length).foldl (sendDelivery l) { s with ev := { s.ev with queue := rest } }
    else s

/-- STREAM_PACKET (R423): the streamer sends the next packet where one is due. -/
def streamPacket (s : State) : State :=
  match s.ts.stream with
  | none => s
  | some x =>
    if !packetDue s.clk.count s.ts.ring then s
    else
      let n := packetCount s.ts.ring
      let l := s.ts.ring.take n
      let r : Requester := { iface := x.iface, source := x.source, sport := x.sport, mac := x.mac, version := x.version, seq := 0 }
      let s1 := emit r x.version 7 x.seq 0 0 streamAddress 0 (l.flatMap fun p => recBytes p.2) s
      let ts : Ts :=
        { s1.ts with
          ring := s1.ts.ring.drop n, streamed := s1.ts.streamed + n,
          stream := some { x with seq := nextPacketSeq x.iface x.seq } }
      { s1 with ts := ts.drain s1.clk.count }

/-- The link of the stream's port is down: the stream closes (R421). -/
def settleStream (s : State) : State :=
  match s.ts.stream with
  | none => s
  | some x => if (s.port x.iface).link then s else { s with ts := s.ts.closeStream }

/-! ## SLEEP is decided (R89) -/

/-- The journal record of a `SLEEP`, `kind` 1 or 4, `status` its outcome. -/
def sleepRecord (q : SleepSeq) (kind status : Nat) : JRec :=
  { requestRecord q.req kind 5 (addrWord 0x01 12 0) ElTy.u8.code 1 [] (rightAlign (natBytes 1 q.arg)) with status := status }

/-- Instant D: the requester is answered and the outcome journalled by a running MGT core. -/
def answerSleep (q : SleepSeq) (status kind : Nat) (s : State) : State :=
  if dopUp s then answer q.req q.frame 1 status [] (record (sleepRecord q kind status) s) else s

/-- SLEEP_DECISION (R89): a wake source that is latched or asserted wins. In SAFE the sleep is dropped (R80, R416). -/
def sleepDecision (s : State) : State :=
  match s.md.sleep with
  | none => s
  | some q =>
    if q.decided.isSome then s
    else
      let dropped : State := { s with md := { s.md with sleep := none, wakeLatched := none } }
      if s.md.mode = .safe then (if dopUp s then answer q.req q.frame 1 stSafe [] dropped else dropped)
      else if wakeStands s then raise 7 (answerSleep q stAborted 4 dropped)
      else answerSleep q stOk 1 { s with md := { s.md with sleep := some { q with decided := some s.clk.count } } }

/-! ## The IPv4 layer (R403) -/

/-- ARP_REQUEST (R403). -/
def arpReply (port target mac ip : Nat) (s : State) : State :=
  if dopUp s && (s.port port).link && target == s.dop.addressInUse then send (.arp port mac ip) s else s

/-- ICMP_ECHO (R403). -/
def icmpReply (port target mac ip : Nat) (payload : List Byte) (s : State) : State :=
  if dopUp s && (s.port port).link && target == s.dop.addressInUse then send (.icmp port mac ip payload) s else s

/-! ## After every command -/

/-- What follows from a command in its cycle: the stream's link, the states that settle, the servo's targets, and the requests whose
core has been fenced. -/
def finish (s : State) : State := settleRelays (noteTargets false (settle (settleStream s)))

/-- The outcome of a command (log entry 1): `dt` ns of engine time pass, it has its effect, and the module settles. -/
def timed (dt : Nat) (f : State → State) (s : State) : Host.Outcome State Fault Refusal := .next (finish (f (elapse dt s)))

end Sys2Proof.Machine
end

