-- ==== Sys2Proof/Machine/Alerts.lean ====
section
/-! DEFINITION. The meanings of the commands of the event controller. -/

namespace Sys2Proof.Machine

/-! ## Core-side registers (R388 to R391) -/

/-- A running core reads a claim register (R387, R389). -/
def claimBy (c : Nat) (fast : Bool) (s : State) : State := if s.runs c then { s with ev := s.ev.claim s.cfg.ev c fast } else s

/-- A running core writes `COMPLETE` (R391): accepted, ignored and counted, or in strict mode reported. -/
def completeBy (c : Nat) (word : BitVec 32) (s : State) : State :=
  let n := word.toNat % 256
  let k := nth s.ev.cores c EvCore.reset
  if !s.runs c then s
  else if k.accepts n then { s with ev := s.ev.pop c n }
  else if k.strict then reportFree (0x1300 + c) s
  else { s with ev := { s.ev with cores := upd s.ev.cores c fun k => { k with bad := k.bad + 1 } } }

/-! ## Deliveries that time makes due (R396 to R398) -/

/-- COALESCE_TIMEOUT (R396). -/
def coalesceTimeout (k : Nat) (s : State) : State :=
  if !s.clk.running then s
  else if k = 0 then { s with ev := s.ev.deliverHost s.cfg.ev s.clk.count (hostTakes s) }
  else { s with ev := s.ev.deliverAlert s.cfg.ev s.clk.count k }

/-- DELIVERY_RETRY (R397). -/
def deliveryRetry (s : State) : State :=
  if s.clk.running && s.ev.deferring then { s with ev := s.ev.deliverHost s.cfg.ev s.clk.count (hostTakes s) } else s

/-- ALERT_STRETCH_EXPIRY (R398): 10 ms after the last delivery of a pulse or counting source the stretch ends. -/
def stretchExpiry (k : Nat) (s : State) : State :=
  { s with ev := { s.ev with targets := upd s.ev.targets k fun t =>
      { t with stretchEnd := match t.stretchEnd with
                 | some e => if e ≤ s.clk.count then none else some e
                 | none => none } } }

/-! ## Meanings -/

/-- CLAIM_NORMAL (R389). -/
def execClaimNormal (dt : Nat) (core : Fin 3) (s : State) : Host.Outcome State Fault Refusal :=
  timed dt (claimBy core false) s

/-- CLAIM_FAST (R389). -/
def execClaimFast (dt : Nat) (core : Fin 3) (s : State) : Host.Outcome State Fault Refusal :=
  timed dt (claimBy core true) s

/-- COMPLETE (R391). -/
def execComplete (dt : Nat) (core : Fin 3) (word : BitVec 32) (s : State) : Host.Outcome State Fault Refusal :=
  timed dt (completeBy core word) s

/-- COALESCE_TIMEOUT (R396). -/
def execCoalesceTimeout (dt : Nat) (target : Fin 3) (s : State) : Host.Outcome State Fault Refusal :=
  timed dt (coalesceTimeout target) s

/-- DELIVERY_RETRY (R397). -/
def execDeliveryRetry (dt : Nat) (s : State) : Host.Outcome State Fault Refusal :=
  timed dt deliveryRetry s

/-- EVENT_MESSAGE (R422). -/
def execEventMessage (dt : Nat) (s : State) : Host.Outcome State Fault Refusal :=
  timed dt eventMessage s

/-- ALERT_ACK (R398). -/
def execAlertAck (dt : Nat) (r : Requester) (line : Fin 2) (arg : Nat) (s : State) : Host.Outcome State Fault Refusal :=
  timed dt (serveCommand r (addrWord 0x04 (21 + line) 6) 1 arg) s

/-- ALERT_STRETCH_EXPIRY (R398). -/
def execAlertStretchExpiry (dt : Nat) (line : Fin 2) (s : State) : Host.Outcome State Fault Refusal :=
  timed dt (stretchExpiry (line + 1)) s

/-- ALERT_MODE_WRITE (R402). -/
def execAlertModeWrite (dt : Nat) (r : Requester) (line : Fin 2) (v : Nat) (s : State) : Host.Outcome State Fault Refusal :=
  timed dt (serveWrite r (addrWord 0x04 (21 + line) 5) 1 v) s

/-- ROUTE_WRITE (R385). -/
def execRouteWrite (dt : Nat) (r : Requester) (src : Fin 256) (v : Nat) (s : State) : Host.Outcome State Fault Refusal :=
  timed dt (serveWrite r (addrWord 0x04 0 src) 1 v) s

end Sys2Proof.Machine
end

