-- ==== Sys2Proof/Machine/Captures.lean ====
section
/-! DEFINITION. The meanings of the commands of the timestamp inputs, the capture ring and the interval channels. -/

namespace Sys2Proof.Machine

/-- Calibration runs in the background on every input that is not fenced, enabled or not (R282, R283); not in STANDBY (R87). -/
def calibrates (s : State) (n : Nat) : Bool := s.clk.running && !s.sc.stopped && !s.isFenced (.tsi n)

/-- TDC_CALIBRATION (R282, R283): a table that passes its check is taken; one that fails is reported, and the input is fenced. -/
def calibration (n : Nat) (ok : Bool) (syndrome : BitVec 32) (s : State) : State :=
  if !calibrates s n then s else if ok then tdcCalibrated n s else takeReport (0x0600 + n) syndrome false s

/-- TSI_EDGE (R281): the edge comes `frac` ns after the present engine cycle. -/
def execTsiEdge (dt : Nat) (n : Fin 64) (edge : PinEdge) (frac : Rat) (s : State) : Host.Outcome State Fault Refusal :=
  timed dt (fun t => tsiEdge n edge.falling (t.clk.count + frac) edge.short t) s

/-- TDC_CALIBRATION (R282). -/
def execTdcCalibration (dt : Nat) (n : Fin 64) (ok : Bool) (syndrome : BitVec 32) (s : State) : Host.Outcome State Fault Refusal :=
  timed dt (calibration n ok syndrome) s

/-- RING_SLOT (R290). -/
def execRingSlot (dt : Nat) (s : State) : Host.Outcome State Fault Refusal :=
  timed dt ringSlot s

/-- STALE_RECORD (R292). -/
def execStaleRecord (dt : Nat) (n : Fin 64) (s : State) : Host.Outcome State Fault Refusal :=
  timed dt (staleRecord n) s

/-- ANCHOR_PERIODIC (R288). -/
def execAnchorPeriodic (dt : Nat) (tb : Fin 4) (s : State) : Host.Outcome State Fault Refusal :=
  timed dt (anchorPeriodic tb) s

/-- RING_FLUSH (R294). -/
def execRingFlush (dt : Nat) (r : Requester) (arg : Nat) (s : State) : Host.Outcome State Fault Refusal :=
  timed dt (serveCommand r (addrWord 0x30 200 6) 1 arg) s

/-- STREAM_PACKET (R423). -/
def execStreamPacket (dt : Nat) (s : State) : Host.Outcome State Fault Refusal :=
  timed dt streamPacket s

/-- TSI_ENABLE (R284). -/
def execTsiEnable (dt : Nat) (r : Requester) (n : Fin 64) (v : Nat) (s : State) : Host.Outcome State Fault Refusal :=
  timed dt (serveWrite r (addrWord 0x30 n 0) 1 v) s

/-- TC_RUN (R298). -/
def execTcRun (dt : Nat) (r : Requester) (k : Fin 16) (v : Nat) (s : State) : Host.Outcome State Fault Refusal :=
  timed dt (serveWrite r (addrWord 0x31 k 0) 1 v) s

/-- GATE_END (R303). -/
def execGateEnd (dt : Nat) (k : Fin 16) (s : State) : Host.Outcome State Fault Refusal :=
  timed dt (gateEnd k) s

/-- TC_EDGE_EVALUATION (R301). -/
def execTcEdgeEvaluation (dt : Nat) (k : Fin 16) (s : State) : Host.Outcome State Fault Refusal :=
  timed dt (evaluateEdge k) s

/-- HELD_STOP_EXPIRY (R302). -/
def execHeldStopExpiry (dt : Nat) (k : Fin 16) (s : State) : Host.Outcome State Fault Refusal :=
  timed dt (stopExpiry k) s

end Sys2Proof.Machine
end

