-- ==== Sys2Proof/Machine/Clocks.lean ====
section
/-! DEFINITION. The meanings of the commands of the synthesis cores, the outputs and Chimney. -/

namespace Sys2Proof.Machine

/-- CORE_LOCK_LOSS (R193, R203). -/
def lockLoss (c : Nat) (s : State) : State := if (s.syn c).state == .locked then beginRetune c s else s

/-- CORE_ENABLE (R193). -/
def execCoreEnable (dt : Nat) (r : Requester) (c : Fin 4) (v : Nat) (s : State) : Host.Outcome State Fault Refusal :=
  timed dt (serveWrite r (addrWord 0x13 c 0) 1 v) s

/-- CORE_LOCK (R194). -/
def execCoreLock (dt : Nat) (c : Fin 4) (band fine : Nat) (s : State) : Host.Outcome State Fault Refusal :=
  timed dt (lockCore c band fine) s

/-- CORE_LOCK_LOSS (R203). -/
def execCoreLockLoss (dt : Nat) (c : Fin 4) (s : State) : Host.Outcome State Fault Refusal :=
  timed dt (lockLoss c) s

/-- RETUNE_OUTPUTS_STOPPED (R202). -/
def execRetuneOutputsStopped (dt : Nat) (c : Fin 4) (s : State) : Host.Outcome State Fault Refusal :=
  timed dt (outputsStopped c) s

/-- CARD_TIMEOUT (R198). -/
def execCardTimeout (dt : Nat) (c : Fin 4) (s : State) : Host.Outcome State Fault Refusal :=
  timed dt (cardTimeout c) s

/-- CARD_STORE (R199). -/
def execCardStore (dt : Nat) (s : State) : Host.Outcome State Fault Refusal :=
  timed dt storeCards s

/-- CARDS_WRITE (R201). -/
def execCardsWrite (dt : Nat) (r : Requester) (image : List Byte) (s : State) : Host.Outcome State Fault Refusal :=
  timed dt (serveBlob r (addrWord 0x13 30 0) image) s

/-- COMMIT (R208). -/
def execCommit (dt : Nat) (r : Requester) (arg : Nat) (s : State) : Host.Outcome State Fault Refusal :=
  timed dt (serveCommand r (addrWord 0x13 20 0) 1 arg) s

/-- COMMIT_INSTANT (R208). -/
def execCommitInstant (dt : Nat) (s : State) : Host.Outcome State Fault Refusal :=
  timed dt commitInstant s

/-- OUTPUT_ENABLE (R205). -/
def execOutputEnable (dt : Nat) (r : Requester) (n : Fin 32) (v : Nat) (s : State) : Host.Outcome State Fault Refusal :=
  timed dt (serveWrite r (addrWord 0x14 n 0) 1 v) s

/-- FORMAT_WRITE (R214). -/
def execFormatWrite (dt : Nat) (r : Requester) (n : Fin 32) (v : Nat) (s : State) : Host.Outcome State Fault Refusal :=
  timed dt (serveWrite r (addrWord 0x14 n 2) 1 v) s

/-- CHIMNEY_FREQUENCY_TEST (R221). -/
def execChimneyFrequencyTest (dt : Nat) (n : Fin 32) (fast fine : Rat) (s : State) : Host.Outcome State Fault Refusal :=
  timed dt (frequencyTest n fast fine) s

/-- CHIMNEY_SLEW_TEST (R223). -/
def execChimneySlewTest (dt : Nat) (n : Fin 32) (short long : Rat) (s : State) : Host.Outcome State Fault Refusal :=
  timed dt (slewTest n short long) s

/-- WINDOW_GATE_REOPEN (R222). -/
def execWindowGateReopen (dt : Nat) (n : Fin 32) (s : State) : Host.Outcome State Fault Refusal :=
  timed dt (reopenGates n) s

/-- HEARTBEAT_REFRESH (R225). -/
def execHeartbeatRefresh (dt : Nat) (s : State) : Host.Outcome State Fault Refusal :=
  timed dt heartbeatRefresh s

/-- HEARTBEAT_LAPSE (R225). -/
def execHeartbeatLapse (dt : Nat) (s : State) : Host.Outcome State Fault Refusal :=
  timed dt heartbeatLapse s

end Sys2Proof.Machine
end

