-- ==== Sys2Proof/Machine/Clockwork.lean ====
section
/-! DEFINITION. The meanings of the commands of the timebases, the PTP ports and the switch. -/

namespace Sys2Proof.Machine

/-- PHY_COPY_REALIGN (R25): the copies of the port's PHY are re-aligned, and those that then disagree are reported. -/
def copyRealign (n : Nat) (mismatch : BitVec 4) (s : State) : State :=
  if !s.clk.running || (s.port n).asleep then s
  else
    let s1 := realignCopies n mismatch s
    if mismatch = 0#4 then s1 else takeReport (0x0500 + n) (mismatch.setWidth 32) false s1

/-- SYNC_RECEIVE (R249). -/
def execSyncReceive (dt : Nat) (port : Fin 14) (h : PtpHdr) (kind : SyncKind) (origin ratio : Rat) (s : State) :
    Host.Outcome State Fault Refusal :=
  timed dt (ptpReceive port h (syncReceive port h kind origin ratio)) s

/-- FOLLOW_UP_RECEIVE (R266). -/
def execFollowUpReceive (dt : Nat) (port : Fin 14) (h : PtpHdr) (origin ratio : Rat) (gm : Option (Nat × Int)) (s : State) :
    Host.Outcome State Fault Refusal :=
  timed dt (ptpReceive port h (followUpReceive port h origin ratio gm)) s

/-- RESTEP (R242). -/
def execRestep (dt : Nat) (r : Requester) (tb : Fin 4) (arg : Nat) (s : State) : Host.Outcome State Fault Refusal :=
  timed dt (serveCommand r (addrWord 0x20 (50 + tb) 0) 1 arg) s

/-- CLEAR_DISC (R250). -/
def execClearDisc (dt : Nat) (r : Requester) (tb : Fin 4) (arg : Nat) (s : State) : Host.Outcome State Fault Refusal :=
  timed dt (serveCommand r (addrWord 0x20 (50 + tb) 1) 1 arg) s

/-- LOCAL_LABEL (R247). -/
def execLocalLabel (dt : Nat) (r : Requester) (tb : Fin 4) (t : Time80) (s : State) : Host.Outcome State Fault Refusal :=
  timed dt (serveCommand r (addrWord 0x20 (50 + tb) 2) 10 (Time80.code t)) s

/-- LEAP_SECOND_APPLY (R245). -/
def execLeapSecondApply (dt : Nat) (tb : Fin 4) (s : State) : Host.Outcome State Fault Refusal :=
  timed dt (applyLeap tb) s

/-- UTC_WRITE (R245): `UTC_OFFSET` has two bytes, `LEAP_AT` ten, the others one. -/
def execUtcWrite (dt : Nat) (r : Requester) (tb : Fin 4) (element : Fin 5) (v : Int) (t : Time80) (s : State) : Host.Outcome State Fault Refusal :=
  if element = 4 then timed dt (serveWrite r (addrWord 0x20 (20 + tb) 4) 10 (Time80.code t)) s
  else timed dt (serveWrite r (addrWord 0x20 (20 + tb) element) (if element = 1 then 2 else 1) v) s

/-- DOMAIN_KIND_WRITE (R250). -/
def execDomainKindWrite (dt : Nat) (r : Requester) (i : Fin 8) (v : Nat) (s : State) : Host.Outcome State Fault Refusal :=
  timed dt (serveWrite r (addrWord 0x20 (10 + i) 0) 1 v) s

/-- RECEIPT_TIMEOUT (R247). -/
def execReceiptTimeout (dt : Nat) (i : Fin 8) (announce : Bool) (s : State) : Host.Outcome State Fault Refusal :=
  timed dt (receiptTimeout i announce) s

/-- DOMAIN_RANK_WAIT (R252). -/
def execDomainRankWait (dt : Nat) (i : Fin 8) (s : State) : Host.Outcome State Fault Refusal :=
  timed dt (domainRankWait i) s

/-- PHY_COPY_REALIGN (R25). -/
def execPhyCopyRealign (dt : Nat) (port : Fin 14) (mismatch : BitVec 4) (s : State) : Host.Outcome State Fault Refusal :=
  timed dt (copyRealign port mismatch) s

/-- ANNOUNCE_RECEIVE (R252). -/
def execAnnounceReceive (dt : Nat) (port : Fin 14) (h : PtpHdr) (d : Dataset) (s : State) : Host.Outcome State Fault Refusal :=
  timed dt (ptpReceive port h (announceReceive port h d)) s

/-- DELAY_REQ_RECEIVE (R249). -/
def execDelayReqReceive (dt : Nat) (port : Fin 14) (h : PtpHdr) (s : State) : Host.Outcome State Fault Refusal :=
  timed dt (ptpReceive port h (delayReqReceive port h)) s

/-- DELAY_RESP_RECEIVE (R249). -/
def execDelayRespReceive (dt : Nat) (port : Fin 14) (h : PtpHdr) (receive : Rat) (toIdentity toPort : Nat) (s : State) : Host.Outcome State Fault Refusal :=
  timed dt (ptpReceive port h (delayRespReceive port h receive toIdentity toPort)) s

/-- PDELAY_REQ_RECEIVE (R269). -/
def execPdelayReqReceive (dt : Nat) (port : Fin 14) (h : PtpHdr) (s : State) : Host.Outcome State Fault Refusal :=
  timed dt (ptpReceive port h (pdelayReqReceive port h)) s

/-- PDELAY_RESP_RECEIVE (R269). -/
def execPdelayRespReceive (dt : Nat) (port : Fin 14) (h : PtpHdr) (t2 t3 : Rat) (toIdentity toPort : Nat) (s : State) : Host.Outcome State Fault Refusal :=
  timed dt (ptpReceive port h (pdelayRespReceive port h t2 t3 toIdentity toPort)) s

/-- TRANSPARENT_FORWARD (R264). -/
def execTransparentForward (dt : Nat) (port : Fin 14) (h : PtpHdr) (kind : PtpKind) (twoStep : Bool) (residence : Rat) (s : State) : Host.Outcome State Fault Refusal :=
  timed dt (transparentForward port h kind twoStep residence) s

/-- ANNOUNCE_TRANSMIT (R265). -/
def execAnnounceTransmit (dt : Nat) (port : Fin 14) (i : Fin 8) (s : State) : Host.Outcome State Fault Refusal :=
  timed dt (announceTransmit port i) s

/-- SYNC_TRANSMIT (R264). -/
def execSyncTransmit (dt : Nat) (port : Fin 14) (i : Fin 8) (s : State) : Host.Outcome State Fault Refusal :=
  timed dt (syncTransmit port i) s

/-- DELAY_REQ_TRANSMIT (R249). -/
def execDelayReqTransmit (dt : Nat) (port : Fin 14) (i : Fin 8) (s : State) : Host.Outcome State Fault Refusal :=
  timed dt (delayReqTransmit port i) s

/-- PDELAY_REQ_TRANSMIT (R269). -/
def execPdelayReqTransmit (dt : Nat) (port : Fin 14) (i : Fin 8) (s : State) : Host.Outcome State Fault Refusal :=
  timed dt (pdelayReqTransmit port i) s

/-- LINK_CHANGE (R270). -/
def execLinkChange (dt : Nat) (port : Fin 14) (up partnerMaster : Bool) (s : State) : Host.Outcome State Fault Refusal :=
  timed dt (linkChange port up partnerMaster) s

/-- ROLE_WRITE (R263). -/
def execRoleWrite (dt : Nat) (r : Requester) (port : Fin 14) (i : Fin 8) (v : Nat) (s : State) : Host.Outcome State Fault Refusal :=
  timed dt (serveWrite r (addrWord 0x21 port (8 + i)) 1 v) s

/-- LAYER_2_FORWARDING (R4). -/
def execLayer2Forwarding (dt : Nat) (port : Fin 14) (dst src etherType : Nat) (payload : List Byte) (s : State) : Host.Outcome State Fault Refusal :=
  timed dt (layer2 port dst src etherType payload) s

end Sys2Proof.Machine
end

