-- ==== Sys2Proof/Machine/Dplls.lean ====
section
/-! DEFINITION. The meanings of the commands of the DPLL channels and Lantern. -/

namespace Sys2Proof.Machine

/-! ## Paths that end (R153) -/

/-- A Taper path that ends within the present engine cycle ends, and the phase it still moves, ps. -/
def endPath (t : Taper) : Taper × Rat := if legsTime t.legs ≤ 1 / 1000000000 then t.advance (1 / 1000000000) else (t, 0)

/-- TAPER_PULL_END (R153): the slope has fallen to 0 as the gap reached 0. -/
def pullEnd (p : TaperPath) (s : State) : State :=
  if !s.clk.running then s
  else
    match p with
    | .channel n => s.setChan n fun c =>
        if c.frozen.isSome then c
        else
          let (t, m) := endPath c.taper
          { c with taper := t, phase := c.phase + m / 1000, cyc := c.cyc + m / 1000 }
    | .timebase n => s.setTb n fun b =>
        if b.frozenC.isSome then b
        else
          let (t, m) := endPath b.taper
          { b with taper := t, now := b.now + m / 1000 }
    | .output n => s.setOut n fun o => { o with move := (endPath o.move).1 }

/-- LDA_MON_UPDATE (R150): only while the engine runs. -/
def ldaUpdate (s : State) : State := if s.clk.running then { s with pins := { s.pins with ldaDuty := ldaDutyNow s } } else s

/-! ## Meanings -/

/-- LOCK_CRITERION (R146). -/
def execLockCriterion (dt : Nat) (n : Fin 8) (s : State) : Host.Outcome State Fault Refusal :=
  timed dt (lockCriterion n) s

/-- CHANNEL_ENABLE (R140). -/
def execChannelEnable (dt : Nat) (r : Requester) (n : Fin 8) (v : Nat) (s : State) : Host.Outcome State Fault Refusal :=
  timed dt (serveWrite r (addrWord 0x11 n 0) 1 v) s

/-- FIRST_ALIGNMENT (R157): the edge comes `frac` ns after the present engine cycle. -/
def execFirstAlignment (dt : Nat) (n : Fin 8) (frac : Rat) (s : State) : Host.Outcome State Fault Refusal :=
  timed dt (withSeconds fun t => firstAlignment n (t.clk.count + frac) t) s

/-- LDA_MON_UPDATE (R150). -/
def execLdaMonUpdate (dt : Nat) (s : State) : Host.Outcome State Fault Refusal :=
  timed dt ldaUpdate s

/-- CHANNEL_SECOND (R190); a timebase labels it by R247. -/
def execChannelSecond (dt : Nat) (n : Fin 8) (s : State) : Host.Outcome State Fault Refusal :=
  timed dt (withSeconds (channelSecond n)) s

/-- TAPER_PULL_END (R153). -/
def execTaperPullEnd (dt : Nat) (p : TaperPath) (s : State) : Host.Outcome State Fault Refusal :=
  timed dt (pullEnd p) s

/-- LANTERN_EVALUATION (R23). -/
def execLanternEvaluation (dt : Nat) (s : State) : Host.Outcome State Fault Refusal :=
  timed dt lanternEvaluate s

/-- LEARNING_SAMPLE (R171). -/
def execLearningSample (dt : Nat) (s : State) : Host.Outcome State Fault Refusal :=
  timed dt learn s

/-- MODEL_COMMIT (R172). -/
def execModelCommit (dt : Nat) (s : State) : Host.Outcome State Fault Refusal :=
  timed dt refitNow s

/-- MODEL_SAVE (R182). -/
def execModelSave (dt : Nat) (s : State) : Host.Outcome State Fault Refusal :=
  timed dt modelSaveNow s

/-- MODEL_STORE (R187). -/
def execModelStore (dt : Nat) (r : Requester) (arg : Nat) (s : State) : Host.Outcome State Fault Refusal :=
  timed dt (serveCommand r (addrWord 0x12 2 1) 1 arg) s

/-- MODEL_WRITE (R184). -/
def execModelWrite (dt : Nat) (r : Requester) (image : List Byte) (s : State) : Host.Outcome State Fault Refusal :=
  timed dt (serveBlob r (addrWord 0x12 2 0) image) s

/-- STEERING_WRITE (R181). -/
def execSteeringWrite (dt : Nat) (r : Requester) (n : Fin 8) (v : Int) (s : State) : Host.Outcome State Fault Refusal :=
  timed dt (serveWrite r (addrWord 0x12 (10 + n) 0) 8 v) s

end Sys2Proof.Machine
end

