-- ==== Sys2Proof/Machine/Faults.lean ====
section
/-! DEFINITION. The meanings of the commands of the fault collector, the OCXO supervisor and the processor complex. -/

namespace Sys2Proof.Machine

/-! ## Supervision of the OCXO (R118, R164) -/

/-- GROSS_FREQUENCY_GATE (R164): an offset outside ±200 ppm in two consecutive gates is reported. -/
def grossGate (offset : Rat) (syndrome : BitVec 32) (s : State) : State :=
  if !s.clk.running then s
  else
    let n := if 200 < absR offset then s.md.grossBad + 1 else 0
    let s1 := { s with md := { s.md with grossBad := n } }
    if 2 ≤ n then takeReport 0x0D01 syndrome false s1 else s1

/-- The OCXO's offset after the correction by the auxiliary oscillator's temperature curve, ppm (R164). -/
def fineOffset (s : State) (offset : Rat) : Rat := offset + s.nv.factory.auxCurve * ((s.pwr.tBase : Rat) / 1000 - 25)

/-- FINE_FREQUENCY_GATE (R164): while `OVEN_READY` is set, a corrected offset outside ±10 ppm in three consecutive gates is reported. -/
def fineGate (offset : Rat) (syndrome : BitVec 32) (s : State) : State :=
  if !s.clk.running || !s.md.ovenReady then s
  else
    let n := if 10 < absR (fineOffset s offset) then s.md.fineBad + 1 else 0
    let s1 := { s with md := { s.md with fineBad := n } }
    if 3 ≤ n then takeReport 0x0D02 syndrome false s1 else s1

/-- OCXO_CONSENSUS_TEST (R118): reported at each change to holding, with the mean offset in ppb. -/
def consensusTest (s : State) : State :=
  if !s.clk.running || s.rf.stopped then s
  else
    let (holds, mean) := consensus s
    let s1 := { s with md := { s.md with ocxoSuspect := holds } }
    if holds && !s.md.ocxoSuspect then takeReport 0x0D03 (BitVec.ofInt 32 (readInt (mean / 1000))) false s1 else s1

/-! ## Cores (R30, R33, R353) -/

/-- The regions of the processor SRAM in the order of R30: first address, first address beyond, the cores that write there and the
cores that read there. -/
def sramRegions : List (Nat × Nat × List Nat × List Nat) :=
  [(0, 0x200000, [0], [0]), (0x200000, 0x300000, [1], [1]), (0x300000, 0x380000, [2], [2]),
   (0x380000, 0x400000, [0, 1], [0, 1, 2])]

/-- Core c may write at an address of the processor SRAM (R30). -/
def mayWrite (c addr : Nat) : Bool :=
  sramRegions.any fun g => decide (g.1 ≤ addr) && decide (addr < g.2.1) && g.2.2.1.contains c

/-- Core c may read at an address of the processor SRAM (R30). -/
def mayRead (c addr : Nat) : Bool :=
  sramRegions.any fun g => decide (g.1 ≤ addr) && decide (addr < g.2.1) && g.2.2.2.contains c

/-- What core c reads at an address of the processor SRAM (R30): nothing outside its own region and the mailbox. -/
def coreReads (c addr : Nat) (s : State) : Option Byte := if mayRead c addr then some (readByte s.sram.mem addr) else none

/-- A write of core c to the processor SRAM (R30, R353): one outside the region table is not performed, and the memory protection unit
reports it. -/
def coreWrites (c : Nat) (w : SramWrite) (syndrome : BitVec 32) (s : State) : State :=
  if !s.runs c then s
  else if mayWrite c w.addr then { s with sram := { s.sram with mem := writeByte s.sram.mem w.addr w.value } }
  else takeReport (0x1200 + c) syndrome false s

/-- CORE_STOP (R33). -/
def coreStops (c : Nat) (s : State) : State := if s.runs c then stopCore c .stopped s else s

/-- The watchdog of core c has run for its 100 ms (R353). -/
def watchdogRan (s : State) (c : Nat) : Bool :=
  match nth s.stoppedAt c none with
  | some t => decide (t + 100000000 ≤ s.clk.count)
  | none => false

/-- WATCHDOG_TIMEOUT (R353): the watchdog of a core that has stopped reports; its syndrome is not stated. -/
def watchdogTimeout (c : Nat) (s : State) : State :=
  if s.core c == .stopped && watchdogRan s c then reportFree (0x1100 + c) s else s

/-- OCXO_ACTIVITY_LOSS (R18, R369): the supervisor's report; its syndrome is not stated. A supervisor whose checker is unarmed enters SAFE
through its own path all the same, and the engine clock has stopped. -/
def activityLoss (s : State) : State :=
  let s1 := reportFree 0x0D00 s
  if s1.clk.running then engineStops (enterSafeMode none s1) else s1

/-! ## Meanings -/

/-- CHECKER_ERROR (R351): of a checker that R353 lists. -/
def execCheckerError (dt id : Nat) (syndrome : BitVec 32) (s : State) : Host.Outcome State Fault Refusal :=
  if isChecker id then timed dt (takeReport id syndrome false) s else .fault .noSuchChecker

/-- PATH_FAULT (R350): of a checker that has a path under R353. -/
def execPathFault (dt id : Nat) (high : Bool) (s : State) : Host.Outcome State Fault Refusal :=
  if hasPath id then timed dt (takeReport id (pathSyndrome high) true) s else .fault .noSuchChecker

/-- CONSEQUENCE_MASK_CLOSE (R360). -/
def execMaskClose (dt : Nat) (s : State) : Host.Outcome State Fault Refusal :=
  timed dt closeMasks s

/-- COLLECTOR_SELF_FAULT (R368). -/
def execCollectorSelfFault (dt : Nat) (recordPath : Bool) (s : State) : Host.Outcome State Fault Refusal :=
  timed dt (selfFault recordPath) s

/-- OCXO_ACTIVITY_LOSS (R369); its syndrome is not stated. -/
def execOcxoActivityLoss (dt : Nat) (s : State) : Host.Outcome State Fault Refusal :=
  timed dt activityLoss s

/-- SAFE_RECORD_WRITE (R370). -/
def execSafeRecordWrite (dt : Nat) (s : State) : Host.Outcome State Fault Refusal :=
  timed dt writeSafeRecord s

/-- WATCHDOG_TIMEOUT (R353). -/
def execWatchdogTimeout (dt : Nat) (core : Fin 3) (s : State) : Host.Outcome State Fault Refusal :=
  timed dt (watchdogTimeout core) s

/-- MPU_VIOLATION (R30). -/
def execMpuViolation (dt : Nat) (core : Fin 3) (w : SramWrite) (syndrome : BitVec 32) (s : State) : Host.Outcome State Fault Refusal :=
  timed dt (coreWrites core w syndrome) s

/-- GROSS_FREQUENCY_GATE (R164). -/
def execGrossFrequencyGate (dt : Nat) (offset : Rat) (syndrome : BitVec 32) (s : State) : Host.Outcome State Fault Refusal :=
  timed dt (grossGate offset syndrome) s

/-- FINE_FREQUENCY_GATE (R164). -/
def execFineFrequencyGate (dt : Nat) (offset : Rat) (syndrome : BitVec 32) (s : State) : Host.Outcome State Fault Refusal :=
  timed dt (fineGate offset syndrome) s

/-- OCXO_CONSENSUS_TEST (R118). -/
def execOcxoConsensusTest (dt : Nat) (s : State) : Host.Outcome State Fault Refusal :=
  timed dt consensusTest s

/-- CLEAR (R366). -/
def execClear (dt : Nat) (r : Requester) (arg : Nat) (s : State) : Host.Outcome State Fault Refusal :=
  timed dt (serveCommand r (addrWord 0x03 3 0) 1 arg) s

/-- INJECT (R374). -/
def execInject (dt : Nat) (r : Requester) (arg : Nat) (s : State) : Host.Outcome State Fault Refusal :=
  timed dt (serveCommand r (addrWord 0x03 20 1) 1 arg) s

/-- INJECTION_CHECK (R373). -/
def execInjectionCheck (dt : Nat) (i0 i0b i1 : Option (BitVec 32)) (s : State) : Host.Outcome State Fault Refusal :=
  timed dt (completeInjection i0 i0b i1) s

/-- SWEEP (R376). -/
def execSweep (dt : Nat) (r : Requester) (arg : Nat) (s : State) : Host.Outcome State Fault Refusal :=
  timed dt (serveCommand r (addrWord 0x03 20 4) 1 arg) s

/-- SWEEP_STEP (R376). -/
def execSweepStep (dt : Nat) (i0 i0b i1 : Option (BitVec 32)) (s : State) : Host.Outcome State Fault Refusal :=
  timed dt (sweepStep i0 i0b i1) s

/-- RELAY_TIMEOUT (R461). -/
def execRelayTimeout (dt : Nat) (s : State) : Host.Outcome State Fault Refusal :=
  timed dt relayTimeout s

/-- CORE_STOP (R33). -/
def execCoreStop (dt : Nat) (core : Fin 3) (s : State) : Host.Outcome State Fault Refusal :=
  timed dt (coreStops core) s

end Sys2Proof.Machine
end

