-- ==== Sys2Proof/Machine/Motion.lean ====
section
/-! DEFINITION. The meanings of the commands of the axes, the calendar and the servo. -/

namespace Sys2Proof.Machine

/-- AXIS_COUNT_EDGE (R315). -/
def execAxisCountEdge (dt : Nat) (k : Fin 4) (aChanged bChanged a b : Bool) (s : State) : Host.Outcome State Fault Refusal :=
  timed dt (countEdge k aChanged bChanged a b) s

/-- INDEX_EDGE (R317). -/
def execIndexEdge (dt : Nat) (k : Fin 4) (s : State) : Host.Outcome State Fault Refusal :=
  timed dt (indexEdge k) s

/-- AXIS_STALL (R319). -/
def execAxisStall (dt : Nat) (k : Fin 4) (s : State) : Host.Outcome State Fault Refusal :=
  timed dt (axisStall k) s

/-- AXIS_KIND_WRITE (R319). -/
def execAxisKindWrite (dt : Nat) (r : Requester) (k : Fin 4) (v : Nat) (s : State) : Host.Outcome State Fault Refusal :=
  timed dt (serveWrite r (addrWord 0x40 (20 + k) 0) 1 v) s

/-- PRESET (R330). -/
def execPreset (dt : Nat) (r : Requester) (k : Fin 4) (v : Nat) (s : State) : Host.Outcome State Fault Refusal :=
  timed dt (serveCommand r (addrWord 0x40 (20 + k) 10) 8 v) s

/-- ACTION_FIRE (R322). -/
def execActionFire (dt : Nat) (s : State) : Host.Outcome State Fault Refusal :=
  timed dt fireDue s

/-- OVERRUN_FIRE (R323). -/
def execOverrunFire (dt : Nat) (s : State) : Host.Outcome State Fault Refusal :=
  timed dt fireDelayed s

/-- ARM (R325). -/
def execArm (dt : Nat) (r : Requester) (a : Fin 1024) (s : State) : Host.Outcome State Fault Refusal :=
  timed dt (serveCommand r (addrWord 0x41 a 11) 1 1) s

/-- ARM_EFFECT (R326). -/
def execArmEffect (dt : Nat) (a : Fin 1024) (s : State) : Host.Outcome State Fault Refusal :=
  timed dt (armEffect a) s

/-- DISARM (R329). -/
def execDisarm (dt : Nat) (r : Requester) (a : Fin 1024) (s : State) : Host.Outcome State Fault Refusal :=
  timed dt (serveCommand r (addrWord 0x41 a 11) 1 2) s

/-- DISARM_ALL (R329). -/
def execDisarmAll (dt : Nat) (r : Requester) (arg : Nat) (s : State) : Host.Outcome State Fault Refusal :=
  timed dt (serveCommand r (addrWord 0x41 2048 5) 1 arg) s

/-- ACTION_KIND_WRITE (R328). -/
def execActionKindWrite (dt : Nat) (r : Requester) (a : Fin 1024) (v : Nat) (s : State) : Host.Outcome State Fault Refusal :=
  timed dt (serveWrite r (addrWord 0x41 a 0) 1 v) s

/-- CALENDAR_WRITE (R347). -/
def execCalendarWrite (dt : Nat) (r : Requester) (image : List Byte) (s : State) : Host.Outcome State Fault Refusal :=
  timed dt (serveBlob r (addrWord 0x41 2048 0) image) s

/-- PULSE_END (R333). -/
def execPulseEnd (dt : Nat) (n : Fin 48) (s : State) : Host.Outcome State Fault Refusal :=
  timed dt (pulseEnd n) s

/-- WINDOW_END (R335). -/
def execWindowEnd (dt : Nat) (n : Fin 64) (s : State) : Host.Outcome State Fault Refusal :=
  timed dt (windowEnd n) s

/-- SERVO_ENABLE (R337). -/
def execServoEnable (dt : Nat) (r : Requester) (k : Fin 48) (v : Nat) (s : State) : Host.Outcome State Fault Refusal :=
  timed dt (serveWrite r (addrWord 0x41 (2050 + k) 0) 1 v) s

/-- STROBE_WINDOW_EXPIRY (R338). -/
def execStrobeWindowExpiry (dt : Nat) (k : Fin 48) (s : State) : Host.Outcome State Fault Refusal :=
  timed dt (strobeExpiry k) s

end Sys2Proof.Machine
end

