-- ==== Sys2Proof/Machine/Power.lean ====
section
/-! DEFINITION. The meanings of the commands of the supply, start-up, standby and the device mode. -/

namespace Sys2Proof.Machine

/-- POWER_UP (R83). -/
def execPowerUp (i : StartIn) (sealDur entryDur : Nat) (s : State) : Host.Outcome State Fault Refusal :=
  .next (finish (powerUp i sealDur entryDur { s with tx := [] }))

/-- STARTUP_HOLD_EXPIRY (R85). -/
def execStartupHoldExpiry (dt sealDur entryDur : Nat) (s : State) : Host.Outcome State Fault Refusal :=
  timed dt (holdExpiry sealDur entryDur) s

/-- A frame of `SEAL_NOW` whose step 4 and step 5 take given times. -/
def serveSealNow (r : Requester) (arg sealDur entryDur : Nat) (s : State) : State :=
  (receive (fun e => { e with run := sealNowRun sealDur entryDur }) r (mkFrame r 5 (addrWord 0x01 12 1) none (intBytes 1 arg)) s).2

/-- SEAL_NOW (R85). -/
def execSealNow (dt : Nat) (r : Requester) (arg sealDur entryDur : Nat) (s : State) : Host.Outcome State Fault Refusal :=
  timed dt (serveSealNow r arg sealDur entryDur) s

/-- LOW_INPUT (R97). -/
def execLowInput (dt : Nat) (s : State) : Host.Outcome State Fault Refusal :=
  timed dt lowInput s

/-- PFAIL_SET (R93). -/
def execPfailSet (dt : Nat) (s : State) : Host.Outcome State Fault Refusal :=
  timed dt setPfail s

/-- HOLDUP_WRITE_COMPLETE (R94). -/
def execHoldupWriteComplete (dt : Nat) (s : State) : Host.Outcome State Fault Refusal :=
  timed dt holdupWritten s

/-- PFAIL_CLEAR (R95). -/
def execPfailClear (dt : Nat) (s : State) : Host.Outcome State Fault Refusal :=
  timed dt clearPfail s

/-- HOLDUP_RECORD_COPY (R95). -/
def execHoldupRecordCopy (dt : Nat) (s : State) : Host.Outcome State Fault Refusal :=
  timed dt holdupCopied s

/-- ORDERLY_STOP (R96). -/
def execOrderlyStop (dt : Nat) (s : State) : Host.Outcome State Fault Refusal :=
  timed dt orderlyStop s

/-- OVER_VOLTAGE (R97). -/
def execOverVoltage (dt mv : Nat) (s : State) : Host.Outcome State Fault Refusal :=
  timed dt (overVoltage mv) s

/-- OPERATING_INPUT_RESTORED (R40). -/
def execOperatingInputRestored (dt mv : Nat) (s : State) : Host.Outcome State Fault Refusal :=
  timed dt (inputRestored mv) s

/-- CODING_CHANGE (R44): any of the three connectors. -/
def execCodingChange (dt : Nat) (_conn : Fin 3) (s : State) : Host.Outcome State Fault Refusal :=
  timed dt codingChange s

/-- OVEN_READY (R86). -/
def execOvenReady (dt : Nat) (s : State) : Host.Outcome State Fault Refusal :=
  timed dt setOvenReady s

/-- OVEN_EXCURSION (R86). -/
def execOvenExcursion (dt : Nat) (s : State) : Host.Outcome State Fault Refusal :=
  timed dt ovenExcursion s

/-- MEASUREMENT_REFRESH (R99). -/
def execMeasurementRefresh (dt : Nat) (m : Sensors) (s : State) : Host.Outcome State Fault Refusal :=
  timed dt (refreshMeasurements m) s

/-- SLEEP (R88, R89). -/
def execSleep (dt : Nat) (r : Requester) (arg : Nat) (s : State) : Host.Outcome State Fault Refusal :=
  timed dt (serveCommand r (addrWord 0x01 12 0) 1 arg) s

/-- SLEEP_DECISION (R89). -/
def execSleepDecision (dt : Nat) (s : State) : Host.Outcome State Fault Refusal :=
  timed dt sleepDecision s

/-- SLEEP_COMMIT (R89). -/
def execSleepCommit (dt : Nat) (s : State) : Host.Outcome State Fault Refusal :=
  timed dt sleepCommit s

/-- WAKE_PIN (R90). -/
def execWakePin (dt : Nat) (held : Bool) (s : State) : Host.Outcome State Fault Refusal :=
  timed dt (wakePin held) s

/-- CAN_WAKE_FRAME (R90). -/
def execCanWakeFrame (dt : Nat) (ch : Fin 2) (ident : Nat) (s : State) : Host.Outcome State Fault Refusal :=
  timed dt (canWake ch ident) s

/-- T1_WAKE (R90). -/
def execT1Wake (dt : Nat) (port : Fin 12) (s : State) : Host.Outcome State Fault Refusal :=
  timed dt (t1Wake port) s

/-- TIMEBASE_ALARM (R90). -/
def execTimebaseAlarm (dt : Nat) (s : State) : Host.Outcome State Fault Refusal :=
  timed dt timebaseAlarm s

/-- WAKE (R91). -/
def execWake (dt : Nat) (s : State) : Host.Outcome State Fault Refusal :=
  timed dt wakeComplete s

/-- ENTER_SAFE (R82). -/
def execEnterSafe (dt : Nat) (r : Requester) (arg : Nat) (s : State) : Host.Outcome State Fault Refusal :=
  timed dt (serveCommand r (addrWord 0x01 12 2) 1 arg) s

/-- PRINCIPAL_TB_WRITE (R80). -/
def execPrincipalTbWrite (dt : Nat) (r : Requester) (v : Nat) (s : State) : Host.Outcome State Fault Refusal :=
  timed dt (serveWrite r (addrWord 0x01 10 0) 1 v) s

end Sys2Proof.Machine
end

