-- ==== Sys2Proof/Machine/Protocol.lean ====
section
/-! DEFINITION. The meanings of the commands of the object protocol, the journal and the nonvolatile store. -/

namespace Sys2Proof.Machine

/-- READ (R417): a frame is served by its OPCODE. -/
def execRead (dt : Nat) (r : Requester) (f : Frame) (s : State) : Host.Outcome State Fault Refusal :=
  timed dt (serve r f) s

/-- WRITE (R417): a frame is served by its OPCODE. -/
def execWrite (dt : Nat) (r : Requester) (f : Frame) (s : State) : Host.Outcome State Fault Refusal :=
  timed dt (serve r f) s

/-- READ_BLOCK (R420): a frame is served by its OPCODE. -/
def execReadBlock (dt : Nat) (r : Requester) (f : Frame) (s : State) : Host.Outcome State Fault Refusal :=
  timed dt (serve r f) s

/-- WRITE_BLOCK (R419): a frame is served by its OPCODE. -/
def execWriteBlock (dt : Nat) (r : Requester) (f : Frame) (s : State) : Host.Outcome State Fault Refusal :=
  timed dt (serve r f) s

/-- SUBSCRIBE (R421): a frame is served by its OPCODE. -/
def execSubscribe (dt : Nat) (r : Requester) (f : Frame) (s : State) : Host.Outcome State Fault Refusal :=
  timed dt (serve r f) s

/-- TRANSFER_TIMEOUT (R419). -/
def execTransferTimeout (dt : Nat) (s : State) : Host.Outcome State Fault Refusal :=
  timed dt transferTimeout s

/-- LEASE_EXPIRY (R421). -/
def execLeaseExpiry (dt : Nat) (s : State) : Host.Outcome State Fault Refusal :=
  timed dt leaseExpiry s

/-- JOURNAL_FLUSH (R432). -/
def execJournalFlush (dt : Nat) (s : State) : Host.Outcome State Fault Refusal :=
  timed dt journalFlush s

/-- STORE (R425). -/
def execStore (dt : Nat) (r : Requester) (arg : Nat) (s : State) : Host.Outcome State Fault Refusal :=
  timed dt (serveCommand r (addrWord 0x50 0 0) 1 arg) s

/-- STORE_COMPLETE (R425). -/
def execStoreComplete (dt : Nat) (e : StoreEnd) (s : State) : Host.Outcome State Fault Refusal :=
  timed dt (storeComplete e) s

/-- ERASE_CONFIG (R426). -/
def execEraseConfig (dt : Nat) (r : Requester) (arg : Nat) (s : State) : Host.Outcome State Fault Refusal :=
  timed dt (serveCommand r (addrWord 0x50 0 1) 1 arg) s

/-- FIRMWARE_WRITE (R429). -/
def execFirmwareWrite (dt : Nat) (r : Requester) (image : List Byte) (s : State) : Host.Outcome State Fault Refusal :=
  timed dt (serveBlob r firmwareAddress image) s

/-- ACTIVATE (R429). -/
def execActivate (dt : Nat) (r : Requester) (arg : Nat) (s : State) : Host.Outcome State Fault Refusal :=
  timed dt (serveCommand r (addrWord 0x50 10 5) 1 arg) s

/-- NV_REFRESH (R428). -/
def execNvRefresh (dt due failed spare erase : Nat) (s : State) : Host.Outcome State Fault Refusal :=
  timed dt (refreshPass due failed spare erase) s

/-- ARP_REQUEST (R403). -/
def execArpRequest (dt : Nat) (port : Fin 14) (target mac ip : Nat) (s : State) : Host.Outcome State Fault Refusal :=
  timed dt (arpReply port target mac ip) s

/-- ICMP_ECHO (R403). -/
def execIcmpEcho (dt : Nat) (port : Fin 14) (target mac ip : Nat) (payload : List Byte) (s : State) : Host.Outcome State Fault Refusal :=
  timed dt (icmpReply port target mac ip payload) s

end Sys2Proof.Machine
end

