-- ==== Sys2Proof/Machine/Wellhead.lean ====
section
/-! DEFINITION. The meanings of the commands of Wellhead and the GNSS port. -/

namespace Sys2Proof.Machine

/-- An instant `frac` ns after the present engine cycle. -/
def instant (s : State) (frac : Rat) : Rat := s.clk.count + frac

/-- REFERENCE_EDGE (R114). -/
def execReferenceEdge (dt : Nat) (n : Fin 16) (frac : Rat) (s : State) : Host.Outcome State Fault Refusal :=
  timed dt (withSeconds fun t => referenceEdge n (instant t frac) t) s

/-- MISSING_EDGE (R114). -/
def execMissingEdge (dt : Nat) (cand : Fin 24) (s : State) : Host.Outcome State Fault Refusal :=
  timed dt (missingEdge cand) s

/-- GNSS_SOURCE_MISSING_PULSE (R105). -/
def execGnssSourceMissingPulse (dt : Nat) (n : Fin 8) (s : State) : Host.Outcome State Fault Refusal :=
  timed dt (gnssSourceMissing n) s

/-- FREQUENCY_WINDOW_UPDATE (R116). -/
def execFrequencyWindowUpdate (dt : Nat) (cand : Fin 24) (s : State) : Host.Outcome State Fault Refusal :=
  timed dt (frequencyUpdate cand) s

/-- WAIT_TO_RESTORE_EXPIRY (R121). -/
def execWaitToRestoreExpiry (dt : Nat) (cand : Fin 24) (s : State) : Host.Outcome State Fault Refusal :=
  timed dt (wtrReached cand) s

/-- RANK_IMPROVEMENT_EXPIRY (R127). -/
def execRankImprovementExpiry (dt : Nat) (cand : Fin 24) (s : State) : Host.Outcome State Fault Refusal :=
  timed dt (rankImprovement cand) s

/-- GNSS_SENTENCE (R107). -/
def execGnssSentence (dt : Nat) (chars : List Byte) (began : Nat) (s : State) : Host.Outcome State Fault Refusal :=
  timed dt (gnssSentence chars began) s

/-- MSG_LATEST_EXPIRY (R462). -/
def execMsgLatestExpiry (dt : Nat) (s : State) : Host.Outcome State Fault Refusal :=
  timed dt msgLatestExpiry s

/-- REFERENCE_ENABLE (R102). -/
def execReferenceEnable (dt : Nat) (r : Requester) (cand : Fin 24) (v : Nat) (s : State) : Host.Outcome State Fault Refusal :=
  timed dt (serveWrite r (addrWord 0x10 cand 0) 1 v) s

/-- DOMAIN_EDGE (R106). -/
def execDomainEdge (dt : Nat) (i : Fin 8) (s : State) : Host.Outcome State Fault Refusal :=
  timed dt (withSeconds (domainEdge i)) s

/-- STICKY_CLEAR (R135). -/
def execStickyClear (dt : Nat) (r : Requester) (address v : Nat) (s : State) : Host.Outcome State Fault Refusal :=
  timed dt (serveWrite r (address) 1 v) s

end Sys2Proof.Machine
end

