-- ==== Sys2Proof/Machine/Dispatch.lean ====
section
/-! DEFINITION. The meaning of every command: one arm per constructor, each a call of its meaning. -/

namespace Sys2Proof.Machine

/-- The effect of a command on everything but the queue. -/
def exec (i : Instr) (s : State) : Host.Outcome State Fault Refusal :=
  match i with
  | .powerUp x sealDur entryDur => Sys2Proof.Machine.execPowerUp x sealDur entryDur s
  | .startupHoldExpiry dt sealDur entryDur => Sys2Proof.Machine.execStartupHoldExpiry dt sealDur entryDur s
  | .sealNow dt r arg sealDur entryDur => Sys2Proof.Machine.execSealNow dt r arg sealDur entryDur s
  | .lowInput dt => Sys2Proof.Machine.execLowInput dt s
  | .overVoltage dt mv => Sys2Proof.Machine.execOverVoltage dt mv s
  | .pfailSet dt => Sys2Proof.Machine.execPfailSet dt s
  | .holdupWriteComplete dt => Sys2Proof.Machine.execHoldupWriteComplete dt s
  | .pfailClear dt => Sys2Proof.Machine.execPfailClear dt s
  | .holdupRecordCopy dt => Sys2Proof.Machine.execHoldupRecordCopy dt s
  | .orderlyStop dt => Sys2Proof.Machine.execOrderlyStop dt s
  | .codingChange dt conn => Sys2Proof.Machine.execCodingChange dt conn s
  | .ovenReady dt => Sys2Proof.Machine.execOvenReady dt s
  | .ovenExcursion dt => Sys2Proof.Machine.execOvenExcursion dt s
  | .measurementRefresh dt m => Sys2Proof.Machine.execMeasurementRefresh dt m s
  | .sleep dt r arg => Sys2Proof.Machine.execSleep dt r arg s
  | .sleepDecision dt => Sys2Proof.Machine.execSleepDecision dt s
  | .sleepCommit dt => Sys2Proof.Machine.execSleepCommit dt s
  | .wakePin dt held => Sys2Proof.Machine.execWakePin dt held s
  | .canWakeFrame dt ch ident => Sys2Proof.Machine.execCanWakeFrame dt ch ident s
  | .t1Wake dt port => Sys2Proof.Machine.execT1Wake dt port s
  | .timebaseAlarm dt => Sys2Proof.Machine.execTimebaseAlarm dt s
  | .wake dt => Sys2Proof.Machine.execWake dt s
  | .enterSafe dt r arg => Sys2Proof.Machine.execEnterSafe dt r arg s
  | .principalTbWrite dt r v => Sys2Proof.Machine.execPrincipalTbWrite dt r v s
  | .checkerError dt id syndrome => Sys2Proof.Machine.execCheckerError dt id syndrome s
  | .pathFault dt id high => Sys2Proof.Machine.execPathFault dt id high s
  | .maskClose dt => Sys2Proof.Machine.execMaskClose dt s
  | .collectorSelfFault dt recordPath => Sys2Proof.Machine.execCollectorSelfFault dt recordPath s
  | .ocxoActivityLoss dt => Sys2Proof.Machine.execOcxoActivityLoss dt s
  | .safeRecordWrite dt => Sys2Proof.Machine.execSafeRecordWrite dt s
  | .watchdogTimeout dt core => Sys2Proof.Machine.execWatchdogTimeout dt core s
  | .mpuViolation dt core w syndrome => Sys2Proof.Machine.execMpuViolation dt core w syndrome s
  | .grossFrequencyGate dt offset syndrome => Sys2Proof.Machine.execGrossFrequencyGate dt offset syndrome s
  | .fineFrequencyGate dt offset syndrome => Sys2Proof.Machine.execFineFrequencyGate dt offset syndrome s
  | .ocxoConsensusTest dt => Sys2Proof.Machine.execOcxoConsensusTest dt s
  | .clear dt r arg => Sys2Proof.Machine.execClear dt r arg s
  | .inject dt r arg => Sys2Proof.Machine.execInject dt r arg s
  | .injectionCheck dt i0 i0b i1 => Sys2Proof.Machine.execInjectionCheck dt i0 i0b i1 s
  | .sweep dt r arg => Sys2Proof.Machine.execSweep dt r arg s
  | .sweepStep dt i0 i0b i1 => Sys2Proof.Machine.execSweepStep dt i0 i0b i1 s
  | .relayTimeout dt => Sys2Proof.Machine.execRelayTimeout dt s
  | .claimNormal dt core => Sys2Proof.Machine.execClaimNormal dt core s
  | .claimFast dt core => Sys2Proof.Machine.execClaimFast dt core s
  | .complete dt core word => Sys2Proof.Machine.execComplete dt core word s
  | .coalesceTimeout dt target => Sys2Proof.Machine.execCoalesceTimeout dt target s
  | .deliveryRetry dt => Sys2Proof.Machine.execDeliveryRetry dt s
  | .eventMessage dt => Sys2Proof.Machine.execEventMessage dt s
  | .alertAck dt r line arg => Sys2Proof.Machine.execAlertAck dt r line arg s
  | .alertStretchExpiry dt line => Sys2Proof.Machine.execAlertStretchExpiry dt line s
  | .alertModeWrite dt r line v => Sys2Proof.Machine.execAlertModeWrite dt r line v s
  | .routeWrite dt r src v => Sys2Proof.Machine.execRouteWrite dt r src v s
  | .referenceEdge dt n frac => Sys2Proof.Machine.execReferenceEdge dt n frac s
  | .missingEdge dt cand => Sys2Proof.Machine.execMissingEdge dt cand s
  | .gnssSourceMissingPulse dt n => Sys2Proof.Machine.execGnssSourceMissingPulse dt n s
  | .frequencyWindowUpdate dt cand => Sys2Proof.Machine.execFrequencyWindowUpdate dt cand s
  | .waitToRestoreExpiry dt cand => Sys2Proof.Machine.execWaitToRestoreExpiry dt cand s
  | .rankImprovementExpiry dt cand => Sys2Proof.Machine.execRankImprovementExpiry dt cand s
  | .gnssSentence dt chars began => Sys2Proof.Machine.execGnssSentence dt chars began s
  | .msgLatestExpiry dt => Sys2Proof.Machine.execMsgLatestExpiry dt s
  | .referenceEnable dt r cand v => Sys2Proof.Machine.execReferenceEnable dt r cand v s
  | .domainEdge dt x => Sys2Proof.Machine.execDomainEdge dt x s
  | .stickyClear dt r address v => Sys2Proof.Machine.execStickyClear dt r address v s
  | .lockCriterion dt n => Sys2Proof.Machine.execLockCriterion dt n s
  | .channelEnable dt r n v => Sys2Proof.Machine.execChannelEnable dt r n v s
  | .firstAlignment dt n frac => Sys2Proof.Machine.execFirstAlignment dt n frac s
  | .ldaMonUpdate dt => Sys2Proof.Machine.execLdaMonUpdate dt s
  | .lanternEvaluation dt => Sys2Proof.Machine.execLanternEvaluation dt s
  | .learningSample dt => Sys2Proof.Machine.execLearningSample dt s
  | .modelCommit dt => Sys2Proof.Machine.execModelCommit dt s
  | .modelSave dt => Sys2Proof.Machine.execModelSave dt s
  | .modelStore dt r arg => Sys2Proof.Machine.execModelStore dt r arg s
  | .modelWrite dt r image => Sys2Proof.Machine.execModelWrite dt r image s
  | .steeringWrite dt r n v => Sys2Proof.Machine.execSteeringWrite dt r n v s
  | .coreEnable dt r c v => Sys2Proof.Machine.execCoreEnable dt r c v s
  | .coreLock dt c band fine => Sys2Proof.Machine.execCoreLock dt c band fine s
  | .coreLockLoss dt c => Sys2Proof.Machine.execCoreLockLoss dt c s
  | .retuneOutputsStopped dt c => Sys2Proof.Machine.execRetuneOutputsStopped dt c s
  | .cardTimeout dt c => Sys2Proof.Machine.execCardTimeout dt c s
  | .cardStore dt => Sys2Proof.Machine.execCardStore dt s
  | .cardsWrite dt r image => Sys2Proof.Machine.execCardsWrite dt r image s
  | .commit dt r arg => Sys2Proof.Machine.execCommit dt r arg s
  | .commitInstant dt => Sys2Proof.Machine.execCommitInstant dt s
  | .outputEnable dt r n v => Sys2Proof.Machine.execOutputEnable dt r n v s
  | .formatWrite dt r n v => Sys2Proof.Machine.execFormatWrite dt r n v s
  | .chimneyFrequencyTest dt n fast fine => Sys2Proof.Machine.execChimneyFrequencyTest dt n fast fine s
  | .chimneySlewTest dt n short long => Sys2Proof.Machine.execChimneySlewTest dt n short long s
  | .windowGateReopen dt n => Sys2Proof.Machine.execWindowGateReopen dt n s
  | .heartbeatRefresh dt => Sys2Proof.Machine.execHeartbeatRefresh dt s
  | .heartbeatLapse dt => Sys2Proof.Machine.execHeartbeatLapse dt s
  | .syncReceive dt port h kind origin ratio => Sys2Proof.Machine.execSyncReceive dt port h kind origin ratio s
  | .followUpReceive dt port h origin ratio gm => Sys2Proof.Machine.execFollowUpReceive dt port h origin ratio gm s
  | .restep dt r tb arg => Sys2Proof.Machine.execRestep dt r tb arg s
  | .clearDisc dt r tb arg => Sys2Proof.Machine.execClearDisc dt r tb arg s
  | .localLabel dt r tb t => Sys2Proof.Machine.execLocalLabel dt r tb t s
  | .leapSecondApply dt tb => Sys2Proof.Machine.execLeapSecondApply dt tb s
  | .utcWrite dt r tb element v t => Sys2Proof.Machine.execUtcWrite dt r tb element v t s
  | .domainKindWrite dt r x v => Sys2Proof.Machine.execDomainKindWrite dt r x v s
  | .receiptTimeout dt x announce => Sys2Proof.Machine.execReceiptTimeout dt x announce s
  | .domainRankWait dt x => Sys2Proof.Machine.execDomainRankWait dt x s
  | .phyCopyRealign dt port mismatch => Sys2Proof.Machine.execPhyCopyRealign dt port mismatch s
  | .announceReceive dt port h d => Sys2Proof.Machine.execAnnounceReceive dt port h d s
  | .delayReqReceive dt port h => Sys2Proof.Machine.execDelayReqReceive dt port h s
  | .delayRespReceive dt port h receive toIdentity toPort => Sys2Proof.Machine.execDelayRespReceive dt port h receive toIdentity toPort s
  | .pdelayReqReceive dt port h => Sys2Proof.Machine.execPdelayReqReceive dt port h s
  | .pdelayRespReceive dt port h t2 t3 toIdentity toPort => Sys2Proof.Machine.execPdelayRespReceive dt port h t2 t3 toIdentity toPort s
  | .transparentForward dt port h kind twoStep residence => Sys2Proof.Machine.execTransparentForward dt port h kind twoStep residence s
  | .announceTransmit dt port x => Sys2Proof.Machine.execAnnounceTransmit dt port x s
  | .syncTransmit dt port x => Sys2Proof.Machine.execSyncTransmit dt port x s
  | .delayReqTransmit dt port x => Sys2Proof.Machine.execDelayReqTransmit dt port x s
  | .pdelayReqTransmit dt port x => Sys2Proof.Machine.execPdelayReqTransmit dt port x s
  | .linkChange dt port up partnerMaster => Sys2Proof.Machine.execLinkChange dt port up partnerMaster s
  | .roleWrite dt r port x v => Sys2Proof.Machine.execRoleWrite dt r port x v s
  | .tsiEdge dt n edge frac => Sys2Proof.Machine.execTsiEdge dt n edge frac s
  | .tdcCalibration dt n ok syndrome => Sys2Proof.Machine.execTdcCalibration dt n ok syndrome s
  | .ringSlot dt => Sys2Proof.Machine.execRingSlot dt s
  | .staleRecord dt n => Sys2Proof.Machine.execStaleRecord dt n s
  | .anchorPeriodic dt tb => Sys2Proof.Machine.execAnchorPeriodic dt tb s
  | .ringFlush dt r arg => Sys2Proof.Machine.execRingFlush dt r arg s
  | .streamPacket dt => Sys2Proof.Machine.execStreamPacket dt s
  | .tsiEnable dt r n v => Sys2Proof.Machine.execTsiEnable dt r n v s
  | .tcRun dt r k v => Sys2Proof.Machine.execTcRun dt r k v s
  | .gateEnd dt k => Sys2Proof.Machine.execGateEnd dt k s
  | .tcEdgeEvaluation dt k => Sys2Proof.Machine.execTcEdgeEvaluation dt k s
  | .heldStopExpiry dt k => Sys2Proof.Machine.execHeldStopExpiry dt k s
  | .axisCountEdge dt k aChanged bChanged a b => Sys2Proof.Machine.execAxisCountEdge dt k aChanged bChanged a b s
  | .indexEdge dt k => Sys2Proof.Machine.execIndexEdge dt k s
  | .axisStall dt k => Sys2Proof.Machine.execAxisStall dt k s
  | .axisKindWrite dt r k v => Sys2Proof.Machine.execAxisKindWrite dt r k v s
  | .preset dt r k v => Sys2Proof.Machine.execPreset dt r k v s
  | .actionFire dt => Sys2Proof.Machine.execActionFire dt s
  | .overrunFire dt => Sys2Proof.Machine.execOverrunFire dt s
  | .arm dt r a => Sys2Proof.Machine.execArm dt r a s
  | .armEffect dt a => Sys2Proof.Machine.execArmEffect dt a s
  | .disarm dt r a => Sys2Proof.Machine.execDisarm dt r a s
  | .disarmAll dt r arg => Sys2Proof.Machine.execDisarmAll dt r arg s
  | .actionKindWrite dt r a v => Sys2Proof.Machine.execActionKindWrite dt r a v s
  | .calendarWrite dt r image => Sys2Proof.Machine.execCalendarWrite dt r image s
  | .pulseEnd dt n => Sys2Proof.Machine.execPulseEnd dt n s
  | .windowEnd dt n => Sys2Proof.Machine.execWindowEnd dt n s
  | .servoEnable dt r k v => Sys2Proof.Machine.execServoEnable dt r k v s
  | .read dt r f => Sys2Proof.Machine.execRead dt r f s
  | .write dt r f => Sys2Proof.Machine.execWrite dt r f s
  | .readBlock dt r f => Sys2Proof.Machine.execReadBlock dt r f s
  | .writeBlock dt r f => Sys2Proof.Machine.execWriteBlock dt r f s
  | .subscribe dt r f => Sys2Proof.Machine.execSubscribe dt r f s
  | .transferTimeout dt => Sys2Proof.Machine.execTransferTimeout dt s
  | .leaseExpiry dt => Sys2Proof.Machine.execLeaseExpiry dt s
  | .journalFlush dt => Sys2Proof.Machine.execJournalFlush dt s
  | .store dt r arg => Sys2Proof.Machine.execStore dt r arg s
  | .storeComplete dt e => Sys2Proof.Machine.execStoreComplete dt e s
  | .eraseConfig dt r arg => Sys2Proof.Machine.execEraseConfig dt r arg s
  | .firmwareWrite dt r image => Sys2Proof.Machine.execFirmwareWrite dt r image s
  | .activate dt r arg => Sys2Proof.Machine.execActivate dt r arg s
  | .nvRefresh dt due failed spare erase => Sys2Proof.Machine.execNvRefresh dt due failed spare erase s
  | .arpRequest dt port target mac ip => Sys2Proof.Machine.execArpRequest dt port target mac ip s
  | .icmpEcho dt port target mac ip payload => Sys2Proof.Machine.execIcmpEcho dt port target mac ip payload s
  | .channelSecond dt n => Sys2Proof.Machine.execChannelSecond dt n s
  | .coreStop dt core => Sys2Proof.Machine.execCoreStop dt core s
  | .taperPullEnd dt p => Sys2Proof.Machine.execTaperPullEnd dt p s
  | .operatingInputRestored dt mv => Sys2Proof.Machine.execOperatingInputRestored dt mv s
  | .strobeWindowExpiry dt k => Sys2Proof.Machine.execStrobeWindowExpiry dt k s
  | .layer2Forwarding dt port dst src etherType payload => Sys2Proof.Machine.execLayer2Forwarding dt port dst src etherType payload s

end Sys2Proof.Machine
end

