-- ==== Sys2Proof/Machine/Scan.lean ====
section
/-! DEFINITION. The boundary-scan port of J10 (R64, R65). No row of the opcode table moves its pins, so no command calls it; what it
does is stated here (log entry 115). -/

namespace Sys2Proof.Machine

/-- The controller's next state for the level of TMS at a rising edge of TCK (R65: IEEE 1149.1). -/
def TapState.next (tms : Bool) : TapState → TapState
  | .testLogicReset => if tms then .testLogicReset else .runTestIdle
  | .runTestIdle => if tms then .selectDr else .runTestIdle
  | .selectDr => if tms then .selectIr else .captureDr
  | .captureDr => if tms then .exit1Dr else .shiftDr
  | .shiftDr => if tms then .exit1Dr else .shiftDr
  | .exit1Dr => if tms then .updateDr else .pauseDr
  | .pauseDr => if tms then .exit2Dr else .pauseDr
  | .exit2Dr => if tms then .updateDr else .shiftDr
  | .updateDr => if tms then .selectDr else .runTestIdle
  | .selectIr => if tms then .testLogicReset else .captureIr
  | .captureIr => if tms then .exit1Ir else .shiftIr
  | .shiftIr => if tms then .exit1Ir else .shiftIr
  | .exit1Ir => if tms then .updateIr else .pauseIr
  | .pauseIr => if tms then .exit2Ir else .pauseIr
  | .exit2Ir => if tms then .updateIr else .shiftIr
  | .updateIr => if tms then .selectDr else .runTestIdle

/-- The identity that IDCODE returns (R65), the bit nearest TDO first. -/
def scanIdentity : List Bool := (List.range 32).map fun i => (0x196001A3#32).getLsbD i

/-- What the selected data register captures (R65): 0 in BYPASS, the identity, or the levels at the pins. The order of the boundary
cells is not given, so each is a free value. -/
def scanCapture (free : Nat) : ScanInstr → List Bool
  | .bypass => [false]
  | .idcode => scanIdentity
  | .sample => (List.range Config.boundaryCells).map fun i => Config.freeBool (free + i)

/-- The instruction that a code selects (R65): every code but those of IDCODE and SAMPLE acts as BYPASS. -/
def scanInstr (code : List Bool) : ScanInstr :=
  match Config.scanCode code with
  | some true => .idcode
  | some false => .sample
  | none => .bypass

/-- A shift register after one shift from TDI towards TDO. -/
def shiftIn (tdi : Bool) (l : List Bool) : List Bool := l.drop 1 ++ [tdi]

/-- The port after a rising edge of TCK (R65): no instruction drives a pin, writes a register or alters a signal path. -/
def Tap.clock (tms tdi : Bool) (free : Nat) (t : Tap) : Tap :=
  let u := match t.ctl with
    | .captureDr => { t with dr := scanCapture free t.instr }
    | .shiftDr => { t with dr := shiftIn tdi t.dr }
    | .captureIr => { t with ir := true :: List.replicate (Config.scanIrLength - 1) false }
    | .shiftIr => { t with ir := shiftIn tdi t.ir }
    | .updateIr => { t with instr := scanInstr t.ir }
    | .testLogicReset => { t with instr := .idcode }
    | _ => t
  { u with ctl := t.ctl.next tms }

/-- TDO (R64): driven while a register shifts. -/
def Tap.tdo (t : Tap) : Option Bool :=
  match t.ctl with
  | .shiftDr => t.dr.head?
  | .shiftIr => t.ir.head?
  | _ => none

/-- A rising edge of TCK at J10 (R64, R65). TRST_N low, or open, holds the port in reset; an unpowered module has none. -/
def tapClock (trstN tms tdi : Bool) (s : State) : State :=
  if !trstN || s.pwr.supply == .unpowered then { s with tap := Tap.reset }
  else { s with tap := s.tap.clock tms tdi s.free, free := s.free + if s.tap.ctl = .captureDr then Config.boundaryCells else 0 }

end Sys2Proof.Machine
end

