-- ==== Sys2Proof/WellFormed.lean ====
section
/-! DEFINITION. Which commands are well-formed: the data they carry fit the widths and the ranges that the spec gives them. -/

namespace Sys2Proof

/-- A number of `n` bits. -/
abbrev fits (n v : Nat) : Bool := decide (v < 2 ^ n)

/-- A requester (R403, R404, R408): an Ethernet port or one of the two CAN channels, and fields of their widths. -/
def Requester.wf (r : Requester) : Bool :=
  (decide (r.iface < 14) || r.iface == 0x40 || r.iface == 0x41)
    && fits 32 r.source && fits 16 r.sport && fits 48 r.mac && fits 8 r.version && fits 16 r.seq

/-- The fields of a frame have the widths of R404 and R408. -/
def Frame.wf (f : Frame) : Bool :=
  fits 16 f.magic && fits 8 f.opcode && fits 8 f.status && fits 6 f.reserved && fits 32 f.address && fits 16 f.length
    && fits 16 f.segment && fits 32 f.crc

/-- The measurements fit the elements of R99. -/
def Sensors.wf (m : Sensors) : Bool :=
  fits 32 m.vin && fits 32 m.iin && fits 32 m.pin && fits 32 m.load
    && decide (-(2 ^ 31 : Int) ≤ m.tBase) && decide (m.tBase < 2 ^ 31) && decide (-(2 ^ 31 : Int) ≤ m.tOcxo)
    && decide (m.tOcxo < 2 ^ 31)

/-- What a start finds: one coding for each of J2, J3 and J4, cores 0 to 2, identities of 16 bits, a hold-up estimate of 16 bits, and
a PFAIL only before step 3 is over (R43, R83, R94, R99, R353). -/
def StartIn.wf (i : StartIn) : Bool :=
  i.vsel.length == 3 && i.coreFails.all (fun c => decide (c < 3)) && i.bistFails.all (fits 16) && fits 16 i.holdup && i.sensors.wf
    && (match i.stopped with | some t => decide (t < i.load + i.bist + i.boot) | none => true)

/-- An instant within the present engine cycle of 1 ns (R18). -/
def inCycle (q : Rat) : Bool := decide (0 ≤ q) && decide (q < 1)

/-- Header fields of a PTP message. -/
def PtpHdr.wf (h : PtpHdr) : Bool := fits 8 h.domain && fits 16 h.seqId && fits 64 h.sender && fits 16 h.senderPort

/-- The gmTimeBaseIndicator of a one-step Sync has its width. -/
def SyncKind.wf : SyncKind → Bool
  | .oneStep (some v) => fits 16 v.1
  | .oneStep none | .twoStep => true

/-- A dataset has the widths of an Announce message. -/
def Dataset.wf (d : Dataset) : Bool :=
  fits 64 d.gmIdentity && fits 8 d.gmClass && fits 8 d.accuracy && fits 16 d.variance && fits 8 d.priority1
    && fits 8 d.priority2 && fits 16 d.steps && fits 8 d.timeSource && decide (-(2 ^ 15 : Int) ≤ d.utcOffset)
    && decide (d.utcOffset < 2 ^ 15)

/-- A TIME80 value (R413). -/
def Time80.wf (t : Time80) : Bool := fits 48 t.sec && fits 32 t.ns

/-- A layer 2 frame's addresses and type. -/
def macWf (dst src etherType : Nat) : Bool := fits 48 dst && fits 48 src && fits 16 etherType

/-- A command is well-formed. -/
def Instr.wf : Instr → Bool
  | .powerUp i _ _ => i.wf
  | .sealNow _ r arg _ _ => r.wf && fits 8 arg
  | .measurementRefresh _ m => m.wf
  | .sleep _ r arg => r.wf && fits 8 arg
  | .canWakeFrame _ _ ident => fits 29 ident
  | .enterSafe _ r arg => r.wf && fits 8 arg
  | .principalTbWrite _ r v => r.wf && fits 8 v
  | .checkerError _ id _ => fits 16 id
  | .pathFault _ id _ => fits 16 id
  | .mpuViolation _ _ w _ => fits 22 w.addr
  | .clear _ r arg => r.wf && fits 8 arg
  | .inject _ r arg => r.wf && fits 8 arg
  | .sweep _ r arg => r.wf && fits 8 arg
  | .alertAck _ r _ arg => r.wf && fits 8 arg
  | .alertModeWrite _ r _ v => r.wf && fits 8 v
  | .routeWrite _ r _ v => r.wf && fits 8 v
  | .referenceEdge _ _ frac => inCycle frac
  | .referenceEnable _ r _ v => r.wf && fits 8 v
  | .stickyClear _ r address v => r.wf && fits 32 address && fits 8 v
  | .channelEnable _ r _ v => r.wf && fits 8 v
  | .firstAlignment _ _ frac => inCycle frac
  | .modelStore _ r arg => r.wf && fits 8 arg
  | .modelWrite _ r _ => r.wf
  | .steeringWrite _ r _ v => r.wf && decide (-(2 ^ 63 : Int) ≤ v) && decide (v < 2 ^ 63)
  | .coreEnable _ r _ v => r.wf && fits 8 v
  | .coreLock _ _ band fine => fits 16 band && fits 16 fine
  | .cardsWrite _ r _ => r.wf
  | .commit _ r arg => r.wf && fits 8 arg
  | .outputEnable _ r _ v => r.wf && fits 8 v
  | .formatWrite _ r _ v => r.wf && fits 8 v
  | .chimneyFrequencyTest _ _ fast fine => decide (0 ≤ fast) && decide (0 ≤ fine)
  | .syncReceive _ _ h kind _ _ => h.wf && kind.wf
  | .followUpReceive _ _ h _ _ gm => h.wf && (match gm with | some v => fits 16 v.1 | none => true)
  | .restep _ r _ arg => r.wf && fits 8 arg
  | .clearDisc _ r _ arg => r.wf && fits 8 arg
  | .localLabel _ r _ t => r.wf && t.wf
  | .utcWrite _ r _ element _ t => r.wf && t.wf && element != 0
  | .domainKindWrite _ r _ v => r.wf && fits 8 v
  | .announceReceive _ _ h d => h.wf && d.wf
  | .delayReqReceive _ _ h => h.wf
  | .delayRespReceive _ _ h _ ident port => h.wf && fits 64 ident && fits 16 port
  | .pdelayReqReceive _ _ h => h.wf
  | .pdelayRespReceive _ _ h _ _ ident port => h.wf && fits 64 ident && fits 16 port
  | .transparentForward _ _ h _ _ residence => h.wf && decide (0 ≤ residence)
  | .roleWrite _ r _ _ v => r.wf && fits 8 v
  | .tsiEdge _ _ _ frac => inCycle frac
  | .ringFlush _ r arg => r.wf && fits 8 arg
  | .tsiEnable _ r _ v => r.wf && fits 8 v
  | .tcRun _ r _ v => r.wf && fits 8 v
  | .axisCountEdge _ _ aChanged bChanged _ _ => aChanged || bChanged
  | .axisKindWrite _ r _ v => r.wf && fits 8 v
  | .preset _ r _ v => r.wf && fits 64 v
  | .arm _ r _ => r.wf
  | .disarm _ r _ => r.wf
  | .disarmAll _ r arg => r.wf && fits 8 arg
  | .actionKindWrite _ r _ v => r.wf && fits 8 v
  | .calendarWrite _ r _ => r.wf
  | .servoEnable _ r _ v => r.wf && fits 8 v
  | .read _ r f => r.wf && f.wf && f.opcode == 1
  | .write _ r f => r.wf && f.wf && f.opcode == 2
  | .readBlock _ r f => r.wf && f.wf && f.opcode == 3
  | .writeBlock _ r f => r.wf && f.wf && f.opcode == 4
  | .subscribe _ r f => r.wf && f.wf && f.opcode == 6
  | .store _ r arg => r.wf && fits 8 arg
  | .eraseConfig _ r arg => r.wf && fits 8 arg
  | .firmwareWrite _ r _ => r.wf
  | .activate _ r arg => r.wf && fits 8 arg
  | .nvRefresh _ due _ spare erase => fits 32 due && fits 16 spare && fits 32 erase
  | .arpRequest _ _ target mac ip => fits 32 target && fits 48 mac && fits 32 ip
  | .icmpEcho _ _ target mac ip _ => fits 32 target && fits 48 mac && fits 32 ip
  | .layer2Forwarding _ _ dst src etherType _ => macWf dst src etherType
  | .startupHoldExpiry .. | .lowInput .. | .overVoltage .. | .pfailSet .. | .holdupWriteComplete .. | .pfailClear ..
  | .holdupRecordCopy .. | .orderlyStop .. | .codingChange .. | .ovenReady .. | .ovenExcursion .. | .sleepDecision .. | .sleepCommit ..
  | .wakePin .. | .t1Wake .. | .timebaseAlarm .. | .wake .. | .maskClose .. | .collectorSelfFault .. | .ocxoActivityLoss ..
  | .safeRecordWrite .. | .watchdogTimeout .. | .grossFrequencyGate .. | .fineFrequencyGate .. | .ocxoConsensusTest ..
  | .injectionCheck .. | .sweepStep .. | .relayTimeout .. | .claimNormal .. | .claimFast .. | .complete .. | .coalesceTimeout ..
  | .deliveryRetry .. | .eventMessage .. | .alertStretchExpiry .. | .missingEdge .. | .gnssSourceMissingPulse ..
  | .frequencyWindowUpdate .. | .waitToRestoreExpiry .. | .rankImprovementExpiry .. | .gnssSentence .. | .msgLatestExpiry ..
  | .domainEdge .. | .lockCriterion .. | .ldaMonUpdate .. | .lanternEvaluation .. | .learningSample .. | .modelCommit ..
  | .modelSave .. | .coreLockLoss .. | .retuneOutputsStopped .. | .cardTimeout .. | .cardStore .. | .commitInstant ..
  | .chimneySlewTest .. | .windowGateReopen .. | .heartbeatRefresh .. | .heartbeatLapse .. | .leapSecondApply .. | .receiptTimeout ..
  | .domainRankWait .. | .phyCopyRealign .. | .announceTransmit .. | .syncTransmit .. | .delayReqTransmit .. | .pdelayReqTransmit ..
  | .linkChange .. | .tdcCalibration .. | .ringSlot .. | .staleRecord .. | .anchorPeriodic .. | .streamPacket .. | .gateEnd ..
  | .tcEdgeEvaluation .. | .heldStopExpiry .. | .indexEdge .. | .axisStall .. | .actionFire .. | .overrunFire .. | .armEffect ..
  | .pulseEnd .. | .windowEnd .. | .transferTimeout .. | .leaseExpiry .. | .journalFlush .. | .storeComplete .. | .channelSecond ..
  | .coreStop .. | .taperPullEnd .. | .operatingInputRestored .. | .strobeWindowExpiry .. => true

end Sys2Proof
end

