-- ==== Sys2Proof/Safety.lean ====
section
/-! DEFINITION. What the statements say of a state: the form of the processor SRAM, what the module keeps consistent after every command,
and the requests that are heard. -/

namespace Sys2Proof.Machine

/-! ## The processor SRAM -/

/-- The canonical form of a memory: addresses inside the SRAM and strictly rising, and no byte of 0 listed (R30, log entry 5). -/
def Memory.wf : List Host.Cell → Bool
  | [] => true
  | [c] => decide (c.1 < sramSize) && c.2 != 0#8
  | c :: d :: rest => decide (c.1 < d.1) && c.2 != 0#8 && Memory.wf (d :: rest)

/-! ## What holds after every command (R57, R75 to R78, R461) -/

/-- The mode is the one that R75 gives for the principal timebase, in the three modes in which the timebase decides it; where a mode was
entered in this very cycle, the next one waits for the cycle after it (R81). -/
def modeFits (s : State) : Prop := moved s = false → modeNow s = s.md.mode

/-- `VOUCHING` shows the condition of R76, and the Vouching gate is closed exactly while the module does not vouch (R78, R235). -/
def vouchingFits (s : State) : Prop := s.md.vouching = vouchNow s ∧ s.ou.vouchClosed = !s.md.vouching

/-- The pins that show the mode, holdover, the BEACON pulses, lock and PFAIL show the state (R57, R73, R77, R79, R147); J4's outputs rest low while its
coding is invalid (R45, R50). -/
def pinsFit (s : State) : Prop :=
  s.pins.mode = (if s.isFenced (.conn 4) then 0#3 else BitVec.ofNat 3 s.md.mode.code)
    ∧ s.pins.hold = (holdPin s && !s.isFenced (.conn 4))
    ∧ s.pins.beacon = (beaconHigh s && !s.isFenced (.conn 4))
    ∧ s.pins.lock = (if s.isFenced (.conn 4) || s.md.mode == .safe then 0#8 else bitSet 8 fun n => (s.chan n).inLock)
    ∧ s.pins.pfailOut = !s.pwr.pfail

/-- No request waits for a core that is fenced (R461). -/
def relaysFit (s : State) : Prop := ∀ x ∈ s.dop.relays, s.core x.core ≠ .fenced

/-- A module without power drives no pin (R72). -/
def darkFits (s : State) : Prop := s.pins = Pins.reset

/-- What every command leaves: a module whose engine runs shows its mode, its vouching and its pins as the state has them; one without
power shows nothing; no request waits for a fenced core. -/
def Consistent (s : State) : Prop :=
  (s.powered = true ∧ s.clk.running = true → modeFits s ∧ vouchingFits s ∧ pinsFit s)
    ∧ (s.powered = false → darkFits s) ∧ relaysFit s

/-! ## SAFE (R371) -/

/-- The module has power and is in SAFE (R371). -/
def InSafe (s : State) : Prop := s.md.mode = .safe ∧ s.pwr.supply = .on

/-! ## Requests and events (R403) -/

/-- The command is a request of the object protocol; every other one is an event. -/
def isRequest : Instr → Bool
  | .sealNow .. | .sleep .. | .enterSafe .. | .principalTbWrite .. | .clear .. | .inject .. | .sweep .. | .alertAck .. |
    .alertModeWrite .. | .routeWrite .. | .referenceEnable .. | .stickyClear .. | .channelEnable .. | .modelStore .. | .modelWrite .. |
    .steeringWrite .. | .coreEnable .. | .cardsWrite .. | .commit .. | .outputEnable .. | .formatWrite .. | .restep .. |
    .clearDisc .. | .localLabel .. | .utcWrite .. | .domainKindWrite .. | .roleWrite .. | .ringFlush .. | .tsiEnable .. | .tcRun .. |
    .axisKindWrite .. | .preset .. | .arm .. | .disarm .. | .disarmAll .. | .actionKindWrite .. | .calendarWrite .. | .servoEnable .. |
    .read .. | .write .. | .readBlock .. | .writeBlock .. | .subscribe .. | .store .. | .eraseConfig .. | .firmwareWrite .. |
    .activate .. => true
  | _ => false

/-! ## Requests that are heard (R403 to R419) -/

/-- The request reaches the MGT core and passes the tests of R405, the queue is not full, nothing kept is repeated, and its VERSION is
served. -/
abbrev Heard (r : Requester) (f : Frame) (s : State) : Prop :=
  arrives s r = true ∧ discards s r f = false ∧ s.dop.relays.length < 32 ∧ cached s r f = none ∧ r.version = 1

/-- The frame of a `WRITE` of one element (R417). -/
def writeFrame (r : Requester) (address : Nat) (ty : ElTy) (v : Int) : Frame := mkFrame r 2 address none (intBytes ty.size v)

/-- The frame of a `COMMAND` (R417). -/
def commandFrame (r : Requester) (address : Nat) (ty : ElTy) (v : Int) : Frame := mkFrame r 5 address none (intBytes ty.size v)

/-- The request is counted (R438). -/
def counted (s : State) : State := { s with dop := { s.dop with requests := s.dop.requests + 1 } }

/-- A `WRITE` has completed with OK in `s`: it is journalled with the old and the new value and answered (R410, R430, R431). -/
def written (r : Requester) (address : Nat) (ty : ElTy) (old v : Int) (s : State) : State :=
  answer r (writeFrame r address ty v) 1 stOk []
    (record (requestRecord r 0 2 address ty.code ty.size (rightAlign (ty.encode old)) (rightAlign (ty.encode v))) s)

/-- A `COMMAND` has completed with OK in `s`: it is journalled and answered. -/
def commanded (r : Requester) (address : Nat) (ty : ElTy) (v : Int) (s : State) : State :=
  answer r (commandFrame r address ty v) 1 stOk []
    (record (requestRecord r 1 5 address ty.code ty.size [] (rightAlign (ty.encode v))) s)

/-- The request that carries segment n of a BLOB write: SEQ rises by one with each (R408, R419). -/
def blobSender (r : Requester) (n : Nat) : Requester := { r with seq := r.seq + n }

/-- The frame of segment n of a BLOB write (R419). -/
def blobFrame (r : Requester) (address n : Nat) (piece : List Byte) : Frame := mkFrame (blobSender r n) 4 address (some n) piece

/-- Every segment of a BLOB write is heard in `s` (R405, R419). -/
abbrev BlobHeard (r : Requester) (address : Nat) (image : List Byte) (s : State) : Prop :=
  ∀ p ∈ segmentsOf (segmentSize r.iface) image, Heard (blobSender r p.1) (blobFrame r address p.1 p.2) s

/-- No transfer of a BLOB is open (R419). -/
abbrev BlobFree (address : Nat) (s : State) : Prop := (∀ x ∈ s.dop.wx, x.address ≠ address) ∧ ∀ x ∈ s.dop.rx, x.address ≠ address

/-- The number of the end segment of a BLOB write: the segments that carry data (R419). -/
def blobEnd (r : Requester) (image : List Byte) : Nat := (image.length + segmentSize r.iface - 1) / segmentSize r.iface

/-- A BLOB write of `image` has completed with OK in `s`: it is journalled by length and CRC-32, and its end segment is answered
(R419, R430, R431). -/
def blobWritten (r : Requester) (address : Nat) (old image : List Byte) (s : State) : State :=
  let n := blobEnd r image
  answer (blobSender r n) (blobFrame r address n []) 1 stOk []
    (record (requestRecord (blobSender r n) 2 4 address ElTy.blob.code 10 (blobMark old) (blobMark image)) s)

/-- A request has completed with a status and a payload, and nothing is journalled. -/
def replied (r : Requester) (f : Frame) (status : Nat) (payload : List Byte) (s : State) : State := answer r f 1 status payload s

end Sys2Proof.Machine
end

