-- ==== Sys2Proof/Certificates/Slice0/Obligations.lean ====
section
/-! DEFINITION. The statements for the provers. `elapse dt s` is the state after `dt` ns of engine time have passed, before the command
has its effect; `finish u` is what follows in the cycle of the command from its effect `u` (log entry 1). -/

open Sys2Proof Sys2Proof.Machine

/-- With command c at the front of the queue, step is exec of c on the state with the queue's rest. On an empty queue the module idles: the next state is the same state (the model's choice, log entry 1). -/
def Obligations.StepRunsFrontCommand : Prop :=
  (∀ (c : Instr) (rest : List Instr) (s : State), s.pending = c :: rest → step s = exec c { s with pending := rest })
  ∧ ∀ s : State, s.pending = [] → step s = .next s

/-- State.reset is the module as delivered, without power (the model's choice: log entry 7 for the instant, 2 and 4 for the values that no rule states). Its pins are those of R72's column Unpowered, its engine count is 0 and does not run (R18), no level is driven to an output or a trigger, no core executes, Tarn and its first event are empty, no request, subscription or transfer is open, and no command waits. Every register that no rule gives a reset value holds the value the log names. -/
def Obligations.ResetState : Prop :=
  let s := State.reset
  s.powered = false ∧ s.clk.running = false ∧ s.clk.count = 0
  ∧ s.pins.mode = 0#3 ∧ s.pins.hold = false ∧ s.pins.lock = 0#8 ∧ s.pins.beacon = false ∧ s.pins.alertA = false ∧ s.pins.alertB = false
  ∧ s.pins.trg = 0#48
  ∧ (∀ c < 24, (s.cand c).state = .absent) ∧ (∀ n < 32, (s.out n).state = .off) ∧ (∀ k < 3, s.runs k = false)
  ∧ s.fc.tarn = [] ∧ s.fc.firstEvent = none ∧ s.fc.overwritten = 0
  ∧ s.dop.relays = [] ∧ s.dop.subs = [] ∧ s.dop.wx = [] ∧ s.dop.rx = [] ∧ s.ts.stream = none ∧ s.pending = []

/-- State.reset is Consistent: without power it shows nothing, and no request waits for a fenced core. Its processor SRAM lists no byte. -/
def Obligations.ResetConsistent : Prop :=
  Consistent State.reset ∧ Memory.wf State.reset.sram.mem = true ∧ State.reset.pending = []

/-- In every state a module whose engine runs is in the mode that R75 gives for its principal timebase (in the three modes the timebase decides; a change that falls in the cycle of another transition waits for the next cycle, R81), VOUCHING is the condition of R76 and the Vouching gate is closed exactly while the module does not vouch, MODE, HOLD, BEACON, LOCK and PFAIL_OUT show the state, a module without power drives nothing, and no request waits for a fenced core. Every step keeps this: whatever command is at the front of the queue, the state after it meets it; on an empty queue the state is unchanged. -/
def Obligations.StepKeepsConsistent : Prop :=
  ∀ s t : State, Consistent s → step s = .next t → Consistent t

/-- In a module with power in SAFE, every command leaves it with power in SAFE, except the fall of the rails after an orderly stop with PFAIL set, when the loss of input has outlasted the hold-up: the module is then without power, no longer in SAFE, and starts again only through POWER_UP. A dip that the hold-up covers (PFAIL_SET, PFAIL_CLEAR and the hold-up commands) is among the commands that leave SAFE standing. -/
def Obligations.SafeStands : Prop :=
  ∀ (c : Instr) (s t : State), InSafe s → exec c s = .next t →
    InSafe t ∨ ∃ dt, c = .orderlyStop dt ∧ (elapse dt s).pwr.pfail = true ∧ t.powered = false ∧ t.md.mode = .startup

/-- For every command that is not a request, the queue after it is the queue before it, and the processor SRAM is unchanged, but for a module that starts from no power or loses it, whose SRAM is that of reset (what the SRAM holds after power-on is the model's choice, log entry 5), and for a write of a running core to a region that R30 lets it write, which puts its byte there. The statements of the requests give the whole state after each. -/
def Obligations.EventsLeaveQueueAndSram : Prop :=
  ∀ (c : Instr) (s t : State), isRequest c = false → exec c s = .next t →
    t.pending = s.pending
    ∧ (t.sram = s.sram ∨ (t.sram = State.reset.sram ∧ ((∃ dt, c = .orderlyStop dt) ∨ ∃ i a b, c = .powerUp i a b))
      ∨ ∃ (dt : Nat) (core : Fin 3) (w : SramWrite) (syn : BitVec 32), c = .mpuViolation dt core w syn
          ∧ mayWrite core w.addr = true ∧ t.sram.mem = writeByte s.sram.mem w.addr w.value)

/-- Passing dt ns adds dt to the engine count while the engine clock runs, and nothing to it while it stands (R18). Where nothing of the present cycle waits for the next one (a commit with boundary 0, a mode change after another, a selection, a written setting of a delivery target or of UTC: R81, R130, R208, R245, R402), it moves the frames sent, the DCOs, the timebases, the signals of the outputs, the event controller and the calendar, and nothing else; what waits takes effect one cycle later, before the rest of the time passes. In every case, with what then follows in the cycle, the nonvolatile store, the supply, the cores, the fault collector, the interval channels, the axes, the journal, the SRAM and the queue are as before, and of the configuration only the UTC registers can change (R245). -/
def Obligations.TimePassesAlone : Prop :=
  (∀ (dt : Nat) (s : State), s.clk.running = true → (elapse dt s).clk = { s.clk with count := s.clk.count + dt })
  ∧ (∀ (dt : Nat) (s : State), s.clk.running = false → (elapse dt s).clk = s.clk)
  ∧ (∀ (dt : Nat) (s : State), nextCycleDue s = false →
      { elapse dt s with tx := s.tx, clk := s.clk, dp := s.dp, tb := s.tb, ou := s.ou, ev := s.ev, sc := s.sc } = s)
  ∧ (∀ (dt : Nat) (s : State), s.clk.running = true → nextCycleDue s = true → 0 < dt →
      pass dt s = passCycles 3 (dt - 1)
        (nextCycle (commitPending s) (modeWaits s) (selectionDue s) (takeSettings (advance 1 s))))
  ∧ (∀ (dt : Nat) (s : State),
      let t := finish (elapse dt s)
      { t.cfg with utc := s.cfg.utc } = s.cfg ∧ t.nv = s.nv ∧ t.nvc = s.nvc ∧ t.pwr = s.pwr ∧ t.cores = s.cores ∧ t.fc = s.fc ∧ t.tc = s.tc
        ∧ t.ax = s.ax ∧ t.jr = s.jr ∧ t.sram = s.sram ∧ t.free = s.free ∧ t.pending = s.pending)

/-- The selector of channel n is configured in RF.100+n and RF.110+n. A candidate is eligible where its bit of MASK is set, it is QUALIFIED or SELECTED, and its effective rank is 14 or better. Candidate c is the best of channel n exactly where it is eligible and comes first, among the eligible candidates, by the lowest effective rank, then the lowest priority value of the channel's priority object, then the lowest index; there is no best candidate exactly where none is eligible. -/
def Obligations.SelectionOrder : Prop :=
  (∀ (n : Nat) (s : State), n < 8 → s.md.bootRom = false →
    (∃ o m, objectAt s 0x10 (100 + n) = some o ∧ o.find 0 = some m ∧ m.get s = ((s.cfg.sel n).mask.toNat : Int))
    ∧ ∀ c < 24, ∃ o p, objectAt s 0x10 (110 + n) = some o ∧ o.find c = some p ∧ p.get s = ((nth (s.cfg.sel n).priority c 0 : Nat) : Int))
  ∧ ∀ (n : Nat) (s : State),
    let eligible (c : Nat) : Prop :=
      (s.cfg.sel n).mask.getLsbD c = true ∧ ((s.cand c).state = .qualified ∨ (s.cand c).state = .selected) ∧ (s.cand c).rank ≤ 14
    let rank (c : Nat) : Nat := (s.cand c).rank
    let prio (c : Nat) : Nat := nth (s.cfg.sel n).priority c 0
    let before (c d : Nat) : Prop := rank c < rank d ∨ (rank c = rank d ∧ (prio c < prio d ∨ (prio c = prio d ∧ c < d)))
    (∀ c, bestCand s n = some c ↔ c < 24 ∧ eligible c ∧ ∀ d < 24, eligible d → d = c ∨ before c d)
      ∧ (bestCand s n = none ↔ ∀ c < 24, ¬ eligible c)

/-- A logical reference of kind DOMAIN, whose domain is of kind PTP in a profile with Announce, and whose last accepted Announce carries clockClass k, has the derived rank that the table of R126 gives for k, and 15 before the first Announce. Nothing else of the Announce enters it. -/
def Obligations.ClassRanks : Prop :=
  (∀ (c k : Nat) (s : State), 16 ≤ c → c < 24 → (s.cfg.lref (c - 16)).kind = 1 →
    (s.cfg.domi (s.cfg.lref (c - 16)).source).kind = 1 → (s.cfg.domi (s.cfg.lref (c - 16)).source).profile ≠ 3 →
    (s.inst (s.cfg.lref (c - 16)).source).annClass = some k →
    let r := derivedRank s c
    (k = 6 → r = 1) ∧ (k = 13 → r = 2) ∧ (k = 7 → r = 4) ∧ (k = 14 → r = 5) ∧ (k = 52 ∨ k = 58 ∨ k = 187 ∨ k = 193 → r = 10)
      ∧ (k = 248 → r = 12) ∧ (k = 255 → r = 15)
      ∧ (k ≠ 6 → k ≠ 13 → k ≠ 7 → k ≠ 14 → k ≠ 52 → k ≠ 58 → k ≠ 187 → k ≠ 193 → k ≠ 248 → k ≠ 255 → r = 14))
  ∧ ∀ (c : Nat) (s : State), 16 ≤ c → c < 24 → (s.cfg.lref (c - 16)).kind = 1 →
    (s.cfg.domi (s.cfg.lref (c - 16)).source).kind = 1 → (s.cfg.domi (s.cfg.lref (c - 16)).source).profile ≠ 3 →
    (s.inst (s.cfg.lref (c - 16)).source).annClass = none → derivedRank s c = 15

/-- The cell of a temperature T (m°C) and a load P (mW) is 6i + j, where i and j are the ones whose ranges in R169 hold T and P. A cell is populated once it holds CELL_MIN accepted samples: bit c of COVERAGE_LO, or bit c − 64 of COVERAGE_HI, is set exactly then. CELL_NOW is the cell of the present T and P. -/
def Obligations.CoverageMap : Prop :=
  (∀ (i j : Nat) (t p : Rat), i ≤ 11 → j ≤ 5 →
    (cellOf t p = 6 * i + j ↔
      ((i = 0 ∧ t < -30000) ∨ (1 ≤ i ∧ i ≤ 10 ∧ -40000 + 10000 * (i : Rat) ≤ t ∧ t < -30000 + 10000 * (i : Rat)) ∨ (i = 11 ∧ 70000 ≤ t))
      ∧ ((j = 0 ∧ p < 8000) ∨ (j = 1 ∧ 8000 ≤ p ∧ p < 14000) ∨ (j = 2 ∧ 14000 ≤ p ∧ p < 18000) ∨ (j = 3 ∧ 18000 ≤ p ∧ p < 22000)
        ∨ (j = 4 ∧ 22000 ≤ p ∧ p < 26000) ∨ (j = 5 ∧ 26000 ≤ p))))
  ∧ ∀ s : State, s.md.bootRom = false →
    ∃ o lo hi now, objectAt s 0x12 1 = some o ∧ o.find 2 = some lo ∧ o.find 3 = some hi ∧ o.find 11 = some now
      ∧ (∀ c < 64, (lo.get s).toNat.testBit c = decide (s.cfg.ln.cellMin ≤ (s.ln.model.cell c).n))
      ∧ (∀ c < 8, (hi.get s).toNat.testBit c = decide (s.cfg.ln.cellMin ≤ (s.ln.model.cell (64 + c)).n))
      ∧ now.get s = (cellOf (tempNow s) (loadNow s) : Int)

/-- An accepted CLEAR empties Tarn and its first event and sets the overwrite count to 0; every other field of the fault collector, the fences, the class counters and the masks among them, is as before. The record of R366's example is the 16 bytes that it gives. -/
def Obligations.TarnCleared : Prop :=
  (∀ (dt : Nat) (r : Requester) (arg : Nat) (s : State),
      let e := elapse dt s
      Heard r (commandFrame r (addrWord 0x03 3 0) .u8 arg) e →
      arg < 256 →
      e.md.mode ≠ .safe →
      exec (.clear dt r arg) s = .next (finish (commanded r (addrWord 0x03 3 0) .u8 arg
          { counted e with fc := { e.fc with tarn := [], firstEvent := none, overwritten := 0 } })))
  ∧ (TarnRec.bytes
          { time := 5000000000000, checker := 0x0203, syndrome := 1#32, cls := 2, first := true, injected := false, consequential := false,
            path := false, mode := 0b100 }
        = [0x00#8, 0x00#8, 0x04#8, 0x8C#8, 0x27#8, 0x39#8, 0x50#8, 0x00#8, 0x02#8, 0x03#8, 0x00#8, 0x00#8, 0x00#8, 0x01#8, 0xA2#8, 0x00#8])

/-- A SLEEP that is heard while the mode is STARTUP or SAFE, while PFAIL is set, or while no wake source is enabled is answered with a status of R88 whose condition holds: MODE, SAFE, BUSY or RANGE. Nothing changes but the count of requests and the answer, and nothing is journalled. -/
def Obligations.SleepRefusals : Prop :=
  ∀ (dt : Nat) (r : Requester) (arg : Nat) (s : State),
    let e := elapse dt s
    Heard r (commandFrame r (addrWord 0x01 12 0) .u8 arg) e →
    arg < 256 →
    e.md.mode = .startup ∨ e.md.mode = .safe ∨ e.pwr.pfail = true ∨ e.cfg.sy.wakeEnable &&& 0x0F#8 = 0#8 →
    ∃ st, exec (.sleep dt r arg) s = .next (finish (replied r (commandFrame r (addrWord 0x01 12 0) .u8 arg) st [] (counted e)))
          ∧ ((st = 0x06 ∧ e.md.mode = .startup) ∨ (st = 0x0E ∧ e.md.mode = .safe) ∨ (st = 0x08 ∧ e.pwr.pfail = true)
            ∨ (st = 0x04 ∧ e.cfg.sy.wakeEnable &&& 0x0F#8 = 0#8))

/-- After the time of the command: a first LOW_INPUT sets the level and counts it in NV; OVER_VOLTAGE above 75 V sets the level and counts it, and above 80 V the input stage disconnects and PFAIL is set; PFAIL_SET latches PFAIL with its instant, counts it, and the hold-up write of a started module counts as not completed until it is, while in the start-up hold there is nothing to write and the start waits; OPERATING_INPUT_RESTORED drops each level that the voltage no longer supports; MEASUREMENT_REFRESH replaces the six measurements. Nothing else changes before the module settles. -/
def Obligations.SupplyFlagsAndMeasurements : Prop :=
  (∀ (dt : Nat) (s : State),
      let e := elapse dt s
      e.powered = true →
      e.pwr.lowInput = false →
      exec (.lowInput dt) s = .next (finish ({ e with
        pwr := { e.pwr with lowInput := true }, nv := { e.nv with lowInputCount := e.nv.lowInputCount + 1 } })))
  ∧ (∀ (dt : Nat) (mv : Nat) (s : State),
      let e := elapse dt s
      75000 < mv →
      mv ≤ 80000 →
      e.powered = true →
      e.pwr.overVoltage = false →
      exec (.overVoltage dt mv) s = .next (finish ({ e with
        pwr := { e.pwr with overVoltage := true }, nv := { e.nv with overvoltCount := e.nv.overvoltCount + 1 } })))
  ∧ (∀ (dt : Nat) (mv : Nat) (s : State),
      let e := elapse dt s
      80000 < mv →
      e.powered = true →
      e.pwr.overVoltage = false →
      e.pwr.pfail = false →
      booted e = true →
      exec (.overVoltage dt mv) s = .next (finish ({ e with
        pwr := { e.pwr with
          overVoltage := true, disconnected := true, pfail := true, pfailAt := e.clk.count, writeDone := false,
          holdupWriteResult := 2 },
        nv := { e.nv with
          overvoltCount := e.nv.overvoltCount + 1, pfailCount := e.nv.pfailCount + 1, lastHoldup := 2 } })))
  ∧ (∀ (dt : Nat) (s : State),
      let e := elapse dt s
      e.powered = true →
      e.pwr.pfail = false →
      booted e = true →
      exec (.pfailSet dt) s = .next (finish ({ e with
        pwr := { e.pwr with pfail := true, pfailAt := e.clk.count, writeDone := false, holdupWriteResult := 2 },
        nv := { e.nv with pfailCount := e.nv.pfailCount + 1, lastHoldup := 2 } })))
  ∧ (∀ (dt : Nat) (s : State),
      let e := elapse dt s
      e.powered = true →
      e.pwr.pfail = false →
      e.md.phase = .hold →
      exec (.pfailSet dt) s = .next (finish ({ e with
        md := { e.md with phase := .waiting },
        pwr := { e.pwr with pfail := true, pfailAt := e.clk.count, writeDone := true },
        nv := { e.nv with pfailCount := e.nv.pfailCount + 1 } })))
  ∧ (∀ (dt : Nat) (mv : Nat) (s : State),
      let e := elapse dt s
      exec (.operatingInputRestored dt mv) s = .next (finish ({ e with
        pwr := { e.pwr with
          lowInput := e.pwr.lowInput && decide (mv < 36000), overVoltage := e.pwr.overVoltage && decide (75000 < mv),
          disconnected := e.pwr.disconnected && decide (80000 < mv) } })))
  ∧ (∀ (dt : Nat) (m : Sensors) (s : State),
      let e := elapse dt s
      e.powered = true →
      exec (.measurementRefresh dt m) s = .next (finish ({ e with
        pwr := { e.pwr with vin := m.vin, iin := m.iin, pin := m.pin, load := m.load, tBase := m.tBase, tOcxo := m.tOcxo } })))

/-- HOLDUP_WRITE_COMPLETE writes the hold-up record of the instant (unflushed journal records, last agreed loop terms, model, powered age, temperature, load, epochs, times, engine count, Tarn) into the area whose turn it is; PFAIL_CLEAR drops PFAIL once that write is complete and raises source 2; HOLDUP_RECORD_COPY copies both areas, the older first, and erases them; a copied record adds the journal records beyond those kept and its model where that is valid and the newer; ORDERLY_STOP leaves a module without power: everything but the nonvolatile store, the queue and the model's own counter of free values is as at reset, and a store in progress has spoilt its target. -/
def Obligations.HoldupStoreAndPowerLoss : Prop :=
  (∀ (dt : Nat) (s : State),
      let e := elapse dt s
      e.pwr.pfail = true →
      e.pwr.writeDone = false →
      mgtServes e = true →
      exec (.holdupWriteComplete dt) s = .next (finish ({ e with
        nv := { e.nv with
          holdup := upd e.nv.holdup e.nv.holdupArea fun _ => some
            { journal := e.jr.recs.drop (e.jr.recs.length - e.jr.unflushed), loopTerms := e.dp.map (·.agreed),
              model := e.ln.model, modelOk := true, age := e.nv.age + e.clk.count / 1000000000, tOcxo := e.pwr.tOcxo, load := e.pwr.load,
              epochs := e.tb.map (·.epoch), times := e.tb.map (·.now), count := e.clk.count, tarn := e.fc.tarn },
          holdupArea := 1 - e.nv.holdupArea, lastHoldup := 1, holdupTimes := e.tb.map (·.now) },
        pwr := { e.pwr with
          writeDone := true, copyPending := some e.nv.holdupArea, holdupWriteResult := 1,
          holdupWriteTime := (readInt (((e.clk.count : Rat) - e.pwr.pfailAt) / 1000)).toNat } })))
  ∧ (∀ (dt : Nat) (s : State),
      let e := elapse dt s
      e.pwr.pfail = true →
      e.pwr.writeDone = true →
      exec (.pfailClear dt) s = .next (finish (raise 2 { e with pwr := { e.pwr with pfail := false } })))
  ∧ (∀ (dt : Nat) (s : State),
      let e := elapse dt s
      e.pwr.pfail = false →
      e.pwr.copyPending ≠ none →
      mgtServes e = true →
      exec (.holdupRecordCopy dt) s = .next (finish ({ e with
        nv := { copyHoldup (nth e.nv.holdup (1 - e.nv.holdupArea) none) (copyHoldup (nth e.nv.holdup e.nv.holdupArea none) e.nv) with
          holdup := [none, none] },
        pwr := { e.pwr with copyPending := none } })))
  ∧ (∀ (h : HoldupRec) (nv : Nv),
      copyHoldup (some h) nv =
        let more := h.journal.filter fun r => decide (nv.nextIndex ≤ r.index)
        let all := nv.journal ++ more
        let newer : Bool := h.modelOk && (nv.model.isNone || decide (nv.modelAge ≤ h.age))
        { nv with
          journal := all.drop (all.length - 8192), nextIndex := (more.getLast?.map (·.index + 1)).getD nv.nextIndex,
          model := if newer then some h.model else nv.model, modelAge := if newer then h.age else nv.modelAge })
  ∧ (∀ (nv : Nv),
      copyHoldup none nv = nv)
  ∧ (∀ (dt : Nat) (s : State),
      let e := elapse dt s
      e.powered = true →
      e.pwr.pfail = true →
      e.nvc.storeOp = none →
      exec (.orderlyStop dt) s = .next (finish ({ State.reset with
        pending := e.pending, free := e.free, nv := { e.nv with age := e.nv.age + e.clk.count / 1000000000 } })))
  ∧ (∀ (dt : Nat) (s : State),
      let e := elapse dt s
      e.powered = true →
      e.pwr.pfail = true →
      e.nvc.storeOp ≠ none →
      exec (.orderlyStop dt) s = .next (finish ({ State.reset with
        pending := e.pending, free := e.free,
        nv := spoilOlder { e.nv with age := e.nv.age + e.clk.count / 1000000000 } })))

/-- On a module without power POWER_UP counts the start in NV, starts the engine clock at 0, latches the connector levels and begins a new epoch in every timebase, reports invalid codings, and runs the steps of the sequence: the stores are loaded, every checker is injected, firmware and cores start, each after its time and with what follows it, and the hold begins (with STARTUP_HOLD 0 it ends at once; a start that reached SAFE has no hold). A PFAIL during step 1 cuts the sequence there, and a later POWER_UP runs it again from step 1. STARTUP_HOLD_EXPIRY at or after the end of the hold, and an accepted SEAL_NOW within it, take the limits from NV and seal them, then enter FREERUN: the limits are sealed, the start-up is done, the mode is FREERUN, and the heartbeat is timed from the seal. The rail instant, the step times and the check results are what the command carries. -/
def Obligations.StartupSequence : Prop :=
  (∀ (i : StartIn) (sealDur entryDur : Nat) (s : State),
      s.powered = false →
      exec (.powerUp i sealDur entryDur) s
        = .next (finish (runSteps i sealDur entryDur (reportCodings (railsQualified i { s with tx := [] })))))
  ∧ (∀ (i : StartIn) (sealDur entryDur : Nat) (s : State),
      s.powered = true →
      s.md.phase = .waiting →
      s.pwr.pfail = false →
      exec (.powerUp i sealDur entryDur) s = .next (finish (runSteps i sealDur entryDur { s with tx := [] })))
  ∧ (∀ (i : StartIn) (sealDur entryDur : Nat) (s : State),
      i.stopped = none →
      runSteps i sealDur entryDur s =
        let one := settle (stepOne i (elapse i.load s))
        let two := settle (stepTwo i (elapse i.bist one))
        let three := settle (stepThree i (tablesAfter (i.bist + i.boot) (elapse i.boot two)))
        let held : State := { three with md := { three.md with
          phase := if three.md.mode = .safe then .ended else .hold,
          holdEnd := three.clk.count + three.cfg.sy.startupHold * 1000000000 } }
        if three.cfg.sy.startupHold = 0 then finishStart sealDur entryDur held else held)
  ∧ (∀ (i : StartIn) (sealDur entryDur n : Nat) (s : State),
      i.stopped = some n →
      n < i.load →
      runSteps i sealDur entryDur s =
        let u := elapse n s
        setPfail { u with md := { u.md with phase := .waiting } })
  ∧ (∀ (i : StartIn) (s : State),
      let t := railsQualified i s
      t.clk = { count := 0, running := true } ∧ t.powered = true ∧ t.md.levels = i.vsel.map levelOf
        ∧ t.nv = { s.nv with startCount := s.nv.startCount + 1,
                             epochs := (List.range 4).map fun k => some (((nth s.nv.epochs k none).map (· + 1)).getD 1) }
        ∧ t.tb.map (·.epoch) = (List.range 4).map fun k => ((nth s.nv.epochs k none).map (· + 1)).getD 1)
  ∧ (∀ (dt sealDur entryDur : Nat) (s : State),
      let e := elapse dt s
      e.md.phase = .hold →
      e.md.sealed = false →
      e.md.holdEnd ≤ e.clk.count →
      e.md.mode ≠ .safe →
      exec (.startupHoldExpiry dt sealDur entryDur) s
          = .next (finish (enterFreerun (elapse entryDur (settle (sealLimits (elapse sealDur e)))))))
  ∧ (∀ (dt sealDur entryDur : Nat) (r : Requester) (arg : Nat) (s : State),
      let e := elapse dt s
      Heard r (commandFrame r (addrWord 0x01 12 1) .u8 arg) e →
      arg < 256 →
      e.md.phase = .hold →
      e.md.sealed = false →
      e.md.mode ≠ .safe →
      exec (.sealNow dt r arg sealDur entryDur) s
          = .next (finish (commanded r (addrWord 0x01 12 1) .u8 arg
              (enterFreerun (elapse entryDur (settle (sealLimits (elapse sealDur (counted e)))))))))
  ∧ (∀ (s : State) (k : CfgCopy),
      s.md.limitsOk = true →
      newestCopy s.nv = some k →
      sealLimits s = { s with
          cfg := k.cfg.withLimits s.cfg, md := { s.md with sealed := true, limitSource := 0 },
          ou := { s.ou with heartbeatAt := s.clk.count } })
  ∧ (∀ (s : State),
      s.md.limitsOk = false ∨ newestCopy s.nv = none →
      sealLimits s = raise 10 { s with
          cfg := s.cfg.failClosed, md := { s.md with sealed := true, limitSource := 1 },
          ou := { s.ou with heartbeatAt := s.clk.count } })
  ∧ (∀ (s : State),
      (enterFreerun s).md.phase = .done ∧ (enterFreerun s).md.mode = .freerun)

/-- A coding that changes while the module has power changes no level and raises source 9. OVEN_READY is set once, with its instant, and raises source 5. An excursion after that leaves the flag set, raises source 13 and is reported to the collector, by a checker that the spec does not name and that is therefore free (the model's choice, log entry 120). -/
def Obligations.CodingAndOven : Prop :=
  (∀ (dt : Nat) (conn : Fin 3) (s : State),
      let e := elapse dt s
      e.powered = true →
      exec (.codingChange dt conn) s = .next (finish (raise 9 e)))
  ∧ (∀ (dt : Nat) (s : State),
      let e := elapse dt s
      e.clk.running = true →
      e.md.ovenReady = false →
      exec (.ovenReady dt) s = .next (finish (raise 5 { e with md := { e.md with ovenReady := true, ovenReadyAt := e.clk.count } })))
  ∧ (∀ (dt : Nat) (s : State),
      let e := elapse dt s
      e.clk.running = true →
      e.md.ovenReady = true →
      exec (.ovenExcursion dt) s = .next (finish (reportFree (nth allCheckers (Config.freeNat e.free % allCheckers.length) 0x0101) (raise 13 { e with free := e.free + 1 }))))

/-- An accepted SLEEP (R88 refuses none of it) writes the journal through, saves the model where the STEER core runs, and keeps the requester without an answer. At D a wake source latched or asserted aborts it: ABORTED_BY_WAKE, a record of kind 4, source 7; else it completes with OK and its record of kind 1. 2 ms after D, in a cycle that holds no other transition, the module enters STANDBY from FREERUN, TRACKING or HOLDOVER: the mode it slept from is kept, Wellhead stops, and every running core is halted. -/
def Obligations.SleepSequence : Prop :=
  (∀ (dt : Nat) (r : Requester) (arg : Nat) (s : State),
      let e := elapse dt s
      Heard r (commandFrame r (addrWord 0x01 12 0) .u8 arg) e →
      arg < 256 →
      e.md.mode ≠ .startup →
      e.md.mode ≠ .safe →
      e.pwr.pfail = false →
      e.cfg.sy.wakeEnable &&& 0x0F#8 ≠ 0#8 →
      e.md.sleep = none →
      exec (.sleep dt r arg) s =
          let a := flushJournal (counted e)
          let b := if e.runs 1 then saveModel a else a
          .next (finish { b with md := { b.md with
            sleep := some { req := r, frame := commandFrame r (addrWord 0x01 12 0) .u8 arg, atNs := e.clk.count, decided := none,
                            arg := arg },
            wakeLatched := none } }))
  ∧ (∀ (dt : Nat) (q : SleepSeq) (s : State),
      let e := elapse dt s
      e.md.sleep = some q →
      q.decided = none →
      e.md.mode ≠ .safe →
      dopUp e = true →
      wakeStands e = true →
      exec (.sleepDecision dt) s = .next (finish (raise 7 (answer q.req q.frame 1 stAborted []
          (record { requestRecord q.req 4 5 (addrWord 0x01 12 0) 0 1 [] (rightAlign (natBytes 1 q.arg)) with status := stAborted }
            { e with md := { e.md with sleep := none, wakeLatched := none } })))))
  ∧ (∀ (dt : Nat) (q : SleepSeq) (s : State),
      let e := elapse dt s
      e.md.sleep = some q →
      q.decided = none →
      e.md.mode ≠ .safe →
      dopUp e = true →
      wakeStands e = false →
      exec (.sleepDecision dt) s = .next (finish (answer q.req q.frame 1 stOk []
          (record (requestRecord q.req 1 5 (addrWord 0x01 12 0) 0 1 [] (rightAlign (natBytes 1 q.arg)))
            { e with md := { e.md with sleep := some { q with decided := some e.clk.count } } }))))
  ∧ (∀ (dt d : Nat) (q : SleepSeq) (s : State),
      let e := elapse dt s
      e.md.sleep = some q →
      q.decided = some d →
      d + 2000000 ≤ e.clk.count →
      e.md.wakeLatched = none →
      e.md.mode = .freerun ∨ e.md.mode = .tracking ∨ e.md.mode = .holdover →
      moved e = false →
      ∃ t, exec (.sleepCommit dt) s = .next t ∧ t.md.mode = .standby ∧ t.md.sleptFrom = e.md.mode ∧ t.md.sleep = none
          ∧ t.cores = e.cores.map (fun x => if x = .running then .halted else x) ∧ t.rf.stopped = true ∧ t.sc.stopped = true
          ∧ t.nv = e.nv ∧ t.clk = e.clk ∧ t.fc = e.fc ∧ t.jr = e.jr)

/-- In STANDBY an enabled source that is recognised begins the wake: halted cores resume, the ports wake, and the cause and the port or channel are recorded. During a sleep that is not yet committed the source is latched instead. WAKE enters HOLDOVER where the module slept from TRACKING or HOLDOVER and the principal timebase is not fenced, else FREERUN, Wellhead and the calendar run again, and source 8 is raised (the mode is the one chosen there, or the one that the principal timebase gives at once). -/
def Obligations.WakeSequence : Prop :=
  (∀ (dt : Nat) (held : Bool) (s : State),
      let e := elapse dt s
      bit8 e.cfg.sy.wakeEnable 0 = true →
      e.clk.running = true →
      e.md.mode = .standby →
      e.md.waking = none →
      exec (.wakePin dt held) s = .next (finish ({ e with
            cores := e.cores.map fun x => if x = .halted then .running else x,
            md := { e.md with waking := some e.clk.count, lastWakeCause := 1, lastWakePort := 0, wakeLatched := none, wakePinHigh := held },
            pt := { e.pt with port := e.pt.port.map fun p => { p with asleep := false } } })))
  ∧ (∀ (dt : Nat) (ch : Fin 2) (ident : Nat) (s : State),
      let e := elapse dt s
      ident = e.cfg.sy.wakeCanId →
      bit8 e.cfg.sy.wakeCanChannels ch = true →
      bit8 e.cfg.sy.wakeEnable 1 = true →
      e.clk.running = true →
      e.md.mode = .standby →
      e.md.waking = none →
      exec (.canWakeFrame dt ch ident) s = .next (finish ({ e with
            cores := e.cores.map fun x => if x = .halted then .running else x,
            md := { e.md with waking := some e.clk.count, lastWakeCause := 2, lastWakePort := ch, wakeLatched := none },
            pt := { e.pt with port := e.pt.port.map fun p => { p with asleep := false } } })))
  ∧ (∀ (dt : Nat) (port : Fin 12) (s : State),
      let e := elapse dt s
      e.cfg.sy.wakeT1Ports.getLsbD port = true →
      bit8 e.cfg.sy.wakeEnable 2 = true →
      e.clk.running = true →
      e.md.mode = .standby →
      e.md.waking = none →
      exec (.t1Wake dt port) s = .next (finish ({ e with
            cores := e.cores.map fun x => if x = .halted then .running else x,
            md := { e.md with waking := some e.clk.count, lastWakeCause := 3, lastWakePort := port, wakeLatched := none },
            pt := { e.pt with port := e.pt.port.map fun p => { p with asleep := false } } })))
  ∧ (∀ (dt : Nat) (s : State),
      let e := elapse dt s
      bit8 e.cfg.sy.wakeEnable 3 = true →
      (Time80.toNs e.cfg.sy.alarmTime : Rat) ≤ (e.tbs e.cfg.sy.alarmTb).now →
      e.clk.running = true →
      e.md.mode = .standby →
      e.md.waking = none →
      exec (.timebaseAlarm dt) s = .next (finish ({ e with
            cores := e.cores.map fun x => if x = .halted then .running else x,
            md := { e.md with waking := some e.clk.count, lastWakeCause := 4, lastWakePort := 0, wakeLatched := none },
            pt := { e.pt with port := e.pt.port.map fun p => { p with asleep := false } } })))
  ∧ (∀ (dt : Nat) (held : Bool) (s : State),
      let e := elapse dt s
      bit8 e.cfg.sy.wakeEnable 0 = true →
      e.clk.running = true →
      e.md.mode ≠ .standby →
      e.md.sleep ≠ none →
      e.md.wakeLatched = none →
      exec (.wakePin dt held) s = .next (finish ({ e with md := { e.md with wakePinHigh := held, wakeLatched := some (1, 0) } })))
  ∧ (∀ (dt : Nat) (s : State),
      let e := elapse dt s
      e.md.mode = .standby →
      e.md.waking ≠ none →
      ∃ t u, exec (.wake dt) s = .next t ∧ t = finish (raise 8 u) ∧ t.md.waking = none ∧ t.rf.stopped = false ∧ t.sc.stopped = false
          ∧ u.md.mode = (if (e.md.sleptFrom = .tracking ∨ e.md.sleptFrom = .holdover) ∧ e.isFenced (.tb e.ptb) = false then .holdover
              else .freerun)
          ∧ { t.cfg with utc := e.cfg.utc } = e.cfg ∧ t.clk = e.clk ∧ t.jr = e.jr)

/-- An accepted ENTER_SAFE is a report of identity 0x1E00 to the collector, whose syndrome the spec does not give, and the command completes with OK. A write of PRINCIPAL_TB outside TRACKING and HOLDOVER takes the value 0 to 3, journals it and answers OK; in FREERUN with a timebase that meets the HOLDOVER condition the mode goes to HOLDOVER. -/
def Obligations.EnterSafeAndPrincipalTimebase : Prop :=
  (∀ (dt : Nat) (r : Requester) (arg : Nat) (s : State),
      let e := elapse dt s
      Heard r (commandFrame r (addrWord 0x01 12 2) .u8 arg) e →
      arg < 256 →
      e.md.mode ≠ .safe →
      exec (.enterSafe dt r arg) s = .next (finish (commanded r (addrWord 0x01 12 2) .u8 arg
          (takeReport 0x1E00 (BitVec.ofNat 32 (Config.freeNat e.free)) false { counted e with free := e.free + 1 }))))
  ∧ (∀ (dt : Nat) (r : Requester) (v : Nat) (s : State),
      let e := elapse dt s
      Heard r (writeFrame r (addrWord 0x01 10 0) .u8 v) e →
      v < 4 →
      e.md.mode ≠ .safe →
      e.md.mode ≠ .tracking →
      e.md.mode ≠ .holdover →
      exec (.principalTbWrite dt r v) s = .next (finish (written r (addrWord 0x01 10 0) .u8 e.cfg.sy.principalTb v
          (principalWritten { counted e with cfg := { e.cfg with sy := { e.cfg.sy with principalTb := v } } }))))
  ∧ (∀ (s : State),
      s.md.mode = .freerun →
      heldTime s = true →
      moved s = false →
      (principalWritten s).md.mode = .holdover)

/-- A report of a checker that R353 does not list cannot occur: CHECKER_ERROR stops with the fault noSuchChecker. A report of an armed checker with the engine running, that no open mask takes as a consequence: class C0 is recorded and counted and nothing else follows (within 10 ms of the last recorded one it only counts as suppressed); class C1 or C2 fences the unit it names; class C3 disarms the checker and enters SAFE. Every recorded report raises the source of its type. A report that an open mask applies to is recorded as consequential and counted, and every open mask that covers its checker holds it unarmed. (An ECC report first has the effect of R354.) While the MON core is stopped or fenced the counters stand: that they are the fault statistics of R33 is the model's choice, log entry 114. -/
def Obligations.CheckerReports : Prop :=
  (∀ (dt id : Nat) (syn : BitVec 32) (s : State),
      isChecker id = false →
      exec (.checkerError dt id syn) s = .fault .noSuchChecker)
  ∧ (∀ (dt id : Nat) (syn : BitVec 32) (s : State),
      let e := elapse dt s
      isChecker id = true →
      typeOf id ≠ 0x0E →
      typeOf id ≠ 0x0F →
      id ≠ 0x0D00 →
      e.clk.running = true →
      armed e id = true →
      classOf id syn false = 0 →
      suppressed e id = false →
      e.fc.masks.any (fun m => m.applies id syn 0) = false →
      exec (.checkerError dt id syn) s =
          let r := tarnRec e id syn 0 false false false
          .next (finish (let w := raise (16 + typeOf id) (writeTarn r (tallied (countReport 0 false) e))
            { w with fc := { w.fc with c0Last := (id, w.clk.count) :: w.fc.c0Last.filter fun p => p.1 != id } })))
  ∧ (∀ (dt id : Nat) (syn : BitVec 32) (s : State),
      let e := elapse dt s
      isChecker id = true →
      typeOf id ≠ 0x0E →
      typeOf id ≠ 0x0F →
      id ≠ 0x0D00 →
      e.clk.running = true →
      armed e id = true →
      classOf id syn false = 0 →
      suppressed e id = true →
      exec (.checkerError dt id syn) s =
          let r := tarnRec e id syn 0 false false false
          .next (finish (tallied (fun f => { f with c0Suppressed := f.c0Suppressed + 1 }) e)))
  ∧ (∀ (dt id : Nat) (syn : BitVec 32) (c : Nat) (u : FUnit) (s : State),
      let e := elapse dt s
      isChecker id = true →
      typeOf id ≠ 0x0E →
      typeOf id ≠ 0x0F →
      id ≠ 0x0D00 →
      e.clk.running = true →
      armed e id = true →
      classOf id syn false = c →
      c = 1 ∨ c = 2 →
      unitOf id syn false = some u →
      e.fc.masks.any (fun m => m.applies id syn c) = false →
      exec (.checkerError dt id syn) s =
          let r := tarnRec e id syn c false false false
          .next (finish (fenceUnit u c (raise (16 + typeOf id) (writeTarn r (tallied (countReport c false) e))))))
  ∧ (∀ (dt id : Nat) (syn : BitVec 32) (s : State),
      let e := elapse dt s
      isChecker id = true →
      typeOf id ≠ 0x0E →
      typeOf id ≠ 0x0F →
      id ≠ 0x0D00 →
      e.clk.running = true →
      armed e id = true →
      classOf id syn false = 3 →
      e.fc.masks.any (fun m => m.applies id syn 3) = false →
      exec (.checkerError dt id syn) s =
          let r := tarnRec e id syn 3 false false false
          .next (finish (let w := raise (16 + typeOf id) (writeTarn r (tallied (countReport 3 false) e))
            enterSafeMode (some r) { w with fc := { w.fc with unarmed := id :: w.fc.unarmed } })))
  ∧ (∀ (dt id : Nat) (syn : BitVec 32) (s : State),
      let e := elapse dt s
      isChecker id = true →
      typeOf id ≠ 0x0E →
      typeOf id ≠ 0x0F →
      id ≠ 0x0D00 →
      e.clk.running = true →
      armed e id = true →
      classOf id syn false ≠ 0 →
      e.fc.masks.any (fun m => m.applies id syn (classOf id syn false)) = true →
      exec (.checkerError dt id syn) s =
          let c := classOf id syn false
          let w := tallied (fun f => { f with countConseq := f.countConseq + 1 }) (writeTarn (tarnRec e id syn c false false true) e)
          .next (finish { w with fc := { w.fc with
            masks := w.fc.masks.map fun m => if m.depends id syn then { m with held := id :: m.held } else m } }))
  ∧ (∀ (f : Fc → Fc) (s : State),
      tallied f s = if s.core 2 = .stopped ∨ s.core 2 = .fenced then s else { s with fc := f s.fc })

/-- A record enters Tarn behind the others; beyond 64 the oldest is overwritten and counted; the first event is pinned and raises source 16; the worst class follows records that are not injected. A fence of a unit not yet fenced adds it and opens its mask, with the effect of its kind: a fenced core stops for good (its ACTIVE sources go back to PENDING), a fenced streamer closes its stream. Entry to SAFE holds every DCO word, goes to SAFE, halts a running STEER core, ends a start-up that has not sealed, and leaves the SAFE record to be written; a second entry changes nothing. -/
def Obligations.CollectorRecordsAndFences : Prop :=
  (∀ (s : State) (id : Nat) (syn : BitVec 32) (c : Nat) (path injected conseq : Bool),
      tarnRec s id syn c path injected conseq =
        { time := s.clk.count, checker := id, syndrome := syn, cls := c,
          first := s.fc.firstEvent.isNone && !injected && !conseq && decide (s.cfg.fc.firstMinClass ≤ c),
          injected := injected, consequential := conseq, path := path, mode := s.md.mode.code })
  ∧ (∀ (r : TarnRec) (s : State),
      writeTarn r s = raiseIf r.first 16 { s with fc := { s.fc with
          tarn := (s.fc.tarn ++ [r]).drop (if 64 < s.fc.tarn.length + 1 then 1 else 0),
          overwritten := if 64 < s.fc.tarn.length + 1 then s.fc.overwritten + 1 else s.fc.overwritten,
          firstEvent := if r.first then some r else s.fc.firstEvent,
          worst := if r.injected then s.fc.worst else some (max (s.fc.worst.getD 0) r.cls) } })
  ∧ (∀ (u : FUnit) (c : Nat) (s : State),
      s.isFenced u = false →
      fenceUnit u c s
        = fenceEffect u { s with fc := { s.fc with fenced := s.fc.fenced ++ [u], masks := s.fc.masks ++ [maskOf s u c] } })
  ∧ (∀ (u : FUnit) (c : Nat) (s : State),
      s.isFenced u = true →
      fenceUnit u c s = s)
  ∧ (∀ (c : Nat) (s : State),
      s.core c ≠ .fenced →
      c ≠ 1 →
      fenceEffect (.core c) s
        = { s with cores := upd s.cores c fun _ => .fenced, stoppedAt := upd s.stoppedAt c fun _ => some s.clk.count, ev := s.ev.fenceCore c })
  ∧ (∀ (cause : Option TarnRec) (s : State),
      s.md.mode ≠ .safe →
      (enterSafeMode cause s).md.mode = .safe ∧ (enterSafeMode cause s).runs 1 = false
        ∧ (enterSafeMode cause s).md.phase ≠ .hold)
  ∧ (∀ (s : State),
      fenceEffect .streamer s = { s with ts := s.ts.closeStream })
  ∧ (∀ (cause : Option TarnRec) (s : State),
      s.md.mode ≠ .safe →
      s.md.mode ≠ .standby →
      enterSafeMode cause s =
        let u := enterMode .safe { holdWords s with nvc := { s.nvc with safePending := some (cause, s.fc.firstEvent) } }
        let v := if u.runs 1 then stopCore 1 .halted u else u
        { v with md := { v.md with phase := if v.md.phase = .done then .done else .ended, waking := none } })
  ∧ (∀ (cause : Option TarnRec) (s : State),
      s.md.mode = .safe →
      enterSafeMode cause s = s)

/-- A path that does not exist stops the model; a path fault of an armed checker of class C3 is recorded with the syndrome 0 or all ones, counted as a path fault, and enters SAFE. A collector self-fault enters SAFE, with a record where its record path is intact, else without. (A collector self-fault is taken while its checker is armed, and disarms it.) The loss of OCXO activity is recorded with a syndrome that is free, enters SAFE and stops the engine; where its checker is unarmed it does so without a record. SAFE_RECORD_WRITE moves the waiting record to NV and counts it. MASK_CLOSE closes each mask 2 ms after its fence, or at 6 ms where an affected core still retunes. -/
def Obligations.PathFaultsAndSelfFaults : Prop :=
  (∀ (dt id : Nat) (high : Bool) (s : State),
      hasPath id = false →
      exec (.pathFault dt id high) s = .fault .noSuchChecker)
  ∧ (∀ (dt id : Nat) (high : Bool) (s : State),
      let e := elapse dt s
      hasPath id = true →
      typeOf id ≠ 0x0E →
      typeOf id ≠ 0x0F →
      e.clk.running = true →
      armed e id = true →
      classOf id (pathSyndrome high) true = 3 →
      exec (.pathFault dt id high) s =
          let r := tarnRec e id (if high then 0xFFFFFFFF#32 else 0#32) 3 true false false
          let w := raise (16 + typeOf id) (writeTarn r (tallied (countReport 3 true) e))
          .next (finish (enterSafeMode (some r) { w with fc := { w.fc with unarmed := id :: w.fc.unarmed } })))
  ∧ (∀ (dt id c : Nat) (high : Bool) (u : FUnit) (s : State),
      let e := elapse dt s
      hasPath id = true →
      typeOf id ≠ 0x0E →
      typeOf id ≠ 0x0F →
      e.clk.running = true →
      armed e id = true →
      classOf id (pathSyndrome high) true = c →
      c = 1 ∨ c = 2 →
      unitOf id (pathSyndrome high) true = some u →
      exec (.pathFault dt id high) s =
          let r := tarnRec e id (if high then 0xFFFFFFFF#32 else 0#32) c true false false
          .next (finish (fenceUnit u c (raise (16 + typeOf id) (writeTarn r (tallied (countReport c true) e))))))
  ∧ (∀ (dt : Nat) (s : State),
      let e := elapse dt s
      e.clk.running = true →
      armed e 0x1F00 = true →
      exec (.collectorSelfFault dt true) s = .next (finish (enterSafeMode (some (tarnRec e 0x1F00 (BitVec.ofNat 32 (Config.freeNat e.free)) 3 false false false))
            (raise 47 (writeTarn (tarnRec e 0x1F00 (BitVec.ofNat 32 (Config.freeNat e.free)) 3 false false false)
              (tallied (countReport 3 false)
                { e with free := e.free + 1, fc := { e.fc with unarmed := 0x1F00 :: e.fc.unarmed } }))))))
  ∧ (∀ (dt : Nat) (s : State),
      let e := elapse dt s
      e.clk.running = true →
      armed e 0x1F00 = true →
      exec (.collectorSelfFault dt false) s = .next (finish (enterSafeMode none { e with fc := { e.fc with unarmed := 0x1F00 :: e.fc.unarmed } })))
  ∧ (∀ (dt : Nat) (s : State),
      let e := elapse dt s
      e.clk.running = true →
      armed e 0x0D00 = true →
      e.fc.masks.any (fun m => m.applies 0x0D00 (BitVec.ofNat 32 (Config.freeNat e.free)) 3) = false →
      exec (.ocxoActivityLoss dt) s = .next (finish (
            let u := { e with free := e.free + 1 }
            let r := tarnRec u 0x0D00 (BitVec.ofNat 32 (Config.freeNat e.free)) 3 false false false
            let w := raise 29 (writeTarn r (tallied (countReport 3 false) u))
            engineStops (enterSafeMode (some r) { w with fc := { w.fc with unarmed := 0x0D00 :: w.fc.unarmed } }))))
  ∧ (∀ (dt : Nat) (s : State),
      let e := elapse dt s
      e.clk.running = true →
      armed { e with free := e.free + 1 } 0x0D00 = false →
      exec (.ocxoActivityLoss dt) s = .next (finish (engineStops (enterSafeMode none { e with free := e.free + 1 }))))
  ∧ (∀ (s : State),
      engineStops s = { s with
          clk := { s.clk with running := false }, cores := s.cores.map fun x => if x == .fenced then x else .halted,
          md := { s.md with sleep := none }, ts := s.ts.closeStream,
          pt := { s.pt with port := s.pt.port.map fun p =>
            { p with link := false, linkChanges := if p.link then p.linkChanges + 1 else p.linkChanges } } })
  ∧ (∀ (dt : Nat) (r f : Option TarnRec) (s : State),
      let e := elapse dt s
      e.nvc.safePending = some (r, f) →
      exec (.safeRecordWrite dt) s = .next (finish ({ e with
            nv := { e.nv with safeRecord := r, safeFirst := f, safeEntries := e.nv.safeEntries + 1 },
            nvc := { e.nvc with safePending := none } })))
  ∧ (∀ (dt : Nat) (s : State),
      let e := elapse dt s
      exec (.maskClose dt) s = .next (finish ({ e with
            fc := { e.fc with
              masks := e.fc.masks.filter fun m =>
                decide (e.clk.count < m.openedAt + 2000000)
                  || (decide (e.clk.count < m.openedAt + 6000000)
                      && m.cores.any fun c => match (e.syn c).retune with
                           | some r => decide (r.c0 < m.openedAt + 2000000)
                           | none => false) } })))

/-- CORE_STOP stops a running core, and with the STEER core the rate corrections stand. A watchdog reports a core that has been stopped for 100 ms, with a free syndrome, and reports nothing before. A write of a running core into a region of the SRAM that it may write is performed, and one outside is not performed and is reported. The gross gate reports from the second bad gate in a row (beyond ±200 ppm), the fine gate, while the oven is ready, from the third (beyond ±10 ppm after the correction for temperature); a good gate starts the count again. The consensus test reports at each change to holding, with the mean offset as its syndrome. -/
def Obligations.ProcessorsAndOcxoSupervision : Prop :=
  (∀ (dt : Nat) (core : Fin 3) (s : State),
      let e := elapse dt s
      e.runs core = true →
      core ≠ 1 →
      exec (.coreStop dt core) s = .next (finish ({ e with cores := upd e.cores core fun _ => .stopped, stoppedAt := upd e.stoppedAt core fun _ => some e.clk.count })))
  ∧ (∀ (dt : Nat) (s : State),
      let e := elapse dt s
      e.runs 1 = true →
      exec (.coreStop dt 1) s = .next (finish ({ e with
            cores := upd e.cores 1 fun _ => .stopped, stoppedAt := upd e.stoppedAt 1 fun _ => some e.clk.count,
            tb := (indexed e.tb).map fun (p : Nat × Tb) => { p.2 with frozenC := some (tbCorr (e.cfg.tbs p.1) p.2) } })))
  ∧ (∀ (dt : Nat) (core : Fin 3) (c0 : Nat) (s : State),
      let e := elapse dt s
      e.core core = .stopped →
      nth e.stoppedAt core none = some c0 →
      c0 + 100000000 ≤ e.clk.count →
      exec (.watchdogTimeout dt core) s = .next (finish (takeReport (0x1100 + core) (BitVec.ofNat 32 (Config.freeNat e.free)) false { e with free := e.free + 1 })))
  ∧ (∀ (dt : Nat) (core : Fin 3) (c0 : Nat) (s : State),
      let e := elapse dt s
      nth e.stoppedAt core none = some c0 →
      e.clk.count < c0 + 100000000 →
      exec (.watchdogTimeout dt core) s = .next (finish (e)))
  ∧ (∀ (dt : Nat) (core : Fin 3) (w : SramWrite) (syn : BitVec 32) (s : State),
      let e := elapse dt s
      e.runs core = true →
      mayWrite core w.addr = false →
      exec (.mpuViolation dt core w syn) s = .next (finish (takeReport (0x1200 + core) syn false e)))
  ∧ (∀ (dt : Nat) (core : Fin 3) (w : SramWrite) (syn : BitVec 32) (s : State),
      let e := elapse dt s
      e.runs core = true →
      mayWrite core w.addr = true →
      exec (.mpuViolation dt core w syn) s = .next (finish ({ e with sram := { e.sram with mem := writeByte e.sram.mem w.addr w.value } })))
  ∧ (∀ (c : Fin 3) (addr : Nat),
      addr < 0x400000 →
      mayWrite c addr = decide ((c = 0 ∧ addr < 0x200000) ∨ (c = 1 ∧ 0x200000 ≤ addr ∧ addr < 0x300000)
        ∨ (c = 2 ∧ 0x300000 ≤ addr ∧ addr < 0x380000) ∨ (c ≠ 2 ∧ 0x380000 ≤ addr)))
  ∧ (∀ (dt : Nat) (offset : Rat) (syn : BitVec 32) (s : State),
      let e := elapse dt s
      e.clk.running = true →
      absR offset ≤ 200 →
      exec (.grossFrequencyGate dt offset syn) s = .next (finish ({ e with md := { e.md with grossBad := 0 } })))
  ∧ (∀ (dt : Nat) (offset : Rat) (syn : BitVec 32) (s : State),
      let e := elapse dt s
      e.clk.running = true →
      200 < absR offset →
      1 ≤ e.md.grossBad →
      exec (.grossFrequencyGate dt offset syn) s = .next (finish (takeReport 0x0D01 syn false { e with md := { e.md with grossBad := e.md.grossBad + 1 } })))
  ∧ (∀ (dt : Nat) (offset : Rat) (syn : BitVec 32) (s : State),
      let e := elapse dt s
      e.clk.running = true →
      200 < absR offset →
      e.md.grossBad = 0 →
      exec (.grossFrequencyGate dt offset syn) s = .next (finish ({ e with md := { e.md with grossBad := 1 } })))
  ∧ (∀ (dt : Nat) (offset : Rat) (syn : BitVec 32) (s : State),
      let e := elapse dt s
      e.clk.running = true →
      e.md.ovenReady = true →
      10 < absR (fineOffset e offset) →
      e.md.fineBad < 2 →
      exec (.fineFrequencyGate dt offset syn) s = .next (finish ({ e with md := { e.md with fineBad := e.md.fineBad + 1 } })))
  ∧ (∀ (dt : Nat) (offset : Rat) (syn : BitVec 32) (s : State),
      let e := elapse dt s
      e.clk.running = true →
      e.md.ovenReady = true →
      absR (fineOffset e offset) ≤ 10 →
      exec (.fineFrequencyGate dt offset syn) s = .next (finish ({ e with md := { e.md with fineBad := 0 } })))
  ∧ (∀ (dt : Nat) (offset : Rat) (syn : BitVec 32) (s : State),
      let e := elapse dt s
      e.clk.running = true →
      e.md.ovenReady = true →
      10 < absR (fineOffset e offset) →
      2 ≤ e.md.fineBad →
      exec (.fineFrequencyGate dt offset syn) s = .next (finish (takeReport 0x0D02 syn false { e with md := { e.md with fineBad := e.md.fineBad + 1 } })))
  ∧ (∀ (dt : Nat) (s : State),
      let e := elapse dt s
      e.clk.running = true →
      e.rf.stopped = false →
      (consensus e).1 = false ∨ e.md.ocxoSuspect = true →
      exec (.ocxoConsensusTest dt) s = .next (finish ({ e with md := { e.md with ocxoSuspect := (consensus e).1 } })))
  ∧ (∀ (dt : Nat) (s : State),
      let e := elapse dt s
      e.clk.running = true →
      e.rf.stopped = false →
      (consensus e).1 = true →
      e.md.ocxoSuspect = false →
      exec (.ocxoConsensusTest dt) s = .next (finish (takeReport 0x0D03 (BitVec.ofInt 32 (readInt ((consensus e).2 / 1000))) false { e with md := { e.md with ocxoSuspect := true } })))

/-- INJECT, which the MON core serves, starts the injection into the chosen checker; the check leaves its result, 1 (passed) exactly where the checker reports its expected syndrome, once, and is silent at the second look, then with an injected record, and raises source 45. SWEEP starts over all checkers with a path but the collector itself; a step takes the next checker whose unit is not fenced, 1 ms or more after the one before, and counts its result; a sweep with no such checker left, or in SAFE, ends. RELAY_TIMEOUT withdraws the requests handed over 10 ms ago with BUSY. -/
def Obligations.InjectionAndRelays : Prop :=
  (∀ (dt : Nat) (r : Requester) (arg : Nat) (s : State),
      let e := elapse dt s
      Heard r (commandFrame r (addrWord 0x03 20 1) .u8 arg) e →
      arg < 256 →
      e.md.mode ≠ .safe →
      e.runs 2 = true →
      injectStatus e (some e.cfg.fc.injectChecker) = 0 →
      exec (.inject dt r arg) s = .next (finish (commanded r (addrWord 0x03 20 1) .u8 arg
          { counted e with fc := { e.fc with injecting := some { checker := e.cfg.fc.injectChecker, sweep := false } } })))
  ∧ (∀ (dt : Nat) (r : Requester) (arg : Nat) (s : State),
      let e := elapse dt s
      Heard r (commandFrame r (addrWord 0x03 20 4) .u8 arg) e →
      arg < 256 →
      e.md.mode ≠ .safe →
      e.runs 2 = true →
      injectStatus e none = 0 →
      exec (.sweep dt r arg) s = .next (finish (commanded r (addrWord 0x03 20 4) .u8 arg
          { counted e with fc := { e.fc with
              sweepLeft := allCheckers.filter fun id => hasPath id && typeOf id != 0x1F, sweepAt := e.clk.count,
              sweepDone := 0, sweepFailed := 0 } })))
  ∧ (∀ (s : State) (id : Nat),
      s.md.mode ≠ .safe →
      s.md.mode ≠ .startup →
      s.isFenced (.core 2) = false →
      (ownerUnit id).all (fun u => !s.isFenced u) = true →
      isChecker id = true →
      typeOf id ≠ 0x17 →
      typeOf id ≠ 0x1E →
      typeOf id ≠ 0x1F →
      s.fc.injecting = none →
      s.fc.sweepLeft = [] →
      s.fc.masks = [] →
      injectStatus s (some id) = 0)
  ∧ (∀ (id : Nat) (s : State),
      injectedReport id s =
        let u := writeTarn (tarnRec s id (expectedSyndrome id) (classOf id (expectedSyndrome id) false) false true false) s
        tallied (fun f => { f with countInjected := f.countInjected + 1 }) u)
  ∧ (∀ (dt : Nat) (id : Nat) (s : State),
      let e := elapse dt s
      e.fc.injecting = some { checker := id, sweep := false } →
      armed e id = true →
      exec (.injectionCheck dt (some (expectedSyndrome id)) none none) s = .next (finish (raise 45 (injectedReport id { e with fc := { e.fc with injecting := none, injectResult := 1 } }))))
  ∧ (∀ (dt : Nat) (id : Nat) (i0b i1 : Option (BitVec 32)) (s : State),
      let e := elapse dt s
      e.fc.injecting = some { checker := id, sweep := false } →
      exec (.injectionCheck dt none i0b i1) s = .next (finish (raise 45 (realReport id i1 (realReport id i0b
              (noReport id { e with fc := { e.fc with injecting := none, injectResult := 2 } }))))))
  ∧ (∀ (dt id : Nat) (i0 i0b i1 : Option (BitVec 32)) (s : State),
      let e := elapse dt s
      e.fc.injecting = some { checker := id, sweep := false } →
      armed e id = true →
      exec (.injectionCheck dt i0 i0b i1) s = .next (finish (raise 45 (injectionCheck id true i0 i0b i1
          { e with fc := { e.fc with injecting := none, injectResult :=
              if i0 = none then 2 else if i0 ≠ some (expectedSyndrome id) ∨ i0b ≠ none then 4 else if i1 ≠ none then 3 else 1 } }))))
  ∧ (∀ (i0 i0b i1 : Option (BitVec 32)) (id : Nat) (s : State),
      s.fc.injecting = some { checker := id, sweep := true } →
      armed s id = true →
      completeInjection i0 i0b i1 s =
        let u := injectionCheck id true i0 i0b i1 { s with fc := { s.fc with injecting := none, injectResult := injectionResult id i0 i0b i1 } }
        raise 45 { u with fc := { u.fc with
          sweepDone := u.fc.sweepDone + 1,
          sweepFailed := if injectionResult id i0 i0b i1 = 1 then u.fc.sweepFailed else u.fc.sweepFailed + 1 } })
  ∧ (∀ (dt : Nat) (i0 i0b i1 : Option (BitVec 32)) (s : State),
      let e := elapse dt s
      e.md.mode ≠ .safe →
      e.runs 2 = true →
      e.fc.masks = [] →
      e.fc.injecting = none →
      e.fc.sweepAt ≤ e.clk.count →
      e.fc.sweepLeft ≠ [] →
      skipFenced e e.fc.sweepLeft = [] →
      exec (.sweepStep dt i0 i0b i1) s = .next (finish ({ e with fc := { e.fc with sweepLeft := [] } })))
  ∧ (∀ (dt : Nat) (i0 i0b i1 : Option (BitVec 32)) (id : Nat) (rest : List Nat) (s : State),
      let e := elapse dt s
      e.md.mode ≠ .safe →
      e.runs 2 = true →
      e.fc.masks = [] →
      e.fc.injecting = none →
      e.fc.sweepAt ≤ e.clk.count →
      e.fc.sweepLeft ≠ [] →
      skipFenced e e.fc.sweepLeft = id :: rest →
      exec (.sweepStep dt i0 i0b i1) s = .next (finish (completeInjection i0 i0b i1
              { e with fc :=
                { e.fc with sweepLeft := rest, sweepAt := e.clk.count + 1000000, injecting := some { checker := id, sweep := true } } })))
  ∧ (∀ (dt : Nat) (i0 i0b i1 : Option (BitVec 32)) (s : State),
      let e := elapse dt s
      e.md.mode = .safe →
      e.fc.sweepLeft ≠ [] →
      exec (.sweepStep dt i0 i0b i1) s = .next (finish ({ e with fc := { e.fc with sweepLeft := [] } })))
  ∧ (∀ (dt : Nat) (s : State),
      let e := elapse dt s
      dopUp e = true →
      exec (.relayTimeout dt) s = .next (finish ((e.dop.relays.filter fun x => decide (x.since + 10000000 ≤ e.clk.count)).foldl
              (fun u x => if dopUp u then answer x.req x.frame 1 stBusy [] u else u)
              { e with dop := { e.dop with relays := e.dop.relays.filter fun x => !decide (x.since + 10000000 ≤ e.clk.count) } })))

/-- A claim by a running core whose stack holds no source of the class takes the lowest-numbered PENDING source of that class routed to the core: it becomes ACTIVE, its counter starts again, it is pushed, and the claim word carries its arrivals, level, kind and number. With the class on the stack the word is EMPTY and the nested claim is counted; with nothing PENDING it is EMPTY and nothing is counted. An accepted completion pops the named source, which becomes IDLE or PENDING again; one that is not accepted is counted in lenient mode and reported by the core's own checker in strict mode. -/
def Obligations.ClaimsAndCompletions : Prop :=
  (∀ (dt : Nat) (core : Fin 3) (n : Nat) (s : State),
      let e := elapse dt s
      e.runs core = true →
      (nth e.ev.cores core EvCore.reset).normal = none →
      lowestPending e.cfg.ev e.ev core false = some n →
      exec (.claimNormal dt core) s = .next (finish ({ e with
            ev := { e.ev with
              src := upd e.ev.src n fun x =>
                { x with
                  state := .active, counter := 0,
                  vanished := if kindOf n = 1 ∧ x.level = false then min 65535 (x.vanished + 1) else x.vanished },
              cores := upd e.ev.cores core fun k =>
                { k with
                  normal := some n, normalClaims := k.normalClaims + 1,
                  claimWord := BitVec.ofNat 32 ((if kindOf n = 2 then (e.ev.source n).counter else 1) * 2 ^ 16
                    + b2n (kindOf n == 1 && (e.ev.source n).level) * 2 ^ 10 + kindOf n * 2 ^ 8 + n) } } })))
  ∧ (∀ (dt : Nat) (core : Fin 3) (n : Nat) (s : State),
      let e := elapse dt s
      e.runs core = true →
      (nth e.ev.cores core EvCore.reset).normal = some n →
      exec (.claimNormal dt core) s = .next (finish ({ e with
            ev := { e.ev with
              cores := upd e.ev.cores core fun k => { k with nested := k.nested + 1, claimWord := 0x80000000#32 } } })))
  ∧ (∀ (dt : Nat) (core : Fin 3) (s : State),
      let e := elapse dt s
      e.runs core = true →
      (nth e.ev.cores core EvCore.reset).normal = none →
      lowestPending e.cfg.ev e.ev core false = none →
      exec (.claimNormal dt core) s = .next (finish ({ e with ev := { e.ev with cores := upd e.ev.cores core fun k => { k with claimWord := 0x80000000#32 } } })))
  ∧ (∀ (dt : Nat) (core : Fin 3) (n : Nat) (s : State),
      let e := elapse dt s
      e.runs core = true →
      (nth e.ev.cores core EvCore.reset).fast = none →
      lowestPending e.cfg.ev e.ev core true = some n →
      exec (.claimFast dt core) s = .next (finish ({ e with
            ev := { e.ev with
              src := upd e.ev.src n fun x =>
                { x with
                  state := .active, counter := 0,
                  vanished := if kindOf n = 1 ∧ x.level = false then min 65535 (x.vanished + 1) else x.vanished },
              cores := upd e.ev.cores core fun k =>
                { k with
                  fast := some n, fastClaims := k.fastClaims + 1,
                  claimWord := BitVec.ofNat 32 ((if kindOf n = 2 then (e.ev.source n).counter else 1) * 2 ^ 16
                    + b2n (kindOf n == 1 && (e.ev.source n).level) * 2 ^ 10 + kindOf n * 2 ^ 8 + n) } } })))
  ∧ (∀ (dt : Nat) (core : Fin 3) (n : Nat) (s : State),
      let e := elapse dt s
      e.runs core = true →
      (nth e.ev.cores core EvCore.reset).fast = some n →
      exec (.claimFast dt core) s = .next (finish ({ e with
            ev := { e.ev with
              cores := upd e.ev.cores core fun k => { k with nested := k.nested + 1, claimWord := 0x80000000#32 } } })))
  ∧ (∀ (dt : Nat) (core : Fin 3) (s : State),
      let e := elapse dt s
      e.runs core = true →
      (nth e.ev.cores core EvCore.reset).fast = none →
      lowestPending e.cfg.ev e.ev core true = none →
      exec (.claimFast dt core) s = .next (finish ({ e with ev := { e.ev with cores := upd e.ev.cores core fun k => { k with claimWord := 0x80000000#32 } } })))
  ∧ (∀ (dt : Nat) (core : Fin 3) (word : BitVec 32) (s : State),
      let e := elapse dt s
      e.runs core = true →
      (nth e.ev.cores core EvCore.reset).accepts (word.toNat % 256) = true →
      exec (.complete dt core word) s = .next (finish ({ e with
            ev := { e.ev with
              src := upd e.ev.src (word.toNat % 256) fun x =>
                { x with state := if x.state = .activePending then .pending else .idle },
              cores := upd e.ev.cores core fun k =>
                if k.fast = some (word.toNat % 256) then { k with fast := none } else { k with normal := none } } })))
  ∧ (∀ (dt : Nat) (core : Fin 3) (word : BitVec 32) (s : State),
      let e := elapse dt s
      e.runs core = true →
      (nth e.ev.cores core EvCore.reset).accepts (word.toNat % 256) = false →
      (nth e.ev.cores core EvCore.reset).strict = false →
      exec (.complete dt core word) s = .next (finish ({ e with ev := { e.ev with cores := upd e.ev.cores core fun k => { k with bad := k.bad + 1 } } })))
  ∧ (∀ (dt : Nat) (core : Fin 3) (word : BitVec 32) (s : State),
      let e := elapse dt s
      e.runs core = true →
      (nth e.ev.cores core EvCore.reset).accepts (word.toNat % 256) = false →
      (nth e.ev.cores core EvCore.reset).strict = true →
      exec (.complete dt core word) s = .next (finish (takeReport (0x1300 + core) (BitVec.ofNat 32 (Config.freeNat e.free)) false { e with free := e.free + 1 })))
  ∧ (∀ (k : EvCore) (n : Nat),
      k.accepts n = (if k.strict then (k.fast.or k.normal == some n) else (k.fast == some n || k.normal == some n)))

/-- Raising source n: nothing changes where it is disabled or reserved. Routed to a core, it becomes PENDING, or ACTIVE+PENDING where it was ACTIVE; a counting source adds 1 to its counter up to 255; its arrivals and its last instant are kept, and merging and saturating leave their sticky bits. Routed to the host or an alert line, it becomes HELD: the first of a run sets its first instant and count 1, a later one adds to the count up to 255. No other source changes, and nothing outside the event controller. -/
def Obligations.ArrivalsByKind : Prop :=
  ∀ (n : Nat) (s : State), n < s.ev.src.length →
    let r := s.cfg.ev.route n
    let x := s.ev.source n
    let t := raise n s
    ({ t with ev := s.ev } = s) ∧ (∀ k, k ≠ n → t.ev.source k = s.ev.source k)
      ∧ ((r.getLsbD 7 = false ∨ kindOf n = 3) → t = s)
      ∧ ((r.getLsbD 7 = true ∧ kindOf n ≠ 3 ∧ routeTarget r ≤ 2) →
          let merged := x.state = .pending ∨ x.state = .activePending
          let counter := if kindOf n = 2 then min 255 (x.counter + 1) else x.counter
          t.ev.source n = { x with
            state := (match x.state with | .active => .activePending | .activePending => .activePending | _ => .pending),
            counter := counter, arrivals := min (2 ^ 32 - 1) (x.arrivals + 1), lastAt := s.clk.count,
            sticky := x.sticky ||| (if merged then 2#8 else 0#8) ||| (if kindOf n = 2 ∧ counter = 255 then 1#8 else 0#8) })
      ∧ ((r.getLsbD 7 = true ∧ kindOf n ≠ 3 ∧ 3 ≤ routeTarget r) →
          let held := x.state = .held
          t.ev.source n = { x with
            state := .held, arrivals := min (2 ^ 32 - 1) (x.arrivals + 1), lastAt := s.clk.count,
            sticky := x.sticky ||| (if held then 2#8 else 0#8),
            heldFirst := if held then x.heldFirst else s.clk.count,
            heldCount := if held then min 255 (x.heldCount + 1) else 1,
            relatch := if held then x.relatch else decide (x.state = .latched) })

/-- KIND of R384: 2 for the sources 16 to 47 that are not reserved; 1 for sources 1, 3, 4, 11, 12, 14, 85, 132 and 255; 3, which is never raised, for the reserved numbers 15, 40 to 44, 87, 134, 135, 150, 151 and 247 to 251; 0 for every other. -/
def Obligations.KindsOfSources : Prop :=
  ∀ n, n < 256 → kindOf n =
    (if n = 15 ∨ (40 ≤ n ∧ n ≤ 44) ∨ n = 87 ∨ n = 134 ∨ n = 135 ∨ n = 150 ∨ n = 151 ∨ (247 ≤ n ∧ n ≤ 251) then 3
     else if 16 ≤ n ∧ n ≤ 47 then 2
     else if n = 1 ∨ n = 3 ∨ n = 4 ∨ n = 11 ∨ n = 12 ∨ n = 14 ∨ n = 85 ∨ n = 132 ∨ n = 255 then 1 else 0)

/-- A due delivery to the host that the MGT core can take hands one record for each HELD source over, in source order, and the sources become IDLE; one that it cannot take, or that would pass 1,024 waiting records, is counted once as deferred and leaves the sources HELD. A due delivery to an alert line makes its HELD sources LATCHED in LATCH mode, and IDLE in FOLLOW mode, where a pulse or counting source stretches the line by 10 ms. The coalescing of the target starts afresh. An ended stretch is dropped. EVENT_MESSAGE sends the oldest queued delivery to every subscription. -/
def Obligations.DeliveriesToHostAndLines : Prop :=
  (∀ (dt : Nat) (s : State),
      let e := elapse dt s
      e.clk.running = true →
      (nth e.ev.targets 0 EvTarget.reset).due e.clk.count = true →
      hostTakes e = true →
      e.ev.queued + (heldFor e.cfg.ev e.ev 0).length ≤ 1024 →
      exec (.coalesceTimeout dt 0) s = .next (finish ({ e with
            ev := { e.ev with
              queue := e.ev.queue ++ [(heldFor e.cfg.ev e.ev 0).map (recordOf e.cfg.ev e.ev)],
              src := setStates .idle (heldFor e.cfg.ev e.ev 0) e.ev.src,
              targets := upd e.ev.targets 0 EvTarget.delivered, deferring := false } })))
  ∧ (∀ (dt : Nat) (s : State),
      let e := elapse dt s
      e.clk.running = true →
      (nth e.ev.targets 0 EvTarget.reset).due e.clk.count = true →
      hostTakes e = false ∨ 1024 < e.ev.queued + (heldFor e.cfg.ev e.ev 0).length →
      e.ev.deferring = false →
      exec (.coalesceTimeout dt 0) s = .next (finish ({ e with ev := { e.ev with deferring := true, hostDeferred := e.ev.hostDeferred + 1 } })))
  ∧ (∀ (dt : Nat) (k : Fin 2) (s : State),
      let e := elapse dt s
      e.clk.running = true →
      (nth e.ev.targets (k + 1) EvTarget.reset).due e.clk.count = true →
      (nth e.ev.targets (k + 1) EvTarget.reset).alertMode = 0 →
      exec (.coalesceTimeout dt ⟨k + 1, by omega⟩) s = .next (finish ({ e with
            ev := { e.ev with
              src := setStates .latched (heldFor e.cfg.ev e.ev (k + 1)) e.ev.src,
              targets := upd e.ev.targets (k + 1) EvTarget.delivered } })))
  ∧ (∀ (dt : Nat) (k : Fin 2) (s : State),
      let e := elapse dt s
      e.clk.running = true →
      (nth e.ev.targets (k + 1) EvTarget.reset).due e.clk.count = true →
      (nth e.ev.targets (k + 1) EvTarget.reset).alertMode = 1 →
      exec (.coalesceTimeout dt ⟨k + 1, by omega⟩) s = .next (finish ({ e with
            ev := { e.ev with
              src := setStates .idle (heldFor e.cfg.ev e.ev (k + 1)) e.ev.src,
              targets := upd e.ev.targets (k + 1) fun t =>
                { t.delivered with
                  stretchEnd := if (heldFor e.cfg.ev e.ev (k + 1)).any (fun n => kindOf n != 1) then some (e.clk.count + 10000000)
                                else t.stretchEnd,
                  followed := t.followed ++ (heldFor e.cfg.ev e.ev (k + 1)).filter fun n =>
                    kindOf n == 1 && (e.ev.source n).level } } })))
  ∧ (∀ (dt : Nat) (s : State),
      let e := elapse dt s
      e.ev.deferring = true →
      e.clk.running = true →
      (nth e.ev.targets 0 EvTarget.reset).due e.clk.count = true →
      hostTakes e = true →
      e.ev.queued + (heldFor e.cfg.ev e.ev 0).length ≤ 1024 →
      exec (.deliveryRetry dt) s = .next (finish ({ e with
            ev := { e.ev with
              queue := e.ev.queue ++ [(heldFor e.cfg.ev e.ev 0).map (recordOf e.cfg.ev e.ev)],
              src := setStates .idle (heldFor e.cfg.ev e.ev 0) e.ev.src,
              targets := upd e.ev.targets 0 EvTarget.delivered, deferring := false } })))
  ∧ (∀ (dt : Nat) (line : Fin 2) (x : Nat) (s : State),
      let e := elapse dt s
      (nth e.ev.targets (line + 1) EvTarget.reset).stretchEnd = some x →
      x ≤ e.clk.count →
      exec (.alertStretchExpiry dt line) s = .next (finish ({ e with ev := { e.ev with targets := upd e.ev.targets (line + 1) fun t => if t.stretchEnd = some x then { t with stretchEnd := none } else t } })))
  ∧ (∀ (dt : Nat) (l : List DRec) (rest : List (List DRec)) (s : State),
      let e := elapse dt s
      e.ev.queue = l :: rest →
      dopUp e = true →
      exec (.eventMessage dt) s = .next (finish ((List.range e.dop.subs.length).foldl (fun u k => match u.dop.subs[k]? with
              | none => u
              | some x => (piecesOf (if onCan x.req.iface then 3 else 64) (l.filter fun d => x.mask.getLsbD d.source)).foldl
                  (fun u p => sendEvents k p u) u) { e with ev := { e.ev with queue := rest } })))

/-- An accepted ALERT_ACK in LATCH mode makes every LATCHED source of the line IDLE but for a level source still asserted. A write of ALERT_MODE takes 0 or 1 into the configuration; in the next cycle the coalescing settings come into force with nothing delivered. A write of ROUTE takes a target up to 5 while the source is IDLE, without the reserved bits; clearing the enable is also taken while it is PENDING or HELD, and leaves it IDLE. Each is journalled and answered with OK. -/
def Obligations.AlertAndRouteSettings : Prop :=
  (∀ (dt : Nat) (r : Requester) (line : Fin 2) (arg : Nat) (s : State),
      let e := elapse dt s
      Heard r (commandFrame r (addrWord 0x04 (21 + line) 6) .u8 arg) e →
      arg < 256 →
      e.md.mode ≠ .safe →
      e.md.bootRom = false →
      (nth e.cfg.ev.targets (line + 1) CfgTarget.reset).alertMode = 0 →
      exec (.alertAck dt r line arg) s = .next (finish (commanded r (addrWord 0x04 (21 + line) 6) .u8 arg
          { counted e with
            ev := { e.ev with
              src := setStates .idle ((latchedFor e.cfg.ev e.ev (line + 1)).filter fun n =>
                !(kindOf n == 1 && (e.ev.source n).level)) e.ev.src } })))
  ∧ (∀ (dt : Nat) (r : Requester) (line : Fin 2) (v : Nat) (s : State),
      let e := elapse dt s
      Heard r (writeFrame r (addrWord 0x04 (21 + line) 5) .u8 v) e →
      v < 2 →
      e.md.mode ≠ .safe →
      e.md.bootRom = false →
      exec (.alertModeWrite dt r line v) s = .next (finish (written r (addrWord 0x04 (21 + line) 5) .u8
          (nth e.cfg.ev.targets (line + 1) CfgTarget.reset).alertMode v
          { counted e with
            cfg := { e.cfg with ev := { e.cfg.ev with
              targets := upd e.cfg.ev.targets (line + 1) fun t => { t with alertMode := v } } } })))
  ∧ (∀ (s : State),
      (nth s.ev.targets 1 EvTarget.reset).alertMode = (nth s.cfg.ev.targets 1 CfgTarget.reset).alertMode →
      (nth s.ev.targets 2 EvTarget.reset).alertMode = (nth s.cfg.ev.targets 2 CfgTarget.reset).alertMode →
      s.ev.targets.length = 3 →
      takeTargetSettings s = { s with ev := { s.ev with
          targets := (indexed s.ev.targets).map fun (p : Nat × EvTarget) => p.2.configure (nth s.cfg.ev.targets p.1 CfgTarget.reset) } })
  ∧ (∀ (dt : Nat) (r : Requester) (src : Fin 256) (v : Nat) (s : State),
      let e := elapse dt s
      Heard r (writeFrame r (addrWord 0x04 0 src) .u8 v) e →
      e.md.mode ≠ .safe →
      e.md.bootRom = false →
      v % 8 ≤ 5 →
      128 ≤ v →
      v < 256 →
      (e.ev.source src).state = .idle →
      exec (.routeWrite dt r src v) s = .next (finish (written r (addrWord 0x04 0 src) .u8 (e.cfg.ev.route src).toNat v
          { counted e with
            cfg := { e.cfg with ev := { e.cfg.ev with routes := upd e.cfg.ev.routes src fun _ => BitVec.ofNat 8 v &&& 0xC7#8 } } })))
  ∧ (∀ (dt : Nat) (r : Requester) (src : Fin 256) (v : Nat) (s : State),
      let e := elapse dt s
      Heard r (writeFrame r (addrWord 0x04 0 src) .u8 v) e →
      e.md.mode ≠ .safe →
      e.md.bootRom = false →
      v % 8 ≤ 5 →
      v < 128 →
      (e.ev.source src).state = .idle ∨ (e.ev.source src).state = .pending →
      exec (.routeWrite dt r src v) s = .next (finish (written r (addrWord 0x04 0 src) .u8 (e.cfg.ev.route src).toNat v
          { counted e with
            cfg := { e.cfg with ev := { e.cfg.ev with routes := upd e.cfg.ev.routes src fun _ => BitVec.ofNat 8 v &&& 0xC7#8 } },
            ev := e.ev.setSrc src fun x => { x with state := .idle, relatch := false } })))
  ∧ (∀ (dt : Nat) (r : Requester) (src : Fin 256) (v : Nat) (s : State),
      let e := elapse dt s
      Heard r (writeFrame r (addrWord 0x04 0 src) .u8 v) e →
      e.md.mode ≠ .safe →
      e.md.bootRom = false →
      v % 8 ≤ 5 →
      v < 128 →
      (e.ev.source src).state = .held →
      exec (.routeWrite dt r src v) s =
          let c := { e.cfg with ev := { e.cfg.ev with routes := upd e.cfg.ev.routes src fun _ => BitVec.ofNat 8 v &&& 0xC7#8 } }
          .next (finish (written r (addrWord 0x04 0 src) .u8 (e.cfg.ev.route src).toNat v
            { counted e with
              cfg := c,
              ev := [0, 1, 2].foldl (fun x k => x.dropCollection c.ev k)
                (e.ev.setSrc src fun x => { x with state := .idle, relatch := false }) })))

/-- An edge of a live CLK reference below the divider only counts; the D-th is a watched edge on time. A PULSE edge within PULSE_WINDOW of its expected instant, or any while the activity fault stands, is on time; another is extra. The fourth edge on time in a row takes 1 from the activity counter, which clears the fault at 0; a missing edge ends the run and adds 1, asserting the fault with its sticky bit at the threshold (a counter that a lowered threshold has left at or above it asserts it at the next edge); an extra edge is counted, sets sticky bit 4 and is one missing edge. An edge is missing when its watched period and a half, or its window, has passed. The edges on time of a SELECTED candidate reach the phase detectors of its channels, and those of a GNSS source its reference. -/
def Obligations.ReferenceEdges : Prop :=
  (∀ (dt : Nat) (n : Fin 16) (frac : Rat) (s : State),
      let e := elapse dt s
      candLive e n = true →
      (8 ≤ (n : Nat) ∧ (n : Nat) < 12 → e.isFenced (.conn 2) = false) →
      candKind e.cfg n = .clk →
      (e.cand n).state ≠ .selected →
      (e.cand n).edgeDiv + 1 < watchDivider (nominalMhz e.cfg n) →
      exec (.referenceEdge dt n frac) s = .next (finish (e.setCand n fun x => { x with edgeDiv := x.edgeDiv + 1 })))
  ∧ (∀ (dt : Nat) (n : Fin 16) (frac : Rat) (s : State),
      let e := elapse dt s
      candLive e n = true →
      (8 ≤ (n : Nat) ∧ (n : Nat) < 12 → e.isFenced (.conn 2) = false) →
      candKind e.cfg n = .clk →
      (e.cand n).state ≠ .selected →
      watchDivider (nominalMhz e.cfg n) ≤ (e.cand n).edgeDiv + 1 →
      exec (.referenceEdge dt n frac) s = .next (finish ((candEdge n ((e.clk.count : Rat) + frac) e).setCand n fun x => { x with edgeDiv := 0 })))
  ∧ (∀ (dt : Nat) (n : Fin 16) (frac : Rat) (s : State),
      let e := elapse dt s
      candLive e n = true →
      (8 ≤ (n : Nat) ∧ (n : Nat) < 12 → e.isFenced (.conn 2) = false) →
      candKind e.cfg n = .pulse →
      (e.cand n).state ≠ .selected →
      gnssCand e = none →
      pulseOnTime e n ((e.clk.count : Rat) + frac - delayNs e.cfg n) = true →
      exec (.referenceEdge dt n frac) s = .next (finish (candEdge n ((e.clk.count : Rat) + frac - delayNs e.cfg n)
            (e.setCand n fun x => { x with sticky := if (e.cand n).actFault then setBit8 x.sticky 3 else x.sticky }))))
  ∧ (∀ (dt : Nat) (n : Fin 16) (frac : Rat) (s : State),
      let e := elapse dt s
      candLive e n = true →
      (8 ≤ (n : Nat) ∧ (n : Nat) < 12 → e.isFenced (.conn 2) = false) →
      candKind e.cfg n = .pulse →
      gnssCand e = none →
      pulseOnTime e n ((e.clk.count : Rat) + frac - delayNs e.cfg n) = false →
      exec (.referenceEdge dt n frac) s = .next (finish (missEdge n (e.setCand n fun x => { x with extra := x.extra + 1, sticky := setBit8 x.sticky 4 }))))
  ∧ (∀ (dt : Nat) (n : Fin 16) (frac : Rat) (s : State),
      let e := elapse dt s
      candLive e n = true →
      (8 ≤ (n : Nat) ∧ (n : Nat) < 12 → e.isFenced (.conn 2) = false) →
      candKind e.cfg n = .clk →
      (e.cand n).state = .selected →
      watchDivider (nominalMhz e.cfg n) ≤ (e.cand n).edgeDiv + 1 →
      exec (.referenceEdge dt n frac) s = .next (finish (withSeconds (fun t => edgeToChannels n ((t.clk.count : Rat) + frac)
            ((candEdge n ((t.clk.count : Rat) + frac) t).setCand n fun x => { x with edgeDiv := 0 })) e)))
  ∧ (∀ (dt : Nat) (n : Fin 16) (frac : Rat) (l : Nat) (s : State),
      let e := elapse dt s
      candLive e n = true →
      (8 ≤ (n : Nat) ∧ (n : Nat) < 12 → e.isFenced (.conn 2) = false) →
      candKind e.cfg n = .pulse →
      (e.cand n).state ≠ .selected →
      gnssOf e n = some l →
      pulseOnTime e n ((e.clk.count : Rat) + frac - delayNs e.cfg n) = true →
      exec (.referenceEdge dt n frac) s = .next (finish (withSeconds (fun t =>
            let p := (t.clk.count : Rat) + frac - delayNs t.cfg n
            labelledPulse l p (candEdge n p
              (t.setCand n fun x => { x with sticky := if (t.cand n).actFault then setBit8 x.sticky 3 else x.sticky }))) e)))
  ∧ (∀ (dt : Nat) (cand : Fin 24) (l : Rat) (s : State),
      let e := elapse dt s
      candLive e cand = true →
      candKind e.cfg cand = .clk →
      (e.cand cand).lastWatch = some l →
      l + watchPeriod e.cfg cand * 3 / 2 ≤ (e.clk.count : Rat) →
      exec (.missingEdge dt cand) s = .next (finish (missEdge cand (e.setCand cand fun x => { x with lastWatch := some (l + watchPeriod e.cfg cand) }))))
  ∧ (∀ (dt : Nat) (cand : Fin 24) (l : Rat) (s : State),
      let e := elapse dt s
      candLive e cand = true →
      candKind e.cfg cand = .pulse →
      (e.cand cand).lastWatch = some l →
      l + nominalPeriod e.cfg cand + (e.cfg.ref cand).pulseWindow + max 0 (delayNs e.cfg cand) ≤ (e.clk.count : Rat) →
      exec (.missingEdge dt cand) s = .next (finish (
            let u := missEdge cand (e.setCand cand fun x =>
              { x with lastWatch := x.anchor.map fun a =>
                  a + nominalPeriod e.cfg cand * (((l - a) / nominalPeriod e.cfg cand + 1 / 2).floor + 1) })
            match gnssOf e cand with | some k => labelledMissing k u | none => u)))
  ∧ (∀ (dt : Nat) (cand : Fin 24) (l : Rat) (s : State),
      let e := elapse dt s
      candLive e cand = true →
      candKind e.cfg cand = .domain →
      (e.cand cand).lastWatch = some l →
      (l + 1) * 1000000000 + 1000000 < (e.tbs ((e.cfg.lref ((cand : Nat) - 16)).source / 2)).now →
      exec (.missingEdge dt cand) s = .next (finish (missEdge cand (e.setCand cand fun x => { x with lastWatch := some (l + 1) }))))
  ∧ (∀ (c : Nat) (s : State),
      missEdge c s = s.setCand c fun x =>
            let n := min (candCfg s.cfg c).act (x.actCount + 1)
            if (candCfg s.cfg c).act ≤ n ∧ x.actFault = false then
              { x with
                missing := x.missing + 1, onTimeRun := 0, actCount := n, actFault := true, sticky := setBit8 x.sticky 0,
                winCount := 0, winLast := none, marks := [], mark100 := none, y1 := none, y10 := none, y100 := none,
                samples := [], drift := none, freqFault := false, driftFault := false }
            else { x with missing := x.missing + 1, onTimeRun := 0, actCount := n })
  ∧ (∀ (thr : Nat) (period : Option Rat) (t : Rat) (x : Cand),
      x.actCount < thr →
      x.onTime thr period t =
        let n := x.winCount + periodsSince period t x
        let c := if x.onTimeRun + 1 < 4 then x.actCount else x.actCount - 1
        { x with
          onTimeRun := (x.onTimeRun + 1) % 4, actCount := c,
          actFault := x.actFault && !(decide (4 ≤ x.onTimeRun + 1) && c == 0),
          anchor := some t, lastWatch := some t, winCount := n, winLast := some t,
          marks := if x.marks.isEmpty then [(t, n)] else x.marks, mark100 := x.mark100.or (some (t, n)) })
  ∧ (∀ (thr : Nat) (x : Cand),
      thr ≤ x.actCount →
      x.actFault = false →
      x.atThreshold thr = { x with actCount := thr, onTimeRun := 0, actFault := true, sticky := setBit8 x.sticky 0 })

/-- An enabled sentence with a wrong or missing checksum, one longer than 82 characters, and one that does not lie between the latest pulse and MSG_LATEST after it are each counted and used no further. One that passes is counted, its time joins the sentences of the pulse, and an RMC gives the fix and its rank; where LABEL is 0 and every enabled sentence is in, the pulse is judged. A labelled pulse that is not judged when MSG_LATEST has passed is judged then. While the source of the enabled GNSS reference is off, it misses one pulse each second. -/
def Obligations.GnssPort : Prop :=
  (∀ (dt : Nat) (chars : List Byte) (began : Nat) (x : Sentence) (rmc : Bool) (s : State),
      let e := elapse dt s
      readSentence chars = some x →
      sentenceType (fieldAt x.fields 0) = some rmc →
      e.runs 0 = true →
      bit8 e.cfg.gnss.sentences (if rmc then 1 else 0) = true →
      82 < x.length →
      exec (.gnssSentence dt chars began) s = .next (finish (e.setGnss fun g => { g with overlong := g.overlong + 1 })))
  ∧ (∀ (dt : Nat) (chars : List Byte) (began : Nat) (x : Sentence) (rmc : Bool) (s : State),
      let e := elapse dt s
      readSentence chars = some x →
      sentenceType (fieldAt x.fields 0) = some rmc →
      e.runs 0 = true →
      bit8 e.cfg.gnss.sentences (if rmc then 1 else 0) = true →
      x.length ≤ 82 →
      x.sumOk = false →
      exec (.gnssSentence dt chars began) s = .next (finish (e.setGnss fun g => { g with checksumErrors := g.checksumErrors + 1 })))
  ∧ (∀ (dt : Nat) (chars : List Byte) (began : Nat) (x : Sentence) (rmc : Bool) (s : State),
      let e := elapse dt s
      readSentence chars = some x →
      sentenceType (fieldAt x.fields 0) = some rmc →
      e.runs 0 = true →
      bit8 e.cfg.gnss.sentences (if rmc then 1 else 0) = true →
      x.length ≤ 82 →
      x.sumOk = true →
      (∀ p, e.rf.gnss.pulseAt = some p → ((e.clk.count - began : Nat) : Rat) < p ∨ p + (e.cfg.gnss.msgLatest : Rat) * 1000000 < (e.clk.count : Rat)) →
      exec (.gnssSentence dt chars began) s = .next (finish (e.setGnss fun g => { g with late := g.late + 1 })))
  ∧ (∀ (dt : Nat) (chars : List Byte) (began : Nat) (x : Sentence) (rmc : Bool) (p : Rat) (c : Nat) (s : State),
      let e := elapse dt s
      readSentence chars = some x →
      sentenceType (fieldAt x.fields 0) = some rmc →
      e.runs 0 = true →
      bit8 e.cfg.gnss.sentences (if rmc then 1 else 0) = true →
      x.length ≤ 82 →
      x.sumOk = true →
      e.rf.gnss.pulseAt = some p →
      p ≤ ((e.clk.count - began : Nat) : Rat) →
      (e.clk.count : Rat) ≤ p + (e.cfg.gnss.msgLatest : Rat) * 1000000 →
      ¬ (e.cfg.gnss.label = 0 ∧ e.rf.gnss.judged = true) →
      gnssCand e = some c →
      exec (.gnssSentence dt chars began) s = .next (finish (
            let u := e.setGnss fun g =>
              { g with
                sentencesOk := g.sentencesOk + 1, sents := g.sents ++ [sentenceTime rmc x.fields],
                fix := if rmc then (fixOf x.fields).getD g.fix else g.fix,
                fixRank := if rmc then fixRankOf ((fixOf x.fields).getD g.fix) (candCfg e.cfg c).quality else g.fixRank }
            let got := fun (y : Bool) => u.rf.gnss.sents.any fun z => z.rmc == y
            if e.cfg.gnss.label = 0 ∧ ((!bit8 e.cfg.gnss.sentences 0 || got false) && (!bit8 e.cfg.gnss.sentences 1 || got true)) = true then
              judgeOpen c u
            else u)))
  ∧ (∀ (dt : Nat) (p : Rat) (c : Nat) (s : State),
      let e := elapse dt s
      e.rf.gnss.pulseAt = some p →
      gnssCand e = some c →
      e.cfg.gnss.label = 0 →
      candLive e c = true →
      p + (e.cfg.gnss.msgLatest : Rat) * 1000000 ≤ (e.clk.count : Rat) →
      e.rf.gnss.judged = false →
      exec (.msgLatestExpiry dt) s = .next (finish (judgePulse c p e)))
  ∧ (∀ (dt : Nat) (n : Fin 8) (s : State),
      let e := elapse dt s
      gnssCand e = some (16 + (n : Nat)) →
      candLive e (16 + n) = true →
      candLive e (e.cfg.lref n).source = false ∨ candKind e.cfg (e.cfg.lref n).source ≠ .pulse →
      e.rf.gnss.countBase + 1000000000 ≤ e.clk.count →
      exec (.gnssSourceMissingPulse dt n) s = .next (finish (missEdge (16 + n) (e.setGnss fun g => { g with countBase := g.countBase + 1000000000 }))))
  ∧ (∀ (c : Nat) (t : Rat) (s : State),
      s.runs 0 = false ∨ s.rf.gnss.sents = [] →
      judgePulse c t s = missEdge c (s.setGnss fun g => { g with judged := true, sents := [] }))

/-- A QUALIFYING candidate that is clean when WTR has passed becomes QUALIFIED and raises its source. A rank improvement that has waited WTR becomes the effective rank and raises the source. The windows of a live candidate are formed from its watched edges: over the last second the offset is the count of periods over the time measured, less 1. An accepted write of ENABLE to 1 starts the candidate in MONITORING with its counters at 0 and its activity counter at the threshold; to 0 makes it ABSENT. Writing a STICKY byte clears the bits written 1. A domain whose whole second has passed notes it. -/
def Obligations.CandidateStates : Prop :=
  (∀ (dt : Nat) (cand : Fin 24) (t : Nat) (s : State),
      let e := elapse dt s
      (e.cand cand).state = .qualifying →
      (e.cand cand).wtrSince = some t →
      candClean (candCfg e.cfg cand) (e.cand cand) = true →
      t + (candCfg e.cfg cand).wtr * 1000000000 ≤ e.clk.count →
      e.rf.stopped = false →
      exec (.waitToRestoreExpiry dt cand) s = .next (finish ((raise (48 + cand) (e.setCand cand fun x =>
              { x with state := .qualified, lastChange := e.clk.count, wtrSince := none })).setCand cand fun x =>
                { x with qualifiedAt := some e.clk.count })))
  ∧ (∀ (dt : Nat) (cand : Fin 24) (k : Nat) (t : Nat) (s : State),
      let e := elapse dt s
      (e.cand cand).improve = some (k, t) →
      t + (candCfg e.cfg cand).wtr * 1000000000 ≤ e.clk.count →
      e.rf.stopped = false →
      exec (.rankImprovementExpiry dt cand) s = .next (finish (raise (48 + cand) (e.setCand cand fun x => { x with rank := k, improve := none }))))
  ∧ (∀ (dt : Nat) (cand : Fin 24) (s : State),
      let e := elapse dt s
      candLive e cand = true →
      exec (.frequencyWindowUpdate dt cand) s = .next (finish (e.setCand cand fun x => x.windows (candCfg e.cfg cand) (watchPeriod e.cfg cand))))
  ∧ (∀ (c : CandCfg) (x : Cand) (p t t0 : Rat) (n0 : Nat) (rest : List (Rat × Nat)),
      x.winLast = some t →
      x.marks = (t0, n0) :: rest →
      1000000000 - p / 2 ≤ t - t0 →
      t0 < t →
      (x.windows c p).y1 = some ((((x.winCount - n0 : Nat) : Rat) * p / (t - t0) - 1) * 1000000000000))
  ∧ (∀ (dt : Nat) (r : Requester) (n : Fin 16) (v : Nat) (s : State),
      let e := elapse dt s
      Heard r (writeFrame r (addrWord 0x10 (n) 0) .u8 v) e →
      e.md.mode ≠ .safe →
      e.md.bootRom = false →
      v < 2 →
      e.isFenced (.cand (n)) = false →
      n < e.cfg.refs.length →
      v = 0 ∨ refValid n { e.cfg.ref n with enable := v } = true →
      exec (.referenceEnable dt r ⟨n, by omega⟩ v) s = .next (finish (written r (addrWord 0x10 (n) 0) .u8 (e.cfg.ref n).enable v
          (enableWritten (n) { counted e with cfg := { e.cfg with refs := upd e.cfg.refs n fun x => { x with enable := v } } }))))
  ∧ (∀ (dt : Nat) (r : Requester) (n : Fin 8) (v : Nat) (s : State),
      let e := elapse dt s
      Heard r (writeFrame r (addrWord 0x10 (16 + n) 0) .u8 v) e →
      e.md.mode ≠ .safe →
      e.md.bootRom = false →
      v < 2 →
      e.isFenced (.cand (16 + n)) = false →
      n < e.cfg.lrefs.length →
      v = 0 ∨ lrefValid n { e.cfg with lrefs := upd e.cfg.lrefs n fun x => { x with enable := v } } = true →
      exec (.referenceEnable dt r ⟨16 + n, by omega⟩ v) s = .next (finish (written r (addrWord 0x10 (16 + n) 0) .u8 (e.cfg.lref n).enable v
          (enableWritten (16 + n) { counted e with cfg := { e.cfg with lrefs := upd e.cfg.lrefs n fun x => { x with enable := v } } }))))
  ∧ (∀ (c : Nat) (s : State),
      (candCfg s.cfg c).enable = 1 →
      (s.cand c).state = .absent →
      enableWritten c s = startCand c (s.setCand c fun x => { x with missing := 0, extra := 0, disq := 0 }))
  ∧ (∀ (c : Nat) (s : State),
      (s.cand c).state = .absent →
      candKind s.cfg c = .clk ∨ candKind s.cfg c = .pulse →
      startCand c s = raise (48 + c) (s.setCand c fun x =>
            { x.discard with
              actCount := (candCfg s.cfg c).act, onTimeRun := 0, actFault := true, anchor := none, edgeDiv := 0, lastWatch := none,
              state := .monitoring, lastChange := s.clk.count, wtrSince := none }))
  ∧ (∀ (c : Nat) (s : State),
      (candCfg s.cfg c).enable = 0 →
      (s.cand c).state = .monitoring ∨ (s.cand c).state = .qualifying →
      enableWritten c s = raise (48 + c) (s.setCand c fun x =>
            { x.discard with actFault := false, actCount := 0, state := .absent, lastChange := s.clk.count, wtrSince := none }))
  ∧ (∀ (dt : Nat) (r : Requester) (n : Fin 24) (v : Nat) (s : State),
      let e := elapse dt s
      Heard r (writeFrame r (addrWord 16 (40 + n) 2) .u8 v) e →
      e.md.mode ≠ .safe →
      e.md.bootRom = false →
      v < 256 →
      exec (.stickyClear dt r (addrWord 16 (40 + n) 2) v) s = .next (finish (written r (addrWord 16 (40 + n) 2) .u8 (e.cand n).sticky.toNat v
          ((counted e).setCand n fun x => { x with sticky := x.sticky &&& ~~~ BitVec.ofNat 8 v }))))
  ∧ (∀ (dt : Nat) (r : Requester) (n : Fin 8) (v : Nat) (s : State),
      let e := elapse dt s
      Heard r (writeFrame r (addrWord 17 (10 + n) 11) .u8 v) e →
      e.md.mode ≠ .safe →
      e.md.bootRom = false →
      v < 256 →
      exec (.stickyClear dt r (addrWord 17 (10 + n) 11) v) s = .next (finish (written r (addrWord 17 (10 + n) 11) .u8 (e.chan n).sticky.toNat v
          ((counted e).setChan n fun x => { x with sticky := x.sticky &&& ~~~ BitVec.ofNat 8 v }))))
  ∧ (∀ (dt : Nat) (r : Requester) (n : Fin 64) (v : Nat) (s : State),
      let e := elapse dt s
      Heard r (writeFrame r (addrWord 48 (100 + n) 5) .u8 v) e →
      e.md.mode ≠ .safe →
      e.md.bootRom = false →
      v < 256 →
      exec (.stickyClear dt r (addrWord 48 (100 + n) 5) v) s = .next (finish (written r (addrWord 48 (100 + n) 5) .u8 (e.tsi n).sticky.toNat v
          ((counted e).setTsi n fun x => { x with sticky := x.sticky &&& ~~~ BitVec.ofNat 8 v }))))
  ∧ (∀ (dt : Nat) (r : Requester) (n : Fin 32) (v : Nat) (s : State),
      let e := elapse dt s
      Heard r (writeFrame r (addrWord 20 (40 + n) 6) .u8 v) e →
      e.md.mode ≠ .safe →
      e.md.bootRom = false →
      v < 256 →
      exec (.stickyClear dt r (addrWord 20 (40 + n) 6) v) s = .next (finish (written r (addrWord 20 (40 + n) 6) .u8 (e.out n).sticky.toNat v
          ((counted e).setOut n fun x => { x with sticky := x.sticky &&& ~~~ BitVec.ofNat 8 v }))))
  ∧ (∀ (dt : Nat) (r : Requester) (n : Fin 8) (v : Nat) (s : State),
      let e := elapse dt s
      Heard r (writeFrame r (addrWord 64 (10 + n) 10) .u8 v) e →
      e.md.mode ≠ .safe →
      e.md.bootRom = false →
      v < 256 →
      exec (.stickyClear dt r (addrWord 64 (10 + n) 10) v) s = .next (finish (written r (addrWord 64 (10 + n) 10) .u8 (e.axis n).sticky.toNat v
          ((counted e).setAxis n fun x => { x with sticky := x.sticky &&& ~~~ BitVec.ofNat 8 v }))))
  ∧ (∀ (dt : Nat) (r : Requester) (n : Fin 256) (v : Nat) (s : State),
      let e := elapse dt s
      Heard r (writeFrame r (addrWord 4 7 n) .u8 v) e →
      e.md.mode ≠ .safe →
      e.md.bootRom = false →
      v < 256 →
      exec (.stickyClear dt r (addrWord 4 7 n) v) s = .next (finish (written r (addrWord 4 7 n) .u8 (e.ev.source n).sticky.toNat v
          { counted e with ev := e.ev.setSrc n fun x => { x with sticky := x.sticky &&& ~~~ BitVec.ofNat 8 v } })))
  ∧ (∀ (dt : Nat) (i : Fin 8) (q : Int) (s : State),
      let e := elapse dt s
      (e.domi i).supplies = true →
      (e.domi i).est ≠ [] →
      (e.domi i).edgeSec = some q →
      q < (masterNow e i).floor / 1000000000 →
      exec (.domainEdge dt i) s = .next (finish (withSeconds (fun z =>
            let m := masterNow z i
            let t := (z.clk.count : Rat) - (m - ((m.floor / 1000000000 : Int) : Rat) * 1000000000)
            let loc := tbAt z (i / 2) t
            (List.range 8).foldl (fun u n =>
              if candKind u.cfg (16 + n) = .domain ∧ (u.cfg.lref n).source = i ∧ candLive u (16 + n) = true ∧ loc - (loc.floor / 1000000000 : Int) * 1000000000 ≤ 1000000
                  ∧ (u.cand (16 + n)).lastWatch ≠ some ((loc.floor / 1000000000 : Int) : Rat) then
                let w := (candEdge (16 + n) t u).setCand (16 + n) fun x => { x with lastWatch := some ((loc.floor / 1000000000 : Int) : Rat) }
                let w := if (u.cand (16 + n)).state = .selected then edgeToChannels (16 + n) t w else w
                (List.range 8).foldl (labelAligned (16 + n) (m.floor / 1000000000).toNat t) w
              else u) (z.setDom i fun d => { d with edgeSec := some (m.floor / 1000000000) })) e)))

/-- When LOCK_COUNT cycles in the window have been counted, a tracking channel at the last step of its schedule becomes LOCKED with the criterion met, one before it goes to the next step in NARROWING, and a LOCKED one meets the criterion. An accepted write of ENABLE takes the value. The first edge after the outputs have stopped sets the DCO, the cycle and the channel second to it, with no gap, build-out or slope. When the DCO has passed a whole second its second number goes up by one and the instant is noted. LDA_MON shows the duty cycle of R150. -/
def Obligations.LockAndAlignment : Prop :=
  (∀ (dt : Nat) (n : Fin 8) (k : Nat) (s : State),
      let e := elapse dt s
      (e.chan n).cand = some k →
      (e.cfg.chan n).lockCount ≤ (e.chan n).lockRun →
      (e.chan n).crit = false →
      (e.chan n).state = .locked →
      exec (.lockCriterion dt n) s = .next (finish (e.setChan n fun x => { x with crit := true })))
  ∧ (∀ (dt : Nat) (n : Fin 8) (k : Nat) (s : State),
      let e := elapse dt s
      (e.chan n).cand = some k →
      (e.cfg.chan n).lockCount ≤ (e.chan n).lockRun →
      (e.chan n).crit = false →
      (e.chan n).state = .acquire ∨ (e.chan n).state = .narrowing →
      (scheduleOf e n k).length ≤ (e.chan n).pos + 1 →
      exec (.lockCriterion dt n) s = .next (finish ((raise (72 + n) (e.setChan n fun x => { x with state := .locked, lastChange := e.clk.count })).setChan n fun x =>
            { x.atLast (scheduleOf e n k) with crit := true, integ := x.loopTerm })))
  ∧ (∀ (dt : Nat) (n : Fin 8) (k : Nat) (s : State),
      let e := elapse dt s
      (e.chan n).cand = some k →
      (e.cfg.chan n).lockCount ≤ (e.chan n).lockRun →
      (e.chan n).crit = false →
      (e.chan n).state = .acquire ∨ (e.chan n).state = .narrowing →
      (e.chan n).pos + 1 < (scheduleOf e n k).length →
      exec (.lockCriterion dt n) s = .next (finish ((raise (72 + n) (e.setChan n fun x => { x with state := .narrowing, lastChange := e.clk.count })).setChan n fun x =>
            { x.atStep (scheduleOf e n k) ((e.chan n).pos + 1) with lockRun := 0 })))
  ∧ (∀ (dt : Nat) (r : Requester) (n : Fin 8) (v : Nat) (s : State),
      let e := elapse dt s
      Heard r (writeFrame r (addrWord 0x11 n 0) .u8 v) e →
      v < 2 →
      e.md.mode ≠ .safe →
      e.md.bootRom = false →
      e.isFenced (.dp n) = false →
      n < e.cfg.dp.length →
      scheduleOk (e.cfg.chan n) = true →
      exec (.channelEnable dt r n v) s = .next (finish (written r (addrWord 0x11 n 0) .u8 (e.cfg.chan n).enable v
          { counted e with cfg := { e.cfg with dp := upd e.cfg.dp n fun c => { c with enable := v } } })))
  ∧ (∀ (dt : Nat) (n : Fin 8) (frac : Rat) (c : Nat) (s : State),
      let e := elapse dt s
      (e.chan n).cand = some c →
      (e.chan n).aligning = 1 →
      tracks (e.chan n) = true →
      (e.chan n).frozen = none →
      exec (.firstAlignment dt n frac) s = .next (finish (withSeconds (fun t => realign n ((t.clk.count : Rat) + frac - delayNs t.cfg c) t) e)))
  ∧ (∀ (n : Nat) (t : Rat) (s : State),
      (∀ c, (s.chan n).cand = some c → candKind s.cfg c = .clk ∨ candKind s.cfg c = .pulse) →
      realign n t s =
          let since := ((s.clk.count : Rat) - t) * (1 + dcoOffset s n / 1000000000000)
          raise (72 + n) ((shiftOuts n (since - (s.chan n).cyc) s).setChan n fun x =>
            { x with
              cyc := since, phase := since, secAt := some t, secNum := 0, relabel := false, buildout := 0,
              taper := { x.taper with gap := 0, slope := 0, ending := false },
              aligned := true, aligning := 2, phaseErr := some 0, integ := x.loopTerm, sticky := setBit8 x.sticky 6 }))
  ∧ (∀ (dt : Nat) (n : Fin 8) (s : State),
      let e := elapse dt s
      1000000000 ≤ (e.chan n).phase →
      exec (.channelSecond dt n) s = .next (finish (withSeconds (fun t => t.setChan n fun x =>
            { x with
              phase := x.phase - 1000000000, secNum := x.secNum + 1,
              secAt := some ((t.clk.count : Rat) - ((t.chan n).phase - 1000000000) / (1 + dcoOffset t n / 1000000000000)) }) e)))
  ∧ (∀ (dt : Nat) (s : State),
      let e := elapse dt s
      e.clk.running = true →
      exec (.ldaMonUpdate dt) s = .next (finish ({ e with pins := { e.pins with ldaDuty := ldaDutyNow e } })))
  ∧ (∀ (s : State),
      (7 < s.cfg.ldaSelect → ldaDutyNow s = 0)
          ∧ (s.cfg.ldaSelect ≤ 7 → (s.chan s.cfg.ldaSelect).state = .fenced → ldaDutyNow s = 0)
          ∧ (s.cfg.ldaSelect ≤ 7 → (s.chan s.cfg.ldaSelect).state = .idle ∨ (s.chan s.cfg.ldaSelect).state = .holdover → ldaDutyNow s = 500))
  ∧ (∀ (dt : Nat) (n : Fin 8) (s : State),
      let e := elapse dt s
      e.clk.running = true →
      (e.chan n).frozen = none →
      legsTime (e.chan n).taper.legs ≤ 1 / 1000000000 →
      exec (.taperPullEnd dt (.channel n)) s = .next (finish (e.setChan n fun c =>
            { c with
              taper := (c.taper.advance (1 / 1000000000)).1,
              phase := c.phase + (c.taper.advance (1 / 1000000000)).2 / 1000,
              cyc := c.cyc + (c.taper.advance (1 / 1000000000)).2 / 1000 })))
  ∧ (∀ (dt : Nat) (n : Fin 4) (s : State),
      let e := elapse dt s
      e.clk.running = true →
      (e.tbs n).frozenC = none →
      legsTime (e.tbs n).taper.legs ≤ 1 / 1000000000 →
      exec (.taperPullEnd dt (.timebase n)) s = .next (finish (e.setTb n fun b =>
            { b with
              taper := (b.taper.advance (1 / 1000000000)).1, now := b.now + (b.taper.advance (1 / 1000000000)).2 / 1000 })))
  ∧ (∀ (dt : Nat) (n : Fin 32) (s : State),
      let e := elapse dt s
      e.clk.running = true →
      legsTime (e.out n).move.legs ≤ 1 / 1000000000 →
      exec (.taperPullEnd dt (.output n)) s = .next (finish (e.setOut n fun o => { o with move := (o.move.advance (1 / 1000000000)).1 })))
  ∧ (∀ (t : Taper) (sec : Rat),
      legsTime t.legs ≤ sec →
      (t.advance sec).1.gap = 0 ∧ (t.advance sec).1.slope = 0 ∧ (t.advance sec).1.ending = false)

/-- With the engine running, T and P follow their sensors through their lags, F, EXTRAPOLATED and UNMODELLED are evaluated from them, and each channel has its second in order: a history record of the second with its mean loop term, the candidate and lock held throughout, T and P goes in front of the at most 12,288 kept, and a channel with an episode adds its condition bits, moves its model term to −(F − F_0) and refreshes the bound. -/
def Obligations.LanternSecond : Prop :=
  (∀ (dt : Nat) (s : State),
      let e := elapse dt s
      e.clk.running = true →
      exec (.lanternEvaluation dt) s = .next (finish (
            let u := { e with ln := { e.ln with
                tInt := some (lagStep e.cfg.ln.tempLag e.ln.tInt e.pwr.tBase),
                pInt := some (lagStep e.cfg.ln.loadLag e.ln.pInt e.pwr.load) } }
            (List.range 8).foldl lanternSecond
              { u with ln := { u.ln with f := (fNow u).1, extrap := (fNow u).2.1, unmod := (fNow u).2.2 } })))
  ∧ (∀ (n : Nat) (s : State),
      n < s.ln.ho.length →
      n < s.dp.length →
      (s.chan n).state = .holdover ∨ (s.chan n).state = .fenced →
      let c := s.chan n
      let t := lanternSecond s n
      (t.hov n).hist = ({ atNs := s.clk.count, term := if c.secDur = 0 then c.loopTerm else c.secTerm / c.secDur,
                              cand := c.secCand, locked := c.secLocked,
                              steer := if c.secDur = 0 then freq64 (s.hov n).steering else c.secSteer / c.secDur,
                              t := tempNow s, p := loadNow s, ok := true }
              :: (s.hov n).hist).take 12288
            ∧ (t.hov n).conditions = (s.hov n).conditions ||| conditionsNow s n
            ∧ (t.hov n).m = (s.hov n).f0 - s.ln.f
            ∧ (t.hov n).vT = (s.hov n).vT + (if s.ln.extrap then 16 else 1)
                * (residTemp s.ln.model ((s.hov n).conditions ||| conditionsNow s n) : Rat) ^ 2 * 3600
            ∧ (t.chan n).secTerm = 0 ∧ (t.chan n).secDur = 0 ∧ (t.chan n).secCand = s.selected n)
  ∧ (∀ (cfg : CfgLn) (m : Model) (t p a : Rat),
      cfg.modelEnable = 1 →
      populated cfg m (cellOf t p) = true →
      cellOf t p < 72 →
      evalF cfg m t p a =
            (((m.cell (cellOf t p)).v : Rat) / 65536
              + ((m.cell (cellOf t p)).gT : Rat) / 1000 * ((t - (m.cell (cellOf t p)).tBar) / 1000)
              + ((m.cell (cellOf t p)).gP : Rat) / 1000 * ((p - (m.cell (cellOf t p)).pBar) / 1000)
              + ((m.a : Rat) / 65536 * ln1p (a / 86400) + (m.b : Rat) / 65536 * (a / 86400)), false, false))
  ∧ ((∀ t p : Rat, cellOf t p = 6 * cellI t + cellJ p) ∧ cellOf (-40001) 7999 = 0 ∧ cellOf (-30000) 8000 = 7 ∧ cellOf 25000 14000 = 38
          ∧ cellOf 69999 18000 = 63 ∧ cellOf 70000 22000 = 70 ∧ cellOf 85000 26000 = 71)

/-- While the STEER core runs, a second throughout which learning was allowed and the record is valid and locked gives one sample of F less the ageing, which waits for QUARANTINE, and LEARN_TIME goes up by one; with no such second nothing is added. MODEL_COMMIT commits the refitted working copy; a commit counts, and every channel in an episode is re-based so that its M does not change. MODEL_SAVE and an accepted MODEL_STORE write the model with the powered age to NV; while PFAIL is set MODEL_SAVE leaves NV as it is. An accepted write of STEERING within ±1,000 ppm takes the value. -/
def Obligations.LearningAndModel : Prop :=
  (∀ (dt : Nat) (n : Nat) (r : HistRec) (c : Nat) (s : State),
      let e := elapse dt s
      e.runs 1 = true →
      e.cfg.ln.learnChannel = n →
      n < 8 →
      (e.hov n).hist.head? = some r →
      r.cand = some c →
      e.ln.secLearn = true →
      r.ok = true →
      r.locked = true →
      mayLearn e = true →
      exec (.learningSample dt) s = .next (finish (
            let f := -(r.term + r.steer) - ageing e.ln.model (ageNow e)
            let u := admitDue { e with ln := { e.ln with
                waiting := e.ln.waiting ++ [{ atNs := e.clk.count, cand := c, f := f, t := r.t, p := r.p }],
                model := { e.ln.model with learnTime := e.ln.model.learnTime + 1 },
                work := { e.ln.work with learnTime := e.ln.work.learnTime + 1 } } }
            { u with ln := { u.ln with secLearn := mayLearn u } })))
  ∧ (∀ (dt : Nat) (n : Nat) (s : State),
      let e := elapse dt s
      e.runs 1 = true →
      e.cfg.ln.learnChannel = n →
      e.ln.secLearn = false ∨ (e.hov n).hist = [] →
      exec (.learningSample dt) s = .next (finish (
            let u := admitDue e
            { u with ln := { u.ln with secLearn := mayLearn u } })))
  ∧ (∀ (dt : Nat) (s : State),
      let e := elapse dt s
      e.runs 1 = true →
      exec (.modelCommit dt) s = .next (finish (commitModel (refitModel e) { e with free := e.free + 1 })))
  ∧ (∀ (m : Model) (s : State),
      let t := commitModel m s
      t.ln.model = m ∧ t.ln.work = m ∧ t.ln.commits = s.ln.commits + 1 ∧ t.nv = s.nv ∧ t.dp = s.dp
            ∧ t.ln.f = (evalF s.cfg.ln m (tempNow s) (loadNow s) (ageNow s)).1
            ∧ ∀ n, n < s.ln.ho.length → (t.hov n).m = (s.hov n).m
                ∧ (inEpisode (s.chan n) = true → t.ln.f - (t.hov n).f0 = (fNow s).1 - (s.hov n).f0)
                ∧ (inEpisode (s.chan n) = false → (t.hov n).f0 = (s.hov n).f0))
  ∧ (∀ (dt : Nat) (s : State),
      let e := elapse dt s
      e.runs 0 = true →
      e.runs 1 = true →
      e.pwr.pfail = false →
      exec (.modelSave dt) s = .next (finish ({ e with nv := { e.nv with model := some e.ln.model, modelAge := ageNow e } })))
  ∧ (∀ (dt : Nat) (s : State),
      let e := elapse dt s
      e.pwr.pfail = true →
      exec (.modelSave dt) s = .next (finish (e)))
  ∧ (∀ (dt : Nat) (r : Requester) (arg : Nat) (s : State),
      let e := elapse dt s
      Heard r (commandFrame r (addrWord 0x12 2 1) .u8 arg) e →
      arg < 256 →
      e.md.mode ≠ .safe →
      e.md.bootRom = false →
      e.runs 1 = true →
      e.pwr.pfail = false →
      exec (.modelStore dt r arg) s = .next (finish (commanded r (addrWord 0x12 2 1) .u8 arg
          { counted e with nv := { e.nv with model := some e.ln.model, modelAge := ageNow e } })))
  ∧ (∀ (dt : Nat) (r : Requester) (n : Fin 8) (v : Int) (s : State),
      let e := elapse dt s
      Heard r (writeFrame r (addrWord 0x12 (10 + n) 0) .freq64 v) e →
      -65536000000000 ≤ v →
      v ≤ 65536000000000 →
      e.md.mode ≠ .safe →
      e.md.bootRom = false →
      e.runs 1 = true →
      exec (.steeringWrite dt r n v) s = .next (finish (written r (addrWord 0x12 (10 + n) 0) .freq64 (e.hov n).steering v
          ((counted e).setHo n fun h => { h with steering := v }))))

/-- An accepted write of ENABLE to 1 on a DISABLED core begins a retune, to 0 disables a core and drops its retune. A retune stops the outputs of the core, each at the end of its high phase, and starts with its cycle; s0, with the usable card's band and fine code, is at once where none of them is in a high phase, else when the last has stopped. A tuning core that locks becomes LOCKED with its band, fine setting (a search's result in their widths, or the card's), gap in µs and method, counts the relock and a card hit, stores a card after a search where CARD_AUTO is 1, and its outputs that are not time-carrying take a new origin. A LOCKED core that loses lock retunes. A card that has not brought lock in 60 µs is removed and the search begins. Changed cards go to NV unless PFAIL is set. -/
def Obligations.CoresRetuneAndLock : Prop :=
  (∀ (dt : Nat) (r : Requester) (c : Fin 4) (s : State),
      let e := elapse dt s
      Heard r (writeFrame r (addrWord 0x13 c 0) .u8 (1 : Nat)) e →
      e.md.mode ≠ .safe →
      e.md.bootRom = false →
      (e.syn c).state = .disabled →
      exec (.coreEnable dt r c 1) s = .next (finish (written r (addrWord 0x13 c 0) .u8 (e.cfg.syn c).enable (1 : Nat)
          (beginRetune c { counted e with cfg := { e.cfg with sn := upd e.cfg.sn c fun k => { k with enable := 1 } } }))))
  ∧ (∀ (dt : Nat) (r : Requester) (c : Fin 4) (s : State),
      let e := elapse dt s
      Heard r (writeFrame r (addrWord 0x13 c 0) .u8 (0 : Nat)) e →
      e.md.mode ≠ .safe →
      e.md.bootRom = false →
      (e.syn c).state = .locked →
      exec (.coreEnable dt r c 0) s = .next (finish (written r (addrWord 0x13 c 0) .u8 (e.cfg.syn c).enable (0 : Nat)
          (raise (80 + c) (({ counted e with cfg := { e.cfg with sn := upd e.cfg.sn c fun k => { k with enable := 0 } } }).setSyn c fun x => { x with state := .disabled, retune := none })))))
  ∧ (∀ (c : Nat) (s : State),
      (s.syn c).state ≠ .tuning →
      beginRetune c s =
            let r : Retune := { c0 := s.clk.count, s0 := none, card := none, cardFailed := false }
            let u := (stopOuts c s).setSyn c fun x => { x with state := .tuning, retune := some r }
            raise (80 + c) (if outsParked (stopOuts c s) c then tuneFrom c r u else u))
  ∧ (∀ (n : Nat) (s : State),
      stopOut s n = s.setOut n fun o => { o with rise := none, fall := outFall s n, ssc := none })
  ∧ (∀ (c : Nat) (r : Retune) (s : State),
      tuneFrom c r s = s.setSyn c fun x =>
            { x with
              retune := some { r with s0 := some s.clk.count, card := usableCard s c },
              band := match usableCard s c with | some k => k.band | none => x.band,
              fine := match usableCard s c with | some k => k.fine | none => x.fine })
  ∧ (∀ (n : Nat) (s : State),
      originNow s n = if outTime s n then s else s.setOut n fun o =>
            { o with origin := outNow s n + (match o.ssc with | some m => m.gain (outNow s n - m.since) | none => 0) })
  ∧ (∀ (dt : Nat) (c : Fin 4) (band fine t0 : Nat) (q : Retune) (s : State),
      let e := elapse dt s
      (e.syn c).retune = some q →
      q.s0 = some t0 →
      q.card = none →
      q.cardFailed = false →
      (e.cfg.syn c).cardAuto = 0 →
      exec (.coreLock dt c band fine) s = .next (finish (
            let w := raise (80 + c) (e.setSyn c fun x =>
                { x with
                  state := .locked, retune := none, band := band % 512, fine := fine % 4096,
                  lastGap := (readInt (((e.clk.count : Rat) - t0) / 1000)).toNat, lastMethod := 2, relocks := x.relocks + 1,
                  cardHits := x.cardHits })
            (coreOuts w c).foldl originNow w)))
  ∧ (∀ (dt : Nat) (c : Fin 4) (band fine t0 : Nat) (q : Retune) (s : State),
      let e := elapse dt s
      (e.syn c).retune = some q →
      q.s0 = some t0 →
      q.card = none →
      q.cardFailed = true →
      (e.cfg.syn c).cardAuto = 0 →
      exec (.coreLock dt c band fine) s = .next (finish (
            let w := raise (80 + c) (e.setSyn c fun x =>
                { x with
                  state := .locked, retune := none, band := band % 512, fine := fine % 4096,
                  lastGap := (readInt (((e.clk.count : Rat) - t0) / 1000)).toNat, lastMethod := 3, relocks := x.relocks + 1,
                  cardHits := x.cardHits })
            (coreOuts w c).foldl originNow w)))
  ∧ (∀ (dt : Nat) (c : Fin 4) (band fine t0 : Nat) (q : Retune) (s : State),
      let e := elapse dt s
      (e.syn c).retune = some q →
      q.s0 = some t0 →
      q.card = none →
      q.cardFailed = false →
      (e.cfg.syn c).cardAuto = 1 →
      exec (.coreLock dt c band fine) s = .next (finish (
            let w := storeCard c (band % 512) (fine % 4096) (readInt (((e.clk.count : Rat) - t0) / 1000)).toNat (raise (80 + c) (e.setSyn c fun x =>
                { x with
                  state := .locked, retune := none, band := band % 512, fine := fine % 4096,
                  lastGap := (readInt (((e.clk.count : Rat) - t0) / 1000)).toNat, lastMethod := 2, relocks := x.relocks + 1,
                  cardHits := x.cardHits }))
            (coreOuts w c).foldl originNow w)))
  ∧ (∀ (dt : Nat) (c : Fin 4) (band fine t0 : Nat) (q : Retune) (k : Card) (s : State),
      let e := elapse dt s
      (e.syn c).retune = some q →
      q.s0 = some t0 →
      q.card = some k →
      exec (.coreLock dt c band fine) s = .next (finish (
            let w := let u := raise (80 + c) (e.setSyn c fun x =>
                { x with
                  state := .locked, retune := none, band := k.band, fine := k.fine,
                  lastGap := (readInt (((e.clk.count : Rat) - t0) / 1000)).toNat, lastMethod := 1, relocks := x.relocks + 1,
                  cardHits := x.cardHits + 1 })
              { u with sn := { u.sn with cards := u.sn.cards.map fun x => if x = k then { x with lastUsed := ageNow e } else x } }
            (coreOuts w c).foldl originNow w)))
  ∧ (∀ (c band fine time : Nat) (s : State),
      storeCard c band fine time s =
            { s with
              sn := { s.sn with cards := upd s.sn.cards (cardSlot s c (s.syn c).plan) fun _ =>
                { valid := true, core := c, plan := (s.syn c).plan, band := band, fine := fine, tSearch := s.pwr.tOcxo, age := ageNow s,
                  searchTime := time, lastUsed := ageNow s } },
              nvc := { s.nvc with cardsDirty := some (s.nvc.cardsDirty.getD s.clk.count) } })
  ∧ (∀ (dt : Nat) (c : Fin 4) (s : State),
      let e := elapse dt s
      (e.syn c).state = .locked →
      exec (.coreLockLoss dt c) s = .next (finish (beginRetune c e)))
  ∧ (∀ (dt : Nat) (c : Fin 4) (q : Retune) (s : State),
      let e := elapse dt s
      (e.syn c).retune = some q →
      q.s0 = none →
      outsParked e c = true →
      exec (.retuneOutputsStopped dt c) s = .next (finish (tuneFrom c q e)))
  ∧ (∀ (dt : Nat) (c : Fin 4) (q : Retune) (t0 : Nat) (k : Card) (s : State),
      let e := elapse dt s
      (e.syn c).retune = some q →
      q.s0 = some t0 →
      q.card = some k →
      t0 + 60000 ≤ e.clk.count →
      exec (.cardTimeout dt c) s = .next (finish (raise (80 + c) (
              { e with
                sn := { e.sn with
                  cards := e.sn.cards.map fun x => if x = k then Card.reset else x,
                  core := upd e.sn.core c fun x => { x with retune := some { q with card := none, cardFailed := true } } },
                nvc := { e.nvc with cardsDirty := some (e.nvc.cardsDirty.getD e.clk.count) } }))))
  ∧ (∀ (dt : Nat) (s : State),
      let e := elapse dt s
      e.nvc.cardsDirty ≠ none →
      e.pwr.pfail = false →
      e.runs 0 = true →
      exec (.cardStore dt) s = .next (finish ({ e with nv := { e.nv with cards := e.sn.cards }, nvc := { e.nvc with cardsDirty := none } })))

/-- With every shadow in order, COMMIT 0 with no commit armed arms one for the next engine clock cycle; 1 arms one for the next whole second of COMMIT_TB, which is not fenced; 2 arms one for the next edge of a RUNNING COMMIT_EDGE_OUT; 3 cancels. The armed commit happens in the next cycle, when its second has come, or at the edge of its output, driven still. An accepted write of ENABLE to 1 needs settings that pass the checks; from 0 it begins the grid of an output that is not time-carrying; a write of FORMAT to a disabled output also sets the amplitude of that format. -/
def Obligations.CommitsAndOutputs : Prop :=
  (∀ (dt : Nat) (r : Requester) (s : State),
      let e := elapse dt s
      Heard r (commandFrame r (addrWord 0x13 20 0) .u8 (0 : Nat)) e →
      e.md.mode ≠ .safe →
      e.md.bootRom = false →
      shadowOk e = true →
      e.sn.armed = none →
      exec (.commit dt r 0) s = .next (finish (commanded r (addrWord 0x13 20 0) .u8 (0 : Nat)
          ({ counted e with sn := { e.sn with armed := some (0, 0, 0), commitState := 1 } }))))
  ∧ (∀ (dt : Nat) (r : Requester) (s : State),
      let e := elapse dt s
      Heard r (commandFrame r (addrWord 0x13 20 0) .u8 (1 : Nat)) e →
      e.md.mode ≠ .safe →
      e.md.bootRom = false →
      shadowOk e = true →
      e.sn.armed = none →
      e.isFenced (.tb e.cfg.commitTb) = false →
      exec (.commit dt r 1) s = .next (finish (commanded r (addrWord 0x13 20 0) .u8 (1 : Nat)
          ({ counted e with sn := { e.sn with armed := some (1, e.cfg.commitTb, tbSecond e e.cfg.commitTb), commitState := 1 } }))))
  ∧ (∀ (dt : Nat) (r : Requester) (s : State),
      let e := elapse dt s
      Heard r (commandFrame r (addrWord 0x13 20 0) .u8 (2 : Nat)) e →
      e.md.mode ≠ .safe →
      e.md.bootRom = false →
      shadowOk e = true →
      e.sn.armed = none →
      (e.out e.cfg.commitEdgeOut).state = .running →
      exec (.commit dt r 2) s = .next (finish (commanded r (addrWord 0x13 20 0) .u8 (2 : Nat)
          ({ counted e with sn := { e.sn with armed := some (2, e.cfg.commitEdgeOut, 0), commitState := 1 } }))))
  ∧ (∀ (dt : Nat) (r : Requester) (s : State),
      let e := elapse dt s
      Heard r (commandFrame r (addrWord 0x13 20 0) .u8 (3 : Nat)) e →
      e.md.mode ≠ .safe →
      e.md.bootRom = false →
      e.sn.armed ≠ none →
      exec (.commit dt r 3) s = .next (finish (commanded r (addrWord 0x13 20 0) .u8 (3 : Nat)
          (raise 86 { counted e with sn := { e.sn with armed := none, commitState := 3 } }))))
  ∧ (∀ (s : State),
      (commitPending s = true ↔ ∃ k sec, s.sn.armed = some (0, k, sec))
            ∧ nextCycle true false false s = settle (commitNow s))
  ∧ (∀ (dt : Nat) (k : Nat) (sec : Int) (s : State),
      let e := elapse dt s
      e.sn.armed = some (1, k, sec) →
      tbSecond e k ≠ sec →
      exec (.commitInstant dt) s = .next (finish (commitNow e)))
  ∧ (∀ (dt : Nat) (k : Nat) (sec : Int) (s : State),
      let e := elapse dt s
      e.sn.armed = some (2, k, sec) →
      driven (e.out k).state = true →
      exec (.commitInstant dt) s = .next (finish (commitNow e)))
  ∧ (∀ (dt : Nat) (r : Requester) (n : Fin 32) (v : Nat) (s : State),
      let e := elapse dt s
      Heard r (writeFrame r (addrWord 0x14 n 0) .u8 v) e →
      e.md.mode ≠ .safe →
      e.md.bootRom = false →
      e.isFenced (.out n) = false →
      n < e.cfg.ou.length →
      v = 1 →
      enableOk e n (e.cfg.out n).core (e.cfg.out n).format = true →
      exec (.outputEnable dt r n v) s = .next (finish (written r (addrWord 0x14 n 0) .u8 (e.cfg.out n).enable v
          (if (e.cfg.out n).enable = 0 then originNow { counted e with cfg := { e.cfg with ou := upd e.cfg.ou n fun c => { c with enable := v } } } n else { counted e with cfg := { e.cfg with ou := upd e.cfg.ou n fun c => { c with enable := v } } }))))
  ∧ (∀ (dt : Nat) (r : Requester) (n : Fin 32) (v : Nat) (s : State),
      let e := elapse dt s
      Heard r (writeFrame r (addrWord 0x14 n 0) .u8 v) e →
      e.md.mode ≠ .safe →
      e.md.bootRom = false →
      e.isFenced (.out n) = false →
      n < e.cfg.ou.length →
      v = 0 →
      exec (.outputEnable dt r n v) s = .next (finish (written r (addrWord 0x14 n 0) .u8 (e.cfg.out n).enable v
          { counted e with cfg := { e.cfg with ou := upd e.cfg.ou n fun c => { c with enable := v } } })))
  ∧ (∀ (dt : Nat) (r : Requester) (n : Fin 32) (v : Nat) (s : State),
      let e := elapse dt s
      Heard r (writeFrame r (addrWord 0x14 n 2) .u8 v) e →
      e.md.mode ≠ .safe →
      e.md.bootRom = false →
      e.isFenced (.out n) = false →
      n < e.cfg.ou.length →
      v < 5 →
      (e.cfg.out n).enable = 0 →
      exec (.formatWrite dt r n v) s = .next (finish (written r (addrWord 0x14 n 2) .u8 (e.cfg.out n).format v
          { counted e with cfg := { e.cfg with ou := upd e.cfg.ou n fun c => { c with format := v, amplitude := amplitudeDefault v } } })))
  ∧ ([0, 1, 2, 3, 4].map amplitudeDefault = [350, 750, 800, 3300, 10])

/-- After a commit every core has the plan and the channel of its shadow, every output has its shadow as its active settings, the state of the commit is DONE with the engine count at which it happened, and none is armed. The configuration, the channels and the timebases are as before. The shadows are those of the configuration, but where a write has completed in the cycle of the commit itself they are those before that cycle's writes. -/
def Obligations.CommitCopiesEveryShadow : Prop :=
  (∀ s : State, s.sn.core.length = 4 → s.ou.out.length = 32 →
    let t := commitNow s
    let new := cutShadows s
    (∀ c, c < 4 → (t.syn c).plan = (nth new.1 c CfgSn.reset).plan ∧ (t.syn c).channel = (nth new.1 c CfgSn.reset).channel)
      ∧ (∀ n, n < 32 → (t.out n).active = (nth new.2 n CfgOu.reset).shadow)
      ∧ t.sn.armed = none ∧ t.sn.commitState = 2 ∧ t.sn.lastCommit = s.clk.count ∧ t.cfg = s.cfg ∧ t.dp = s.dp ∧ t.tb = s.tb)
  ∧ (∀ s : State, (s.sn.cut.any fun x => x.1 == s.clk.count) = false → cutShadows s = (s.cfg.sn, s.cfg.ou))
  ∧ ∀ (s : State) (sn : List CfgSn) (ou : List CfgOu), s.sn.cut = some (s.clk.count, sn, ou) → cutShadows s = (sn, ou)

/-- On an enabled output a passed frequency test keeps or starts its good time; a failed one closes the window gate, ends the good time, and counts a squelch with its sticky bit where the gate was open (a closed window, FMAX = 0, and a fence of the output hold it closed as well). The test passes within 1 % of the window on the fast mean and in the window on the fine mean, and never while FMAX is 0. The slew test of a time-carrying output does the same with its limit. A gate whose tests have passed for 100 ms opens. A refresh by the running MGT core opens the heartbeat gate; no refresh within HEARTBEAT_INTERVAL after the seal closes it, counts and asserts source 85. -/
def Obligations.ChimneyGates : Prop :=
  (∀ (dt : Nat) (n : Fin 32) (fast fine : Rat) (s : State),
      let e := elapse dt s
      (e.cfg.out n).enable = 1 →
      frequencyPasses e n fast fine = true →
      exec (.chimneyFrequencyTest dt n fast fine) s = .next (finish (e.setOut n fun x =>
            { x with
              measured := (readInt fine).toNat, winGood := some (x.winGood.getD e.clk.count) })))
  ∧ (∀ (dt : Nat) (n : Fin 32) (fast fine : Rat) (s : State),
      let e := elapse dt s
      (e.cfg.out n).enable = 1 →
      frequencyPasses e n fast fine = false →
      exec (.chimneyFrequencyTest dt n fast fine) s = .next (finish (e.setOut n fun x =>
            { x with
              measured := (readInt fine).toNat,
              winClosed := true, winGood := none, squelches := if winShut e n then x.squelches else x.squelches + 1,
              sticky := if winShut e n then x.sticky else setBit8 x.sticky 0 })))
  ∧ (∀ (dt : Nat) (n : Fin 32) (short long : Rat) (s : State),
      let e := elapse dt s
      (e.cfg.out n).enable = 1 →
      outTime e n = true →
      slewPasses e n short long = true →
      exec (.chimneySlewTest dt n short long) s = .next (finish (e.setOut n fun x =>
            { x with
              slewNow := satInt 32 (readInt long), slewGood := some (x.slewGood.getD e.clk.count) })))
  ∧ (∀ (dt : Nat) (n : Fin 32) (short long : Rat) (s : State),
      let e := elapse dt s
      (e.cfg.out n).enable = 1 →
      outTime e n = true →
      slewPasses e n short long = false →
      exec (.chimneySlewTest dt n short long) s = .next (finish (e.setOut n fun x =>
            { x with
              slewNow := satInt 32 (readInt long),
              slewClosed := true, slewGood := none, squelches := if x.slewClosed then x.squelches else x.squelches + 1,
              sticky := if x.slewClosed then x.sticky else setBit8 x.sticky 1 })))
  ∧ (∀ (s : State) (n : Nat) (fast fine : Rat),
      frequencyPasses s n fast fine = true ↔
            let l := s.cfg.outLim n
            l.fmax ≠ 0 ∧ (l.fmin : Rat) * 99 / 100 ≤ fast ∧ fast ≤ (l.fmax : Rat) * 101 / 100 ∧ (l.fmin : Rat) ≤ fine ∧ fine ≤ l.fmax)
  ∧ (∀ (s : State) (n : Nat) (short long : Rat),
      slewPasses s n short long = true ↔
            absR short ≤ ((s.cfg.outLim n).slewLimit : Rat) / 100 + 20 ∧ absR long ≤ ((s.cfg.outLim n).slewLimit : Rat) + 20)
  ∧ (∀ (dt : Nat) (n : Fin 32) (s : State),
      let e := elapse dt s
      exec (.windowGateReopen dt n) s = .next (finish (e.setOut n fun x =>
            { x with
              winClosed := x.winClosed && !goodFor100ms e.clk.count x.winGood,
              slewClosed := x.slewClosed && !goodFor100ms e.clk.count x.slewGood })))
  ∧ (∀ (dt : Nat) (s : State),
      let e := elapse dt s
      e.runs 0 = true →
      exec (.heartbeatRefresh dt) s = .next (finish (level 85 false { e with ou := { e.ou with heartbeatAt := e.clk.count, heartbeatClosed := false } })))
  ∧ (∀ (dt : Nat) (s : State),
      let e := elapse dt s
      e.md.sealed = true →
      e.ou.heartbeatClosed = false →
      e.ou.heartbeatAt + e.cfg.lim.heartbeatInterval * 1000000 ≤ e.clk.count →
      exec (.heartbeatLapse dt) s = .next (finish (level 85 true { e with ou := { e.ou with heartbeatClosed := true, heartbeatLapses := e.ou.heartbeatLapses + 1 } })))

/-- An accepted RESTEP names the domain whose next estimate steps a timebase that is neither UNSET nor FENCED and has none pending; CLEAR_DISC returns a DISCONTINUOUS domain to QUALIFYING with its latch clear; LOCAL_LABEL sets the label of the next channel second where a domain of the timebase is LOCAL. At LEAP_AT the offset moves by one second, up for an inserted and down for a removed one, and the leap is no longer pending. A written UTC value goes to the written register and comes into force in the next cycle, without a leap whose time has come (the written register follows), and a change of offset or leap raises the timebase's source; UTC_MODE 1 takes the values of the active domain's last Announce. A write of KIND starts the domain afresh. -/
def Obligations.TimebaseCommands : Prop :=
  (∀ (dt : Nat) (r : Requester) (tb : Fin 4) (arg : Nat) (s : State),
      let e := elapse dt s
      Heard r (commandFrame r (addrWord 0x20 (50 + tb) 0) .u8 arg) e →
      e.md.mode ≠ .safe →
      e.md.bootRom = false →
      arg < 2 →
      (e.tbs tb).state = .tracking ∨ (e.tbs tb).state = .holdover →
      (e.domi (2 * tb + arg)).measures = true →
      (e.tbs tb).restep = none →
      exec (.restep dt r tb arg) s = .next (finish (commanded r (addrWord 0x20 (50 + tb) 0) .u8 arg
          ((counted e).setTb tb fun t => { t with restep := some arg, restepState := 1 }))))
  ∧ (∀ (dt : Nat) (r : Requester) (tb : Fin 4) (arg : Nat) (s : State),
      let e := elapse dt s
      Heard r (commandFrame r (addrWord 0x20 (50 + tb) 1) .u8 arg) e →
      e.md.mode ≠ .safe →
      e.md.bootRom = false →
      arg < 2 →
      e.isFenced (.tb tb) = false →
      (e.domi (2 * tb + arg)).state = .discontinuous →
      exec (.clearDisc dt r tb arg) s = .next (finish (commanded r (addrWord 0x20 (50 + tb) 1) .u8 arg
          (domGo (2 * tb + arg) .qualifying ((counted e).setDom (2 * tb + arg) fun d => { d with latch := false })))))
  ∧ (∀ (dt : Nat) (r : Requester) (tb : Fin 4) (t : Time80) (s : State),
      let e := elapse dt s
      Heard r (commandFrame r (addrWord 0x20 (50 + tb) 2) .time80 (Time80.code t)) e →
      e.md.mode ≠ .safe →
      e.md.bootRom = false →
      t.ns = 0 →
      t.sec < 2 ^ 48 →
      e.isFenced (.tb tb) = false →
      (e.cfg.domi (2 * tb)).kind = 3 ∨ (e.cfg.domi (2 * tb + 1)).kind = 3 →
      exec (.localLabel dt r tb t) s = .next (finish (commanded r (addrWord 0x20 (50 + tb) 2) .time80 (Time80.code t)
          ((counted e).setTb tb fun x => { x with labelNext := some t.sec }))))
  ∧ (∀ (dt : Nat) (tb : Fin 4) (s : State),
      let e := elapse dt s
      (e.tbs tb).utc.leap = 1 →
      (Time80.toNs (e.tbs tb).utc.leapAt : Rat) ≤ (e.tbs tb).now →
      exec (.leapSecondApply dt tb) s = .next (finish (raise (120 + tb)
              { (e.setTb tb fun t =>
                  { t with utc := { (e.tbs tb).utc with offset := (e.tbs tb).utc.offset + 1, leap := 0 }, leapDone := some (1, (e.tbs tb).utc.offset, (e.tbs tb).utc.leapAt) }) with
                cfg := { e.cfg with utc := upd e.cfg.utc tb fun c =>
                  { c with written := { c.written with offset := (e.tbs tb).utc.offset + 1, leap := 0 } } } })))
  ∧ (∀ (dt : Nat) (tb : Fin 4) (s : State),
      let e := elapse dt s
      (e.tbs tb).utc.leap = 2 →
      (Time80.toNs (e.tbs tb).utc.leapAt : Rat) ≤ (e.tbs tb).now →
      exec (.leapSecondApply dt tb) s = .next (finish (raise (120 + tb)
              { (e.setTb tb fun t =>
                  { t with utc := { (e.tbs tb).utc with offset := (e.tbs tb).utc.offset - 1, leap := 0 }, leapDone := some (2, (e.tbs tb).utc.offset, (e.tbs tb).utc.leapAt) }) with
                cfg := { e.cfg with utc := upd e.cfg.utc tb fun c =>
                  { c with written := { c.written with offset := (e.tbs tb).utc.offset - 1, leap := 0 } } } })))
  ∧ (∀ (dt : Nat) (r : Requester) (tb : Fin 4) (v : Int) (t : Time80) (s : State),
      let e := elapse dt s
      Heard r (writeFrame r (addrWord 0x20 (20 + tb) 0) .u8 v) e →
      e.md.mode ≠ .safe →
      e.md.bootRom = false →
      e.isFenced (.tb tb) = false →
      0 ≤ v →
      v ≤ 1 →
      exec (.utcWrite dt r tb 0 v t) s = .next (finish (written r (addrWord 0x20 (20 + tb) 0) .u8 (e.cfg.utcs tb).mode v
          (followUtc tb { counted e with cfg := { e.cfg with utc := upd e.cfg.utc tb fun c => { c with mode := v.toNat } } }))))
  ∧ (∀ (dt : Nat) (r : Requester) (tb : Fin 4) (v : Int) (t : Time80) (s : State),
      let e := elapse dt s
      Heard r (writeFrame r (addrWord 0x20 (20 + tb) 1) .i16 v) e →
      e.md.mode ≠ .safe →
      e.md.bootRom = false →
      e.isFenced (.tb tb) = false →
      (e.cfg.utcs tb).mode = 0 →
      -32768 ≤ v →
      v ≤ 32767 →
      exec (.utcWrite dt r tb 1 v t) s = .next (finish (written r (addrWord 0x20 (20 + tb) 1) .i16 (e.tbs tb).utc.offset v
          ({ counted e with cfg := { e.cfg with utc := upd e.cfg.utc tb fun c => { c with written := { c.written with offset := v } } } }))))
  ∧ (∀ (dt : Nat) (r : Requester) (tb : Fin 4) (v : Int) (t : Time80) (s : State),
      let e := elapse dt s
      Heard r (writeFrame r (addrWord 0x20 (20 + tb) 2) .u8 v) e →
      e.md.mode ≠ .safe →
      e.md.bootRom = false →
      e.isFenced (.tb tb) = false →
      (e.cfg.utcs tb).mode = 0 →
      0 ≤ v →
      v ≤ 1 →
      exec (.utcWrite dt r tb 2 v t) s = .next (finish (written r (addrWord 0x20 (20 + tb) 2) .u8 (e.tbs tb).utc.valid v
          ({ counted e with cfg := { e.cfg with utc := upd e.cfg.utc tb fun c => { c with written := { c.written with valid := v.toNat } } } }))))
  ∧ (∀ (dt : Nat) (r : Requester) (tb : Fin 4) (v : Int) (t : Time80) (s : State),
      let e := elapse dt s
      Heard r (writeFrame r (addrWord 0x20 (20 + tb) 3) .u8 v) e →
      e.md.mode ≠ .safe →
      e.md.bootRom = false →
      e.isFenced (.tb tb) = false →
      (e.cfg.utcs tb).mode = 0 →
      0 ≤ v →
      v ≤ 2 →
      exec (.utcWrite dt r tb 3 v t) s = .next (finish (written r (addrWord 0x20 (20 + tb) 3) .u8 (e.tbs tb).utc.leap v
          ({ counted e with cfg := { e.cfg with utc := upd e.cfg.utc tb fun c => { c with written := { c.written with leap := v.toNat } } } }))))
  ∧ (∀ (dt : Nat) (r : Requester) (tb : Fin 4) (v : Int) (t : Time80) (s : State),
      let e := elapse dt s
      Heard r (writeFrame r (addrWord 0x20 (20 + tb) 4) .time80 (Time80.code t)) e →
      e.md.mode ≠ .safe →
      e.md.bootRom = false →
      e.isFenced (.tb tb) = false →
      (e.cfg.utcs tb).mode = 0 →
      t.sec < 2 ^ 48 →
      t.ns < 2 ^ 32 →
      exec (.utcWrite dt r tb 4 v t) s = .next (finish (written r (addrWord 0x20 (20 + tb) 4) .time80 (Time80.code (e.tbs tb).utc.leapAt) (Time80.code t)
          ({ counted e with cfg := { e.cfg with utc := upd e.cfg.utc tb fun c => { c with written := { c.written with leapAt := t } } } }))))
  ∧ (∀ (k : Nat) (s : State),
      k < s.tb.length →
      let w := (s.cfg.utcs k).written
      ((copyUtc k s).tbs k).utc
            = if w.leap ≠ 0 ∧ (Time80.toNs w.leapAt : Rat) ≤ (s.tbs k).now then { w with leap := 0 } else w)
  ∧ (∀ (dt : Nat) (r : Requester) (i : Fin 8) (v : Nat) (s : State),
      let e := elapse dt s
      Heard r (writeFrame r (addrWord 0x20 (10 + i) 0) .u8 v) e →
      e.md.mode ≠ .safe →
      e.md.bootRom = false →
      v < 4 →
      i < e.cfg.dom.length →
      v ≠ 1 ∨ ptpDomainUnique i { e.cfg with dom := upd e.cfg.dom i fun d => { d with kind := v } } = true →
      exec (.domainKindWrite dt r i v) s = .next (finish (written r (addrWord 0x20 (10 + i) 0) .u8 (e.cfg.domi i).kind v
          (kindChanged i (e.cfg.domi i).kind { counted e with cfg := { e.cfg with dom := upd e.cfg.dom i fun d => { d with kind := v } } }))))
  ∧ (∀ (i old : Nat) (s : State),
      (s.cfg.domi i).kind ≠ old →
      i < s.dom.length →
      (s.domi i).state ≠ .noSource →
      ((kindChanged i old s).domi i).state = (if (s.cfg.domi i).kind = 0 then .off else .noSource)
            ∧ ((kindChanged i old s).domi i).est = [] ∧ ((kindChanged i old s).domi i).syncDue = none)

/-- When no Sync has come within its timeout the domain's Sync timer is spent, so that the domain no longer measures. When Announces have not come, the masters that are overdue are forgotten, and where the Announce timer has run out the listening BMCA ports of a capable instance become MASTER. A better PTP rank that has waited QUAL_TIME becomes the rank and raises the domain's source. -/
def Obligations.DomainTimers : Prop :=
  (∀ (dt : Nat) (i : Fin 8) (t : Nat) (s : State),
      let e := elapse dt s
      instActive e i = true →
      (e.domi i).syncDue = some t →
      t ≤ e.clk.count →
      e.runs 1 = true →
      exec (.receiptTimeout dt i false) s = .next (finish (e.setDom i fun d => { d with syncDue := none })))
  ∧ (∀ (dt : Nat) (i : Fin 8) (s : State),
      let e := elapse dt s
      instActive e i = true →
      e.runs 0 = true →
      ((e.domi i).annDue.all fun t => decide (e.clk.count < t)) = true →
      exec (.receiptTimeout dt i true) s = .next (finish (e.setInst i fun x => { x with foreign := x.foreign.filter fun f => decide (e.clk.count < f.due) })))
  ∧ (∀ (dt : Nat) (i : Fin 8) (t : Nat) (s : State),
      let e := elapse dt s
      instActive e i = true →
      e.runs 0 = true →
      (e.domi i).annDue = some t →
      t ≤ e.clk.count →
      profileOf e i ≠ 2 ∨ (e.inst i).prio1 ≠ 255 →
      exec (.receiptTimeout dt i true) s = .next (finish ((List.range 14).foldl (fun u n => if u.portState n i == .listening && u.cfg.role n i == 1 then setPortState i n .master u else u)
              ((e.setInst i fun x => { x with foreign := x.foreign.filter fun f => decide (e.clk.count < f.due) }).setDom i fun d =>
                { d with annDue := none }))))
  ∧ (∀ (dt : Nat) (i : Fin 8) (k t : Nat) (s : State),
      let e := elapse dt s
      (e.domi i).rankWait = some (k, t) →
      t + (e.cfg.domi i).qualTime * 1000000000 ≤ e.clk.count →
      exec (.domainRankWait dt i) s = .next (finish (raise (124 + i) (e.setDom i fun d => { d with rank := k, rankWait := none }))))

/-- On a SLAVE port of the instance that the header names, a one-step Sync restarts the receipt timer and gives the domain the estimate of its receive time less the origin, the correction, the path delay and the asymmetry; a two-step Sync keeps its receive time and correction for its Follow_Up, which then completes it with the sum of the two corrections. The receive time is that of the port's PHY copy of the timebase. In profiles 2 and 3 the correction is scaled by the rate ratio, and a gmTimeBaseIndicator that is carried is noted, a changed one counted with source 133. A frame whose header no active instance carries, or on a fenced port, is counted by the port and does nothing else. -/
def Obligations.SyncsAndFollowUps : Prop :=
  (∀ (dt : Nat) (port : Fin 14) (h : PtpHdr) (origin ratio : Rat) (g : Option (Nat × Int)) (i : Nat) (s : State),
      let e := elapse dt s
      ptpAlive e port = true →
      instOf e h = some i →
      e.portState port i = .slave →
      exec (.syncReceive dt port h (.oneStep g) origin ratio) s = .next (finish (syncComplete i port e.clk.count (copyOf e port (i / 2)) origin h.corr ratio (noteGm i g
              (e.setDom i fun d => { d with syncDue := some (e.clk.count + syncTimeoutNs e i) })))))
  ∧ (∀ (dt : Nat) (port : Fin 14) (h : PtpHdr) (origin ratio : Rat) (i : Nat) (s : State),
      let e := elapse dt s
      ptpAlive e port = true →
      instOf e h = some i →
      e.portState port i = .slave →
      exec (.syncReceive dt port h .twoStep origin ratio) s = .next (finish ((e.setDom i fun d => { d with syncDue := some (e.clk.count + syncTimeoutNs e i) }).setInst i fun x =>
              { x with wait := some { port := port, seqId := h.seqId, rx := copyOf e port (i / 2), corr := h.corr, atNs := e.clk.count } })))
  ∧ (∀ (dt : Nat) (port : Fin 14) (h : PtpHdr) (kind : SyncKind) (origin ratio : Rat) (s : State),
      let e := elapse dt s
      ptpAlive e port = true →
      instOf e h = none →
      exec (.syncReceive dt port h kind origin ratio) s = .next (finish (e.setPort port fun p => { p with rxDiscarded := p.rxDiscarded + 1 })))
  ∧ (∀ (dt : Nat) (port : Fin 14) (h : PtpHdr) (kind : SyncKind) (origin ratio : Rat) (s : State),
      let e := elapse dt s
      portUp e port = true →
      e.isFenced (.port port) = true →
      exec (.syncReceive dt port h kind origin ratio) s = .next (finish (e.setPort port fun p => { p with rxDiscarded := p.rxDiscarded + 1 })))
  ∧ (∀ (dt : Nat) (port : Fin 14) (h : PtpHdr) (origin ratio : Rat) (g : Option (Nat × Int)) (w : SyncWait) (i : Nat) (s : State),
      let e := elapse dt s
      ptpAlive e port = true →
      instOf e h = some i →
      e.portState port i = .slave →
      (e.inst i).wait = some w →
      w.port = port →
      w.seqId = h.seqId →
      exec (.followUpReceive dt port h origin ratio g) s = .next (finish (syncComplete i port w.atNs w.rx origin (w.corr + h.corr) ratio (noteGm i g e))))
  ∧ (∀ (i n at_ : Nat) (rx origin corr ratio : Rat) (s : State),
      syncComplete i n at_ rx origin corr ratio s =
            let c : Rat := if 2 ≤ profileOf s i then corr * (1 + ratio / 1000000000000) else corr
            estimate i at_ ((rx - origin - c - pathDelayNs s i n - asymNs s n) * 1000) (s.setInst i fun x =>
              { x with
                t1t2 := some (origin + c + asymNs s n, rx), rateRatio := ratio, wait := none,
                relay := some (origin, c + pathDelayNs s i n + asymNs s n) }))
  ∧ (∀ (i v : Nat) (ph : Int) (s : State),
      2 ≤ profileOf s i →
      noteGm i (some (v, ph)) s =
            let u := (s.setDom i fun d => { d with gmInd := some v }).setInst i fun x => { x with gmPhase := ph }
            if (s.domi i).gmInd = none ∨ (s.domi i).gmInd = some v then u
            else raise 133 (u.setInst i fun x => { x with gmChanges := x.gmChanges + 1 }))
  ∧ (∀ (i : Nat) (g : Option (Nat × Int)) (s : State),
      profileOf s i < 2 ∨ g = none →
      noteGm i g s = s)

/-- An Announce that a listening role hears replaces the port's foreign master and the port states are decided again; on a SLAVE port the class and the UTC offset are taken, and the UTC values where the domain is active. In profile 0 a MASTER port answers a Delay_Req with its receive time, and a SLAVE port takes meanPathDelay from the answer to its own request. Outside profile 0 a Pdelay_Req is answered at once and the answer to an own one gives the link delay and the neighbour rate, which is measured against the answer before it to the same instance. A TRANSPARENT port forwards to the other TRANSPARENT ports; the residence time is added to a one-step Sync, and that of a two-step Sync is kept and added to its Follow_Up, in profile 1 with the delay of the ingress link. -/
def Obligations.OtherPtpReceptions : Prop :=
  (∀ (dt : Nat) (port : Fin 14) (h : PtpHdr) (d : Dataset) (i : Nat) (s : State),
      let e := elapse dt s
      ptpAlive e port = true →
      instOf e h = some i →
      hearsMasters e i port = true →
      h.sender ≠ e.nv.factory.clockIdentity →
      d.steps < 255 →
      exec (.announceReceive dt port h d) s = .next (finish (
            let u := settleInst ((takePriorities i e).setInst i fun x =>
              { x with foreign := x.foreign.filter (fun g => g.port != (port : Nat)) ++ [{ port := port, due := e.clk.count + announceTimeoutNs e i, sender := h.sender, senderPort := h.senderPort, data := d }] }) i
            if u.portState port i = .slave then
              let v := u.setInst i fun x => { x with annClass := some d.gmClass, rxUtcOffset := d.utcOffset }
              if (e.tbs (i / 2)).active = some (i % 2) then announceUtc (i / 2) d v else v
            else u)))
  ∧ (∀ (dt : Nat) (port : Fin 14) (h : PtpHdr) (i : Nat) (s : State),
      let e := elapse dt s
      ptpAlive e port = true →
      instOf e h = some i →
      profileOf e i = 0 →
      e.portState port i = .master →
      exec (.delayReqReceive dt port h) s = .next (finish (send (.delayResp (ptpHead e port i false h.seqId h.corr (e.cfg.insts i).logPdelay) (copyOf e port (i / 2)) h.sender h.senderPort) e)))
  ∧ (∀ (dt : Nat) (port : Fin 14) (h : PtpHdr) (receive : Rat) (toIdentity toPort : Nat) (t1 t2 t3 : Rat) (i : Nat) (s : State),
      let e := elapse dt s
      ptpAlive e port = true →
      instOf e h = some i →
      profileOf e i = 0 →
      e.portState port i = .slave →
      (e.inst i).delayReq = some ((port : Nat), h.seqId, t3) →
      (e.inst i).t1t2 = some (t1, t2) →
      toIdentity = e.nv.factory.clockIdentity →
      toPort = port + 1 →
      exec (.delayRespReceive dt port h receive toIdentity toPort) s = .next (finish (e.setInst i fun x => { x with meanPath := ((t2 - t1) + (receive - t3) - h.corr) / 2, delayReq := none })))
  ∧ (∀ (dt : Nat) (port : Fin 14) (h : PtpHdr) (i : Nat) (s : State),
      let e := elapse dt s
      ptpAlive e port = true →
      instOf e h = some i →
      profileOf e i ≠ 0 →
      e.portState port i ≠ .disabled →
      exec (.pdelayReqReceive dt port h) s = .next (finish (send (.pdelayResp (ptpHead e port i true h.seqId 0 0x7F) (copyOf e port (i / 2)) (copyOf e port (i / 2)) h.sender h.senderPort) e)))
  ∧ (∀ (dt : Nat) (port : Fin 14) (h : PtpHdr) (t2 t3 : Rat) (toIdentity toPort : Nat) (t1 : Rat) (i : Nat) (s : State),
      let e := elapse dt s
      ptpAlive e port = true →
      instOf e h = some i →
      (e.port port).pdelay = some (i, h.seqId, t1) →
      toIdentity = e.nv.factory.clockIdentity →
      toPort = port + 1 →
      nth (e.port port).pdelayPrev i none = none →
      exec (.pdelayRespReceive dt port h t2 t3 toIdentity toPort) s = .next (finish (
            let t4 := copyOf e port (i / 2)
            let rate : Rat := 1
            e.setPort port fun p =>
              { p with
                linkDelay := ((t4 - t1) * rate - (t3 - t2) - (if profileOf e i = 1 then h.corr + asymNs e port else h.corr)) / 2 * 1000,
                neighborRate := (rate - 1) * 1000000000000, pdelay := none,
                pdelayPrev := upd p.pdelayPrev i fun _ => some (t3, t4) })))
  ∧ (∀ (dt : Nat) (port : Fin 14) (h : PtpHdr) (t2 t3 : Rat) (toIdentity toPort : Nat) (t1 : Rat) (a b : Rat) (i : Nat) (s : State),
      let e := elapse dt s
      ptpAlive e port = true →
      instOf e h = some i →
      (e.port port).pdelay = some (i, h.seqId, t1) →
      toIdentity = e.nv.factory.clockIdentity →
      toPort = port + 1 →
      nth (e.port port).pdelayPrev i none = some (a, b) →
      b ≠ copyOf e port (i / 2) →
      exec (.pdelayRespReceive dt port h t2 t3 toIdentity toPort) s = .next (finish (
            let t4 := copyOf e port (i / 2)
            let rate : Rat := (t3 - a) / (t4 - b)
            e.setPort port fun p =>
              { p with
                linkDelay := ((t4 - t1) * rate - (t3 - t2) - (if profileOf e i = 1 then h.corr + asymNs e port else h.corr)) / 2 * 1000,
                neighborRate := (rate - 1) * 1000000000000, pdelay := none,
                pdelayPrev := upd p.pdelayPrev i fun _ => some (t3, t4) })))
  ∧ (∀ (dt : Nat) (port : Fin 14) (h : PtpHdr) (kind : PtpKind) (twoStep : Bool) (residence : Rat) (i : Nat) (s : State),
      let e := elapse dt s
      portUp e port = true →
      e.isFenced (.port port) = false →
      e.md.mode ≠ .safe →
      e.md.mode ≠ .standby →
      instOf e h = some i →
      e.portState port i = .transparent →
      profileOf e i ≠ 1 ∨ (kind ≠ .pdelayReq ∧ kind ≠ .pdelayResp ∧ kind ≠ .pdelayRespFollowUp) →
      exec (.transparentForward dt port h kind twoStep residence) s = .next (finish (
            let peer : Bool := kind == .pdelayReq || kind == .pdelayResp || kind == .pdelayRespFollowUp
            let corr : Rat := h.corr + forwardExtra e i port h kind twoStep residence
            ((List.range 14).filter fun m => m != (port : Nat) && e.portState m i == .transparent).foldl
              (fun u m => send (.forwarded
                { ptpHead e m i peer h.seqId corr 0x7F with identity := h.sender, portNumber := h.senderPort } kind) u)
              (noteResidence i port h kind twoStep residence e))))
  ∧ (∀ (i n : Nat) (h : PtpHdr) (kind : PtpKind) (twoStep : Bool) (residence : Rat) (s : State),
      forwardExtra s i n h kind twoStep residence =
            let link : Rat := if profileOf s i = 1 then linkDelayPs s n / 1000 else 0
            if kind = .sync ∧ twoStep = false then residence + link
            else if kind = .followUp then (match keptResidence s i n h with | some r => r + link | none => 0) else 0)
  ∧ (∀ (i n : Nat) (h : PtpHdr) (residence : Rat) (s : State),
      (s.inst i).residences = [] →
      i < s.pt.inst.length →
      keptResidence (noteResidence i n h .sync true residence s) i n h = some residence)

/-- Where the interval since the message of its kind before it has run, a MASTER port of an active instance that is not stopped from originating sends an Announce with the dataset that applies, and a Sync with the time of its PHY copy (a time-aware relay: its grandmaster's time and what has passed since), each with the next sequence number; where origination is stopped each is withheld and counted. A SLAVE port of profile 0 sends a Delay_Req and keeps its number and time; any port of a peer-delay profile with PDELAY_MODE 0 sends a Pdelay_Req and keeps its number and time. Each starts its interval anew. Sequence numbers go up by one and wrap at 65,536; the header carries the addresses, EtherType, domain and sourcePortIdentity of the port. -/
def Obligations.PtpTransmissions : Prop :=
  (∀ (dt : Nat) (port : Fin 14) (i : Fin 8) (d : Dataset) (s : State),
      let e := elapse dt s
      instActive e i = true →
      ptpUp e port = true →
      e.portState port i = .master →
      e.md.mode ≠ .standby →
      advDataset e i = some d →
      originationStopped e = false →
      profileOf e i ≠ 3 →
      txDueNow e port i 0 = true →
      advDataset (takePriorities i e) i = some d →
      exec (.announceTransmit dt port i) s = .next (finish (
            let u := txNext port i 0 (e.cfg.insts i).logAnnounce (takePriorities i e)
            send (.announce (ptpHead u port i false (nth (u.inst i).seqs 0 0) 0 (e.cfg.insts i).logAnnounce) d)
              (u.setInst i fun x => { x with seqs := upd x.seqs 0 fun q => (q + 1) % 65536 }))))
  ∧ (∀ (dt : Nat) (port : Fin 14) (i : Fin 8) (d : Dataset) (s : State),
      let e := elapse dt s
      instActive e i = true →
      ptpUp e port = true →
      e.portState port i = .master →
      e.md.mode ≠ .standby →
      advDataset e i = some d →
      originationStopped e = true →
      profileOf e i ≠ 3 →
      txDueNow e port i 0 = true →
      advDataset (takePriorities i e) i = some d →
      exec (.announceTransmit dt port i) s = .next (finish ((txNext port i 0 (e.cfg.insts i).logAnnounce (takePriorities i e)).setPort port fun p => { p with suppressed := p.suppressed + 1 })))
  ∧ (∀ (dt : Nat) (port : Fin 14) (i : Fin 8) (d : Dataset) (s : State),
      let e := elapse dt s
      instActive e i = true →
      ptpUp e port = true →
      e.portState port i = .master →
      e.md.mode ≠ .standby →
      advDataset e i = some d →
      originationStopped e = false →
      txDueNow e port i 1 = true →
      exec (.syncTransmit dt port i) s = .next (finish (
            let u := txNext port i 1 (e.cfg.insts i).logSync e
            let v := u.setInst i fun x => { x with seqs := upd x.seqs 1 fun q => (q + 1) % 65536 }
            let f := followUpOf u i (copyOf u port (i / 2))
            send (.sync (ptpHead u port i false (nth (u.inst i).seqs 1 0) f.1 (e.cfg.insts i).logSync) f.2.1 f.2.2.1 f.2.2.2) v)))
  ∧ (∀ (dt : Nat) (port : Fin 14) (i : Fin 8) (d : Dataset) (s : State),
      let e := elapse dt s
      instActive e i = true →
      ptpUp e port = true →
      e.portState port i = .master →
      e.md.mode ≠ .standby →
      advDataset e i = some d →
      originationStopped e = true →
      txDueNow e port i 1 = true →
      exec (.syncTransmit dt port i) s = .next (finish ((txNext port i 1 (e.cfg.insts i).logSync e).setPort port fun p => { p with suppressed := p.suppressed + 1 })))
  ∧ (∀ (i : Nat) (tx : Rat) (s : State),
      profileOf s i ≠ 2 ∨ (s.inst i).parent = none →
      followUpOf s i tx = (0, tx, 0, if 2 ≤ profileOf s i ∧ (s.inst i).parent = none then
              some ((s.tbs (i / 2)).epoch % 65536, (s.tbs (i / 2)).lastStep * 65536) else none))
  ∧ (∀ (i g : Nat) (tx o c a rx : Rat) (s : State),
      profileOf s i = 2 →
      (s.inst i).parent ≠ none →
      (s.inst i).relay = some (o, c) →
      (s.inst i).t1t2 = some (a, rx) →
      (s.domi i).gmInd = some g →
      followUpOf s i tx = (c + (tx - rx) * (1 + (s.inst i).rateRatio / 1000000000000), o, (s.inst i).rateRatio, some (g, (s.inst i).gmPhase)))
  ∧ (∀ (n i j : Nat) (log : Int) (s : State),
      n < s.pt.port.length →
      (∀ m, ((txNext n i j log s).port n).txDue.find? (fun e => e.1 == i && e.2.1 == j) = some m → m.2.2 = s.clk.count + logNs log)
            ∧ (txDueNow (txNext n i j log s) n i j = true ↔ logNs log = 0))
  ∧ (∀ (n i q : Nat) (peer : Bool) (corr : Rat) (log : Int) (s : State),
      ptpHead s n i peer q corr log =
            { port := n, inst := i,
              dst := if peer = true ∨ 2 ≤ profileOf s i then 0x0180C200000E else 0x011B19000000,
              src := s.nv.factory.baseMac + n, etherType := 0x88F7, domain := (s.cfg.domi i).ptpDomain,
              gptp := decide (2 ≤ profileOf s i), identity := s.nv.factory.clockIdentity, portNumber := n + 1,
              seqId := q, corr := corr, logInterval := log })
  ∧ (∀ (dt : Nat) (port : Fin 14) (i : Fin 8) (s : State),
      let e := elapse dt s
      instActive e i = true →
      profileOf e i = 0 →
      e.portState port i = .slave →
      ptpAlive e port = true →
      txDueNow e port i 2 = true →
      exec (.delayReqTransmit dt port i) s = .next (finish (
            let u := txNext port i 2 (e.cfg.insts i).logPdelay e
            send (.delayReq (ptpHead e port i false (nth (u.inst i).seqs 2 0) (-(asymNs e port)) 0x7F))
              ((u.setInst i fun x => { x with seqs := upd x.seqs 2 fun q => (q + 1) % 65536 }).setInst i fun x =>
                { x with delayReq := some (port, nth (u.inst i).seqs 2 0, copyOf e port (i / 2)) }))))
  ∧ (∀ (dt : Nat) (port : Fin 14) (i : Fin 8) (s : State),
      let e := elapse dt s
      instActive e i = true →
      profileOf e i ≠ 0 →
      e.portState port i ≠ .disabled →
      ptpAlive e port = true →
      (e.cfg.port port).pdelayMode = 0 →
      txDueNow e port i 3 = true →
      exec (.pdelayReqTransmit dt port i) s = .next (finish (
            let u := txNext port i 3 (e.cfg.insts i).logPdelay e
            send (.pdelayReq (ptpHead e port i true (e.port port).pdelaySeq (if profileOf e i = 1 then -(asymNs e port) else 0) (e.cfg.insts i).logPdelay))
              (u.setPort port fun p =>
                { p with pdelay := some (i, (e.port port).pdelaySeq, copyOf e port (i / 2)), pdelaySeq := ((e.port port).pdelaySeq + 1) % 65536 }))))

/-- A port that is enabled, awake and booted links to a partner of the other PHY role; a change of link is counted, raises the port's source, and drops the foreign masters and the peer-delay exchange of the port. An accepted write of ROLE takes a role that the instance's profile lists. The copies of a PHY take the values of the timebases, and a mismatch (how far is free) is a report of the port's parity checker. The switch learns the source and sends the frame to the port it learned for the destination, or to every other port (log entry 14), also for a port whose PTP unit is fenced. It never forwards a PTP frame so: one on a fenced port, or one that no instance handles, is discarded and counted, and any other is left to the command of its message (log entry 118). -/
def Obligations.PortsAndSwitch : Prop :=
  (∀ (dt : Nat) (port : Fin 14) (partnerMaster : Bool) (s : State),
      let e := elapse dt s
      (e.cfg.port port).enable = 1 →
      ((e.cfg.port port).phyRole == 1) = !partnerMaster →
      portsBooted e = true →
      (e.port port).asleep = false →
      (e.port port).link = false →
      exec (.linkChange dt port true partnerMaster) s = .next (finish (
            let u := raise (136 + port) (e.setPort port fun p =>
                { p with link := true, linkChanges := p.linkChanges + 1, pdelay := none, pdelayPrev := List.replicate 8 none })
            { u with pt := { u.pt with inst := u.pt.inst.map fun x => { x with foreign := x.foreign.filter fun f => f.port != port } } })))
  ∧ (∀ (dt : Nat) (port : Fin 14) (partnerMaster : Bool) (s : State),
      let e := elapse dt s
      (e.port port).link = true →
      exec (.linkChange dt port false partnerMaster) s = .next (finish (
            let u := raise (136 + port) (e.setPort port fun p =>
                { p with link := false, linkChanges := p.linkChanges + 1, pdelay := none, pdelayPrev := List.replicate 8 none })
            { u with pt := { u.pt with inst := u.pt.inst.map fun x => { x with foreign := x.foreign.filter fun f => f.port != port } } })))
  ∧ (∀ (dt : Nat) (r : Requester) (port : Fin 14) (i : Fin 8) (v : Nat) (s : State),
      let e := elapse dt s
      Heard r (writeFrame r (addrWord 0x21 port (8 + i)) .u8 v) e →
      e.md.mode ≠ .safe →
      e.md.bootRom = false →
      e.isFenced (.port port) = false →
      v ≤ 4 →
      roleListed (profileOf e i) v = true →
      (v = 3 → profileOf e i ≠ 3) →
      exec (.roleWrite dt r port i v) s = .next (finish (written r (addrWord 0x21 port (8 + i)) .u8 (e.cfg.role port i) v
          { counted e with cfg := { e.cfg with pt := upd e.cfg.pt port fun c => { c with roles := upd c.roles i fun _ => v } } })))
  ∧ (∀ (dt : Nat) (port : Fin 14) (s : State),
      let e := elapse dt s
      e.clk.running = true →
      (e.port port).asleep = false →
      exec (.phyCopyRealign dt port 0#4) s = .next (finish ({ (e.setPort port fun p => { p with copies := [0, 0, 0, 0] }) with free := e.free + 4 })))
  ∧ (∀ (dt : Nat) (port : Fin 14) (mismatch : BitVec 4) (s : State),
      let e := elapse dt s
      e.clk.running = true →
      (e.port port).asleep = false →
      mismatch ≠ 0#4 →
      exec (.phyCopyRealign dt port mismatch) s = .next (finish (takeReport (0x0500 + port) (mismatch.setWidth 32) false (realignCopies port mismatch e))))
  ∧ (∀ (n k : Nat) (mismatch : BitVec 4) (s : State),
      k < 4 →
      n < s.pt.port.length →
      copyOf (realignCopies n mismatch s) n k = (s.tbs k).now + (if mismatch.getLsbD k then Config.freeRat (s.free + k) else 0))
  ∧ (∀ (dt : Nat) (port : Fin 14) (dst src etherType : Nat) (payload : List Byte) (a m : Nat) (s : State),
      let e := elapse dt s
      portUp e port = true →
      e.md.mode ≠ .standby →
      etherType ≠ 0x88F7 →
      e.pt.learned.find? (fun p => p.1 == dst) = some (a, m) →
      exec (.layer2Forwarding dt port dst src etherType payload) s = .next (finish (
            let u := { e with pt := { e.pt with learned := (src, port) :: e.pt.learned.filter fun p => p.1 != src } }
            (((List.range 14).filter fun m => m != (port : Nat) && portUp e m).filter (· == m)).foldl
              (fun z m => send (.l2 m dst src etherType payload) z) u)))
  ∧ (∀ (dt : Nat) (port : Fin 14) (dst src etherType : Nat) (payload : List Byte) (s : State),
      let e := elapse dt s
      portUp e port = true →
      e.md.mode ≠ .standby →
      etherType ≠ 0x88F7 →
      e.pt.learned.find? (fun p => p.1 == dst) = none →
      exec (.layer2Forwarding dt port dst src etherType payload) s = .next (finish (
            let u := { e with pt := { e.pt with learned := (src, port) :: e.pt.learned.filter fun p => p.1 != src } }
            (((List.range 14).filter fun m => m != (port : Nat) && portUp e m)).foldl
              (fun z m => send (.l2 m dst src etherType payload) z) u)))
  ∧ (∀ (dt : Nat) (port : Fin 14) (dst src etherType : Nat) (payload : List Byte) (s : State),
      let e := elapse dt s
      portUp e port = true →
      e.md.mode ≠ .standby →
      etherType = 0x88F7 →
      e.isFenced (.port port) = true ∨ (ptpAlive e port = true ∧ ptpForeign e payload = true) →
      exec (.layer2Forwarding dt port dst src etherType payload) s = .next (finish (e.setPort port fun p => { p with rxDiscarded := p.rxDiscarded + 1 })))
  ∧ (∀ (dt : Nat) (port : Fin 14) (dst src etherType : Nat) (payload : List Byte) (s : State),
      let e := elapse dt s
      etherType = 0x88F7 →
      e.isFenced (.port port) = false →
      ptpAlive e port = false ∨ ptpForeign e payload = false →
      exec (.layer2Forwarding dt port dst src etherType payload) s = .next (finish (e)))

/-- An edge that EDGES selects on an enabled, unfenced input is stamped at the engine time of the pin less DELAY_COMP; one of a pulse shorter than 2 ns, or less than 2 ns after the stamped edge before it, is stamped or lost, as a free value says. A stamp is counted in CAPTURED and reaches the servo, the interval channels and the three filters: without TO_RING it makes no record; of a gated input, one in no window in its own cycle is counted; of the others one in every DECIMATE is kept, and makes a record only where a stream is open. On an input that is not fenced, enabled or not, a completed calibration table exchanges the two interpolators; one that fails its check is a report of the input's checker. ENABLE written 1 restarts the decimation; written 0 it interrupts the channels that use the input. -/
def Obligations.CapturedEdges : Prop :=
  (∀ (dt : Nat) (n : Fin 64) (falling : Bool) (frac : Rat) (short : Bool) (s : State),
      let e := elapse dt s
      tdcRuns e n = true →
      bit8 (e.cfg.tsi n).edges (b2n falling) = true →
      (e.tsi n).lastEdge = none →
      short = false →
      exec (.tsiEdge dt n ⟨falling, short⟩ frac) s = .next (finish (stampEdge n falling (units16 ((e.clk.count : Rat) + frac - ((e.cfg.tsi n).delayComp : Rat) / 1000))
              (e.setTsi n fun x => { x with lastEdge := some ((e.clk.count : Rat) + frac) }))))
  ∧ (∀ (dt : Nat) (n : Fin 64) (falling : Bool) (frac : Rat) (short : Bool) (l : Rat) (s : State),
      let e := elapse dt s
      tdcRuns e n = true →
      bit8 (e.cfg.tsi n).edges (b2n falling) = true →
      (e.tsi n).lastEdge = some l →
      short = false →
      ¬ (e.clk.count : Rat) + frac < l + 2 →
      exec (.tsiEdge dt n ⟨falling, short⟩ frac) s = .next (finish (stampEdge n falling (units16 ((e.clk.count : Rat) + frac - ((e.cfg.tsi n).delayComp : Rat) / 1000))
              (e.setTsi n fun x => { x with lastEdge := some ((e.clk.count : Rat) + frac) }))))
  ∧ (∀ (dt : Nat) (n : Fin 64) (falling : Bool) (frac : Rat) (short : Bool) (l : Rat) (s : State),
      let e := elapse dt s
      tdcRuns e n = true →
      bit8 (e.cfg.tsi n).edges (b2n falling) = true →
      (e.tsi n).lastEdge = some l →
      (e.clk.count : Rat) + frac < l + 2 →
      exec (.tsiEdge dt n ⟨falling, short⟩ frac) s = .next (finish (if Config.freeBool e.free then { e with free := e.free + 1 }
            else stampEdge n falling (units16 ((e.clk.count : Rat) + frac - ((e.cfg.tsi n).delayComp : Rat) / 1000))
              ({ e with free := e.free + 1 }.setTsi n fun x => { x with lastEdge := some ((e.clk.count : Rat) + frac) }))))
  ∧ (∀ (dt : Nat) (n : Fin 64) (falling : Bool) (frac : Rat) (short : Bool) (s : State),
      let e := elapse dt s
      tdcRuns e n = true →
      bit8 (e.cfg.tsi n).edges (b2n falling) = true →
      short = true →
      exec (.tsiEdge dt n ⟨falling, short⟩ frac) s = .next (finish (if Config.freeBool e.free then { e with free := e.free + 1 }
            else stampEdge n falling (units16 ((e.clk.count : Rat) + frac - ((e.cfg.tsi n).delayComp : Rat) / 1000))
              ({ e with free := e.free + 1 }.setTsi n fun x => { x with lastEdge := some ((e.clk.count : Rat) + frac) }))))
  ∧ (∀ (n : Nat) (falling : Bool) (t : Rat) (s : State),
      stampEdge n falling t s = strobeEdge n falling t (stampToTcs n falling t (captureFilters n falling t (s.setTsi n fun x =>
            { x with
              captured := x.captured + 1,
              sticky := if (s.tsi n).uncal then x.sticky ||| 4#8 else x.sticky }))))
  ∧ (∀ (n : Nat) (falling : Bool) (t : Rat) (s : State),
      (s.cfg.tsi n).toRing ≠ 1 →
      captureFilters n falling t s = s)
  ∧ (∀ (n : Nat) (falling : Bool) (t : Rat) (s : State),
      (s.cfg.tsi n).toRing = 1 →
      (s.cfg.tsi n).gating = 1 →
      (s.window n).covers t.floor = false →
      captureFilters n falling t s = s.setTsi n fun x => { x with outside := x.outside + 1 })
  ∧ (∀ (n : Nat) (falling : Bool) (t : Rat) (s : State),
      (s.cfg.tsi n).toRing = 1 →
      ¬ ((s.cfg.tsi n).gating = 1 ∧ (s.window n).covers t.floor = false) →
      (s.tsi n).dec = 0 →
      captureFilters n falling t s = recordStamp n falling t (s.setTsi n fun x => { x with dec := if 0 + 1 < (s.cfg.tsi n).decimate then 0 + 1 else 0 }))
  ∧ (∀ (n : Nat) (falling : Bool) (t : Rat) (s : State),
      (s.cfg.tsi n).toRing = 1 →
      ¬ ((s.cfg.tsi n).gating = 1 ∧ (s.window n).covers t.floor = false) →
      (s.tsi n).dec ≠ 0 →
      captureFilters n falling t s = s.setTsi n fun x => { x with dec := if (s.tsi n).dec + 1 < (s.cfg.tsi n).decimate then (s.tsi n).dec + 1 else 0 })
  ∧ (∀ (n : Nat) (falling : Bool) (t : Rat) (s : State),
      s.ts.stream = none →
      recordStamp n falling t s = s)
  ∧ (∀ (n : Nat) (falling : Bool) (t : Rat) (s : State),
      s.ts.stream.isNone = false →
      (s.tsi n).fifo.length < 16 →
      recordStamp n falling t s = raiseIf ((s.cfg.tsi n).edgeEvent == 1) (152 + n) (s.setTsi n fun _ =>
            { s.tsi n with
              fifo := (s.tsi n).fifo ++ [captureOf s n falling t], lostFlag := false,
              fifoPeak := max (s.tsi n).fifoPeak ((s.tsi n).fifo.length + 1) }))
  ∧ (∀ (n : Nat) (falling : Bool) (t : Rat) (s : State),
      s.ts.stream.isNone = false →
      16 ≤ (s.tsi n).fifo.length →
      recordStamp n falling t s = raiseIf (!(bit8 (s.tsi n).sticky 0)) (152 + n) (s.setTsi n fun _ =>
            { s.tsi n with lost := (s.tsi n).lost + 1, lostFlag := true, sticky := (s.tsi n).sticky ||| 1#8 }))
  ∧ (∀ (dt : Nat) (n : Fin 64) (syndrome : BitVec 32) (s : State),
      let e := elapse dt s
      calibrates e n = true →
      exec (.tdcCalibration dt n true syndrome) s = .next (finish (e.setTsi n fun x =>
              { x with tables := upd x.tables (1 - x.stamping) fun _ => true, stamping := 1 - x.stamping })))
  ∧ (∀ (dt : Nat) (n : Fin 64) (syndrome : BitVec 32) (s : State),
      let e := elapse dt s
      calibrates e n = true →
      exec (.tdcCalibration dt n false syndrome) s = .next (finish (takeReport (0x0600 + n) syndrome false e)))
  ∧ (∀ (dt : Nat) (r : Requester) (n : Fin 64) (s : State),
      let e := elapse dt s
      Heard r (writeFrame r (addrWord 48 (n) 0) .u8 0) e →
      e.md.mode ≠ .safe →
      e.md.bootRom = false →
      e.isFenced (.tsi n) = false →
      exec (.tsiEnable dt r n 0) s = .next (finish (written r (addrWord 48 (n) 0) .u8 (e.cfg.tsi n).enable 0
          (enableTsi n 0 { counted e with cfg := { e.cfg with ts := upd e.cfg.ts n fun c => { c with enable := 0 } } }))))
  ∧ (∀ (dt : Nat) (r : Requester) (n : Fin 64) (s : State),
      let e := elapse dt s
      Heard r (writeFrame r (addrWord 48 (n) 0) .u8 1) e →
      e.md.mode ≠ .safe →
      e.md.bootRom = false →
      e.isFenced (.tsi n) = false →
      exec (.tsiEnable dt r n 1) s = .next (finish (written r (addrWord 48 (n) 0) .u8 (e.cfg.tsi n).enable 1
          (enableTsi n 1 { counted e with cfg := { e.cfg with ts := upd e.cfg.ts n fun c => { c with enable := 1 } } }))))
  ∧ (∀ (n : Nat) (s : State),
      enableTsi n 1 s = ({ s with cfg := { s.cfg with ts := upd s.cfg.ts n fun c => { c with enable := 1 } } }).setTsi n
            (fun x => { x with dec := 0 }) ∧
          enableTsi n 0 s = interruptInput n { s with cfg := { s.cfg with ts := upd s.cfg.ts n fun c => { c with enable := 0 } } })

/-- While more than 64 slots of the ring are free, a slot passes the oldest record of the next input of the round to the ring, where it takes the next SEQ. A record whose stamp is 1 s old is discarded, counted in STALE, and marks the next record of the input; the first loss raises the input's source. A timebase whose seconds have changed writes a periodic anchor of the cycle in which its present second began. A flush empties the ring and writes an epoch-start anchor of each timebase. A due packet takes up to 85 records from the ring in its own DOP frame and counts them. -/
def Obligations.CaptureRing : Prop :=
  (∀ (dt : Nat) (n : Nat) (rest : List Nat) (x : FifoRec) (more : List FifoRec) (s : State),
      let e := elapse dt s
      e.clk.running = true →
      e.ts.stream.isNone = false →
      e.ts.ring.length + 64 < 16384 →
      (if e.ts.round.isEmpty then newRound e.ts else e.ts.round) = n :: rest →
      (e.ts.input n).fifo = x :: more →
      exec (.ringSlot dt) s = .next (finish ({ e with
              ts := ({ e.ts with
                round := rest, served := upd e.ts.served (n / 8) (fun _ => n % 8),
                inp := upd e.ts.inp n fun x => { x with fifo := more } } : Ts).push e.clk.count x.word })))
  ∧ (∀ (dt : Nat) (s : State),
      let e := elapse dt s
      e.clk.running = true →
      e.ts.stream = none ∨ 16384 ≤ e.ts.ring.length + 64 →
      exec (.ringSlot dt) s = .next (finish (e)))
  ∧ (∀ (now : Nat) (w : BitVec 96) (t : Ts),
      Ts.push now w t =
            { t with
              ring := t.ring ++ [(now, w ||| BitVec.ofNat 96 (t.nextSeq % 65536))], nextSeq := (t.nextSeq + 1) % 65536,
              peak := max t.peak (t.ring.length + 1) })
  ∧ (∀ (dt : Nat) (n : Fin 64) (s : State),
      let e := elapse dt s
      ((e.tsi n).fifo.filter fun r => decide (r.stamp + 1000000000 ≤ (e.clk.count : Rat))) = [] →
      exec (.staleRecord dt n) s = .next (finish (e.setTsi n fun _ => e.tsi n)))
  ∧ (∀ (dt : Nat) (n : Fin 64) (s : State),
      let e := elapse dt s
      ((e.tsi n).fifo.filter fun r => decide (r.stamp + 1000000000 ≤ (e.clk.count : Rat))).isEmpty = false →
      exec (.staleRecord dt n) s = .next (finish (
            let old := (e.tsi n).fifo.filter fun r => decide (r.stamp + 1000000000 ≤ (e.clk.count : Rat))
            let keep := (e.tsi n).fifo.filter fun r => !(decide (r.stamp + 1000000000 ≤ (e.clk.count : Rat)))
            raiseIf (!(bit8 (e.tsi n).sticky 1)) (152 + n) (e.setTsi n fun _ =>
              { e.tsi n with
                fifo := markLost keep, stale := (e.tsi n).stale + old.length, lostFlag := (e.tsi n).lostFlag || keep.isEmpty,
                sticky := (e.tsi n).sticky ||| 2#8 }))))
  ∧ (∀ (dt : Nat) (tb : Fin 4) (s : State),
      let e := elapse dt s
      nth e.ts.tbSec tb 0 ≠ (e.tbs tb).now.floor / 1000000000 →
      e.ts.stream.isNone = false →
      exec (.anchorPeriodic dt tb) s = .next (finish (
            let sec := (e.tbs tb).now.floor / 1000000000
            { e with
              ts := ({ e.ts with tbSec := upd e.ts.tbSec tb fun _ => sec } : Ts).addAnchor e.clk.count tb
                (anchorOf ((e.tbs tb).atSecond sec (tbRate e tb)) tb false false) })))
  ∧ (∀ (dt : Nat) (r : Requester) (arg : Nat) (s : State),
      let e := elapse dt s
      Heard r (commandFrame r (addrWord 0x30 200 6) .u8 arg) e →
      e.md.mode ≠ .safe →
      e.md.bootRom = false →
      arg < 256 →
      e.ts.stream.isNone = false →
      exec (.ringFlush dt r arg) s = .next (finish (commanded r (addrWord 0x30 200 6) .u8 arg
          { counted e with ts := e.ts.refill e.clk.count e.tb })))
  ∧ (∀ (dt : Nat) (x : Stream) (s : State),
      let e := elapse dt s
      e.ts.stream = some x →
      packetDue e.clk.count e.ts.ring = true →
      (e.port x.iface).link = true →
      exec (.streamPacket dt) s = .next (finish (
            let n := packetCount e.ts.ring
            let u := send (.dop x.iface x.source x.sport x.mac x.version 7 x.seq 0 0#8 streamAddress 0
                ((e.ts.ring.take n).flatMap fun p => recBytes p.2)) e
            { u with
              ts := ({ e.ts with
                ring := e.ts.ring.drop n, streamed := e.ts.streamed + n,
                stream := some { x with seq := nextPacketSeq x.iface x.seq } } : Ts).drain e.clk.count })))
  ∧ (∀ (dt : Nat) (s : State),
      let e := elapse dt s
      e.ts.stream = none ∨ packetDue e.clk.count e.ts.ring = false →
      exec (.streamPacket dt) s = .next (finish (e)))

/-- RUN written 1 or 2 on inputs that are enabled and not fenced starts a new gate at once and discards what is open; written 0 it stops the channel. A gate that has reached its end is published; a single one stops, a continuous one starts the next where it ended. An edge is taken 200 ns after its stamp, and pairs by the rows of the table of R302: a start against a held stop within W is a reversed result, a stop against an open start a result, an older open start or held stop is counted. A held stop that reaches W without a start is counted and dropped. -/
def Obligations.IntervalChannels : Prop :=
  (∀ (dt : Nat) (r : Requester) (k : Fin 16) (s : State),
      let e := elapse dt s
      Heard r (writeFrame r (addrWord 49 (k) 0) .u8 1) e →
      e.md.mode ≠ .safe →
      e.md.bootRom = false →
      e.isFenced (.tc k) = false →
      k.val < e.cfg.tc.length →
      (∀ n ∈ tcInputs (e.cfg.tcs k), (e.cfg.tsi n).enable = 1 ∧ e.isFenced (.tsi n) = false) →
      exec (.tcRun dt r k 1) s = .next (finish (written r (addrWord 49 (k) 0) .u8 (e.cfg.tcs k).run 1
          (writeRun k 1 ({ counted e with cfg := { e.cfg with tc := upd e.cfg.tc k fun x => { x with run := 1 } } })))))
  ∧ (∀ (dt : Nat) (r : Requester) (k : Fin 16) (s : State),
      let e := elapse dt s
      Heard r (writeFrame r (addrWord 49 (k) 0) .u8 2) e →
      e.md.mode ≠ .safe →
      e.md.bootRom = false →
      e.isFenced (.tc k) = false →
      k.val < e.cfg.tc.length →
      (∀ n ∈ tcInputs (e.cfg.tcs k), (e.cfg.tsi n).enable = 1 ∧ e.isFenced (.tsi n) = false) →
      exec (.tcRun dt r k 2) s = .next (finish (written r (addrWord 49 (k) 0) .u8 (e.cfg.tcs k).run 2
          (writeRun k 2 ({ counted e with cfg := { e.cfg with tc := upd e.cfg.tc k fun x => { x with run := 2 } } })))))
  ∧ (∀ (dt : Nat) (r : Requester) (k : Fin 16) (s : State),
      let e := elapse dt s
      Heard r (writeFrame r (addrWord 49 (k) 0) .u8 0) e →
      e.md.mode ≠ .safe →
      e.md.bootRom = false →
      e.isFenced (.tc k) = false →
      exec (.tcRun dt r k 0) s = .next (finish (written r (addrWord 49 (k) 0) .u8 (e.cfg.tcs k).run 0
          (stopTc k 0 ({ counted e with cfg := { e.cfg with tc := upd e.cfg.tc k fun x => { x with run := 0 } } })))))
  ∧ (∀ (k v : Nat) (s : State),
      v ≠ 0 →
      writeRun k v s = (s.setRun k v).setTc k fun x => { x.discard.newGate s.md.ovenReady s.clk.count with status := 1 })
  ∧ (∀ (dt : Nat) (k : Fin 16) (g : Rat) (s : State),
      let e := elapse dt s
      (e.tcs k).gate = some g →
      g + (((e.cfg.tcs k).gate * 1000000 : Nat) : Rat) ≤ (e.clk.count : Rat) →
      (e.cfg.tcs k).run = 2 →
      exec (.gateEnd dt k) s = .next (finish (stopTc k 2 (publish k (g + (((e.cfg.tcs k).gate * 1000000 : Nat) : Rat)) false e))))
  ∧ (∀ (dt : Nat) (k : Fin 16) (g : Rat) (s : State),
      let e := elapse dt s
      (e.tcs k).gate = some g →
      g + (((e.cfg.tcs k).gate * 1000000 : Nat) : Rat) ≤ (e.clk.count : Rat) →
      (e.cfg.tcs k).run ≠ 2 →
      exec (.gateEnd dt k) s = .next (finish (nextGate k (g + (((e.cfg.tcs k).gate * 1000000 : Nat) : Rat))
              (publish k (g + (((e.cfg.tcs k).gate * 1000000 : Nat) : Rat)) false e))))
  ∧ (∀ (dt : Nat) (k : Fin 16) (g : Rat) (s : State),
      let e := elapse dt s
      (e.tcs k).gate = some g →
      (e.clk.count : Rat) < g + (((e.cfg.tcs k).gate * 1000000 : Nat) : Rat) →
      exec (.gateEnd dt k) s = .next (finish (e)))
  ∧ (∀ (dt : Nat) (k : Fin 16) (a : Rat × Bool) (rest : List (Rat × Bool)) (s : State),
      let e := elapse dt s
      (e.tcs k).waiting = a :: rest →
      (e.cfg.tcs k).mode = 0 →
      a.1 + 200 ≤ (e.clk.count : Rat) →
      exec (.tcEdgeEvaluation dt k) s = .next (finish (e.setTc k fun x => takeEdge (coincidenceNs (e.cfg.tcs k)) a { x with waiting := rest })))
  ∧ (∀ (t w : Rat) (x : Tc) (b : Rat),
      x.stop = some b →
      ¬ b + w < t →
      takeEdge w (t, true) x = { x with stop := none, results := resultOf t (b - t) :: x.results })
  ∧ (∀ (t w : Rat) (x : Tc) (a : Rat),
      x.stop = none →
      x.start = some a →
      takeEdge w (t, true) x = { x with start := some t, unpairedNow := x.unpairedNow + 1 })
  ∧ (∀ (t w : Rat) (x : Tc),
      x.stop = none →
      x.start = none →
      takeEdge w (t, true) x = { x with start := some t })
  ∧ (∀ (t w : Rat) (x : Tc) (a : Rat),
      x.stop = none →
      x.start = some a →
      takeEdge w (t, false) x = { x with start := none, results := resultOf t (t - a) :: x.results })
  ∧ (∀ (t w : Rat) (x : Tc) (b : Rat),
      x.stop = some b →
      ¬ b + w < t →
      x.start = none →
      takeEdge w (t, false) x = { x with stop := some t, earlyNow := x.earlyNow + 1 })
  ∧ (∀ (t w : Rat) (x : Tc),
      x.stop = none →
      x.start = none →
      takeEdge w (t, false) x = { x with stop := some t })
  ∧ (∀ (dt : Nat) (k : Fin 16) (b : Rat) (s : State),
      let e := elapse dt s
      (e.tcs k).stop = some b →
      b + coincidenceNs (e.cfg.tcs k) ≤ (e.clk.count : Rat) →
      ((e.tcs k).waiting.any fun a => a.2 && decide (a.1 ≤ b + coincidenceNs (e.cfg.tcs k))) = false →
      exec (.heldStopExpiry dt k) s = .next (finish (e.setTc k fun x => { x with stop := none, earlyNow := x.earlyNow + 1 })))

/-- A and B changing in one cycle are an illegal transition: counted, and FAULT from TRACKING or STALLED. A counted edge moves the axis by one count in its direction, but one that turns the direction is the last counted edge passed back and leaves the edge position where it is (an inference, log entry 121); it reseeds the velocity from 0 where the direction turns or the axis stood, and otherwise the velocity loop takes the error of the estimate (its gains are free values, log entry 11); it ends a stall. The first index homes an axis at INDEX_OFFSET; a later one sets the nearest index position where the mismatch lies within INDEX_TOL, counts an error and raises the axis's source, and enters FAULT beyond it; in FAULT it homes the axis again. Without a counted edge for STALL_EDGES times the expected interval the axis stands where its estimate is. -/
def Obligations.AxisCounting : Prop :=
  (∀ (dt : Nat) (k : Fin 4) (aChanged bChanged a b : Bool) (s : State),
      let e := elapse dt s
      trackerRuns e (k + 4) = true →
      (aChanged && bChanged) = true →
      ((e.axis (k + 4)).state = .tracking ∨ (e.axis (k + 4)).state = .stalled) →
      exec (.axisCountEdge dt k aChanged bChanged a b) s = .next (finish (setAxisState (k + 4) .fault (e.setAxis (k + 4) fun x => { x with illegal := x.illegal + 1, sticky := setBit8 x.sticky 1 }))))
  ∧ (∀ (dt : Nat) (k : Fin 4) (aChanged bChanged a b : Bool) (s : State),
      let e := elapse dt s
      trackerRuns e (k + 4) = true →
      (aChanged && bChanged) = true →
      (e.axis (k + 4)).state = .unhomed →
      exec (.axisCountEdge dt k aChanged bChanged a b) s = .next (finish (e.setAxis (k + 4) fun x => { x with illegal := x.illegal + 1, sticky := setBit8 x.sticky 1 })))
  ∧ (∀ (dt : Nat) (k : Fin 4) (aChanged bChanged a b : Bool) (forward : Bool) (s : State),
      let e := elapse dt s
      trackerRuns e (k + 4) = true →
      (aChanged && bChanged) = false →
      countOf (e.cfg.axi k) aChanged bChanged a b = some forward →
      (e.axis (k + 4)).state = .stalled →
      exec (.axisCountEdge dt k aChanged bChanged a b) s = .next (finish (setAxisState (k + 4) .tracking
              (e.setAxis (k + 4) fun x => x.takeCount (e.cfg.axi k) e.clk.count forward (rawEstimate x e.clk.count)))))
  ∧ (∀ (dt : Nat) (k : Fin 4) (aChanged bChanged a b : Bool) (forward : Bool) (s : State),
      let e := elapse dt s
      trackerRuns e (k + 4) = true →
      (aChanged && bChanged) = false →
      countOf (e.cfg.axi k) aChanged bChanged a b = some forward →
      (e.axis (k + 4)).state ≠ .stalled →
      exec (.axisCountEdge dt k aChanged bChanged a b) s = .next (finish (e.setAxis (k + 4) fun x => x.takeCount (e.cfg.axi k) e.clk.count forward (rawEstimate x e.clk.count))))
  ∧ (∀ (dt : Nat) (k : Fin 4) (aChanged bChanged a b : Bool) (s : State),
      let e := elapse dt s
      trackerRuns e (k + 4) = true →
      (aChanged && bChanged) = false →
      countOf (e.cfg.axi k) aChanged bChanged a b = none →
      exec (.axisCountEdge dt k aChanged bChanged a b) s = .next (finish (e)))
  ∧ (∀ (c : CfgAx) (a b : Bool),
      c.kind = 1 ∧ c.countMode = 0 →
      c.invert = 0 →
      countOf c true false a b = some (a != b) ∧ countOf c false true a b = some (a == b))
  ∧ (∀ (c : CfgAx) (a b : Bool),
      (c.kind = 1 ∧ c.countMode = 1) ∨ (c.kind = 2 ∧ c.travelMode = 2) →
      c.invert = 0 →
      countOf c true false true b = some (!b) ∧ countOf c true false false b = none ∧ countOf c false true a b = none)
  ∧ (∀ (c : CfgAx) (now : Nat) (forward : Bool) (est : Rat) (x : Axis),
      0 < x.edges →
      x.backward = forward →
      let y := x.takeCount c now forward est
      y.xe = x.xe ∧ y.te = now ∧ y.countedAt = now ∧ y.v = 0 ∧ y.extrap = false ∧
            y.edges = x.edges + 1 ∧ y.backward = !forward ∧ y.sticky = setBit8 x.sticky 2)
  ∧ (∀ (c : CfgAx) (now : Nat) (forward : Bool) (est : Rat) (x : Axis),
      x.backward = !forward →
      let y := x.takeCount c now forward est
      y.xe = (if forward then x.xe + countStep c else x.xe - countStep c) ∧ y.te = now ∧ y.countedAt = now ∧ y.edges = x.edges + 1 ∧
            y.backward = x.backward ∧ y.sticky = x.sticky ∧ (x.fresh = true → y.v = 0 ∧ y.extrap = false) ∧
            (x.fresh = false → x.xe = est + (x.xe - est) → y.extrap = true))
  ∧ (∀ (dt : Nat) (k : Fin 4) (s : State),
      let e := elapse dt s
      trackerRuns e (k + 4) = true →
      (e.cfg.axi k).kind = 1 →
      (e.axis (k + 4)).state = .unhomed →
      exec (.indexEdge dt k) s = .next (finish (setAxisState (k + 4) .tracking ((e.setAxis (k + 4) fun x => { x with lastIndex := e.clk.count }).setAxis (k + 4) fun x =>
              { x with xe := (e.cfg.axi k).indexOffset, te := e.clk.count, hold := none, sinceIndex := some 0 }))))
  ∧ (∀ (dt : Nat) (k : Fin 4) (s : State),
      let e := elapse dt s
      trackerRuns e (k + 4) = true →
      (e.cfg.axi k).kind = 1 →
      (e.axis (k + 4)).state = .fault →
      exec (.indexEdge dt k) s = .next (finish (setAxisState (k + 4) .tracking ((e.setAxis (k + 4) fun x => { x with lastIndex := e.clk.count }).setAxis (k + 4) fun x =>
              x.place e.clk.count (nearestIndex (e.cfg.axi k) (axiPos (e.cfg.axi k) (e.axis (k + 4)) e.clk.count))))))
  ∧ (∀ (dt : Nat) (k : Fin 4) (n : Int) (s : State),
      let e := elapse dt s
      trackerRuns e (k + 4) = true →
      (e.cfg.axi k).kind = 1 →
      ((e.axis (k + 4)).state = .tracking ∨ (e.axis (k + 4)).state = .stalled) →
      (e.axis (k + 4)).sinceIndex = some n →
      indexMismatch (e.cfg.axi k) n = 0 →
      exec (.indexEdge dt k) s = .next (finish ((e.setAxis (k + 4) fun x => { x with lastIndex := e.clk.count }).setAxis (k + 4) fun x => { x with sinceIndex := some 0 })))
  ∧ (∀ (dt : Nat) (k : Fin 4) (n : Int) (s : State),
      let e := elapse dt s
      trackerRuns e (k + 4) = true →
      (e.cfg.axi k).kind = 1 →
      ((e.axis (k + 4)).state = .tracking ∨ (e.axis (k + 4)).state = .stalled) →
      (e.axis (k + 4)).sinceIndex = some n →
      indexMismatch (e.cfg.axi k) n ≠ 0 →
      indexMismatch (e.cfg.axi k) n ≤ (e.cfg.axi k).indexTol →
      exec (.indexEdge dt k) s = .next (finish (raise (232 + (k + 4)) ((e.setAxis (k + 4) fun x => { x with lastIndex := e.clk.count }).setAxis (k + 4) fun x =>
              { x.place e.clk.count (nearestIndex (e.cfg.axi k) (axiPos (e.cfg.axi k) (e.axis (k + 4)) e.clk.count)) with
                extrap := x.extrap, hold := none, indexErrors := x.indexErrors + 1, sticky := setBit8 x.sticky 0 }))))
  ∧ (∀ (dt : Nat) (k : Fin 4) (n : Int) (s : State),
      let e := elapse dt s
      trackerRuns e (k + 4) = true →
      (e.cfg.axi k).kind = 1 →
      ((e.axis (k + 4)).state = .tracking ∨ (e.axis (k + 4)).state = .stalled) →
      (e.axis (k + 4)).sinceIndex = some n →
      (e.cfg.axi k).indexTol < indexMismatch (e.cfg.axi k) n →
      exec (.indexEdge dt k) s = .next (finish (setAxisState (k + 4) .fault ((e.setAxis (k + 4) fun x => { x with lastIndex := e.clk.count }).setAxis (k + 4) fun x => { x with sinceIndex := some 0 }))))
  ∧ (∀ (c : CfgAx) (n : Int),
      indexMismatch c n = ((n.natAbs : Int) - countsPerTurn c).natAbs)
  ∧ (∀ (dt : Nat) (k : Fin 4) (s : State),
      let e := elapse dt s
      trackerRuns e (k + 4) = true →
      stallDue e (k + 4) = true →
      exec (.axisStall dt k) s = .next (finish (setAxisState (k + 4) .stalled (e.setAxis (k + 4) fun x =>
              { x with
                hold := some (axiPos (e.cfg.axi k) (e.axis (k + 4)) e.clk.count), v := 0, integ := 0, extrap := false, fresh := true }))))
  ∧ (∀ (a : Nat) (st : AxisState) (s : State),
      (nth s.ax a Axis.reset).state ≠ st →
      axisSuspends st = false →
      axisSuspends (nth s.ax a Axis.reset).state = false →
      setAxisState a st s = raise (232 + a) { s with
            ax := upd s.ax a fun x =>
              { x with state := st, lastChange := s.clk.count, stalls := if st = .stalled then x.stalls + 1 else x.stalls } })

/-- KIND of an axis takes a value up to 2, 0 only while no action waits on the axis: 0 switches it OFF where it stands; on an OFF axis 1 makes it UNHOMED and 2 STALLED, both at position 0; on another it only restarts the count of edges; on a FENCED one nothing follows. PRESET puts a travel axis at the written position, raises its source, treats the actions on the axis by their REBASE option, and takes the axis from FAULT to STALLED. -/
def Obligations.AxisSettings : Prop :=
  (∀ (dt : Nat) (r : Requester) (k : Fin 4) (v : Nat) (s : State),
      let e := elapse dt s
      Heard r (writeFrame r (addrWord 0x40 (20 + k) 0) .u8 v) e →
      e.md.mode ≠ .safe →
      e.md.bootRom = false →
      e.isFenced (.axis (k + 4)) = false →
      v ≤ 2 →
      (v = 0 → axisBusy e (k + 4) = false) →
      exec (.axisKindWrite dt r k v) s = .next (finish (written r (addrWord 0x40 (20 + k) 0) .u8 (e.cfg.axi k).kind v
          (writeKind k v (counted e)))))
  ∧ (∀ (k : Nat) (s : State),
      (s.axis (k + 4)).state = .off →
      writeKind k 1 s = setAxisState (k + 4) .unhomed
            (({ s with cfg := { s.cfg with ax := upd s.cfg.ax k fun c => { c with kind := 1 } } }).setAxis (k + 4) fun x =>
              { x with
                edges := 0, xe := 0, te := s.clk.count, countedAt := s.clk.count, v := 0, integ := 0, extrap := false, sinceIndex := none,
                backward := false, hold := none, fresh := true }))
  ∧ (∀ (k : Nat) (s : State),
      (s.axis (k + 4)).state = .off →
      writeKind k 2 s = setAxisState (k + 4) .stalled
            (({ s with cfg := { s.cfg with ax := upd s.cfg.ax k fun c => { c with kind := 2 } } }).setAxis (k + 4) fun x =>
              { x with
                edges := 0, xe := 0, te := s.clk.count, countedAt := s.clk.count, v := 0, integ := 0, extrap := false, sinceIndex := none,
                backward := false, hold := none, fresh := true }))
  ∧ (∀ (k : Nat) (s : State),
      (s.axis (k + 4)).state ≠ .fenced →
      writeKind k 0 s = setAxisState (k + 4) .off
            (({ s with cfg := { s.cfg with ax := upd s.cfg.ax k fun c => { c with kind := 0 } } }).setAxis (k + 4) fun x =>
              { x.stand (axiPos (s.cfg.axi k) x s.clk.count) with edges := 0 }))
  ∧ (∀ (k v : Nat) (s : State),
      (s.axis (k + 4)).state ≠ .fenced →
      (s.axis (k + 4)).state ≠ .off →
      v ≠ 0 →
      writeKind k v s = ({ s with cfg := { s.cfg with ax := upd s.cfg.ax k fun c => { c with kind := v } } }).setAxis (k + 4) fun x => { x with edges := 0 })
  ∧ (∀ (dt : Nat) (r : Requester) (k : Fin 4) (v : Nat) (s : State),
      let e := elapse dt s
      Heard r (commandFrame r (addrWord 0x40 (20 + k) 10) .u64 v) e →
      e.md.mode ≠ .safe →
      e.md.bootRom = false →
      v < 2 ^ 64 →
      e.isFenced (.axis (k + 4)) = false →
      (e.cfg.axi k).kind = 2 →
      (e.axis (k + 4)).state ≠ .fault →
      exec (.preset dt r k v) s = .next (finish (commanded r (addrWord 0x40 (20 + k) 10) .u64 v
          (rebaseAxis (k + 4) (BitVec.ofNat 64 v - pos64 (axiPos (e.cfg.axi k) (e.axis (k + 4)) e.clk.count))
            (raise (232 + (k + 4)) ((counted e).setAxis (k + 4) fun x =>
              { x with xe := (BitVec.ofNat 64 v).toInt, te := e.clk.count, hold := none, sticky := setBit8 x.sticky 3 }))))))
  ∧ (∀ (dt : Nat) (r : Requester) (k : Fin 4) (v : Nat) (s : State),
      let e := elapse dt s
      Heard r (commandFrame r (addrWord 0x40 (20 + k) 10) .u64 v) e →
      e.md.mode ≠ .safe →
      e.md.bootRom = false →
      v < 2 ^ 64 →
      e.isFenced (.axis (k + 4)) = false →
      (e.cfg.axi k).kind = 2 →
      (e.axis (k + 4)).state = .fault →
      exec (.preset dt r k v) s = .next (finish (commanded r (addrWord 0x40 (20 + k) 10) .u64 v
          (setAxisState (k + 4) .stalled ((rebaseAxis (k + 4) (BitVec.ofNat 64 v - pos64 (axiPos (e.cfg.axi k) (e.axis (k + 4)) e.clk.count))
            (raise (232 + (k + 4)) ((counted e).setAxis (k + 4) fun x =>
              { x with xe := (BitVec.ofNat 64 v).toInt, te := e.clk.count, hold := none, sticky := setBit8 x.sticky 3 }))).setAxis (k + 4) (Axis.stand (BitVec.ofNat 64 v).toInt))))))

/-- An arm that passes the checks of R325 loads the target, COUNT, and clears the counters; on an axis that is UNHOMED, FAULT or FENCED the action is SUSPENDED, elsewhere the late policy is applied with Λ of 2 µs and the arming takes effect 2 µs later. REJECT on a late target arms nothing and answers TOO_LATE; FIRE_LATE fires in the cycle the arming takes effect; SKIP skips whole periods. A disarm makes an ARMED or SUSPENDED action CANCELLED, DISARM_ALL all of them. KIND written 0 empties an action, non-zero makes an EMPTY one IDLE. -/
def Obligations.ArmAndDisarm : Prop :=
  (∀ (dt : Nat) (r : Requester) (a : Fin 1024) (s : State),
      let e := elapse dt s
      Heard r (commandFrame r (addrWord 0x41 a 11) .u8 1) e →
      e.md.mode ≠ .safe →
      e.md.bootRom = false →
      armCheck e a = none →
      axisSuspends (axisState e (e.cfg.action a).axis) = false →
      ¬ ((e.cfg.action a).policy = 1 ∧ isLate (e.cfg.action a).direction (gapTo e (e.cfg.action a).axis (leadOf e a) (e.cfg.action a).target) (margin e (e.cfg.action a).axis 2000) = true) →
      exec (.arm dt r a) s = .next (finish (commanded r (addrWord 0x41 a 11) .u8 1
          (noteSign a (applyPolicy a 2000 false ((counted e).setAct a (armedAct (counted e) a .armed)))))))
  ∧ (∀ (dt : Nat) (r : Requester) (a : Fin 1024) (s : State),
      let e := elapse dt s
      Heard r (commandFrame r (addrWord 0x41 a 11) .u8 1) e →
      e.md.mode ≠ .safe →
      e.md.bootRom = false →
      armCheck e a = none →
      axisSuspends (axisState e (e.cfg.action a).axis) = true →
      exec (.arm dt r a) s = .next (finish (commanded r (addrWord 0x41 a 11) .u8 1
          (statusEvent a ((counted e).setAct a (armedAct (counted e) a .suspended))))))
  ∧ (∀ (a : Nat) (s : State),
      armCheck s a = none →
      axisSuspends (axisState s (s.cfg.action a).axis) = false →
      (s.cfg.action a).policy = 1 →
      isLate (s.cfg.action a).direction (gapTo s (s.cfg.action a).axis (leadOf s a) (s.cfg.action a).target) (margin s (s.cfg.action a).axis 2000) = true →
      armAction a s = (0x09, s))
  ∧ (∀ (a st : Nat) (s : State),
      armCheck s a = some st →
      armAction a s = (st, s))
  ∧ (∀ (a ns : Nat) (afterLate : Bool) (s : State),
      isLate (s.cfg.action a).direction (gapTo s (s.cfg.action a).axis (s.action a).lead (s.action a).next) (margin s (s.cfg.action a).axis ns) = false →
      applyPolicy a ns afterLate s = s)
  ∧ (∀ (a ns : Nat) (afterLate : Bool) (s : State),
      isLate (s.cfg.action a).direction (gapTo s (s.cfg.action a).axis (s.action a).lead (s.action a).next) (margin s (s.cfg.action a).axis ns) = true →
      (s.cfg.action a).policy = 1 →
      applyPolicy a ns afterLate s =
            endAction a .tooLate s)
  ∧ (∀ (a ns : Nat) (afterLate : Bool) (s : State),
      isLate (s.cfg.action a).direction (gapTo s (s.cfg.action a).axis (s.action a).lead (s.action a).next) (margin s (s.cfg.action a).axis ns) = true →
      (s.cfg.action a).policy = 2 →
      afterLate = false →
      applyPolicy a ns afterLate s =
            s.setAct a fun x => { x with fireLate := true })
  ∧ (∀ (a ns : Nat) (afterLate : Bool) (s : State),
      isLate (s.cfg.action a).direction (gapTo s (s.cfg.action a).axis (s.action a).lead (s.action a).next) (margin s (s.cfg.action a).axis ns) = true →
      (s.cfg.action a).policy = 2 →
      afterLate = true →
      applyPolicy a ns afterLate s =
            skipAction a (gapTo s (s.cfg.action a).axis (s.action a).lead (s.action a).next) (margin s (s.cfg.action a).axis ns) s)
  ∧ (∀ (a ns : Nat) (afterLate : Bool) (s : State),
      isLate (s.cfg.action a).direction (gapTo s (s.cfg.action a).axis (s.action a).lead (s.action a).next) (margin s (s.cfg.action a).axis ns) = true →
      (s.cfg.action a).policy = 3 →
      applyPolicy a ns afterLate s =
            skipAction a (gapTo s (s.cfg.action a).axis (s.action a).lead (s.action a).next) (margin s (s.cfg.action a).axis ns) s)
  ∧ (∀ (dt : Nat) (a : Fin 1024) (n : Nat) (s : State),
      let e := elapse dt s
      calendarRuns e = true →
      (e.action a).status = .armed →
      (e.action a).effectAt = some n →
      n ≤ e.clk.count →
      isDue (if (e.action a).fireLate then e.setAct a fun x => { x with effectAt := none }
            else noteSign a (e.setAct a fun x => { x with effectAt := none })) a = true →
      fireRoom (if (e.action a).fireLate then e.setAct a fun x => { x with effectAt := none }
            else noteSign a (e.setAct a fun x => { x with effectAt := none })) ≠ 0 →
      exec (.armEffect dt a) s = .next (finish (fireList [a] (if (e.action a).fireLate then e.setAct a fun x => { x with effectAt := none }
            else noteSign a (e.setAct a fun x => { x with effectAt := none })))))
  ∧ (∀ (dt : Nat) (a : Fin 1024) (n : Nat) (s : State),
      let e := elapse dt s
      calendarRuns e = true →
      (e.action a).status = .armed →
      (e.action a).effectAt = some n →
      n ≤ e.clk.count →
      isDue (if (e.action a).fireLate then e.setAct a fun x => { x with effectAt := none }
            else noteSign a (e.setAct a fun x => { x with effectAt := none })) a = true →
      fireRoom (if (e.action a).fireLate then e.setAct a fun x => { x with effectAt := none }
            else noteSign a (e.setAct a fun x => { x with effectAt := none })) = 0 →
      exec (.armEffect dt a) s = .next (finish (delayList [a] (if (e.action a).fireLate then e.setAct a fun x => { x with effectAt := none }
            else noteSign a (e.setAct a fun x => { x with effectAt := none })))))
  ∧ (∀ (dt : Nat) (a : Fin 1024) (n : Nat) (s : State),
      let e := elapse dt s
      calendarRuns e = true →
      (e.action a).status = .armed →
      (e.action a).effectAt = some n →
      n ≤ e.clk.count →
      isDue (if (e.action a).fireLate then e.setAct a fun x => { x with effectAt := none }
            else noteSign a (e.setAct a fun x => { x with effectAt := none })) a = false →
      exec (.armEffect dt a) s = .next (finish (if (e.action a).fireLate then e.setAct a fun x => { x with effectAt := none }
            else noteSign a (e.setAct a fun x => { x with effectAt := none }))))
  ∧ (∀ (dt : Nat) (r : Requester) (a : Fin 1024) (s : State),
      let e := elapse dt s
      Heard r (commandFrame r (addrWord 0x41 a 11) .u8 2) e →
      e.md.mode ≠ .safe →
      e.md.bootRom = false →
      actPending e a = true →
      exec (.disarm dt r a) s = .next (finish (commanded r (addrWord 0x41 a 11) .u8 2
          (endAction a .cancelled (counted e)))))
  ∧ (∀ (dt : Nat) (r : Requester) (arg : Nat) (s : State),
      let e := elapse dt s
      Heard r (commandFrame r (addrWord 0x41 2048 5) .u8 arg) e →
      e.md.mode ≠ .safe →
      e.md.bootRom = false →
      arg < 256 →
      exec (.disarmAll dt r arg) s = .next (finish (commanded r (addrWord 0x41 2048 5) .u8 arg
          ((actionsWhere e fun _ _ x => x.status == .armed || x.status == .suspended).foldl
            (fun u a => endAction a .cancelled u) (counted e)))))
  ∧ (∀ (dt : Nat) (r : Requester) (a : Fin 1024) (v : Nat) (s : State),
      let e := elapse dt s
      Heard r (writeFrame r (addrWord 0x41 a 0) .u8 v) e →
      e.md.mode ≠ .safe →
      e.md.bootRom = false →
      e.isFenced .calendar = false →
      actPending e a = false →
      v ≤ 7 →
      exec (.actionKindWrite dt r a v) s = .next (finish (written r (addrWord 0x41 a 0) .u8 (e.cfg.action a).kind v
          (writeActKind a v { counted e with cfg := { e.cfg with act := upd e.cfg.act a fun c => { c with kind := v } } }))))
  ∧ (∀ (a v : Nat) (s : State),
      (s.action a).status ≠ .fenced →
      v = 0 →
      writeActKind a v s = ({ s with cfg := { s.cfg with act := upd s.cfg.act a fun c => { c with kind := v } } } : State).setAct a fun x => { x with status := .empty })
  ∧ (∀ (a v : Nat) (s : State),
      (s.action a).status = .empty →
      v ≠ 0 →
      writeActKind a v s = ({ s with cfg := { s.cfg with act := upd s.cfg.act a fun c => { c with kind := v } } } : State).setAct a fun x => { x with status := .idle })
  ∧ (∀ (a v : Nat) (s : State),
      (s.action a).status ≠ .empty →
      v ≠ 0 →
      writeActKind a v s = ({ s with cfg := { s.cfg with act := upd s.cfg.act a fun c => { c with kind := v } } } : State))

/-- The actions due in a cycle fire in order of action number, with those delayed before, at most 64 in a cycle; the others due are delayed, counted in OVERRUNS with source 243, and fire in the next cycles. A firing in time has the effect of its KIND, counts, notes its instant, opens the frame of its servo slot, and the action is DONE after its last occurrence or moves on by PERIOD with a re-arm latency of 4 ns. A pulse and a timed window that have reached their ends end. -/
def Obligations.Firing : Prop :=
  (∀ (dt : Nat) (s : State),
      let e := elapse dt s
      calendarRuns e = true →
      ((List.range e.sc.act.length).filter fun a => isDue e a || isDelayed e a).length ≤ fireRoom e →
      exec (.actionFire dt) s = .next (finish (fireList ((List.range e.sc.act.length).filter fun a => isDue e a || isDelayed e a) e)))
  ∧ (∀ (dt : Nat) (s : State),
      let e := elapse dt s
      calendarRuns e = true →
      fireRoom e < ((List.range e.sc.act.length).filter fun a => isDue e a || isDelayed e a).length →
      exec (.actionFire dt) s = .next (finish (
            let l := (List.range e.sc.act.length).filter fun a => isDue e a || isDelayed e a
            delayList ((l.drop (fireRoom e)).filter (isDue e)) (fireList (l.take (fireRoom e)) e))))
  ∧ (∀ (dt : Nat) (s : State),
      let e := elapse dt s
      calendarRuns e = true →
      exec (.overrunFire dt) s = .next (finish (fireList (((List.range e.sc.act.length).filter (isDelayed e)).take (fireRoom e)) e)))
  ∧ (∀ (l : List Nat) (s : State),
      l ≠ [] →
      delayList l s = raise 243 (l.foldl (fun z a => z.setAct a fun x => { x with delayed := true, effectAt := some (s.clk.count + 1) })
            { s with sc := { s.sc with overruns := s.sc.overruns + l.length } }))
  ∧ (∀ (l : List Nat) (s : State),
      fireList l s = l.foldl (fun z a => fireAction a (z.action a).delayed z)
            { s with sc := { s.sc with firedAt := s.clk.count, fired := 64 - fireRoom s + l.length } })
  ∧ (∀ (s : State),
      fireRoom s = 64 - (if s.sc.firedAt = s.clk.count then s.sc.fired else 0))
  ∧ (∀ (a : Nat) (overrun : Bool) (s : State),
      (s.action a).fireLate = false →
      overrun = false →
      fireAction a overrun s = moveOn a false (openFrame a (s.action a).next ((actionEffect a false s).setAct a fun x =>
            { x with fires := x.fires + 1, lastFire := s.clk.count, lastFlags := 0#8 })))
  ∧ (∀ (a : Nat) (s : State),
      isDue s a = true ↔ (s.action a).status = .armed ∧ (s.action a).delayed = false ∧ (s.action a).effective s.clk.count = true ∧
            ((s.action a).fireLate = true ∨ crossed (s.cfg.action a).direction (gapTo s (s.cfg.action a).axis (s.action a).lead (s.action a).next) (s.action a).armSign = true))
  ∧ (∀ (d sign : Int),
      (crossed 0 d sign = true ↔ d ≤ 0) ∧ (crossed 1 d sign = true ↔ 0 ≤ d) ∧ (crossed 2 d sign = true ↔ d = 0 ∨ (d < 0 ∧ 0 < sign) ∨ (0 < d ∧ sign < 0)))
  ∧ (∀ (a : Nat) (late : Bool) (s : State),
      (s.cfg.action a).unbounded = false →
      (s.action a).remaining ≤ 1 →
      moveOn a late s = endAction a .done (s.setAct a fun x => { x with remaining := 0 }))
  ∧ (∀ (a : Nat) (late : Bool) (s : State),
      (s.cfg.action a).unbounded = false →
      1 < (s.action a).remaining →
      moveOn a late s = fireNext a (noteSign a (applyPolicy a 4 late (s.setAct a fun x =>
            { x with
              next := moveTarget (s.cfg.action a) x.next 1, remaining := x.remaining - 1, fireLate := false, delayed := false,
              effectAt := some (s.clk.count + 4), lead := leadOf s a }))))
  ∧ (∀ (c : CfgAct) (t : BitVec 64),
      moveTarget c t 1 = if c.direction = 1 then t - BitVec.ofNat 64 c.period else t + BitVec.ofNat 64 c.period)
  ∧ (∀ (dt : Nat) (n : Fin 48) (m : Nat) (s : State),
      let e := elapse dt s
      (e.trg n).pulseEnd = some m →
      m ≤ e.clk.count →
      exec (.pulseEnd dt n) s = .next (finish (e.setTrg n fun t =>
              { t with pulseEnd := none, pulsePassed := false, pin := t.latch && t.latchPassed })))
  ∧ (∀ (dt : Nat) (n : Fin 48) (m : Nat) (s : State),
      let e := elapse dt s
      (e.trg n).pulseEnd = some m →
      e.clk.count < m →
      exec (.pulseEnd dt n) s = .next (finish (e)))
  ∧ (∀ (dt : Nat) (n : Fin 64) (m : Nat) (s : State),
      let e := elapse dt s
      (e.window n).ends = some m →
      m ≤ e.clk.count →
      exec (.windowEnd dt n) s = .next (finish (e.setWin n (Win.go m false none))))

/-- For a FORWARD or a BACKWARD action with a period, the number of periods that SKIP takes from a late target with distance D and margin Λ leaves a target that is not late, and every smaller number leaves it late. -/
def Obligations.SkipsAreFewest : Prop :=
  (∀ (d : Int) (lam : Rat) (period : Nat),
      0 < period →
      isLate 0 d lam = true →
      let k := skipCount 0 d lam period
      isLate 0 (d + period * k) lam = false ∧ ∀ j : Nat, j < k → isLate 0 (d + period * j) lam = true)
  ∧ (∀ (d : Int) (lam : Rat) (period : Nat),
      0 < period →
      isLate 1 d lam = true →
      let k := skipCount 1 d lam period
      isLate 1 (d - period * k) lam = false ∧ ∀ j : Nat, j < k → isLate 1 (d - period * j) lam = true)

/-- A slot may be enabled while its action is a PULSE that no other enabled slot has, its strobe input stamps both edges, and LEAD_INIT lies between LEAD_MIN and LEAD_MAX; its counters restart and its lead, with that of its action, becomes LEAD_INIT. Disabled, its lead and its action's become 0 and its open frames are dropped. Each frame whose awaited edge has not come in time leaves the slot and is a miss, with source 246. -/
def Obligations.ServoSlots : Prop :=
  (∀ (dt : Nat) (r : Requester) (k : Fin 48) (s : State),
      let e := elapse dt s
      Heard r (writeFrame r (addrWord 0x41 (2050 + k) 0) .u8 1) e →
      e.md.mode ≠ .safe →
      e.md.bootRom = false →
      (e.cfg.slot k).enable ≠ 1 →
      k.val < e.cfg.servo.length →
      servoMayEnable { e with cfg := { e.cfg with servo := upd e.cfg.servo k fun c => { c with enable := 1 } } } k = true →
      exec (.servoEnable dt r k 1) s = .next (finish (written r (addrWord 0x41 (2050 + k) 0) .u8 (e.cfg.slot k).enable 1
          (setLead k (e.cfg.slot k).leadInit (({ counted e with cfg := { e.cfg with servo := upd e.cfg.servo k fun c => { c with enable := 1 } } }).setServo k fun _ => Servo.reset)))))
  ∧ (∀ (dt : Nat) (r : Requester) (k : Fin 48) (s : State),
      let e := elapse dt s
      Heard r (writeFrame r (addrWord 0x41 (2050 + k) 0) .u8 0) e →
      e.md.mode ≠ .safe →
      e.md.bootRom = false →
      (e.cfg.slot k).enable ≠ 0 →
      exec (.servoEnable dt r k 0) s = .next (finish (written r (addrWord 0x41 (2050 + k) 0) .u8 (e.cfg.slot k).enable 0
          (setLead k 0 (({ counted e with cfg := { e.cfg with servo := upd e.cfg.servo k fun c => { c with enable := 0 } } }).setServo k fun x => { x with live := [] })))))
  ∧ (∀ (dt : Nat) (k : Fin 48) (s : State),
      let e := elapse dt s
      exec (.strobeWindowExpiry dt k) s = .next (finish (((e.servo k).live.filter fun fr => fr.overdue (e.cfg.slot k) e.clk.count).foldl (fun z _ => servoMiss k z)
            (e.setServo k fun v => { v with live := (e.servo k).live.filter fun fr => !fr.overdue (e.cfg.slot k) e.clk.count }))))
  ∧ (∀ (k : Nat) (s : State),
      servoMiss k s = raise 246 (s.setServo k fun v => { v with misses := v.misses + 1 }))
  ∧ (∀ (c : CfgServo) (now : Nat) (a : Rat) (fr : SvFrame),
      fr.s = some a →
      fr.f = none →
      fr.overdue c now = decide (a + c.maxExposure ≤ now) ∧ { fr with s := none }.overdue c now = decide (fr.fire + c.strobeWindow ≤ now) ∧
            { fr with f := some a }.overdue c now = false)
  ∧ (∀ (k l : Nat) (s : State),
      setLead k l s = (s.setServo k fun v => { v with lead := l }).setAct (s.cfg.slot k).action fun x => { x with lead := l })

/-- Where every segment of a BLOB write is heard, no transfer of that BLOB is open and the image passes its check, the write ends with OK: the image is loaded as a whole, the requests counted, nothing else of the transfer left, and the journal holds the length and CRC-32 of the old and of the new image. No bytes erase the BLOB. A firmware image goes to the inactive slot, which then is valid with the version of the image. The clauses name the kept responses c and the frames x sent for the segments before. -/
def Obligations.BlobWrites : Prop :=
  (∀ (dt : Nat) (r : Requester) (image : List Byte) (s : State),
      let e := elapse dt s
      BlobHeard r (addrWord 18 2 0) image e →
      e.md.mode ≠ .safe →
      e.md.bootRom = false →
      BlobFree (addrWord 18 2 0) e →
      modelAccepted e image = true →
      e.runs 1 = true →
      ∃ c x, exec (.modelWrite dt r image) s = .next (finish (blobWritten r (addrWord 18 2 0) (modelImage e) image
          (writeModel image
            { e with dop := { e.dop with requests := e.dop.requests + (blobEnd r image + 1), cache := c }, tx := x }))))
  ∧ (∀ (dt : Nat) (r : Requester) (image : List Byte) (s : State),
      let e := elapse dt s
      BlobHeard r (addrWord 19 30 0) image e →
      e.md.mode ≠ .safe →
      e.md.bootRom = false →
      BlobFree (addrWord 19 30 0) e →
      (readCards e image).isSome = true →
      ∃ c x, exec (.cardsWrite dt r image) s = .next (finish (blobWritten r (addrWord 19 30 0) (cardsImage e) image
          (writeCards image
            { e with dop := { e.dop with requests := e.dop.requests + (blobEnd r image + 1), cache := c }, tx := x }))))
  ∧ (∀ (dt : Nat) (r : Requester) (image : List Byte) (s : State),
      let e := elapse dt s
      BlobHeard r (addrWord 65 2048 0) image e →
      e.md.mode ≠ .safe →
      e.md.bootRom = false →
      BlobFree (addrWord 65 2048 0) e →
      calendarStatus e image = 0 →
      ∃ c x, exec (.calendarWrite dt r image) s = .next (finish (blobWritten r (addrWord 65 2048 0) (calendarImage e) image
          (writeCalendar image
            { e with dop := { e.dop with requests := e.dop.requests + (blobEnd r image + 1), cache := c }, tx := x }))))
  ∧ (∀ (dt : Nat) (r : Requester) (image : List Byte) (s : State),
      let e := elapse dt s
      BlobHeard r firmwareAddress image e →
      e.md.mode ≠ .safe →
      e.md.bootRom = false →
      BlobFree firmwareAddress e →
      image ≠ [] →
      firmwareOk image = true →
      e.pwr.pfail = false →
      ∃ c x, exec (.firmwareWrite dt r image) s = .next (finish (blobWritten r firmwareAddress ((nth e.nv.slots (inactiveSlot e) FwSlot.reset).image) image
          (raise 254 (setSlot (fun _ => { state := 1, version := fieldOf image 4 4, image := image })
            { openFirmware e with dop := { e.dop with requests := e.dop.requests + (blobEnd r image + 1), cache := c }, tx := x })))))
  ∧ (∀ (dt : Nat) (r : Requester) (s : State),
      let e := elapse dt s
      BlobHeard r firmwareAddress [] e →
      e.md.mode ≠ .safe →
      e.md.bootRom = false →
      BlobFree firmwareAddress e →
      e.pwr.pfail = false →
      exec (.firmwareWrite dt r []) s = .next (finish (blobWritten r firmwareAddress (nth e.nv.slots (inactiveSlot e) FwSlot.reset).image []
          (raise 254 (setSlot (fun _ => FwSlot.reset) (counted e))))))

/-- A heard READ of an element that is no command and no BLOB is answered with OK and the element's value as its type encodes it. A heard WRITE of a writable element outside SAFE, of the element's length, whose mode test and checks pass and which the MGT core serves itself or through a running core, takes effect with the configuration that holds the value, is journalled with the old and the new value, and is answered with OK. -/
def Obligations.ReadsAndWrites : Prop :=
  (∀ (dt : Nat) (r : Requester) (f : Frame) (o : Obj) (el : Elem) (s : State),
      let e := elapse dt s
      Heard r f e →
      objectAt (counted e) (areaOf f.address) (objectOf f.address) = some o →
      o.find (elementOf f.address) = some el →
      f.opcode = 1 →
      f.segFlag = false →
      f.length = 0 →
      el.acc ≠ .cmd →
      el.ty ≠ .blob →
      exec (.read dt r f) s = .next (finish (answer r f 1 stOk (el.ty.encode (el.get (counted e))) (counted e))))
  ∧ (∀ (dt : Nat) (r : Requester) (f : Frame) (o : Obj) (el : Elem) (s : State),
      let e := elapse dt s
      Heard r f e →
      objectAt (counted e) (areaOf f.address) (objectOf f.address) = some o →
      o.find (elementOf f.address) = some el →
      f.opcode = 2 →
      e.md.mode ≠ .safe →
      f.segFlag = false →
      f.length = el.ty.size →
      el.ty ≠ .blob →
      (el.acc = .rw ∨ el.acc = .rws ∨ el.acc = .seal) →
      modeStatus (counted e) el.acc = 0 →
      (el.via = 0 ∨ e.runs el.via = true) →
      checkOne o el (el.ty.decode (f.payload.take f.length)) (counted e) = 0 →
      exec (.write dt r f) s = .next (finish (
            let v := el.ty.decode (f.payload.take f.length)
            answer r f 1 stOk [] (record (requestRecord r 0 2 (elementAddress f.address el.no) el.ty.code el.ty.size
                (rightAlign (el.ty.encode (el.get (counted e)))) (rightAlign (el.ty.encode v)))
              (el.after (counted e) v { counted e with cfg := el.put v e.cfg })))))

/-- Segment 0 of a read takes a snapshot and answers its first S bytes; the same or the next segment answers its own bytes, and one beyond the data is empty and releases the snapshot. Segment 0 of a write with data opens a transfer; the segment one above the last adds its data; the end segment of a block of elements whose data end on an element, with every mode test and check passed, applies and journals them as one write. -/
def Obligations.Blocks : Prop :=
  (∀ (dt : Nat) (r : Requester) (f : Frame) (o : Obj) (el : Elem) (s : State),
      let e := elapse dt s
      Heard r f e →
      objectAt (counted e) (areaOf f.address) (objectOf f.address) = some o →
      o.find (elementOf f.address) = some el →
      f.opcode = 3 →
      f.segFlag = true →
      el.acc ≠ .cmd →
      f.segment = 0 →
      (e.dop.rx.filter fun y => !y.sameKey r (plainAddress f.address)).length < 4 →
      (readouts.contains (plainAddress f.address) && (e.dop.rx.filter fun y => !y.sameKey r (plainAddress f.address)).any fun y => readouts.contains y.address) = false →
      exec (.readBlock dt r f) s = .next (finish (
            let data := if el.ty = .blob then el.image (counted e) else blockImage o el (counted e)
            let others := e.dop.rx.filter fun y => !y.sameKey r (plainAddress f.address)
            let x : RXfer :=
              { iface := ifaceClass r.iface, source := r.source, sport := r.sport, address := (plainAddress f.address), lastSeg := 0, atNs := e.clk.count, data := data }
            answer r f 1 stOk (data.take (segmentSize r.iface)) { counted e with
              dop := { (counted e).dop with rx := if (data.take (segmentSize r.iface)).isEmpty then others else others ++ [x] } })))
  ∧ (∀ (dt : Nat) (r : Requester) (f : Frame) (o : Obj) (el : Elem) (x : RXfer) (s : State),
      let e := elapse dt s
      Heard r f e →
      objectAt (counted e) (areaOf f.address) (objectOf f.address) = some o →
      o.find (elementOf f.address) = some el →
      f.opcode = 3 →
      f.segFlag = true →
      el.acc ≠ .cmd →
      f.segment ≠ 0 →
      e.dop.rx.find? (fun y => y.sameKey r (plainAddress f.address)) = some x →
      (f.segment = x.lastSeg ∨ f.segment = x.lastSeg + 1) →
      exec (.readBlock dt r f) s = .next (finish (
            let chunk := (x.data.drop (f.segment * segmentSize r.iface)).take (segmentSize r.iface)
            let others := e.dop.rx.filter fun y => !y.sameKey r x.address
            answer r f 1 stOk chunk { counted e with
              dop := { (counted e).dop with
                rx := if chunk.isEmpty then others else others ++ [{ x with lastSeg := f.segment, atNs := e.clk.count }] } })))
  ∧ (∀ (dt : Nat) (r : Requester) (f : Frame) (o : Obj) (el : Elem) (s : State),
      let e := elapse dt s
      Heard r f e →
      objectAt (counted e) (areaOf f.address) (objectOf f.address) = some o →
      o.find (elementOf f.address) = some el →
      f.opcode = 4 →
      e.md.mode ≠ .safe →
      f.segFlag = true →
      (el.acc = .rw ∨ el.acc = .rws ∨ el.acc = .seal) →
      modeStatus (counted e) el.acc = 0 →
      f.segment = 0 →
      (f.payload.take f.length).isEmpty = false →
      openRefused r (plainAddress f.address) el (counted e) = 0 →
      el.opening (counted e) = 0 →
      e.dop.wx.any (fun x => x.sameKey r (plainAddress f.address)) = false →
      exec (.writeBlock dt r f) s = .next (finish (
            let x : WXfer :=
              { iface := ifaceClass r.iface, source := r.source, sport := r.sport, address := (plainAddress f.address), lastSeg := 0, atNs := e.clk.count,
                data := f.payload.take f.length }
            answer r f 1 stOk [] (el.opened { counted e with dop := { (counted e).dop with wx := e.dop.wx ++ [x] } }))))
  ∧ (∀ (dt : Nat) (r : Requester) (f : Frame) (o : Obj) (el : Elem) (x : WXfer) (s : State),
      let e := elapse dt s
      Heard r f e →
      objectAt (counted e) (areaOf f.address) (objectOf f.address) = some o →
      o.find (elementOf f.address) = some el →
      f.opcode = 4 →
      e.md.mode ≠ .safe →
      f.segFlag = true →
      (el.acc = .rw ∨ el.acc = .rws ∨ el.acc = .seal) →
      modeStatus (counted e) el.acc = 0 →
      f.segment = x.lastSeg + 1 →
      (f.payload.take f.length).isEmpty = false →
      el.opening (counted e) = 0 →
      e.dop.wx.find? (fun x => x.sameKey r (plainAddress f.address)) = some x →
      exec (.writeBlock dt r f) s = .next (finish (
            let x' := { x with lastSeg := f.segment, atNs := e.clk.count, data := x.data ++ f.payload.take f.length }
            answer r f 1 stOk [] { counted e with
              dop := { (counted e).dop with wx := e.dop.wx.map fun y => if y.sameKey r (plainAddress f.address) then x' else y } })))
  ∧ (∀ (dt : Nat) (r : Requester) (f : Frame) (o : Obj) (el : Elem) (x : WXfer) (vs : List (Elem × Int)) (cs : List Elem) (s : State),
      let e := elapse dt s
      Heard r f e →
      objectAt (counted e) (areaOf f.address) (objectOf f.address) = some o →
      o.find (elementOf f.address) = some el →
      f.opcode = 4 →
      e.md.mode ≠ .safe →
      f.segFlag = true →
      (el.acc = .rw ∨ el.acc = .rws ∨ el.acc = .seal) →
      modeStatus (counted e) el.acc = 0 →
      f.segment = x.lastSeg + 1 →
      (f.payload.take f.length).isEmpty = true →
      el.opening (counted e) = 0 →
      e.dop.wx.find? (fun x => x.sameKey r (plainAddress f.address)) = some x →
      el.ty ≠ .blob →
      splitBlock (o.els.dropWhile fun y => y.no != el.no) x.data = (vs, cs, true) →
      x.data.isEmpty = false →
      (cs.any fun y => y.ty == .blob || y.acc == .cmd || y.acc == .ro) = false →
      cs.foldl (fun st y => orElse st (modeStatus (counted e) y.acc)) stOk = 0 →
      (el.via = 0 ∨ e.runs el.via = true) →
      checkBlock o vs (endWrite r (plainAddress f.address) (counted e)) = 0 →
      exec (.writeBlock dt r f) s = .next (finish (
            let u := endWrite r (plainAddress f.address) (counted e)
            answer r f 1 stOk [] (journalWrite r f vs u (applyWrite vs u)))))

/-- A SUBSCRIBE to event messages from a key that has none joins as one of at most eight, with its mask and lease; from a key that has one it replaces the mask and restarts the lease; with LEASE 0 it leaves. A SUBSCRIBE to the capture stream over Ethernet opens the one stream and empties the ring; from the key that holds it, it restarts the lease without reopening; with LEASE 0 it closes it. A lease that has ended closes its subscription or the stream. SUBSCRIBE is served in SAFE too. -/
def Obligations.Subscriptions : Prop :=
  (∀ (dt : Nat) (r : Requester) (f : Frame) (o : Obj) (el : Elem) (s : State),
      let e := elapse dt s
      Heard r f e →
      objectAt (counted e) (areaOf f.address) (objectOf f.address) = some o →
      o.find (elementOf f.address) = some el →
      f.opcode = 6 →
      plainAddress f.address = eventAddress →
      f.segFlag = false →
      f.length = 34 →
      bytesNat ((f.payload.take f.length).take 2) ≠ 0 →
      bytesNat ((f.payload.take f.length).take 2) ≤ 3600 →
      (e.dop.subs.filter fun x => !x.sameKey r).length < 8 →
      e.dop.subs.find? (fun x => x.sameKey r) = none →
      exec (.subscribe dt r f) s = .next (finish (
            let x : Sub :=
              { req := r, mask := BitVec.ofNat 256 (bytesNat ((f.payload.take f.length).drop 2)), ends := e.clk.count + bytesNat ((f.payload.take f.length).take 2) * 1000000000, seq := 0 }
            answer r f 1 stOk [] { counted e with dop := { (counted e).dop with subs := e.dop.subs ++ [x] } })))
  ∧ (∀ (dt : Nat) (r : Requester) (f : Frame) (o : Obj) (el : Elem) (s : State),
      let e := elapse dt s
      Heard r f e →
      objectAt (counted e) (areaOf f.address) (objectOf f.address) = some o →
      o.find (elementOf f.address) = some el →
      f.opcode = 6 →
      plainAddress f.address = eventAddress →
      f.segFlag = false →
      f.length = 34 →
      bytesNat ((f.payload.take f.length).take 2) ≠ 0 →
      bytesNat ((f.payload.take f.length).take 2) ≤ 3600 →
      (e.dop.subs.filter fun x => !x.sameKey r).length < 8 →
      (e.dop.subs.find? (fun x => x.sameKey r)).isSome = true →
      exec (.subscribe dt r f) s = .next (finish (
            let x := (e.dop.subs.find? (fun x => x.sameKey r)).getD { req := r, mask := 0, ends := 0, seq := 0 }
            let x' : Sub :=
              { x with
                req := r, mask := BitVec.ofNat 256 (bytesNat ((f.payload.take f.length).drop 2)), ends := e.clk.count + bytesNat ((f.payload.take f.length).take 2) * 1000000000 }
            answer r f 1 stOk [] { counted e with
              dop := { (counted e).dop with subs := e.dop.subs.map fun y => if y.sameKey r then x' else y } })))
  ∧ (∀ (dt : Nat) (r : Requester) (f : Frame) (o : Obj) (el : Elem) (s : State),
      let e := elapse dt s
      Heard r f e →
      objectAt (counted e) (areaOf f.address) (objectOf f.address) = some o →
      o.find (elementOf f.address) = some el →
      f.opcode = 6 →
      plainAddress f.address = eventAddress →
      f.segFlag = false →
      f.length = 34 →
      bytesNat ((f.payload.take f.length).take 2) = 0 →
      exec (.subscribe dt r f) s = .next (finish (answer r f 1 stOk [] { counted e with
              dop := { (counted e).dop with subs := (e.dop.subs.filter fun x => !x.sameKey r) } })))
  ∧ (∀ (dt : Nat) (r : Requester) (f : Frame) (o : Obj) (el : Elem) (s : State),
      let e := elapse dt s
      Heard r f e →
      objectAt (counted e) (areaOf f.address) (objectOf f.address) = some o →
      o.find (elementOf f.address) = some el →
      f.opcode = 6 →
      plainAddress f.address = streamAddress →
      f.segFlag = false →
      f.length = 2 →
      onCan r.iface = false →
      e.isFenced .streamer = false →
      bytesNat ((f.payload.take f.length).take 2) ≠ 0 →
      bytesNat ((f.payload.take f.length).take 2) ≤ 3600 →
      e.ts.stream = none →
      exec (.subscribe dt r f) s = .next (finish (
            let x : Stream :=
              { iface := r.iface, source := r.source, sport := r.sport, mac := r.mac, version := r.version,
                ends := e.clk.count + bytesNat ((f.payload.take f.length).take 2) * 1000000000, seq := 0 }
            answer r f 1 stOk [] { counted e with ts := e.ts.openStream e.clk.count e.tb x })))
  ∧ (∀ (dt : Nat) (r : Requester) (f : Frame) (o : Obj) (el : Elem) (s : State),
      let e := elapse dt s
      Heard r f e →
      objectAt (counted e) (areaOf f.address) (objectOf f.address) = some o →
      o.find (elementOf f.address) = some el →
      f.opcode = 6 →
      plainAddress f.address = streamAddress →
      f.segFlag = false →
      f.length = 2 →
      onCan r.iface = false →
      e.isFenced .streamer = false →
      bytesNat ((f.payload.take f.length).take 2) ≠ 0 →
      bytesNat ((f.payload.take f.length).take 2) ≤ 3600 →
      (e.ts.stream.any fun x => x.sameKey r) = true →
      exec (.subscribe dt r f) s = .next (finish (
            let x : Stream :=
              { iface := r.iface, source := r.source, sport := r.sport, mac := r.mac, version := r.version,
                ends := e.clk.count + bytesNat ((f.payload.take f.length).take 2) * 1000000000, seq := (e.ts.stream.getD Stream.reset).seq }
            answer r f 1 stOk [] { counted e with ts := { e.ts with stream := some x } })))
  ∧ (∀ (dt : Nat) (r : Requester) (f : Frame) (o : Obj) (el : Elem) (s : State),
      let e := elapse dt s
      Heard r f e →
      objectAt (counted e) (areaOf f.address) (objectOf f.address) = some o →
      o.find (elementOf f.address) = some el →
      f.opcode = 6 →
      plainAddress f.address = streamAddress →
      f.segFlag = false →
      f.length = 2 →
      onCan r.iface = false →
      e.isFenced .streamer = false →
      bytesNat ((f.payload.take f.length).take 2) = 0 →
      (e.ts.stream.any fun x => x.sameKey r) = true →
      exec (.subscribe dt r f) s = .next (finish (answer r f 1 stOk [] { counted e with ts := e.ts.closeStream })))
  ∧ (∀ (dt : Nat) (s : State),
      let e := elapse dt s
      (e.ts.stream.any fun x => decide (x.ends ≤ e.clk.count)) = true →
      exec (.leaseExpiry dt) s = .next (finish ({ e with
              dop := { e.dop with subs := e.dop.subs.filter fun x => decide (e.clk.count < x.ends) },
              ts := e.ts.closeStream })))
  ∧ (∀ (dt : Nat) (s : State),
      let e := elapse dt s
      (e.ts.stream.any fun x => decide (x.ends ≤ e.clk.count)) = false →
      exec (.leaseExpiry dt) s = .next (finish ({ e with
              dop := { e.dop with subs := e.dop.subs.filter fun x => decide (e.clk.count < x.ends) } })))
  ∧ (∀ (dt : Nat) (s : State),
      let e := elapse dt s
      (e.dop.wx.any fun x => decide (x.atNs + 5000000000 ≤ e.clk.count) && x.address == firmwareAddress) = false →
      exec (.transferTimeout dt) s = .next (finish ({ e with
              dop := { e.dop with
                wx := e.dop.wx.filter fun x => !(decide (x.atNs + 5000000000 ≤ e.clk.count)),
                rx := e.dop.rx.filter fun x => !(decide (x.atNs + 5000000000 ≤ e.clk.count)) } })))
  ∧ (∀ (dt : Nat) (s : State),
      let e := elapse dt s
      (e.dop.wx.any fun x => decide (x.atNs + 5000000000 ≤ e.clk.count) && x.address == firmwareAddress) = true →
      exec (.transferTimeout dt) s = .next (finish (raise 254 (dropFirmware { e with
              dop := { e.dop with
                wx := e.dop.wx.filter fun x => !(decide (x.atNs + 5000000000 ≤ e.clk.count)),
                rx := e.dop.rx.filter fun x => !(decide (x.atNs + 5000000000 ≤ e.clk.count)) } }))))

/-- STORE and ERASE_CONFIG with their arguments are accepted where no store, no FIRMWARE write and no PFAIL stands, and begin; while the MGT core runs, a completed store overwrites the older or an invalid copy with the next sequence number, an erase both copies with the factory defaults; an interrupted or failed one loses the copy it was overwriting; each raises source 254. ACTIVATE names a valid slot for the next start. A flush puts every journal record in NV; a refresh pass notes the blocks that could not be rewritten and raises source 254. -/
def Obligations.StoreAndJournal : Prop :=
  (∀ (dt : Nat) (r : Requester) (s : State),
      let e := elapse dt s
      Heard r (commandFrame r (addrWord 0x50 0 0) .u8 0) e →
      e.md.mode ≠ .safe →
      e.md.bootRom = false →
      e.nvc.storeOp = none →
      firmwareOpen e = false →
      e.pwr.pfail = false →
      exec (.store dt r 0) s = .next (finish (commanded r (addrWord 0x50 0 0) .u8 0
          ({ counted e with nvc := { e.nvc with storeState := 1, storeOp := some (false, e.cfg) } }))))
  ∧ (∀ (dt : Nat) (r : Requester) (s : State),
      let e := elapse dt s
      Heard r (commandFrame r (addrWord 0x50 0 1) .u8 0xA5) e →
      e.md.mode ≠ .safe →
      e.md.bootRom = false →
      e.nvc.storeOp = none →
      firmwareOpen e = false →
      e.pwr.pfail = false →
      exec (.eraseConfig dt r 0xA5) s = .next (finish (commanded r (addrWord 0x50 0 1) .u8 0xA5
          ({ counted e with nvc := { e.nvc with storeState := 1, storeOp := some (true, Cfg.reset) } }))))
  ∧ (∀ (dt : Nat) (r : Requester) (arg : Nat) (s : State),
      let e := elapse dt s
      Heard r (commandFrame r (addrWord 0x50 10 5) .u8 arg) e →
      e.md.mode ≠ .safe →
      e.md.bootRom = false →
      arg < 2 →
      (nth e.nv.slots arg FwSlot.reset).state = 1 →
      exec (.activate dt r arg) s = .next (finish (commanded r (addrWord 0x50 10 5) .u8 arg
          ({ counted e with nv := { e.nv with nextSlot := arg } }))))
  ∧ (∀ (dt : Nat) (erase : Bool) (c : Cfg) (s : State),
      let e := elapse dt s
      e.runs 0 = true →
      e.nvc.storeOp = some (erase, c) →
      exec (.storeComplete dt .done) s = .next (finish (raise 254 { e with
              nv := { writeCopies erase c e.nv with storeCount := e.nv.storeCount + 1 },
              nvc := { e.nvc with storeOp := none, storeState := 2, lastStore := e.clk.count } })))
  ∧ (∀ (dt : Nat) (erase : Bool) (c : Cfg) (s : State),
      let e := elapse dt s
      e.runs 0 = true →
      e.nvc.storeOp = some (erase, c) →
      exec (.storeComplete dt .interrupted) s = .next (finish (raise 254 { e with nv := spoilTarget e.nv, nvc := { e.nvc with storeOp := none, storeState := 3 } })))
  ∧ (∀ (dt : Nat) (erase : Bool) (c : Cfg) (s : State),
      let e := elapse dt s
      e.runs 0 = true →
      e.nvc.storeOp = some (erase, c) →
      exec (.storeComplete dt .failed) s = .next (finish (raise 254 { e with nv := spoilTarget e.nv, nvc := { e.nvc with storeOp := none, storeState := 4 } })))
  ∧ (∀ (dt : Nat) (end_ : StoreEnd) (s : State),
      let e := elapse dt s
      e.runs 0 = false →
      exec (.storeComplete dt end_) s = .next (finish (e)))
  ∧ (∀ (c : Cfg) (nv : Nv),
      let new : CfgCopy := { valid := true, seq := configSequence nv + 1, cfg := c }
      writeCopies true c nv = { nv with copyA := new, copyB := new } ∧
            (nv.copyA.valid = false → writeCopies false c nv = { nv with copyA := new }) ∧
            (nv.copyA.valid = true → nv.copyB.valid = false → writeCopies false c nv = { nv with copyB := new }) ∧
            (nv.copyA.valid = true → nv.copyB.valid = true →
              writeCopies false c nv = if nv.copyA.seq ≤ nv.copyB.seq then { nv with copyA := new } else { nv with copyB := new }))
  ∧ (∀ (dt : Nat) (s : State),
      let e := elapse dt s
      e.runs 0 = true →
      exec (.journalFlush dt) s = .next (finish ({ e with
              nv := { e.nv with journal := e.jr.recs, nextIndex := e.jr.next }, jr := { e.jr with unflushed := 0 } })))
  ∧ (∀ (dt : Nat) (due failed spare erase : Nat) (s : State),
      let e := elapse dt s
      e.runs 0 = true →
      exec (.nvRefresh dt due failed spare erase) s = .next (finish (raise 254 { e with
              nv := { e.nv with lastRefresh := ageNow e, spareBlocks := spare, eraseMax := erase },
              nvc := { e.nvc with refreshDue := min due failed, attention := decide (0 < failed) || decide (spare < 64) } })))

/-- While the MGT core serves DOP, a linked port answers an ARP request and an ICMP echo request for the address in use, and nothing else changes; for another address it does not answer. -/
def Obligations.Ipv4Replies : Prop :=
  (∀ (dt : Nat) (port : Fin 14) (target mac ip : Nat) (s : State),
      let e := elapse dt s
      dopUp e = true →
      (e.port port).link = true →
      target = e.dop.addressInUse →
      exec (.arpRequest dt port target mac ip) s = .next (finish (send (.arp port mac ip) e)))
  ∧ (∀ (dt : Nat) (port : Fin 14) (target mac ip : Nat) (s : State),
      let e := elapse dt s
      target ≠ e.dop.addressInUse →
      exec (.arpRequest dt port target mac ip) s = .next (finish (e)))
  ∧ (∀ (dt : Nat) (port : Fin 14) (target mac ip : Nat) (payload : List Byte) (s : State),
      let e := elapse dt s
      dopUp e = true →
      (e.port port).link = true →
      target = e.dop.addressInUse →
      exec (.icmpEcho dt port target mac ip payload) s = .next (finish (send (.icmp port mac ip payload) e)))
  ∧ (∀ (dt : Nat) (port : Fin 14) (target mac ip : Nat) (payload : List Byte) (s : State),
      let e := elapse dt s
      target ≠ e.dop.addressInUse →
      exec (.icmpEcho dt port target mac ip payload) s = .next (finish (e)))
end

