-- ==== Sys2Proof/Laws/Requests.lean ====
section
/-! SUPPORT. What a heard request does: one lemma for a WRITE of one element, one for a COMMAND, one for any frame. -/

namespace Sys2Proof.Machine

/-! ## Bytes and numbers (R13, R413) -/

theorem natBytes_length (n v : Nat) : (natBytes n v).length = n := by
  induction n with
  | zero => rfl
  | succ n ih => simp [natBytes, ih]

/-- Reading back the bytes of a number gives the number modulo its width, with what was read before above it. -/
theorem bytesNat_natBytes_from (n v a : Nat) :
    (natBytes n v).foldl (fun a b => a * 256 + b.toNat) a = a * 256 ^ n + v % 256 ^ n := by
  induction n generalizing a with
  | zero => simp [natBytes, Nat.mod_one]
  | succ n ih =>
    have h : v / 256 ^ n % 256 * 256 ^ n + v % 256 ^ n = v % 256 ^ (n + 1) := by
      rw [Nat.pow_succ, Nat.mod_mul, Nat.mul_comm (256 ^ n), Nat.add_comm]
    simp only [natBytes, List.foldl_cons, ih, BitVec.toNat_ofNat]
    rw [← h, show (2 : Nat) ^ 8 = 256 from rfl, Nat.pow_succ]
    ring

theorem bytesNat_natBytes (n v : Nat) : bytesNat (natBytes n v) = v % 256 ^ n := by
  simpa [bytesNat] using bytesNat_natBytes_from n v 0

/-- An unsigned value that fits is read back. -/
theorem decode_unsigned (ty : ElTy) (v : Int) (h : ty.signed = false) (h0 : 0 ≤ v) (h1 : v < (256 ^ ty.size : Nat)) :
    ty.decode (intBytes ty.size v) = v := by
  simp only [ElTy.decode, h, intBytes, bytesNat_natBytes]
  rw [Int.emod_eq_of_lt h0 h1, Nat.mod_eq_of_lt (by omega)]
  simpa using h0

/-- A signed value that fits is read back. -/
theorem decode_signed (ty : ElTy) (v : Int) (hs : ty.signed = true) (h0 : -((256 ^ ty.size / 2 : Nat) : Int) ≤ v)
    (h1 : v < ((256 ^ ty.size / 2 : Nat) : Int)) : ty.decode (intBytes ty.size v) = v := by
  have hw : 256 ^ ty.size / 2 * 2 = 256 ^ ty.size := by
    cases ty <;> first | rfl | simp [ElTy.signed] at hs
  simp only [ElTy.decode, hs, intBytes, bytesNat_natBytes, toSigned, if_true]
  generalize 256 ^ ty.size = w at *
  generalize hh : w / 2 = k at *
  have hm : (v % (w : Int)).toNat % w = (v % (w : Int)).toNat := by
    apply Nat.mod_eq_of_lt
    have := Int.emod_lt_of_pos v (show (0 : Int) < w by omega)
    have := Int.emod_nonneg v (show (w : Int) ≠ 0 by omega)
    omega
  rw [hm]
  by_cases hv : 0 ≤ v
  · have : v % (w : Int) = v := Int.emod_eq_of_lt hv (by omega)
    rw [this, if_pos (by omega)]
    omega
  · have : v % (w : Int) = v + w := by
      rw [← Int.add_emod_right, Int.emod_eq_of_lt (by omega) (by omega)]
    rw [this, if_neg (by omega)]
    omega

@[simp] theorem mkFrame_payload (r : Requester) (o a : Nat) (g : Option Nat) (p : List Byte) : (mkFrame r o a g p).payload = p := rfl
@[simp] theorem mkFrame_opcode (r : Requester) (o a : Nat) (g : Option Nat) (p : List Byte) : (mkFrame r o a g p).opcode = o := rfl
@[simp] theorem mkFrame_address (r : Requester) (o a : Nat) (g : Option Nat) (p : List Byte) : (mkFrame r o a g p).address = a := rfl
@[simp] theorem mkFrame_segFlag (r : Requester) (o a : Nat) (g : Option Nat) (p : List Byte) :
    (mkFrame r o a g p).segFlag = g.isSome := rfl
@[simp] theorem mkFrame_segment (r : Requester) (o a : Nat) (g : Option Nat) (p : List Byte) :
    (mkFrame r o a g p).segment = g.getD 0 := rfl
@[simp] theorem mkFrame_length (r : Requester) (o a : Nat) (g : Option Nat) (p : List Byte) :
    (mkFrame r o a g p).length = p.length := rfl

/-! ## Address words (R412) -/

theorem areaOf_addrWord (a o e : Nat) (ha : a < 256) (ho : o < 4096) (he : e < 256) : areaOf (addrWord a o e) = a := by
  simp only [areaOf, addrWord]; omega
theorem objectOf_addrWord (a o e : Nat) (ho : o < 4096) (he : e < 256) : objectOf (addrWord a o e) = o := by
  simp only [objectOf, addrWord]; omega
theorem elementOf_addrWord (a o e : Nat) (he : e < 256) : elementOf (addrWord a o e) = e := by
  simp only [elementOf, addrWord]; omega
theorem elementAddress_addrWord (a o e n : Nat) (ha : a < 256) (ho : o < 4096) (he : e < 256) :
    elementAddress (addrWord a o e) n = addrWord a o n := by
  simp only [elementAddress, areaOf_addrWord a o e ha ho he, objectOf_addrWord a o e ho he]

/-! ## Heard requests -/

/-- A heard request is executed. -/
theorem receive_heard {r : Requester} {f : Frame} {s : State} (t : Elem → Elem) (h : Heard r f s) :
    receive t r f s =
      let d := dispatch t r f (counted s)
      if d.1 = stWait then (d.1, d.2.2) else (d.1, answer r f 1 d.1 d.2.1 d.2.2) := by
  obtain ⟨h1, h2, h3, h4, h5⟩ := h
  have h3' : ¬ 32 ≤ s.dop.relays.length := by omega
  have hx : receive t r f s = execute t r f s := by simp only [receive, h1, h2, h3', h4]; rfl
  rw [hx]
  unfold execute
  simp only [h5]
  rfl

/-- A heard request to an assigned element. -/
theorem dispatch_at {r : Requester} {f : Frame} {s : State} {o : Obj} {e : Elem} (t : Elem → Elem)
    (ho : objectAt s (areaOf f.address) (objectOf f.address) = some o) (he : o.find (elementOf f.address) = some e) :
    dispatch t r f s = if admitStatus f (t e) s = 0 then perform r f o (t e) s else (admitStatus f (t e) s, [], s) := by
  simp only [dispatch, ho, he]

/-- What a heard request to an assigned element does once it is admitted. -/
theorem serve_done {r : Requester} {f : Frame} {s w : State} {o : Obj} {e : Elem} {st : Nat} {pl : List Byte} (h : Heard r f s)
    (ho : objectAt (counted s) (areaOf f.address) (objectOf f.address) = some o) (he : o.find (elementOf f.address) = some e)
    (hadm : admitStatus f e (counted s) = 0) (hp : perform r f o e (counted s) = (st, pl, w)) (hst : st ≠ stWait) :
    serve r f s = answer r f 1 st pl w := by
  have hd := dispatch_at (r := r) (s := counted s) id ho he
  rw [id, hadm, if_pos rfl, hp] at hd
  unfold serve
  rw [receive_heard id h, hd]
  simp only [hst, if_false]

/-- A checked request whose core runs is served at once. -/
theorem handOver_served (r : Requester) (f : Frame) {via : Nat} (g : State → Nat × State) {s : State}
    (h : via = 0 ∨ s.runs via = true) : handOver r f via g s = ((g s).1, [], (g s).2) := by
  unfold handOver
  rw [if_pos h]

theorem viaFenced_served {via : Nat} {s : State} (h : via = 0 ∨ s.runs via = true) : viaFenced s via = 0 := by
  unfold viaFenced refuseIf
  rcases h with h | h
  · simp [h]
  · rw [if_neg]
    intro hf
    simp only [State.runs, beq_iff_eq, Bool.and_eq_true] at h hf
    rw [h] at hf
    cases hf.2

theorem orElse_ok {a b : Nat} (ha : a = 0) (hb : b = 0) : orElse a b = 0 := by rw [ha, hb]; rfl
theorem refuseIf_no {b : Bool} (st : Nat) (h : b = false) : refuseIf b st = 0 := by rw [h]; rfl
theorem within_ok {lo hi v : Int} (h : lo ≤ v ∧ v ≤ hi) : within lo hi v = 0 := if_pos h

/-- The checks of a `WRITE` pass where each of them does. -/
theorem checkOne_ok {o : Obj} {e : Elem} {v : Int} {s : State} (h1 : e.own { s with cfg := e.put v s.cfg } v = 0)
    (h2 : o.cross s [e.no] (e.put v s.cfg) = true) (h3 : e.late s v = 0) : checkOne o e v s = 0 :=
  orElse_ok h1 (orElse_ok (refuseIf_no _ (by rw [h2]; rfl)) h3)

/-- What a heard `WRITE` of one element does where every check passes and the MGT core serves it itself or through a running core. -/
theorem serveWrite_done {r : Requester} {a ob el : Nat} {ty : ElTy} {v : Int} {s : State} {o : Obj} {e : Elem}
    (h : Heard r (writeFrame r (addrWord a ob el) ty v) s) (hsafe : s.md.mode ≠ .safe)
    (ha : a < 256) (hob : ob < 4096) (hel : el < 256)
    (ho : objectAt (counted s) a ob = some o) (he : o.find el = some e) (hno : e.no = el) (hty : e.ty = ty) (hblob : ty ≠ .blob)
    (hacc : e.acc = .rw ∨ e.acc = .rws ∨ e.acc = .seal) (hmode : modeStatus (counted s) e.acc = 0)
    (hv : ty.decode (intBytes ty.size v) = v) (hvia : e.via = 0 ∨ s.runs e.via = true) (hok : checkOne o e v (counted s) = 0) :
    serveWrite r (addrWord a ob el) ty.size v s
      = written r (addrWord a ob el) ty (e.get (counted s)) v
          (e.after (counted s) v { counted s with cfg := e.put v s.cfg }) := by
  have hA := areaOf_addrWord a ob el ha hob hel
  have hO := objectOf_addrWord a ob el hob hel
  have hE := elementOf_addrWord a ob el hel
  have hadm : admitStatus (writeFrame r (addrWord a ob el) ty v) e (counted s) = 0 := by
    have : (intBytes ty.size v).length = ty.size := natBytes_length _ _
    have hw : (e.acc == .rw || e.acc == .rws || e.acc == .seal) = true := by rcases hacc with h | h | h <;> simp [h]
    have hs : (counted s).md.mode ≠ .safe := hsafe
    simp [admitStatus, writeFrame, orElse, refuseIf, accessStatus, typeStatus, hw, hty, hblob, hs, this, hmode]
  have hrun : e.via = 0 ∨ (counted s).runs e.via = true := hvia
  have hp : perform r (writeFrame r (addrWord a ob el) ty v) o e (counted s)
      = (stOk, [], journalWrite r (writeFrame r (addrWord a ob el) ty v) [(e, v)] (counted s) (applyWrite [(e, v)] (counted s))) := by
    simp only [perform, writeFrame, writeOne, mkFrame_opcode, mkFrame_length, mkFrame_payload, List.take_length, hty, hv,
      viaFenced_served hrun, hok, orElse, if_true, handOver_served _ _ _ hrun, commitWrite]
  have hd := dispatch_at (r := r) (f := writeFrame r (addrWord a ob el) ty v) (s := counted s) id
    (by rw [show (writeFrame r (addrWord a ob el) ty v).address = addrWord a ob el from rfl, hA, hO]; exact ho)
    (by rw [show (writeFrame r (addrWord a ob el) ty v).address = addrWord a ob el from rfl, hE]; exact he)
  rw [id, hadm, if_pos rfl, hp] at hd
  have hr := receive_heard id h
  rw [hd] at hr
  unfold serveWrite serve
  rw [show mkFrame r 2 (addrWord a ob el) none (intBytes ty.size v) = writeFrame r (addrWord a ob el) ty v from rfl, hr]
  simp [written, writeFrame, journalWrite, applyWrite, putAll, hno, hty, elementAddress_addrWord a ob el el ha hob hel, counted]

/-- A heard `COMMAND` whose checks pass reaches its element's own meaning. -/
theorem command_reaches {r : Requester} {a ob el : Nat} {ty : ElTy} {v : Int} {s : State} {o : Obj} {e : Elem} {t : Elem → Elem}
    (h : Heard r (commandFrame r (addrWord a ob el) ty v) s) (hsafe : s.md.mode ≠ .safe)
    (ha : a < 256) (hob : ob < 4096) (hel : el < 256)
    (ho : objectAt (counted s) a ob = some o) (he : o.find el = some e) (hty : (t e).ty = ty)
    (hacc : (t e).acc = .cmd) (hv : ty.decode (intBytes ty.size v) = v) (hvia : (t e).via = 0 ∨ s.runs (t e).via = true)
    (hown : (t e).own (counted s) v = 0) (hlate : (t e).late (counted s) v = 0) :
    (receive t r (commandFrame r (addrWord a ob el) ty v) s).2 =
      (let q := runCommand r (commandFrame r (addrWord a ob el) ty v) (t e) v (counted s)
       if q.1 = stWait then q.2 else answer r (commandFrame r (addrWord a ob el) ty v) 1 q.1 [] q.2) := by
  have hA := areaOf_addrWord a ob el ha hob hel
  have hO := objectOf_addrWord a ob el hob hel
  have hE := elementOf_addrWord a ob el hel
  have hadm : admitStatus (commandFrame r (addrWord a ob el) ty v) (t e) (counted s) = 0 := by
    have : (intBytes ty.size v).length = ty.size := natBytes_length _ _
    simp [admitStatus, commandFrame, orElse, refuseIf, accessStatus, typeStatus, counted, hacc, hty, hsafe, this]
  have hrun : (t e).via = 0 ∨ (counted s).runs (t e).via = true := hvia
  have hp : perform r (commandFrame r (addrWord a ob el) ty v) o (t e) (counted s)
      = ((runCommand r (commandFrame r (addrWord a ob el) ty v) (t e) v (counted s)).1, [],
         (runCommand r (commandFrame r (addrWord a ob el) ty v) (t e) v (counted s)).2) := by
    simp only [perform, commandFrame, commandOne, mkFrame_opcode, mkFrame_length, mkFrame_payload,
      List.take_length, hty, hv, hown, hlate, orElse, if_true, handOver_served _ _ _ hrun]
  have hd := dispatch_at (r := r) (f := commandFrame r (addrWord a ob el) ty v) (s := counted s) t
    (by rw [show (commandFrame r (addrWord a ob el) ty v).address = addrWord a ob el from rfl, hA, hO]; exact ho)
    (by rw [show (commandFrame r (addrWord a ob el) ty v).address = addrWord a ob el from rfl, hE]; exact he)
  rw [hadm, if_pos rfl, hp] at hd
  rw [receive_heard t h, hd]
  dsimp only
  split <;> rfl

theorem plainAddress_addrWord (a ob el : Nat) (ha : a < 256) (hob : ob < 4096) (hel : el < 256) :
    plainAddress (addrWord a ob el) = addrWord a ob el := by
  rw [plainAddress, elementOf_addrWord a ob el hel]
  exact elementAddress_addrWord a ob el el ha hob hel

/-- What a heard `COMMAND` does where every check passes, the MGT core serves it itself or through a running core, and it completes. -/
theorem command_done {r : Requester} {a ob el : Nat} {ty : ElTy} {v : Int} {s s' : State} {o : Obj} {e : Elem} {t : Elem → Elem}
    (h : Heard r (commandFrame r (addrWord a ob el) ty v) s) (hsafe : s.md.mode ≠ .safe)
    (ha : a < 256) (hob : ob < 4096) (hel : el < 256)
    (ho : objectAt (counted s) a ob = some o) (he : o.find el = some e) (hty : (t e).ty = ty)
    (hacc : (t e).acc = .cmd) (hv : ty.decode (intBytes ty.size v) = v) (hvia : (t e).via = 0 ∨ s.runs (t e).via = true)
    (hown : (t e).own (counted s) v = 0) (hlate : (t e).late (counted s) v = 0)
    (hrunok : (t e).run v (counted s) = (0, s')) :
    (receive t r (commandFrame r (addrWord a ob el) ty v) s).2 = commanded r (addrWord a ob el) ty v s' := by
  rw [command_reaches h hsafe ha hob hel ho he hty hacc hv hvia hown hlate]
  simp only [runCommand, hrunok, hty]
  rw [show (commandFrame r (addrWord a ob el) ty v).address = addrWord a ob el from rfl, plainAddress_addrWord a ob el ha hob hel]
  rfl

/-- The same of the command a row carries. -/
theorem serveCommand_done {r : Requester} {a ob el : Nat} {ty : ElTy} {v : Int} {s s' : State} {o : Obj} {e : Elem}
    (h : Heard r (commandFrame r (addrWord a ob el) ty v) s) (hsafe : s.md.mode ≠ .safe)
    (ha : a < 256) (hob : ob < 4096) (hel : el < 256)
    (ho : objectAt (counted s) a ob = some o) (he : o.find el = some e) (hty : e.ty = ty)
    (hacc : e.acc = .cmd) (hv : ty.decode (intBytes ty.size v) = v)
    (hvia : e.via = 0 ∨ s.runs e.via = true) (hown : e.own (counted s) v = 0) (hlate : e.late (counted s) v = 0)
    (hrunok : e.run v (counted s) = (0, s')) :
    serveCommand r (addrWord a ob el) ty.size v s = commanded r (addrWord a ob el) ty v s' :=
  command_done (t := id) h hsafe ha hob hel ho he hty hacc hv hvia hown hlate hrunok

/-- A heard `COMMAND` that answers later: its requester is kept with the sleep sequence (R89, R410). -/
theorem serveCommand_waits {r : Requester} {a ob el : Nat} {ty : ElTy} {v : Int} {s s' : State} {o : Obj} {e : Elem}
    (h : Heard r (commandFrame r (addrWord a ob el) ty v) s) (hsafe : s.md.mode ≠ .safe)
    (ha : a < 256) (hob : ob < 4096) (hel : el < 256)
    (ho : objectAt (counted s) a ob = some o) (he : o.find el = some e) (hty : e.ty = ty)
    (hacc : e.acc = .cmd) (hv : ty.decode (intBytes ty.size v) = v)
    (hvia : e.via = 0 ∨ s.runs e.via = true) (hown : e.own (counted s) v = 0) (hlate : e.late (counted s) v = 0)
    (hrunok : e.run v (counted s) = (stWait, s')) :
    serveCommand r (addrWord a ob el) ty.size v s =
      { s' with md := { s'.md with
          sleep := s'.md.sleep.map fun q => { q with req := r, frame := commandFrame r (addrWord a ob el) ty v } } } := by
  have hc := command_reaches (t := id) h hsafe ha hob hel ho he hty hacc hv hvia hown hlate
  simp only [id, runCommand, hrunok, if_true] at hc
  exact hc

/-! ## Objects whose elements are a numbered family -/

/-- The element of a numbered family is found by its number. -/
theorem find_range_map {n k : Nat} (g : Nat → Elem) (hg : ∀ i, (g i).no = i) (hk : k < n) :
    ((List.range n).map g).find? (fun e => e.no == k) = some (g k) := by
  rw [List.find?_map]
  have : ((fun e : Elem => e.no == k) ∘ g) = fun i => i == k := by funext i; simp [hg i]
  have hf : (List.range n).find? (fun i => i == k) = some k :=
    List.find?_range_eq_some.2 ⟨by simp, by simpa using hk, by intro j hj; simpa using hj.ne⟩
  rw [this, hf]
  rfl

end Sys2Proof.Machine
end

