-- ==== Sys2Proof/Laws/Blobs.lean ====
section
/-! SUPPORT. What the write of a whole BLOB does: each segment of it that is heard is accepted, and the end segment loads the image. -/

namespace Sys2Proof.Machine

/-! ## The dictionary goes by the boot ROM alone -/

theorem objectAt_congr {s t : State} (h : t.md.bootRom = s.md.bootRom) (a n : Nat) : objectAt t a n = objectAt s a n := by
  unfold objectAt
  rw [h]

/-! ## The transfer -/

/-- The write transfer of a BLOB after `i` segments with data. -/
def blobXfer (r : Requester) (a at_ i : Nat) (image : List Byte) : WXfer :=
  { iface := ifaceClass r.iface, source := r.source, sport := r.sport, address := a, lastSeg := i - 1, atNs := at_,
    data := image.take (i * segmentSize r.iface) }

/-- Nothing kept so far answers a later segment of the transfer. -/
def CacheClear (s : State) (i : Nat) (c : List CacheEnt) : Prop :=
  ∀ y ∈ c, y ∈ s.dop.cache ∨ (y.request.opcode = 4 ∧ y.request.segment < i)

/-- The state after `i` accepted segments with data, `u` being the state that segment 0 made. -/
def BlobState (r : Requester) (a : Nat) (image : List Byte) (s u : State) (i : Nat) (t : State) : Prop :=
  ∃ c x, CacheClear s i c ∧
    t = { u with
      dop := { s.dop with
        requests := s.dop.requests + i, cache := c, wx := s.dop.wx ++ [blobXfer r a s.clk.count i image] },
      tx := x }

theorem segmentSize_pos (n : Nat) : 0 < segmentSize n := by unfold segmentSize; split <;> omega

theorem sameKey_sender (x : WXfer) (r : Requester) (n a : Nat) : x.sameKey (blobSender r n) a = x.sameKey r a := rfl

theorem sameKey_other {x : WXfer} {r : Requester} {a : Nat} (h : x.address ≠ a) : x.sameKey r a = false := by
  simp [WXfer.sameKey, h]

theorem sameKey_own (r : Requester) (a at_ i : Nat) (image : List Byte) : (blobXfer r a at_ i image).sameKey r a = true := by
  simp [WXfer.sameKey, blobXfer]

/-- Segments of a BLOB write are not repeats of one another. -/
theorem cached_clear {s t : State} {i n a : Nat} {r : Requester} {p : List Byte} (hn : i ≤ n)
    (h : cached s (blobSender r n) (blobFrame r a n p) = none) (hc : CacheClear s i t.dop.cache) :
    cached t (blobSender r n) (blobFrame r a n p) = none := by
  simp only [cached, List.find?_eq_none] at *
  intro y hy
  rcases hc y hy with h1 | ⟨_, h2⟩
  · exact h y h1
  · have hne : y.request ≠ canonFrame (blobFrame r a n p) := by
      intro he
      rw [he] at h2
      simp only [canonFrame, blobFrame, mkFrame_segment, Option.getD_some] at h2
      omega
    simp [hne]

/-- An answer changes the kept responses and what is sent. -/
theorem answer_shape (q : Requester) (f : Frame) (st : Nat) (pl : List Byte) (s : State) : ∃ x,
    answer q f 1 st pl s =
      { s with
        dop := { s.dop with cache := (cacheEntry q f 1 st pl s.clk.count :: s.dop.cache).take 64 },
        tx := x } := by
  by_cases h : (onCan q.iface || (s.port q.iface).link) = true
  · refine ⟨s.tx ++ [.dop q.iface q.source q.sport q.mac 1 f.opcode (seqOf q) st (BitVec.ofNat 8 (flagsOf true f.segFlag 0)) f.address f.segment pl], ?_⟩
    simp only [answer, respond, emit]
    rw [if_pos (by exact h)]
    rfl
  · refine ⟨s.tx, ?_⟩
    simp only [answer, respond, emit]
    rw [if_neg (by exact h)]

theorem clear_answer {s : State} {r : Requester} {a i j now st : Nat} {p pl : List Byte} {c : List CacheEnt} (hj : j < i)
    (h : CacheClear s j c) : CacheClear s i ((cacheEntry (blobSender r j) (blobFrame r a j p) 1 st pl now :: c).take 64) := by
  intro y hy
  have hy' := List.mem_of_mem_take hy
  rcases List.mem_cons.1 hy' with rfl | h1
  · right
    exact ⟨rfl, hj⟩
  · exact (h y h1).imp id fun h2 => ⟨h2.1, by omega⟩

/-- A heard segment of a BLOB write reaches the transfer. -/
theorem segment_reaches {r : Requester} {a n : Nat} {p : List Byte} {t : State} {o : Obj} {e : Elem}
    (h : Heard (blobSender r n) (blobFrame r a n p) t) (hsafe : t.md.mode ≠ .safe)
    (ho : objectAt t (areaOf a) (objectOf a) = some o) (he : o.find (elementOf a) = some e) (hty : e.ty = .blob)
    (hacc : e.acc = .rw) {st : Nat} {pl : List Byte} {w : State}
    (hw : writeSegment (blobSender r n) (blobFrame r a n p) o e (counted t) = (st, pl, w)) (hst : st ≠ stWait) :
    receive id (blobSender r n) (blobFrame r a n p) t = (st, answer (blobSender r n) (blobFrame r a n p) 1 st pl w) := by
  have hadm : admitStatus (blobFrame r a n p) e (counted t) = 0 := by
    have hs : (counted t).md.mode ≠ .safe := hsafe
    simp [admitStatus, blobFrame, orElse, refuseIf, accessStatus, typeStatus, modeStatus, hacc, hty, hs]
  have hd := dispatch_at (r := blobSender r n) (f := blobFrame r a n p) (s := counted t) id
    (by rw [← ho]; exact objectAt_congr rfl _ _) he
  rw [id, hadm, if_pos rfl] at hd
  have hp : perform (blobSender r n) (blobFrame r a n p) o e (counted t)
      = writeSegment (blobSender r n) (blobFrame r a n p) o e (counted t) := rfl
  rw [hp, hw] at hd
  rw [receive_heard id h, hd]
  simp only [hst, if_false]

/-- What heard segments stay heard by: nothing they read has changed but the kept responses. -/
theorem heard_carries {r : Requester} {a i n : Nat} {p : List Byte} {s t : State} (hn : i ≤ n)
    (h : Heard (blobSender r n) (blobFrame r a n p) s) (hc : t.cores = s.cores) (hm : t.md = s.md) (hp : t.pt = s.pt)
    (ha : t.dop.active = s.dop.active) (hr : t.dop.relays = s.dop.relays) (hk : CacheClear s i t.dop.cache) :
    Heard (blobSender r n) (blobFrame r a n p) t := by
  obtain ⟨h1, h2, h3, h4, h5⟩ := h
  refine ⟨?_, ?_, by rw [hr]; exact h3, cached_clear hn h4 hk, h5⟩
  · simp only [arrives, dopUp, State.runs, State.core, State.port, hc, hm, hp] at *
    exact h1
  · simp only [discards, serves, ha] at *
    exact h2

theorem frame_piece (r : Requester) (a n : Nat) (p : List Byte) :
    (blobFrame r a n p).payload.take (blobFrame r a n p).length = p := by
  simp [blobFrame]

section
variable {r : Requester} {a : Nat} {image : List Byte} {s u : State} {o : Obj} {e : Elem}

/-- The first segment with data opens the transfer. -/
theorem segment_first (hh : Heard (blobSender r 0) (blobFrame r a 0 ((image.drop (0 * segmentSize r.iface)).take (segmentSize r.iface))) s)
    (hsafe : s.md.mode ≠ .safe) (hpa : plainAddress a = a) (hne : image ≠ []) (hfree : BlobFree a s)
    (ho : objectAt s (areaOf a) (objectOf a) = some o) (he : o.find (elementOf a) = some e) (hty : e.ty = .blob) (hacc : e.acc = .rw)
    (hopening : e.opening (counted s) = 0) (hopened : ∀ d, e.opened { s with dop := d } = { u with dop := d }) :
    ∃ t, receive id (blobSender r 0) (blobFrame r a 0 ((image.drop (0 * segmentSize r.iface)).take (segmentSize r.iface))) s = (0, t) ∧
      BlobState r a image s u 1 t := by
  have hp := segmentSize_pos r.iface
  have hpiece : (image.drop (0 * segmentSize r.iface)).take (segmentSize r.iface) = image.take (1 * segmentSize r.iface) := by simp
  rw [hpiece] at hh ⊢
  have hdata : (image.take (1 * segmentSize r.iface)).isEmpty = false := by
    cases image with
    | nil => exact absurd rfl hne
    | cons b l => rw [Nat.one_mul]; obtain ⟨k, hk⟩ : ∃ k, segmentSize r.iface = k + 1 := ⟨_, (Nat.succ_pred_eq_of_pos hp).symm⟩; rw [hk]; rfl
  have hwx : (counted s).dop.wx.any (fun x => x.sameKey (blobSender r 0) a) = false := by
    rw [List.any_eq_false]; intro x hx; rw [sameKey_other (hfree.1 x hx)]; decide
  have hw2 : (counted s).dop.wx.any (fun x => x.address == a && !x.sameKey (blobSender r 0) a) = false := by
    rw [List.any_eq_false]; intro x hx; simp [hfree.1 x hx]
  have hrx : (counted s).dop.rx.any (fun x => x.address == a) = false := by
    rw [List.any_eq_false]; intro x hx; simp [hfree.2 x hx]
  have hpl := frame_piece r a 0 (image.take (1 * segmentSize r.iface))
  have hw : writeSegment (blobSender r 0) (blobFrame r a 0 (image.take (1 * segmentSize r.iface))) o e (counted s)
      = (0, [], { u with dop := { (counted s).dop with wx := (counted s).dop.wx ++ [blobXfer r a s.clk.count 1 image] } }) := by
    have hseg : (blobFrame r a 0 (image.take (1 * segmentSize r.iface))).segment = 0 := rfl
    have had : (blobFrame r a 0 (image.take (1 * segmentSize r.iface))).address = a := rfl
    unfold writeSegment
    simp only [hpl, had, hpa, hseg, if_true]
    unfold openWrite
    simp only [hpl, had, hpa, hdata, openRefused, hw2, hrx, Bool.and_false, Bool.or_self, refuseIf, Bool.false_eq_true, if_false,
      hopening, orElse, if_true, ne_eq, not_true_eq_false, discardWrite, hwx]
    exact congrArg (fun z => ((0 : Nat), ([] : List Byte), z)) (hopened _)
  have hrc := segment_reaches hh hsafe ho he hty hacc hw (by decide)
  obtain ⟨x, hx⟩ := answer_shape (blobSender r 0) (blobFrame r a 0 (image.take (1 * segmentSize r.iface))) 0 []
    { u with dop := { (counted s).dop with wx := (counted s).dop.wx ++ [blobXfer r a s.clk.count 1 image] } }
  refine ⟨_, hrc, _, x, ?_, hx⟩
  exact clear_answer (by decide) fun y hy => .inl hy

/-- A later segment with data joins the transfer. -/
theorem segment_next {i : Nat} {t : State} (hi : 0 < i) (hin : i * segmentSize r.iface < image.length)
    (hh : Heard (blobSender r i) (blobFrame r a i ((image.drop (i * segmentSize r.iface)).take (segmentSize r.iface))) s)
    (hsafe : s.md.mode ≠ .safe) (hpa : plainAddress a = a) (hfree : BlobFree a s)
    (ho : objectAt s (areaOf a) (objectOf a) = some o) (he : o.find (elementOf a) = some e) (hty : e.ty = .blob) (hacc : e.acc = .rw)
    (hopening : ∀ d x, e.opening { u with dop := d, tx := x } = 0)
    (hc : u.cores = s.cores) (hm : u.md = s.md) (hp : u.pt = s.pt) (hk : u.clk = s.clk) (ht : BlobState r a image s u i t) :
    ∃ t', receive id (blobSender r i) (blobFrame r a i ((image.drop (i * segmentSize r.iface)).take (segmentSize r.iface))) t = (0, t') ∧
      BlobState r a image s u (i + 1) t' := by
  obtain ⟨c, x, hcl, rfl⟩ := ht
  have hpos := segmentSize_pos r.iface
  generalize hpc : (image.drop (i * segmentSize r.iface)).take (segmentSize r.iface) = piece at *
  have hdata : piece.isEmpty = false := by
    have : piece.length ≠ 0 := by rw [← hpc, List.length_take, List.length_drop]; omega
    cases piece with
    | nil => exact absurd rfl this
    | cons => rfl
  have hjoin : image.take (i * segmentSize r.iface) ++ piece = image.take ((i + 1) * segmentSize r.iface) := by
    rw [← hpc, Nat.add_mul, Nat.one_mul, List.take_add]
  have hh' := heard_carries (t := { u with dop := { s.dop with requests := s.dop.requests + i, cache := c, wx := s.dop.wx ++ [blobXfer r a s.clk.count i image] }, tx := x })
    (Nat.le_refl i) hh hc hm hp rfl rfl hcl
  have hpl := frame_piece r a i piece
  have hnone : s.dop.wx.find? (fun y => y.sameKey (blobSender r i) a) = none := by
    rw [List.find?_eq_none]; intro y hy; rw [sameKey_other (hfree.1 y hy)]; decide
  have hfind : (s.dop.wx ++ [blobXfer r a s.clk.count i image]).find? (fun y => y.sameKey (blobSender r i) a)
      = some (blobXfer r a s.clk.count i image) := by
    rw [List.find?_append, hnone]
    simp only [Option.none_or, List.find?_singleton, sameKey_sender, sameKey_own, if_true]
  have hmap : (s.dop.wx ++ [blobXfer r a s.clk.count i image]).map (fun y => if y.sameKey (blobSender r i) a then
        { blobXfer r a s.clk.count i image with lastSeg := i, atNs := u.clk.count, data := (blobXfer r a s.clk.count i image).data ++ piece } else y)
      = s.dop.wx ++ [blobXfer r a s.clk.count (i + 1) image] := by
    rw [List.map_append]
    congr 1
    · rw [List.map_congr_left (g := id) fun y hy => by rw [sameKey_other (hfree.1 y hy)]; rfl, List.map_id]
    · simp only [List.map_cons, List.map_nil, sameKey_sender, sameKey_own, if_true, hk]
      simp only [blobXfer, hjoin, Nat.add_sub_cancel]
  have hw : writeSegment (blobSender r i) (blobFrame r a i piece) o e (counted { u with dop := { s.dop with requests := s.dop.requests + i, cache := c, wx := s.dop.wx ++ [blobXfer r a s.clk.count i image] }, tx := x })
      = (0, [], { u with dop := { s.dop with requests := s.dop.requests + (i + 1), cache := c, wx := s.dop.wx ++ [blobXfer r a s.clk.count (i + 1) image] }, tx := x }) := by
    have hseg : (blobFrame r a i piece).segment = i := rfl
    have had : (blobFrame r a i piece).address = a := rfl
    have hlast : i = (blobXfer r a s.clk.count i image).lastSeg + 1 := by simp only [blobXfer]; omega
    unfold writeSegment
    simp only [hpl, had, hpa, hseg, if_neg (Nat.pos_iff_ne_zero.1 hi), counted, hfind, ne_eq, if_neg (not_not.2 hlast), hopening,
      not_true_eq_false, if_false, hdata, Bool.false_eq_true]
    rw [hmap]
    rfl
  have hrc := segment_reaches hh' (by show u.md.mode ≠ .safe; rw [hm]; exact hsafe) ((objectAt_congr (by show u.md.bootRom = s.md.bootRom; rw [hm]) _ _).trans ho) he hty hacc hw (by decide)
  obtain ⟨x', hx⟩ := answer_shape (blobSender r i) (blobFrame r a i piece) 0 []
    { u with dop := { s.dop with requests := s.dop.requests + (i + 1), cache := c, wx := s.dop.wx ++ [blobXfer r a s.clk.count (i + 1) image] }, tx := x }
  exact ⟨_, hrc, _, x', clear_answer (Nat.lt_succ_self i) hcl, hx⟩

/-- The end segment loads the image. -/
theorem segment_end {i : Nat} {t : State} (hi : 0 < i) (hlen : image.length ≤ i * segmentSize r.iface)
    (hh : Heard (blobSender r i) (blobFrame r a i []) s)
    (hsafe : s.md.mode ≠ .safe) (hpa : plainAddress a = a) (hfree : BlobFree a s)
    (ho : objectAt s (areaOf a) (objectOf a) = some o) (he : o.find (elementOf a) = some e) (hty : e.ty = .blob) (hacc : e.acc = .rw)
    (hvia : e.via = 0 ∨ s.runs e.via = true) (hopening : ∀ d x, e.opening { u with dop := d, tx := x } = 0)
    (hc : u.cores = s.cores) (hm : u.md = s.md) (hp : u.pt = s.pt) (ht : BlobState r a image s u i t)
    (hload : ∀ d x, (e.load image { u with dop := d, tx := x }).1 = 0) (hold : ∀ d x, e.image { u with dop := d, tx := x } = e.image u) :
    ∃ c x, receive id (blobSender r i) (blobFrame r a i []) t =
      (0, answer (blobSender r i) (blobFrame r a i []) 1 stOk []
        (record (requestRecord (blobSender r i) 2 4 a ElTy.blob.code 10 (blobMark (e.image u)) (blobMark image))
          (e.load image { u with dop := { s.dop with requests := s.dop.requests + (i + 1), cache := c }, tx := x }).2)) := by
  obtain ⟨c, x, hcl, rfl⟩ := ht
  refine ⟨c, x, ?_⟩
  have hh' := heard_carries (t := { u with dop := { s.dop with requests := s.dop.requests + i, cache := c, wx := s.dop.wx ++ [blobXfer r a s.clk.count i image] }, tx := x })
    (Nat.le_refl i) hh hc hm hp rfl rfl hcl
  have hnone : s.dop.wx.find? (fun y => y.sameKey (blobSender r i) a) = none := by
    rw [List.find?_eq_none]; intro y hy; rw [sameKey_other (hfree.1 y hy)]; decide
  have hfind : (s.dop.wx ++ [blobXfer r a s.clk.count i image]).find? (fun y => y.sameKey (blobSender r i) a)
      = some (blobXfer r a s.clk.count i image) := by
    rw [List.find?_append, hnone]
    simp only [Option.none_or, List.find?_singleton, sameKey_sender, sameKey_own, if_true]
  have hfil : (s.dop.wx ++ [blobXfer r a s.clk.count i image]).filter (fun y => !y.sameKey (blobSender r i) a) = s.dop.wx := by
    rw [List.filter_append, List.filter_eq_self.2 fun y hy => by rw [sameKey_other (hfree.1 y hy)]; rfl]
    simp [sameKey_sender, sameKey_own]
  have hrun : e.via = 0 ∨ u.runs e.via = true := by
    rcases hvia with h | h
    · exact .inl h
    · right; simpa only [State.runs, State.core, hc] using h
  have hw : writeSegment (blobSender r i) (blobFrame r a i []) o e (counted { u with dop := { s.dop with requests := s.dop.requests + i, cache := c, wx := s.dop.wx ++ [blobXfer r a s.clk.count i image] }, tx := x })
      = (0, [], record (requestRecord (blobSender r i) 2 4 a ElTy.blob.code 10 (blobMark (e.image u)) (blobMark image))
          (e.load image { u with dop := { s.dop with requests := s.dop.requests + (i + 1), cache := c }, tx := x }).2) := by
    have hseg : (blobFrame r a i []).segment = i := rfl
    have had : (blobFrame r a i []).address = a := rfl
    have hop : (blobFrame r a i []).opcode = 4 := rfl
    have hpl := frame_piece r a i []
    have hlast : i = (blobXfer r a s.clk.count i image).lastSeg + 1 := by simp only [blobXfer]; omega
    have hdat : (blobXfer r a s.clk.count i image).data = image := by simp only [blobXfer]; exact List.take_of_length_le hlen
    unfold writeSegment
    simp only [hpl, had, hpa, hseg, if_neg (Nat.pos_iff_ne_zero.1 hi), counted, hfind, ne_eq, if_neg (not_not.2 hlast), hopening,
      not_true_eq_false, if_false, List.isEmpty_nil, if_true]
    unfold finishWrite
    have hserved : e.via = 0 ∨ (endWrite (blobSender r i) a (counted { u with dop := { s.dop with requests := s.dop.requests + i, cache := c, wx := s.dop.wx ++ [blobXfer r a s.clk.count i image] }, tx := x })).runs e.via = true := hrun
    simp only [counted] at hserved
    rw [if_pos hty, if_pos (viaFenced_served hserved), handOver_served _ _ _ hserved, hdat]
    have hz : endWrite (blobSender r i) a { u with dop := { s.dop with requests := s.dop.requests + i + 1, cache := c, wx := s.dop.wx ++ [blobXfer r a s.clk.count i image] }, tx := x }
        = { u with dop := { s.dop with requests := s.dop.requests + (i + 1), cache := c }, tx := x } := by
      simp only [endWrite, hfil]
      rfl
    simp only [loadBlob, hz, hload, hold, if_true, had, hpa, hop, hty]
  have hrc := segment_reaches hh' (by show u.md.mode ≠ .safe; rw [hm]; exact hsafe) ((objectAt_congr (by show u.md.bootRom = s.md.bootRom; rw [hm]) _ _).trans ho) he hty hacc hw (by decide)
  exact hrc

/-- What a whole BLOB write of data does where every segment of it is heard. -/
theorem serveBlob_done (hh : BlobHeard r a image s) (hsafe : s.md.mode ≠ .safe) (hpa : plainAddress a = a) (hne : image ≠ [])
    (hfree : BlobFree a s) (ho : objectAt s (areaOf a) (objectOf a) = some o) (he : o.find (elementOf a) = some e) (hty : e.ty = .blob)
    (hacc : e.acc = .rw) (hvia : e.via = 0 ∨ s.runs e.via = true) (hopening0 : e.opening (counted s) = 0)
    (hopening : ∀ d x, e.opening { u with dop := d, tx := x } = 0) (hopened : ∀ d, e.opened { s with dop := d } = { u with dop := d })
    (hc : u.cores = s.cores) (hm : u.md = s.md) (hp : u.pt = s.pt) (hk : u.clk = s.clk)
    (hload : ∀ d x, (e.load image { u with dop := d, tx := x }).1 = 0) (hold : ∀ d x, e.image { u with dop := d, tx := x } = e.image u) :
    ∃ c x, serveBlob r a image s = blobWritten r a (e.image u) image
      (e.load image { u with dop := { s.dop with requests := s.dop.requests + (blobEnd r image + 1), cache := c }, tx := x }).2 := by
  have hpos := segmentSize_pos r.iface
  have hl : 0 < image.length := List.length_pos_iff.2 hne
  have hN : 0 < blobEnd r image := Nat.div_pos (by omega) hpos
  have hbelow : ∀ i, i < blobEnd r image → i * segmentSize r.iface < image.length := by
    intro i hi
    have h1 : (i + 1) * segmentSize r.iface ≤ image.length + segmentSize r.iface - 1 := (Nat.le_div_iff_mul_le hpos).1 hi
    rw [Nat.add_mul, Nat.one_mul] at h1
    omega
  have habove : image.length ≤ blobEnd r image * segmentSize r.iface := by
    have h1 := Nat.lt_div_mul_add (a := image.length + segmentSize r.iface - 1) hpos
    simp only [blobEnd]
    omega
  have hmem : ∀ i, i < blobEnd r image →
      Heard (blobSender r i) (blobFrame r a i ((image.drop (i * segmentSize r.iface)).take (segmentSize r.iface))) s := by
    intro i hi
    refine hh (i, _) (List.mem_append_left _ (List.mem_map.2 ⟨i, List.mem_range.2 hi, rfl⟩))
  have hlast : Heard (blobSender r (blobEnd r image)) (blobFrame r a (blobEnd r image) []) s :=
    hh (blobEnd r image, []) (List.mem_append_right _ (List.mem_singleton.2 rfl))
  let step : Nat × State → Nat × List Byte → Nat × State := fun q p =>
    if q.1 = 0 then receive id (blobSender r p.1) (blobFrame r a p.1 p.2) q.2 else q
  have hall : ∀ i, i < blobEnd r image → ∃ t,
      ((List.range (i + 1)).map fun j => (j, (image.drop (j * segmentSize r.iface)).take (segmentSize r.iface))).foldl step (0, s) = (0, t)
        ∧ BlobState r a image s u (i + 1) t := by
    intro i
    induction i with
    | zero =>
      intro hi
      obtain ⟨t, h1, h2⟩ := segment_first (u := u) (hmem 0 hi) hsafe hpa hne hfree ho he hty hacc hopening0 hopened
      exact ⟨t, h1, h2⟩
    | succ i ih =>
      intro hi
      obtain ⟨t, h1, h2⟩ := ih (by omega)
      obtain ⟨t', h3, h4⟩ := segment_next (Nat.succ_pos i) (hbelow _ hi) (hmem _ hi) hsafe hpa hfree ho he hty hacc hopening hc hm hp hk h2
      refine ⟨t', ?_, h4⟩
      rw [List.range_succ, List.map_append, List.foldl_append, h1]
      exact h3
  obtain ⟨n, hn⟩ : ∃ n, blobEnd r image = n + 1 := ⟨_, (Nat.succ_pred_eq_of_pos hN).symm⟩
  obtain ⟨t, h1, h2⟩ := hall n (by omega)
  rw [← hn] at h1 h2
  obtain ⟨c, x, h3⟩ := segment_end hN habove hlast hsafe hpa hfree ho he hty hacc hvia hopening hc hm hp h2 hload hold
  refine ⟨c, x, ?_⟩
  have hz : serveBlob r a image s = ((segmentsOf (segmentSize r.iface) image).foldl step (0, s)).2 := rfl
  rw [hz]
  have hs : segmentsOf (segmentSize r.iface) image
      = (List.range (blobEnd r image)).map (fun j => (j, (image.drop (j * segmentSize r.iface)).take (segmentSize r.iface)))
        ++ [(blobEnd r image, [])] := rfl
  rw [hs, List.foldl_append, h1]
  exact congrArg Prod.snd h3

/-- What a BLOB write of no bytes does: its one segment is the end segment. -/
theorem serveBlob_empty (hh : BlobHeard r a [] s) (hsafe : s.md.mode ≠ .safe) (hpa : plainAddress a = a) (hfree : BlobFree a s)
    (ho : objectAt s (areaOf a) (objectOf a) = some o) (he : o.find (elementOf a) = some e) (hty : e.ty = .blob) (hacc : e.acc = .rw)
    (hvia : e.via = 0 ∨ s.runs e.via = true) (hopening : e.opening (counted s) = 0) (hload : (e.load [] (counted s)).1 = 0) :
    serveBlob r a [] s = blobWritten r a (e.image (counted s)) [] (e.load [] (counted s)).2 := by
  have hpos := segmentSize_pos r.iface
  have hk : blobEnd r [] = 0 := by
    simp only [blobEnd, List.length_nil, Nat.zero_add]
    exact Nat.div_eq_of_lt (by omega)
  have hs : segmentsOf (segmentSize r.iface) [] = [(0, [])] := by
    have : ([] : List Byte).length + segmentSize r.iface - 1 < segmentSize r.iface := by simp only [List.length_nil]; omega
    simp only [segmentsOf, Nat.div_eq_of_lt this]
    rfl
  have hh0 : Heard (blobSender r 0) (blobFrame r a 0 []) s := hh (0, []) (by rw [hs]; exact List.mem_singleton.2 rfl)
  have hwx : (counted s).dop.wx.any (fun x => x.sameKey (blobSender r 0) a) = false := by
    rw [List.any_eq_false]; intro x hx; rw [sameKey_other (hfree.1 x hx)]; decide
  have hw2 : (counted s).dop.wx.any (fun x => x.address == a && !x.sameKey (blobSender r 0) a) = false := by
    rw [List.any_eq_false]; intro x hx; simp [hfree.1 x hx]
  have hrx : (counted s).dop.rx.any (fun x => x.address == a) = false := by
    rw [List.any_eq_false]; intro x hx; simp [hfree.2 x hx]
  have hserved : e.via = 0 ∨ (counted s).runs e.via = true := hvia
  have hw : writeSegment (blobSender r 0) (blobFrame r a 0 []) o e (counted s)
      = (0, [], record (requestRecord (blobSender r 0) 2 4 a ElTy.blob.code 10 (blobMark (e.image (counted s))) (blobMark []))
          (e.load [] (counted s)).2) := by
    have hseg : (blobFrame r a 0 []).segment = 0 := rfl
    have had : (blobFrame r a 0 []).address = a := rfl
    have hop : (blobFrame r a 0 []).opcode = 4 := rfl
    have hpl := frame_piece r a 0 []
    unfold writeSegment
    simp only [hpl, had, hpa, hseg, if_true]
    unfold openWrite
    simp only [hpl, had, hpa, List.isEmpty_nil, openRefused, hw2, hrx, Bool.and_false, Bool.or_self, refuseIf, Bool.false_eq_true, if_false,
      hopening, orElse, if_true, ne_eq, not_true_eq_false, discardWrite, hwx]
    unfold finishWrite
    rw [if_pos hty, if_pos (viaFenced_served hserved), handOver_served _ _ _ hserved]
    simp only [loadBlob, hload, if_true, had, hpa, hop, hty]
  have hrc := segment_reaches hh0 hsafe ho he hty hacc hw (by decide)
  unfold serveBlob
  rw [hs]
  have hz := congrArg Prod.snd hrc
  simp only [blobWritten, hk]
  exact hz

/-- The same of any image, of data or of no bytes, where segment 0 does nothing of its own. -/
theorem serveBlob_plain (hh : BlobHeard r a image s) (hsafe : s.md.mode ≠ .safe) (hpa : plainAddress a = a) (hfree : BlobFree a s)
    (ho : objectAt s (areaOf a) (objectOf a) = some o) (he : o.find (elementOf a) = some e) (hty : e.ty = .blob) (hacc : e.acc = .rw)
    (hvia : e.via = 0 ∨ s.runs e.via = true) (hopening : ∀ d x, e.opening { s with dop := d, tx := x } = 0)
    (hopened : ∀ d, e.opened { s with dop := d } = { s with dop := d })
    (hload : ∀ d x, (e.load image { s with dop := d, tx := x }).1 = 0) (hold : ∀ d x, e.image { s with dop := d, tx := x } = e.image s) :
    ∃ c x, serveBlob r a image s = blobWritten r a (e.image s) image
      (e.load image { s with dop := { s.dop with requests := s.dop.requests + (blobEnd r image + 1), cache := c }, tx := x }).2 := by
  by_cases hne : image = []
  · subst hne
    have hk : blobEnd r [] = 0 := by
      have := segmentSize_pos r.iface
      simp only [blobEnd, List.length_nil, Nat.zero_add]
      exact Nat.div_eq_of_lt (by omega)
    refine ⟨s.dop.cache, s.tx, ?_⟩
    rw [serveBlob_empty hh hsafe hpa hfree ho he hty hacc hvia (hopening _ _) (hload _ _), hk,
      show e.image (counted s) = e.image s from hold (counted s).dop s.tx]
    rfl
  · exact serveBlob_done hh hsafe hpa hne hfree ho he hty hacc hvia (hopening _ _) hopening hopened rfl rfl rfl rfl hload hold

end

end Sys2Proof.Machine
end

