-- ==== Sys2Proof/Laws/Lists.lean ====
section
/-! SUPPORT. Looking up and changing one element of a list, the least integer not below a value, and the channel seconds of an effect
that moves no channel. -/

namespace Sys2Proof.Machine

variable {α : Type}

theorem nth_upd_ne (l : List α) {i j : Nat} (f : α → α) (d : α) (h : j ≠ i) : nth (upd l i f) j d = nth l j d := by
  simp [Ne.symm h]

theorem nth_upd_eq (l : List α) {i : Nat} (f : α → α) (d : α) (h : i < l.length) : nth (upd l i f) i d = f (nth l i d) := by
  simp [h]

/-- Two changes of an element that agree on it are one change. -/
theorem upd_congr (l : List α) (i : Nat) (f g : α → α) (d : α) (h : f (nth l i d) = g (nth l i d)) : upd l i f = upd l i g := by
  refine List.ext_getElem? fun j => ?_
  rw [List.getElem?_modify, List.getElem?_modify]
  by_cases hj : i = j
  · subst hj
    cases hx : l[i]? <;> simp_all
  · simp [hj]

/-- A change that leaves the element as it is. -/
theorem upd_same (l : List α) (i : Nat) (f : α → α) (d : α) (h : f (nth l i d) = nth l i d) : upd l i f = l :=
  (upd_congr l i f id d h).trans (List.modify_id i l)

/-- A change of an element that the list does not have. -/
theorem upd_out (l : List α) (i : Nat) (f : α → α) (h : l.length ≤ i) : upd l i f = l :=
  List.modify_eq_self h

/-- A change of one element and then another change of it are one change. -/
theorem upd_upd (l : List α) (i : Nat) (f g : α → α) : upd (upd l i f) i g = upd l i fun x => g (f x) :=
  List.modify_modify_eq f g i l

/-- A change of one element that is taken back. -/
theorem upd_back (l : List α) (i : Nat) (f g : α → α) (d : α) (h : g (f (nth l i d)) = nth l i d) : upd (upd l i f) i g = l := by
  rw [upd_upd]
  exact upd_same l i _ d h

theorem upd_len (l : List α) (i : Nat) (f : α → α) : (upd l i f).length = l.length := List.length_modify f l i

/-- Looking up one element of a list whose every element is mapped with its index. -/
theorem nth_indexed_map (l : List α) (f : Nat → α → α) (i : Nat) (d : α) (h : i < l.length) :
    nth ((indexed l).map fun (n, x) => f n x) i d = f i (nth l i d) := by
  simp [indexed, h]

/-- A candidate that a change leaves not usable is not usable. -/
theorem setCand_unusable (s : State) (c : Nat) (f : Cand → Cand) (h : candUsable (f (s.cand c)) = false) :
    candUsable ((s.setCand c f).cand c) = false := by
  rcases Nat.lt_or_ge c s.rf.cand.length with hl | hl
  · have hs : (s.setCand c f).cand c = f (s.cand c) := nth_upd_eq s.rf.cand f Cand.reset hl
    rw [hs]; exact h
  · have hs : (s.setCand c f).cand c = Cand.reset := by
      simp only [State.cand]
      rw [upd_out _ _ _ hl]
      simp [hl]
    rw [hs]; rfl

/-- Two changes of a candidate that agree on it are one change. -/
theorem setCand_congr {s : State} {c : Nat} (f g : Cand → Cand) (h : f (s.cand c) = g (s.cand c)) :
    s.setCand c f = s.setCand c g := by
  simp only [State.setCand, upd_congr s.rf.cand c f g Cand.reset h]

/-- What the least integer not below a value that is not negative says of every natural number. -/
theorem ceilR_spec (q : Rat) (hq : 0 ≤ q) : q ≤ ((ceilR q).toNat : Rat) ∧ ∀ j : Nat, j < (ceilR q).toNat → (j : Rat) < q := by
  have h1 : (((-q).floor : Int) : Rat) ≤ -q := Int.floor_le (-q)
  have h2 : -q < (((-q).floor : Int) : Rat) + 1 := Int.lt_floor_add_one (-q)
  simp only [ceilR]
  generalize (-q).floor = z at *
  have hz : z ≤ 0 := by
    have : (z : Rat) ≤ 0 := by linarith
    exact_mod_cast this
  obtain ⟨n, rfl⟩ : ∃ n : Nat, z = -(n : Int) := ⟨(-z).toNat, by omega⟩
  push_cast at *
  simp only [neg_neg, Int.toNat_natCast] at *
  refine ⟨by linarith, fun j hj => ?_⟩
  have : (j : Rat) + 1 ≤ n := by exact_mod_cast hj
  linarith

/-- An effect that moves no channel meets no channel second (R190). -/
theorem withSeconds_still (f : State → State) (s : State) (h : (f s).dp = s.dp) : withSeconds f s = f s := by
  have hs : ∀ n, secondFell s (f s) n = f s := by
    intro n
    unfold secondFell
    rw [show (f s).chan n = s.chan n from by simp only [State.chan, h]]
    split
    · rename_i t ht
      rw [if_pos ht]
    · rfl
  simp [withSeconds, List.range, List.range.loop, hs]

end Sys2Proof.Machine
end

