-- ==== Sys2Proof/Laws/Commit.lean ====
section
/-! SUPPORT. What a commit does to the cores and the outputs (R193, R207, R208), and what stopping outputs leaves. -/

namespace Sys2Proof.Machine

/-- A change that moves only what the outputs do now: their active settings stand, and so does everything outside them. -/
structure KeepsActive (s t : State) : Prop where
  cfg : t.cfg = s.cfg
  dp : t.dp = s.dp
  tb : t.tb = s.tb
  clk : t.clk = s.clk
  sn : t.sn = s.sn
  len : t.ou.out.length = s.ou.out.length
  active : ∀ m, (t.out m).active = (s.out m).active

theorem KeepsActive.refl (s : State) : KeepsActive s s := ⟨rfl, rfl, rfl, rfl, rfl, rfl, fun _ => rfl⟩

theorem KeepsActive.trans {s t u : State} (h : KeepsActive s t) (k : KeepsActive t u) : KeepsActive s u :=
  ⟨k.cfg.trans h.cfg, k.dp.trans h.dp, k.tb.trans h.tb, k.clk.trans h.clk, k.sn.trans h.sn, k.len.trans h.len,
    fun m => (k.active m).trans (h.active m)⟩

theorem setOut_keepsActive (s : State) (n : Nat) (f : Out → Out) (h : ∀ o, (f o).active = o.active) : KeepsActive s (s.setOut n f) := by
  refine ⟨rfl, rfl, rfl, rfl, rfl, upd_len _ _ _, fun m => ?_⟩
  by_cases hm : m = n
  · subst hm
    rcases Nat.lt_or_ge m s.ou.out.length with hl | hl
    · exact (congrArg Out.active (nth_upd_eq s.ou.out f Out.reset hl)).trans (h _)
    · have hu : upd s.ou.out m f = s.ou.out := upd_out s.ou.out m f hl
      show (nth (upd s.ou.out m f) m Out.reset).active = _
      rw [hu]
  · exact congrArg Out.active (nth_upd_ne s.ou.out f Out.reset hm)

theorem foldl_keepsActive (g : State → Nat → State) (h : ∀ s n, KeepsActive s (g s n)) (l : List Nat) (s : State) :
    KeepsActive s (l.foldl g s) := by
  induction l generalizing s with
  | nil => exact .refl s
  | cons n l ih => exact (h s n).trans (ih (g s n))

theorem stopOut_keepsActive (s : State) (n : Nat) : KeepsActive s (stopOut s n) := setOut_keepsActive s n _ fun _ => rfl

theorem stopOuts_keepsActive (c : Nat) (s : State) : KeepsActive s (stopOuts c s) := foldl_keepsActive stopOut stopOut_keepsActive _ s

theorem originNow_keepsActive (s : State) (n : Nat) : KeepsActive s (originNow s n) := by
  unfold originNow
  split
  · exact .refl s
  · exact setOut_keepsActive s n _ fun _ => rfl

/-- A core that begins to retune (R202): its plan and its channel stand, and no other core moves. -/
theorem beginRetune_done (c : Nat) (s : State) :
    let t := beginRetune c s
    t.cfg = s.cfg ∧ t.dp = s.dp ∧ t.tb = s.tb ∧ t.clk = s.clk ∧ t.sn.core.length = s.sn.core.length
      ∧ t.ou.out.length = s.ou.out.length ∧ (∀ m, (t.out m).active = (s.out m).active)
      ∧ (c < s.sn.core.length → (t.syn c).plan = (s.syn c).plan ∧ (t.syn c).channel = (s.syn c).channel)
      ∧ ∀ d, d ≠ c → t.syn d = s.syn d := by
  have k := stopOuts_keepsActive c s
  have hs : ∀ (b : Bool) (i : Nat) (u : State), let t := raiseIf b i u
      t.cfg = u.cfg ∧ t.dp = u.dp ∧ t.tb = u.tb ∧ t.clk = u.clk ∧ t.sn = u.sn ∧ t.ou = u.ou := by
    intro b i u; cases b <;> exact ⟨rfl, rfl, rfl, rfl, rfl, rfl⟩
  have hset : ∀ (u : State) (f : Syn → Syn), (∀ x, (f x).plan = x.plan ∧ (f x).channel = x.channel) → u.sn.core.length = s.sn.core.length →
      (c < s.sn.core.length → ((u.setSyn c f).syn c).plan = (u.syn c).plan ∧ ((u.setSyn c f).syn c).channel = (u.syn c).channel)
        ∧ ∀ d, d ≠ c → (u.setSyn c f).syn d = u.syn d := by
    intro u f hf hu
    refine ⟨fun h => ?_, fun d hd => nth_upd_ne u.sn.core f Syn.reset hd⟩
    have e : (u.setSyn c f).syn c = f (u.syn c) := nth_upd_eq u.sn.core f Syn.reset (hu ▸ h)
    rw [e]; exact hf _
  dsimp only [beginRetune]
  obtain ⟨r1, r2, r3, r4, r5, r6⟩ := hs ((s.syn c).state != .tuning) (80 + c)
    (if outsParked (stopOuts c s) c = true then
      tuneFrom c { Retune.reset with c0 := s.clk.count }
        ((stopOuts c s).setSyn c fun x => { x with state := .tuning, retune := some { Retune.reset with c0 := s.clk.count } })
    else (stopOuts c s).setSyn c fun x => { x with state := .tuning, retune := some { Retune.reset with c0 := s.clk.count } })
  have hk : (stopOuts c s).sn.core.length = s.sn.core.length := by rw [k.sn]
  obtain ⟨a1, a2⟩ := hset (stopOuts c s) (fun x => { x with state := .tuning, retune := some { Retune.reset with c0 := s.clk.count } })
    (fun _ => ⟨rfl, rfl⟩) hk
  simp only [State.syn, State.out, r1, r2, r3, r4, r5, r6]
  have hsyn : ∀ d, (stopOuts c s).syn d = s.syn d := fun d => by simp only [State.syn, k.sn]
  split
  · obtain ⟨b1, b2⟩ := hset ((stopOuts c s).setSyn c fun x =>
        { x with state := .tuning, retune := some { Retune.reset with c0 := s.clk.count } })
      (fun x => { x with
        retune := some { ({ Retune.reset with c0 := s.clk.count } : Retune) with
          s0 := some ((stopOuts c s).setSyn c fun x =>
            { x with state := .tuning, retune := some { Retune.reset with c0 := s.clk.count } }).clk.count,
          card := usableCard ((stopOuts c s).setSyn c fun x =>
            { x with state := .tuning, retune := some { Retune.reset with c0 := s.clk.count } }) c },
        band := match usableCard ((stopOuts c s).setSyn c fun x =>
            { x with state := .tuning, retune := some { Retune.reset with c0 := s.clk.count } }) c with | some k => k.band | none => x.band,
        fine := match usableCard ((stopOuts c s).setSyn c fun x =>
            { x with state := .tuning, retune := some { Retune.reset with c0 := s.clk.count } }) c with | some k => k.fine | none => x.fine })
      (fun _ => ⟨rfl, rfl⟩) ((upd_len _ _ _).trans hk)
    refine ⟨k.cfg, k.dp, k.tb, k.clk, ?_, k.len, k.active, fun h => ?_, fun d hd => ?_⟩
    · exact (upd_len _ _ _).trans ((upd_len _ _ _).trans hk)
    · have x := b1 h; have y := a1 h
      rw [hsyn c] at y
      exact ⟨x.1.trans y.1, x.2.trans y.2⟩
    · exact (b2 d hd).trans ((a2 d hd).trans (hsyn d))
  · refine ⟨k.cfg, k.dp, k.tb, k.clk, (upd_len _ _ _).trans hk, k.len, k.active, fun h => ?_, fun d hd => ?_⟩
    · have y := a1 h
      rw [hsyn c] at y
      exact y
    · exact (a2 d hd).trans (hsyn d)

/-- One core at a commit (R193, R208): it has its new plan and channel, no other core moves, and no output's settings change. -/
theorem commitCore_done (s : State) (c : Nat) (new : CfgSn) :
    let t := commitCore s c new
    t.cfg = s.cfg ∧ t.dp = s.dp ∧ t.tb = s.tb ∧ t.clk = s.clk ∧ t.sn.core.length = s.sn.core.length
      ∧ t.ou.out.length = s.ou.out.length ∧ (∀ m, (t.out m).active = (s.out m).active)
      ∧ (c < s.sn.core.length → (t.syn c).plan = new.plan ∧ (t.syn c).channel = new.channel)
      ∧ ∀ d, d ≠ c → t.syn d = s.syn d := by
  dsimp only [commitCore]
  split
  · next h => exact ⟨rfl, rfl, rfl, rfl, rfl, rfl, fun _ => rfl, fun _ => h, fun _ _ => rfl⟩
  · have k0 := stopOuts_keepsActive c s
    generalize hd : (s.chan new.channel).cyc - (s.chan (s.syn c).channel).cyc = d
    have k2 := foldl_keepsActive (fun s n => s.setOut n (Out.shift d)) (fun s n => setOut_keepsActive s n _ fun _ => rfl) (coreOuts s c)
      ((stopOuts c s).setSyn c fun x => { x with plan := new.plan, channel := new.channel })
    generalize (coreOuts s c).foldl (fun s n => s.setOut n (Out.shift d))
      ((stopOuts c s).setSyn c fun x => { x with plan := new.plan, channel := new.channel }) = u at *
    have hlen : u.sn.core.length = s.sn.core.length := by
      rw [k2.sn]; exact (upd_len _ _ _).trans (by rw [k0.sn])
    have hc : c < s.sn.core.length → (u.syn c).plan = new.plan ∧ (u.syn c).channel = new.channel := by
      intro h
      have e : u.syn c = (fun x : Syn => { x with plan := new.plan, channel := new.channel }) ((stopOuts c s).syn c) := by
        simp only [State.syn, k2.sn]
        exact nth_upd_eq (stopOuts c s).sn.core _ Syn.reset (by rw [k0.sn]; exact h)
      rw [e]; exact ⟨rfl, rfl⟩
    have ho : ∀ e, e ≠ c → u.syn e = s.syn e := by
      intro e he
      simp only [State.syn, k2.sn]
      exact (nth_upd_ne (stopOuts c s).sn.core _ Syn.reset he).trans (by rw [k0.sn])
    have hact : ∀ m, (u.out m).active = (s.out m).active := fun m => (k2.active m).trans (k0.active m)
    split
    · obtain ⟨cfg, dp, tb, clk, cores, outs, act, plan, others⟩ := beginRetune_done c u
      refine ⟨cfg.trans (k2.cfg.trans k0.cfg), dp.trans (k2.dp.trans k0.dp), tb.trans (k2.tb.trans k0.tb), clk.trans (k2.clk.trans k0.clk),
        cores.trans hlen, outs.trans (k2.len.trans k0.len), fun m => (act m).trans (hact m), fun h => ?_,
        fun e he => (others e he).trans (ho e he)⟩
      have x := plan (hlen ▸ h); have y := hc h
      exact ⟨x.1.trans y.1, x.2.trans y.2⟩
    · exact ⟨k2.cfg.trans k0.cfg, k2.dp.trans k0.dp, k2.tb.trans k0.tb, k2.clk.trans k0.clk, hlen, k2.len.trans k0.len, hact, hc, ho⟩

/-- One output at a commit (R207, R208): it has its new settings, and no other output's settings change. -/
theorem commitOut_done (s : State) (n : Nat) (new : Divider) :
    let t := commitOut s n new
    t.cfg = s.cfg ∧ t.sn = s.sn ∧ t.dp = s.dp ∧ t.tb = s.tb ∧ t.clk = s.clk ∧ t.ou.out.length = s.ou.out.length
      ∧ (n < s.ou.out.length → (t.out n).active = new) ∧ ∀ d, d ≠ n → (t.out d).active = (s.out d).active := by
  dsimp only [commitOut]
  split
  · next h => exact ⟨rfl, rfl, rfl, rfl, rfl, rfl, fun _ => h, fun _ _ => rfl⟩
  · have hpm : ∀ (u : State) (o : Divider) (x : Out), (phaseMove u n o x).active = x.active := by
      intro u o x; dsimp only [phaseMove]; split <;> rfl
    have k : ∀ u, KeepsActive (s.setOut n fun x => { x with active := new }) u → u.cfg = s.cfg ∧ u.sn = s.sn ∧ u.dp = s.dp ∧ u.tb = s.tb
        ∧ u.clk = s.clk ∧ u.ou.out.length = s.ou.out.length ∧ (n < s.ou.out.length → (u.out n).active = new)
        ∧ ∀ d, d ≠ n → (u.out d).active = (s.out d).active := by
      intro u h
      refine ⟨h.cfg, h.sn, h.dp, h.tb, h.clk, h.len.trans (upd_len _ _ _), fun hl => (h.active n).trans ?_, fun d hd => (h.active d).trans ?_⟩
      · exact congrArg Out.active (nth_upd_eq s.ou.out (fun x => { x with active := new }) Out.reset hl)
      · exact congrArg Out.active (nth_upd_ne s.ou.out (fun x => { x with active := new }) Out.reset hd)
    have k1 := originNow_keepsActive (s.setOut n fun x => { x with active := new }) n
    generalize originNow (s.setOut n fun x => { x with active := new }) n = u at *
    have k2 : KeepsActive (s.setOut n fun x => { x with active := new })
        (if outTime s n = true ∧ (s.out n).active.phase ≠ new.phase then u.setOut n fun x => phaseMove u n (s.out n).active x else u) := by
      split
      · exact k1.trans (setOut_keepsActive u n _ (hpm u _))
      · exact k1
    generalize (if outTime s n = true ∧ (s.out n).active.phase ≠ new.phase then u.setOut n fun x => phaseMove u n (s.out n).active x
      else u) = v at *
    split
    · exact k v k2
    · refine k _ ((k2.trans ?_).trans (setOut_keepsActive _ n _ fun _ => rfl))
      exact setOut_keepsActive v n (fun x => { x with fall := outFall s n }) fun _ => rfl

/-- What a commit leaves of the outputs: each one of the list has its new settings. -/
theorem commitOuts_done (ou : List CfgOu) (l : List Nat) (s : State) :
    let t := l.foldl (fun s n => commitOut s n (nth ou n CfgOu.reset).shadow) s
    t.cfg = s.cfg ∧ t.sn = s.sn ∧ t.dp = s.dp ∧ t.tb = s.tb ∧ t.clk = s.clk ∧ t.ou.out.length = s.ou.out.length
      ∧ ∀ n, n < s.ou.out.length → (n ∈ l ∨ (s.out n).active = (nth ou n CfgOu.reset).shadow) →
          (t.out n).active = (nth ou n CfgOu.reset).shadow := by
  induction l generalizing s with
  | nil => exact ⟨rfl, rfl, rfl, rfl, rfl, rfl, fun n _ h => by simpa using h⟩
  | cons a l ih =>
    obtain ⟨cfg, sn, dp, tb, clk, outs, made, others⟩ := commitOut_done s a (nth ou a CfgOu.reset).shadow
    obtain ⟨cfg', sn', dp', tb', clk', outs', all'⟩ := ih (commitOut s a (nth ou a CfgOu.reset).shadow)
    refine ⟨cfg'.trans cfg, sn'.trans sn, dp'.trans dp, tb'.trans tb, clk'.trans clk, outs'.trans outs, fun n hn h => all' n (outs ▸ hn) ?_⟩
    by_cases hna : n = a
    · subst hna; exact .inr (made hn)
    · rcases h with h | h
      · rcases List.mem_cons.1 h with h | h
        · exact absurd h hna
        · exact .inl h
      · exact .inr ((others n hna).trans h)

end Sys2Proof.Machine
end

