-- ==== Sys2Proof/Laws/Rest.lean ====
section
/-! SUPPORT. What settling leaves untouched: every operation that follows a command keeps the rest of the state. -/

namespace Sys2Proof.Machine

/-- The part of the state that settling never touches: what a command leaves here is what stands after it. -/
def State.rest (s : State) : State :=
  { s with
    cfg := { s.cfg with utc := [] },
    md := { s.md with mode := .startup, prevMode := 0, modeEntry := 0, vouching := false, holdWaits := false },
    ev := Ev.reset, pins := Pins.reset, tx := [],
    rf := { s.rf with cand := [], sel := [] }, dp := [],
    ln := { s.ln with ho := [], waiting := [], secLearn := false },
    sn := { s.sn with armed := none, commitState := 0 },
    ou := { s.ou with out := [], trg := [], vouchClosed := false },
    tb := [], dom := [],
    pt := { s.pt with port := [], inst := [] },
    ts := { s.ts with inp := [], stream := none, anchors := [], markers := [], round := [] },
    sc := { s.sc with act := [], servo := [] },
    dop := { s.dop with cache := [], relays := [] } }

theorem rest_trans {s t u : State} (h1 : u.rest = t.rest) (h2 : t.rest = s.rest) : u.rest = s.rest := h1.trans h2
theorem rest_refl (s : State) : s.rest = s.rest := rfl
theorem rest_ite {c : Prop} [Decidable c] {s a b : State} (h1 : c → a.rest = s.rest) (h2 : ¬ c → b.rest = s.rest) :
    (if c then a else b).rest = s.rest := by
  split
  · exact h1 ‹_›
  · exact h2 ‹_›
theorem foldl_rest {α : Type} {f : State → α → State} (h : ∀ s a, (f s a).rest = s.rest) (l : List α) (s : State) :
    (l.foldl f s).rest = s.rest := by
  induction l generalizing s with
  | nil => rfl
  | cons a l ih => rw [List.foldl_cons, ih, h]
theorem forEach_rest {f : State → Nat → State} (h : ∀ s a, (f s a).rest = s.rest) (n : Nat) (s : State) :
    (forEach n f s).rest = s.rest := foldl_rest h _ _
theorem gated_rest {f : State → State} (h : ∀ s, (f s).rest = s.rest) (s : State) : (gated f s).rest = s.rest := by
  unfold gated
  dsimp only
  split
  · exact (show (stopTriggers (f s)).rest = (f s).rest from rfl).trans (h s)
  · exact h s

/-- Of the configuration, settling writes the UTC registers alone (R245). -/
theorem rest_inert (s : State) (ev : Ev) (pins : Pins) (tx : List Tx) : ({ s with ev := ev, pins := pins, tx := tx } : State).rest = s.rest := rfl

@[simp] theorem raise_rest (n : Nat) (s : State) :
    (raise n s).rest = s.rest := by
  rfl

@[simp] theorem raiseIf_rest (b : Bool) (n : Nat) (s : State) :
    (raiseIf b n s).rest = s.rest := by
  unfold raiseIf
  repeat' (first
    | (with_reducible refine rest_ite (fun _ => ?_) (fun _ => ?_))
    | (with_reducible refine rest_trans (raise_rest _ _) ?_)
    | (with_reducible refine rest_trans (foldl_rest (fun s a => ?_) _ _) ?_)
    | (with_reducible refine foldl_rest (fun s a => ?_) _ _)
    | (with_reducible exact rest_refl _))

@[simp] theorem level_rest (n : Nat) (b : Bool) (s : State) :
    (level n b s).rest = s.rest := by
  rfl

@[simp] theorem State_setAct_rest (s : State) (a : Nat) (f : Act → Act) :
    (State.setAct s a f).rest = s.rest := by
  rfl

@[simp] theorem State_setServo_rest (s : State) (k : Nat) (f : Servo → Servo) :
    (State.setServo s k f).rest = s.rest := by
  rfl

@[simp] theorem completeFrame_rest (k : Nat) (a : Rat) (f : Rat) (target : Rat) (s : State) :
    (completeFrame k a f target s).rest = s.rest := by
  unfold completeFrame
  repeat' (first
    | (with_reducible refine rest_ite (fun _ => ?_) (fun _ => ?_))
    | (with_reducible refine rest_trans (State_setServo_rest _ _ _) ?_)
    | (with_reducible refine rest_trans (raiseIf_rest _ _ _) ?_)
    | (with_reducible refine rest_trans (State_setAct_rest _ _ _) ?_)
    | (with_reducible refine rest_trans (foldl_rest (fun s a => ?_) _ _) ?_)
    | (with_reducible refine foldl_rest (fun s a => ?_) _ _)
    | (with_reducible exact rest_refl _))

@[simp] theorem completeFrames_rest (k : Nat) (s : State) :
    (completeFrames k s).rest = s.rest := by
  unfold completeFrames
  repeat' (first
    | (with_reducible refine rest_ite (fun _ => ?_) (fun _ => ?_))
    | (with_reducible refine rest_trans (completeFrame_rest _ _ _ _ _) ?_)
    | (with_reducible refine rest_trans (State_setServo_rest _ _ _) ?_)
    | (with_reducible refine rest_trans (foldl_rest (fun s a => ?_) _ _) ?_)
    | (with_reducible refine foldl_rest (fun s a => ?_) _ _)
    | (with_reducible exact rest_refl _))

@[simp] theorem noteTarget_rest (back : Bool) (s : State) (k : Nat) :
    (noteTarget back s k).rest = s.rest := by
  simp [noteTarget]

@[simp] theorem noteTargets_rest (back : Bool) (s : State) :
    (noteTargets back s).rest = s.rest := by
  unfold noteTargets
  repeat' (first
    | (with_reducible refine rest_ite (fun _ => ?_) (fun _ => ?_))
    | (with_reducible refine rest_trans (noteTarget_rest _ _ _) ?_)
    | (with_reducible refine rest_trans (foldl_rest (fun s a => ?_) _ _) ?_)
    | (with_reducible refine foldl_rest (fun s a => ?_) _ _)
    | (with_reducible exact rest_refl _))

@[simp] theorem State_setChan_rest (s : State) (n : Nat) (f : Chan → Chan) :
    (State.setChan s n f).rest = s.rest := by
  rfl

@[simp] theorem State_setHo_rest (s : State) (n : Nat) (f : Ho → Ho) :
    (State.setHo s n f).rest = s.rest := by
  rfl

@[simp] theorem setConditions_rest (n : Nat) (b : BitVec 8) (s : State) :
    (setConditions n b s).rest = s.rest := by
  simp [setConditions]

@[simp] theorem refreshBound_rest (n : Nat) (s : State) :
    (refreshBound n s).rest = s.rest := by
  simp [refreshBound]

@[simp] theorem beginEpisode_rest (n : Nat) (v : StartVals) (gap : Rat) (s : State) :
    (beginEpisode n v gap s).rest = s.rest := by
  simp [beginEpisode]

@[simp] theorem endEpisode_rest (n : Nat) (s : State) :
    (endEpisode n s).rest = s.rest := by
  rfl

@[simp] theorem settleLearn_rest (s : State) :
    (settleLearn s).rest = s.rest := by
  rfl

@[simp] theorem dropSamples_rest (c : Nat) (s : State) :
    (dropSamples c s).rest = s.rest := by
  rfl

@[simp] theorem settleClamp_rest (s : State) (n : Nat) :
    (settleClamp s n).rest = s.rest := by
  simp [settleClamp]

@[simp] theorem chanFlag_rest (n : Nat) (b : Nat) (s : State) :
    (chanFlag n b s).rest = s.rest := by
  rfl

@[simp] theorem chanGo_rest (n : Nat) (st : ChanState) (s : State) :
    (chanGo n st s).rest = s.rest := by
  rfl

@[simp] theorem endPull_rest (n : Nat) (s : State) :
    (endPull n s).rest = s.rest := by
  unfold endPull
  repeat' (first
    | (with_reducible refine rest_ite (fun _ => ?_) (fun _ => ?_))
    | (with_reducible refine rest_trans (State_setChan_rest _ _ _) ?_)
    | (with_reducible refine rest_trans (chanFlag_rest _ _ _) ?_)
    | (with_reducible refine rest_trans (foldl_rest (fun s a => ?_) _ _) ?_)
    | (with_reducible refine foldl_rest (fun s a => ?_) _ _)
    | (with_reducible exact rest_refl _))

@[simp] theorem refer_rest (n : Nat) (c : Nat) (s : State) :
    (refer n c s).rest = s.rest := by
  unfold refer
  repeat' (first
    | (with_reducible refine rest_ite (fun _ => ?_) (fun _ => ?_))
    | (with_reducible refine rest_trans (State_setChan_rest _ _ _) ?_)
    | (with_reducible refine rest_trans (chanFlag_rest _ _ _) ?_)
    | (with_reducible refine rest_trans (foldl_rest (fun s a => ?_) _ _) ?_)
    | (with_reducible refine foldl_rest (fun s a => ?_) _ _)
    | (with_reducible exact rest_refl _))

@[simp] theorem toAcquire_rest (n : Nat) (c : Nat) (s : State) :
    (toAcquire n c s).rest = s.rest := by
  simp [toAcquire]

@[simp] theorem toRelock_rest (n : Nat) (c : Nat) (s : State) :
    (toRelock n c s).rest = s.rest := by
  simp [toRelock]

@[simp] theorem switchTo_rest (n : Nat) (c : Nat) (s : State) :
    (switchTo n c s).rest = s.rest := by
  simp [switchTo]

@[simp] theorem toIdle_rest (n : Nat) (s : State) :
    (toIdle n s).rest = s.rest := by
  simp [toIdle]

@[simp] theorem toHoldover_rest (n : Nat) (s : State) :
    (toHoldover n s).rest = s.rest := by
  simp [toHoldover]

@[simp] theorem followSelection_rest (s : State) (n : Nat) :
    (followSelection s n).rest = s.rest := by
  unfold followSelection
  repeat' (first
    | (with_reducible refine rest_ite (fun _ => ?_) (fun _ => ?_))
    | (with_reducible refine rest_trans (toAcquire_rest _ _ _) ?_)
    | (with_reducible refine rest_trans (toIdle_rest _ _) ?_)
    | (with_reducible refine rest_trans (toRelock_rest _ _ _) ?_)
    | (with_reducible refine rest_trans (toHoldover_rest _ _) ?_)
    | (with_reducible refine rest_trans (switchTo_rest _ _ _) ?_)
    | (with_reducible refine rest_trans (foldl_rest (fun s a => ?_) _ _) ?_)
    | (with_reducible refine foldl_rest (fun s a => ?_) _ _)
    | (with_reducible exact rest_refl _)
    | (with_reducible refine rest_trans (forEach_rest (fun s a => ?_) _ _) ?_)
    | dsimp only
    | split)

@[simp] theorem settleBandwidth_rest (s : State) (n : Nat) :
    (settleBandwidth s n).rest = s.rest := by
  unfold settleBandwidth
  repeat' (first
    | (with_reducible refine rest_ite (fun _ => ?_) (fun _ => ?_))
    | (with_reducible refine rest_trans (State_setChan_rest _ _ _) ?_)
    | (with_reducible refine rest_trans (foldl_rest (fun s a => ?_) _ _) ?_)
    | (with_reducible refine foldl_rest (fun s a => ?_) _ _)
    | (with_reducible exact rest_refl _)
    | (with_reducible refine rest_trans (forEach_rest (fun s a => ?_) _ _) ?_)
    | dsimp only
    | split)

@[simp] theorem settleLock_rest (s : State) (n : Nat) :
    (settleLock s n).rest = s.rest := by
  simp [settleLock]

@[simp] theorem State_setOut_rest (s : State) (n : Nat) (f : Out → Out) :
    (State.setOut s n f).rest = s.rest := by
  rfl

@[simp] theorem startOut_rest (s : State) (n : Nat) :
    (startOut s n).rest = s.rest := by
  rfl

@[simp] theorem stopOut_rest (s : State) (n : Nat) :
    (stopOut s n).rest = s.rest := by
  rfl

@[simp] theorem settleWave_rest (s : State) (n : Nat) :
    (settleWave s n).rest = s.rest := by
  unfold settleWave
  repeat' (first
    | (with_reducible refine rest_ite (fun _ => ?_) (fun _ => ?_))
    | (with_reducible refine rest_trans (State_setOut_rest _ _ _) ?_)
    | (with_reducible refine rest_trans (startOut_rest _ _) ?_)
    | (with_reducible refine rest_trans (stopOut_rest _ _) ?_)
    | (with_reducible refine rest_trans (foldl_rest (fun s a => ?_) _ _) ?_)
    | (with_reducible refine foldl_rest (fun s a => ?_) _ _)
    | (with_reducible exact rest_refl _))

@[simp] theorem settleOut_rest (s : State) (n : Nat) :
    (settleOut s n).rest = s.rest := by
  simp [settleOut]

@[simp] theorem settleOuts_rest (s : State) :
    (settleOuts s).rest = s.rest := by
  unfold settleOuts
  repeat' (first
    | (with_reducible refine rest_ite (fun _ => ?_) (fun _ => ?_))
    | (with_reducible refine rest_trans (settleOut_rest _ _) ?_)
    | (with_reducible refine rest_trans (foldl_rest (fun s a => ?_) _ _) ?_)
    | (with_reducible refine foldl_rest (fun s a => ?_) _ _)
    | (with_reducible exact rest_refl _))

@[simp] theorem cancelCommit_rest (s : State) :
    (cancelCommit s).rest = s.rest := by
  unfold cancelCommit
  repeat' (first
    | (with_reducible refine rest_ite (fun _ => ?_) (fun _ => ?_))
    | (with_reducible refine rest_trans (raise_rest _ _) ?_)
    | (with_reducible refine rest_trans (foldl_rest (fun s a => ?_) _ _) ?_)
    | (with_reducible refine foldl_rest (fun s a => ?_) _ _)
    | (with_reducible exact rest_refl _)
    | (with_reducible refine rest_trans (forEach_rest (fun s a => ?_) _ _) ?_)
    | dsimp only
    | split
    | exact rfl)

@[simp] theorem settleCommit_rest (s : State) :
    (settleCommit s).rest = s.rest := by
  unfold settleCommit
  repeat' (first
    | (with_reducible refine rest_ite (fun _ => ?_) (fun _ => ?_))
    | (with_reducible refine rest_trans (cancelCommit_rest _) ?_)
    | (with_reducible refine rest_trans (foldl_rest (fun s a => ?_) _ _) ?_)
    | (with_reducible refine foldl_rest (fun s a => ?_) _ _)
    | (with_reducible exact rest_refl _)
    | (with_reducible refine rest_trans (forEach_rest (fun s a => ?_) _ _) ?_)
    | dsimp only
    | split)

@[simp] theorem State_setTb_rest (s : State) (k : Nat) (f : Tb → Tb) :
    (State.setTb s k f).rest = s.rest := by
  rfl

@[simp] theorem State_setDom_rest (s : State) (i : Nat) (f : Dom → Dom) :
    (State.setDom s i f).rest = s.rest := by
  rfl

@[simp] theorem domGo_rest (i : Nat) (st : DomState) (s : State) :
    (domGo i st s).rest = s.rest := by
  rfl

@[simp] theorem restamp_rest (k : Nat) (s : State) :
    (restamp k s).rest = s.rest := by
  rfl

@[simp] theorem tbGo_rest (k : Nat) (st : TbState) (s : State) :
    (tbGo k st s).rest = s.rest := by
  rfl

@[simp] theorem aimAt_rest (k : Nat) (theta : Rat) (s : State) :
    (aimAt k theta s).rest = s.rest := by
  rfl

@[simp] theorem setFreqTerm_rest (k : Nat) (v : Rat) (s : State) :
    (setFreqTerm k v s).rest = s.rest := by
  rfl

@[simp] theorem enterTbHoldover_rest (k : Nat) (s : State) :
    (enterTbHoldover k s).rest = s.rest := by
  unfold enterTbHoldover
  dsimp only
  split
  · exact tbGo_rest k .holdover s
  · exact (setFreqTerm_rest _ _ _).trans (show State.rest (State.setTb _ _ _) = _ from tbGo_rest k .holdover s)

@[simp] theorem countSwitch_rest (k : Nat) (s : State) :
    (countSwitch k s).rest = s.rest := by
  rfl

@[simp] theorem copyUtc_rest (k : Nat) (s : State) :
    (copyUtc k s).rest = s.rest := by
  unfold copyUtc
  repeat' (first
    | (with_reducible refine rest_ite (fun _ => ?_) (fun _ => ?_))
    | (with_reducible refine rest_trans (State_setTb_rest _ _ _) ?_)
    | (with_reducible refine rest_trans (raiseIf_rest _ _ _) ?_)
    | (with_reducible refine rest_trans (foldl_rest (fun s a => ?_) _ _) ?_)
    | (with_reducible refine foldl_rest (fun s a => ?_) _ _)
    | (with_reducible exact rest_refl _)
    | (with_reducible refine rest_trans (forEach_rest (fun s a => ?_) _ _) ?_)
    | dsimp only
    | split
    | exact rfl)

@[simp] theorem announceUtc_rest (k : Nat) (d : Dataset) (s : State) :
    (announceUtc k d s).rest = s.rest := by
  unfold announceUtc
  repeat' (first
    | (with_reducible refine rest_ite (fun _ => ?_) (fun _ => ?_))
    | (with_reducible refine rest_trans (copyUtc_rest _ _) ?_)
    | (with_reducible refine rest_trans (foldl_rest (fun s a => ?_) _ _) ?_)
    | (with_reducible refine foldl_rest (fun s a => ?_) _ _)
    | (with_reducible exact rest_refl _)
    | (with_reducible refine rest_trans (forEach_rest (fun s a => ?_) _ _) ?_)
    | dsimp only
    | split
    | exact rfl)

@[simp] theorem followUtc_rest (k : Nat) (s : State) :
    (followUtc k s).rest = s.rest := by
  unfold followUtc
  repeat' (first
    | (with_reducible refine rest_ite (fun _ => ?_) (fun _ => ?_))
    | (with_reducible refine rest_trans (announceUtc_rest _ _ _) ?_)
    | (with_reducible refine rest_trans (foldl_rest (fun s a => ?_) _ _) ?_)
    | (with_reducible refine foldl_rest (fun s a => ?_) _ _)
    | (with_reducible exact rest_refl _)
    | (with_reducible refine rest_trans (forEach_rest (fun s a => ?_) _ _) ?_)
    | dsimp only
    | split)

@[simp] theorem setActive_rest (k : Nat) (d : Option Nat) (s : State) :
    (setActive k d s).rest = s.rest := by
  unfold setActive
  repeat' (first
    | (with_reducible refine rest_ite (fun _ => ?_) (fun _ => ?_))
    | (with_reducible refine rest_trans (State_setTb_rest _ _ _) ?_)
    | (with_reducible refine rest_trans (aimAt_rest _ _ _) ?_)
    | (with_reducible refine rest_trans (followUtc_rest _ _) ?_)
    | (with_reducible refine rest_trans (countSwitch_rest _ _) ?_)
    | (with_reducible refine rest_trans (foldl_rest (fun s a => ?_) _ _) ?_)
    | (with_reducible refine foldl_rest (fun s a => ?_) _ _)
    | (with_reducible exact rest_refl _)
    | (with_reducible refine rest_trans (forEach_rest (fun s a => ?_) _ _) ?_)
    | dsimp only
    | split)

@[simp] theorem settleTb_rest (s : State) (k : Nat) :
    (settleTb s k).rest = s.rest := by
  unfold settleTb
  dsimp only
  split
  · rfl
  · split
    · rfl
    · rw [setActive_rest]; rfl
  · generalize hr : (match (s.tbs k).restep with
      | some d => if (s.domi (2 * k + d)).measures then s
        else raise (120 + k) (s.setTb k fun t => { t with restep := none, restepState := 3 })
      | none => s) = s1
    have h1 : s1.rest = s.rest := by
      rw [← hr]
      repeat' split
      all_goals rfl
    repeat' split
    all_goals try simp only [enterTbHoldover_rest, tbGo_rest, setActive_rest]
    all_goals first | exact h1 | rfl

@[simp] theorem settleTbClamp_rest (s : State) (k : Nat) :
    (settleTbClamp s k).rest = s.rest := by
  rfl

@[simp] theorem cutBeacon_rest (s : State) :
    (cutBeacon s).rest = s.rest := by
  unfold cutBeacon
  repeat' (first
    | (with_reducible refine rest_ite (fun _ => ?_) (fun _ => ?_))
    | (with_reducible refine rest_trans (foldl_rest (fun s a => ?_) _ _) ?_)
    | (with_reducible refine foldl_rest (fun s a => ?_) _ _)
    | (with_reducible exact rest_refl _)
    | (with_reducible refine rest_trans (forEach_rest (fun s a => ?_) _ _) ?_)
    | dsimp only
    | split
    | exact rfl)

@[simp] theorem State_setPort_rest (s : State) (n : Nat) (f : Port → Port) :
    (State.setPort s n f).rest = s.rest := by
  rfl

@[simp] theorem State_setInst_rest (s : State) (i : Nat) (f : PtpInst → PtpInst) :
    (State.setInst s i f).rest = s.rest := by
  rfl

@[simp] theorem send_rest (x : Tx) (s : State) :
    (send x s).rest = s.rest := by
  rfl

@[simp] theorem setPortState_rest (i : Nat) (n : Nat) (st : PortState) (s : State) :
    (setPortState i n st s).rest = s.rest := by
  unfold setPortState
  repeat' (first
    | (with_reducible refine rest_ite (fun _ => ?_) (fun _ => ?_))
    | (with_reducible refine rest_trans (raise_rest _ _) ?_)
    | (with_reducible refine rest_trans (State_setPort_rest _ _ _) ?_)
    | (with_reducible refine rest_trans (foldl_rest (fun s a => ?_) _ _) ?_)
    | (with_reducible refine foldl_rest (fun s a => ?_) _ _)
    | (with_reducible exact rest_refl _))

@[simp] theorem settleGm_rest (s : State) (i : Nat) :
    (settleGm s i).rest = s.rest := by
  unfold settleGm
  repeat' (first
    | (with_reducible refine rest_ite (fun _ => ?_) (fun _ => ?_))
    | (with_reducible refine rest_trans (raiseIf_rest _ _ _) ?_)
    | (with_reducible refine rest_trans (State_setInst_rest _ _ _) ?_)
    | (with_reducible refine rest_trans (foldl_rest (fun s a => ?_) _ _) ?_)
    | (with_reducible refine foldl_rest (fun s a => ?_) _ _)
    | (with_reducible exact rest_refl _)
    | (with_reducible refine rest_trans (forEach_rest (fun s a => ?_) _ _) ?_)
    | dsimp only
    | split)

@[simp] theorem settleAdvertised_rest (s : State) (i : Nat) :
    (settleAdvertised s i).rest = s.rest := by
  unfold settleAdvertised
  repeat' (first
    | (with_reducible refine rest_ite (fun _ => ?_) (fun _ => ?_))
    | (with_reducible refine rest_trans (settleGm_rest _ _) ?_)
    | (with_reducible refine rest_trans (foldl_rest (fun s a => ?_) _ _) ?_)
    | (with_reducible refine foldl_rest (fun s a => ?_) _ _)
    | (with_reducible exact rest_refl _))

@[simp] theorem settleInst_rest (s : State) (i : Nat) :
    (settleInst s i).rest = s.rest := by
  have hp (l : List (Nat × PortState)) : (l.foldl (fun (s : State) p => setPortState i p.1 p.2 s) s).rest = s.rest :=
    foldl_rest (fun s (p : Nat × PortState) => setPortState_rest i p.1 p.2 s) _ _
  unfold settleInst
  split
  · rfl
  · dsimp only
    generalize hs : (indexed ((List.range 14).map (portStateNow s i))).foldl _ s = s1
    have h1 : s1.rest = s.rest := by rw [← hs]; exact hp _
    rw [settleGm_rest]
    split <;> exact h1

@[simp] theorem settleDomRank_rest (s : State) (i : Nat) :
    (settleDomRank s i).rest = s.rest := by
  unfold settleDomRank
  repeat' (first
    | (with_reducible refine rest_ite (fun _ => ?_) (fun _ => ?_))
    | (with_reducible refine rest_trans (State_setDom_rest _ _ _) ?_)
    | (with_reducible refine rest_trans (raise_rest _ _) ?_)
    | (with_reducible refine rest_trans (foldl_rest (fun s a => ?_) _ _) ?_)
    | (with_reducible refine foldl_rest (fun s a => ?_) _ _)
    | (with_reducible exact rest_refl _)
    | (with_reducible refine rest_trans (forEach_rest (fun s a => ?_) _ _) ?_)
    | dsimp only
    | split)

@[simp] theorem settleDom_rest (s : State) (i : Nat) :
    (settleDom s i).rest = s.rest := by
  unfold settleDom
  repeat' (first
    | (with_reducible refine rest_ite (fun _ => ?_) (fun _ => ?_))
    | (with_reducible refine rest_trans (domGo_rest _ _ _) ?_)
    | (with_reducible refine rest_trans (foldl_rest (fun s a => ?_) _ _) ?_)
    | (with_reducible refine foldl_rest (fun s a => ?_) _ _)
    | (with_reducible exact rest_refl _))

@[simp] theorem State_setCand_rest (s : State) (c : Nat) (f : Cand → Cand) :
    (State.setCand s c f).rest = s.rest := by
  rfl

@[simp] theorem candGo_rest (c : Nat) (st : CandState) (s : State) :
    (candGo c st s).rest = s.rest := by
  unfold candGo
  repeat' (first
    | (with_reducible refine rest_ite (fun _ => ?_) (fun _ => ?_))
    | (with_reducible refine rest_trans (raise_rest _ _) ?_)
    | (with_reducible refine rest_trans (State_setCand_rest _ _ _) ?_)
    | (with_reducible refine rest_trans (dropSamples_rest _ _) ?_)
    | (with_reducible refine rest_trans (foldl_rest (fun s a => ?_) _ _) ?_)
    | (with_reducible refine foldl_rest (fun s a => ?_) _ _)
    | (with_reducible exact rest_refl _))

@[simp] theorem qualifyCand_rest (c : Nat) (s : State) :
    (qualifyCand c s).rest = s.rest := by
  simp [qualifyCand]

@[simp] theorem candDisqualified_rest (c : Nat) (s : State) :
    (candDisqualified c s).rest = s.rest := by
  simp [candDisqualified]

@[simp] theorem settleCand_rest (s : State) (c : Nat) :
    (settleCand s c).rest = s.rest := by
  have hq (t : State) (f : Cand → Cand) : (t.setCand c f).rest = t.rest := rfl
  unfold settleCand
  dsimp only
  repeat' split
  all_goals try simp only [candDisqualified_rest, qualifyCand_rest, hq, candGo_rest]

@[simp] theorem settleRank_rest (s : State) (c : Nat) :
    (settleRank s c).rest = s.rest := by
  unfold settleRank
  repeat' (first
    | (with_reducible refine rest_ite (fun _ => ?_) (fun _ => ?_))
    | (with_reducible refine rest_trans (State_setCand_rest _ _ _) ?_)
    | (with_reducible refine rest_trans (raise_rest _ _) ?_)
    | (with_reducible refine rest_trans (foldl_rest (fun s a => ?_) _ _) ?_)
    | (with_reducible refine foldl_rest (fun s a => ?_) _ _)
    | (with_reducible exact rest_refl _)
    | (with_reducible refine rest_trans (forEach_rest (fun s a => ?_) _ _) ?_)
    | dsimp only
    | split)

@[simp] theorem settleVouch_rest (s : State) :
    (settleVouch s).rest = s.rest := by
  unfold settleVouch
  repeat' (first
    | (with_reducible refine rest_ite (fun _ => ?_) (fun _ => ?_))
    | (with_reducible refine rest_trans (cutBeacon_rest _) ?_)
    | (with_reducible refine rest_trans (raise_rest _ _) ?_)
    | (with_reducible refine rest_trans (foldl_rest (fun s a => ?_) _ _) ?_)
    | (with_reducible refine foldl_rest (fun s a => ?_) _ _)
    | (with_reducible exact rest_refl _)
    | (with_reducible refine rest_trans (forEach_rest (fun s a => ?_) _ _) ?_)
    | dsimp only
    | split
    | exact rfl)

@[simp] theorem enterMode_rest (m : Mode) (s : State) :
    (enterMode m s).rest = s.rest := by
  unfold enterMode
  split
  · rfl
  · refine gated_rest (fun s => ?_) s
    rw [settleVouch_rest]
    rfl

@[simp] theorem settleMode_rest (s : State) :
    (settleMode s).rest = s.rest := by
  unfold settleMode
  refine (gated_rest settleVouch_rest _).trans ?_
  split
  · rfl
  · exact enterMode_rest _ s

@[simp] theorem settleLevels_rest (s : State) :
    (settleLevels s).rest = s.rest := by
  simp [settleLevels]

@[simp] theorem settleDeliveries_rest (s : State) :
    (settleDeliveries s).rest = s.rest := by
  unfold settleDeliveries
  exact rest_inert s _ s.pins s.tx

@[simp] theorem takeTargetSettings_rest (s : State) :
    (takeTargetSettings s).rest = s.rest := rest_inert s _ s.pins s.tx

@[simp] theorem takeSettings_rest (s : State) :
    (takeSettings s).rest = s.rest := by
  refine (foldl_rest (fun s k => ?_) _ _).trans (takeTargetSettings_rest s)
  exact rest_ite (fun _ => rfl) (fun _ => copyUtc_rest k s)

@[simp] theorem settlePins_rest (s : State) :
    (settlePins s).rest = s.rest := by
  rfl

@[simp] theorem settleRefs_rest (s : State) :
    (settleRefs s).rest = s.rest := by
  unfold settleRefs
  repeat' (first
    | (with_reducible refine rest_ite (fun _ => ?_) (fun _ => ?_))
    | (with_reducible refine rest_trans (settleRank_rest _ _) ?_)
    | (with_reducible refine rest_trans (settleCand_rest _ _) ?_)
    | (with_reducible refine rest_trans (settleDomRank_rest _ _) ?_)
    | (with_reducible refine rest_trans (foldl_rest (fun s a => ?_) _ _) ?_)
    | (with_reducible refine foldl_rest (fun s a => ?_) _ _)
    | (with_reducible exact rest_refl _)
    | (with_reducible refine rest_trans (forEach_rest (fun s a => ?_) _ _) ?_))

@[simp] theorem settleChannels_rest (s : State) :
    (settleChannels s).rest = s.rest := by
  unfold settleChannels
  repeat' (first
    | (with_reducible refine rest_ite (fun _ => ?_) (fun _ => ?_))
    | (with_reducible refine rest_trans (settleLearn_rest _) ?_)
    | (with_reducible refine rest_trans (settleClamp_rest _ _) ?_)
    | (with_reducible refine rest_trans (settleLock_rest _ _) ?_)
    | (with_reducible refine rest_trans (settleBandwidth_rest _ _) ?_)
    | (with_reducible refine rest_trans (followSelection_rest _ _) ?_)
    | (with_reducible refine rest_trans (foldl_rest (fun s a => ?_) _ _) ?_)
    | (with_reducible refine foldl_rest (fun s a => ?_) _ _)
    | (with_reducible exact rest_refl _)
    | (with_reducible refine rest_trans (forEach_rest (fun s a => ?_) _ _) ?_))

@[simp] theorem settleTime_rest (s : State) :
    (settleTime s).rest = s.rest := by
  unfold settleTime
  repeat' (first
    | (with_reducible refine rest_ite (fun _ => ?_) (fun _ => ?_))
    | (with_reducible refine rest_trans (settleAdvertised_rest _ _) ?_)
    | (with_reducible refine rest_trans (settleTbClamp_rest _ _) ?_)
    | (with_reducible refine rest_trans (settleTb_rest _ _) ?_)
    | (with_reducible refine rest_trans (settleDom_rest _ _) ?_)
    | (with_reducible refine rest_trans (settleInst_rest _ _) ?_)
    | (with_reducible refine rest_trans (foldl_rest (fun s a => ?_) _ _) ?_)
    | (with_reducible refine foldl_rest (fun s a => ?_) _ _)
    | (with_reducible exact rest_refl _)
    | (with_reducible refine rest_trans (forEach_rest (fun s a => ?_) _ _) ?_))

@[simp] theorem settleEngine_rest (s : State) :
    (settleEngine s).rest = s.rest := by
  simp only [settleEngine, settlePins_rest, settleDeliveries_rest, settleLevels_rest, settleCommit_rest, settleOuts_rest, settleMode_rest,
    settleTime_rest, settleChannels_rest, settleRefs_rest]

@[simp] theorem settle_rest (s : State) :
    (settle s).rest = s.rest := by
  unfold settle
  split
  · rfl
  · split
    · exact settleEngine_rest s
    · exact (settlePins_rest _).trans (settleOuts_rest s)

@[simp] theorem emit_rest (r : Requester) (version : Nat) (opcode : Nat) (seq : Nat) (status : Nat) (flags : Nat) (address : Nat) (segment : Nat) (payload : List Byte) (s : State) :
    (emit r version opcode seq status flags address segment payload s).rest = s.rest := by
  unfold emit
  repeat' (first
    | (with_reducible refine rest_ite (fun _ => ?_) (fun _ => ?_))
    | (with_reducible refine rest_trans (send_rest _ _) ?_)
    | (with_reducible refine rest_trans (foldl_rest (fun s a => ?_) _ _) ?_)
    | (with_reducible refine foldl_rest (fun s a => ?_) _ _)
    | (with_reducible exact rest_refl _))

@[simp] theorem respond_rest (r : Requester) (f : Frame) (version : Nat) (status : Nat) (payload : List Byte) (s : State) :
    (respond r f version status payload s).rest = s.rest := by
  simp [respond]

@[simp] theorem answer_rest (r : Requester) (f : Frame) (version : Nat) (status : Nat) (payload : List Byte) (s : State) :
    (answer r f version status payload s).rest = s.rest := by
  unfold answer
  repeat' (first
    | (with_reducible refine rest_ite (fun _ => ?_) (fun _ => ?_))
    | (with_reducible refine rest_trans (respond_rest _ _ _ _ _ _) ?_)
    | (with_reducible refine rest_trans (foldl_rest (fun s a => ?_) _ _) ?_)
    | (with_reducible refine foldl_rest (fun s a => ?_) _ _)
    | (with_reducible exact rest_refl _)
    | (with_reducible refine rest_trans (forEach_rest (fun s a => ?_) _ _) ?_)
    | dsimp only
    | split
    | exact rfl)

@[simp] theorem endRelay_rest (status : Nat) (s : State) (x : Relay) :
    (endRelay status s x).rest = s.rest := by
  unfold endRelay
  repeat' (first
    | (with_reducible refine rest_ite (fun _ => ?_) (fun _ => ?_))
    | (with_reducible refine rest_trans (answer_rest _ _ _ _ _ _) ?_)
    | (with_reducible refine rest_trans (foldl_rest (fun s a => ?_) _ _) ?_)
    | (with_reducible refine foldl_rest (fun s a => ?_) _ _)
    | (with_reducible exact rest_refl _))

@[simp] theorem settleRelays_rest (s : State) :
    (settleRelays s).rest = s.rest := by
  unfold settleRelays
  repeat' (first
    | (with_reducible refine rest_ite (fun _ => ?_) (fun _ => ?_))
    | (with_reducible refine rest_trans (endRelay_rest _ _ _) ?_)
    | (with_reducible refine rest_trans (foldl_rest (fun s a => ?_) _ _) ?_)
    | (with_reducible refine foldl_rest (fun s a => ?_) _ _)
    | (with_reducible exact rest_refl _)
    | (with_reducible refine rest_trans (forEach_rest (fun s a => ?_) _ _) ?_)
    | dsimp only
    | split
    | exact rfl)

@[simp] theorem settleStream_rest (s : State) :
    (settleStream s).rest = s.rest := by
  unfold settleStream
  repeat' (first
    | (with_reducible refine rest_ite (fun _ => ?_) (fun _ => ?_))
    | (with_reducible refine rest_trans (foldl_rest (fun s a => ?_) _ _) ?_)
    | (with_reducible refine foldl_rest (fun s a => ?_) _ _)
    | (with_reducible exact rest_refl _)
    | (with_reducible refine rest_trans (forEach_rest (fun s a => ?_) _ _) ?_)
    | dsimp only
    | split
    | exact rfl)

@[simp] theorem finish_rest (s : State) :
    (finish s).rest = s.rest := by
  simp only [finish, settleRelays_rest, noteTargets_rest, settle_rest, settleStream_rest]

end Sys2Proof.Machine
end

