-- ==== Sys2Proof/Laws/Elapse.lean ====
section
/-! SUPPORT. What the passing of engine time leaves alone (R18), with the commit, the mode change and the selection that fall in it (R81, R130,
R208). -/

namespace Sys2Proof.Machine

/-- The part of the state that neither settling nor the passing of time touches, the engine count apart. -/
def State.steady (s : State) : State := { s.rest with sn := Sn.reset, ou := Ou.reset }

theorem steady_of_rest {s t : State} (h : t.rest = s.rest) : t.steady = s.steady :=
  congrArg (fun z : State => { z with sn := Sn.reset, ou := Ou.reset }) h

theorem steady_trans {s t u : State} (h1 : u.steady = t.steady) (h2 : t.steady = s.steady) : u.steady = s.steady := h1.trans h2
theorem steady_refl (s : State) : s.steady = s.steady := rfl
theorem steady_ite {c : Prop} [Decidable c] {s a b : State} (h1 : c → a.steady = s.steady) (h2 : ¬ c → b.steady = s.steady) :
    (if c then a else b).steady = s.steady := by
  split
  · exact h1 ‹_›
  · exact h2 ‹_›
theorem foldl_steady {α : Type} {f : State → α → State} (h : ∀ s a, (f s a).steady = s.steady) (l : List α) (s : State) :
    (l.foldl f s).steady = s.steady := by
  induction l generalizing s with
  | nil => rfl
  | cons a l ih => rw [List.foldl_cons, ih, h]

@[simp] theorem raise_steady (n : Nat) (s : State) :
    (raise n s).steady = s.steady := by
  rfl

@[simp] theorem raiseIf_steady (b : Bool) (n : Nat) (s : State) :
    (raiseIf b n s).steady = s.steady := by
  unfold raiseIf
  repeat' (first
    | (with_reducible refine steady_ite (fun _ => ?_) (fun _ => ?_))
    | (with_reducible refine steady_trans (raise_steady _ _) ?_)
    | (with_reducible refine steady_trans (foldl_steady (fun s a => ?_) _ _) ?_)
    | (with_reducible refine foldl_steady (fun s a => ?_) _ _)
    | (with_reducible exact steady_refl _))

@[simp] theorem State_setChan_steady (s : State) (n : Nat) (f : Chan → Chan) :
    (State.setChan s n f).steady = s.steady := by
  rfl

@[simp] theorem dropSamples_steady (c : Nat) (s : State) :
    (dropSamples c s).steady = s.steady := by
  rfl

@[simp] theorem chanFlag_steady (n : Nat) (b : Nat) (s : State) :
    (chanFlag n b s).steady = s.steady := by
  rfl

@[simp] theorem noteSelection_steady (n : Nat) (old : Option Nat) (new : Option Nat) (s : State) :
    (noteSelection n old new s).steady = s.steady := by
  unfold noteSelection
  repeat' (first
    | (with_reducible refine steady_ite (fun _ => ?_) (fun _ => ?_))
    | (with_reducible refine steady_trans (raise_steady _ _) ?_)
    | (with_reducible refine steady_trans (chanFlag_steady _ _ _) ?_)
    | (with_reducible refine steady_trans (foldl_steady (fun s a => ?_) _ _) ?_)
    | (with_reducible refine foldl_steady (fun s a => ?_) _ _)
    | (with_reducible exact steady_refl _)
    | (with_reducible refine steady_trans (foldl_steady (fun s a => ?_) _ _) ?_)
    | dsimp only
    | split)

@[simp] theorem State_setSyn_steady (s : State) (c : Nat) (f : Syn → Syn) :
    (State.setSyn s c f).steady = s.steady := by
  rfl

@[simp] theorem State_setOut_steady (s : State) (n : Nat) (f : Out → Out) :
    (State.setOut s n f).steady = s.steady := by
  rfl

@[simp] theorem stopOut_steady (s : State) (n : Nat) :
    (stopOut s n).steady = s.steady := by
  rfl

@[simp] theorem tuneFrom_steady (c : Nat) (r : Retune) (s : State) :
    (tuneFrom c r s).steady = s.steady := by
  rfl

@[simp] theorem stopOuts_steady (c : Nat) (s : State) :
    (stopOuts c s).steady = s.steady := by
  unfold stopOuts
  repeat' (first
    | (with_reducible refine steady_ite (fun _ => ?_) (fun _ => ?_))
    | (with_reducible refine steady_trans (stopOut_steady _ _) ?_)
    | (with_reducible refine steady_trans (foldl_steady (fun s a => ?_) _ _) ?_)
    | (with_reducible refine foldl_steady (fun s a => ?_) _ _)
    | (with_reducible exact steady_refl _))

@[simp] theorem beginRetune_steady (c : Nat) (s : State) :
    (beginRetune c s).steady = s.steady := by
  have hs (z : State) (f : Syn → Syn) : (z.setSyn c f).steady = z.steady := rfl
  unfold beginRetune
  dsimp only
  rw [raiseIf_steady]
  split
  · rw [tuneFrom_steady, hs, stopOuts_steady]
  · rw [hs, stopOuts_steady]

@[simp] theorem originNow_steady (s : State) (n : Nat) :
    (originNow s n).steady = s.steady := by
  unfold originNow
  repeat' (first
    | (with_reducible refine steady_ite (fun _ => ?_) (fun _ => ?_))
    | (with_reducible refine steady_trans (State_setOut_steady _ _ _) ?_)
    | (with_reducible refine steady_trans (foldl_steady (fun s a => ?_) _ _) ?_)
    | (with_reducible refine foldl_steady (fun s a => ?_) _ _)
    | (with_reducible exact steady_refl _))

@[simp] theorem commitOut_steady (s : State) (n : Nat) (new : Divider) :
    (commitOut s n new).steady = s.steady := by
  unfold commitOut
  repeat' (first
    | (with_reducible refine steady_ite (fun _ => ?_) (fun _ => ?_))
    | (with_reducible refine steady_trans (originNow_steady _ _) ?_)
    | (with_reducible refine steady_trans (State_setOut_steady _ _ _) ?_)
    | (with_reducible refine steady_trans (foldl_steady (fun s a => ?_) _ _) ?_)
    | (with_reducible refine foldl_steady (fun s a => ?_) _ _)
    | (with_reducible exact steady_refl _))

@[simp] theorem commitCore_steady (s : State) (c : Nat) (new : CfgSn) :
    (commitCore s c new).steady = s.steady := by
  unfold commitCore
  dsimp only
  have hf (z : State) (d : Rat) : ((coreOuts s c).foldl (fun s n => s.setOut n (Out.shift d)) z).steady = z.steady :=
    foldl_steady (fun s n => (rfl : (s.setOut n (Out.shift d)).steady = s.steady)) _ _
  have h0 (z : State) (f : Syn → Syn) : (z.setSyn c f).steady = z.steady := rfl
  split
  · rfl
  · split
    · rw [beginRetune_steady, hf, h0, stopOuts_steady]
    · rw [hf, h0, stopOuts_steady]

@[simp] theorem commitNow_steady (s : State) :
    (commitNow s).steady = s.steady := by
  have hn (z : State) (sn : Sn) : (raise 86 { z with sn := sn }).steady = z.steady := rfl
  have hc (l : List Nat) (sn : List CfgSn) (z : State) : (l.foldl (fun s c => commitCore s c (nth sn c CfgSn.reset)) z).steady = z.steady :=
    foldl_steady (fun s c => commitCore_steady s c _) _ _
  have ho (l : List Nat) (ou : List CfgOu) (z : State) : (l.foldl (fun s n => commitOut s n (nth ou n CfgOu.reset).shadow) z).steady = z.steady :=
    foldl_steady (fun s n => commitOut_steady s n _) _ _
  unfold commitNow
  dsimp only
  rw [hn, ho, hc]

@[simp] theorem State_setCand_steady (s : State) (c : Nat) (f : Cand → Cand) :
    (State.setCand s c f).steady = s.steady := by
  rfl

@[simp] theorem candGo_steady (c : Nat) (st : CandState) (s : State) :
    (candGo c st s).steady = s.steady := by
  unfold candGo
  repeat' (first
    | (with_reducible refine steady_ite (fun _ => ?_) (fun _ => ?_))
    | (with_reducible refine steady_trans (raise_steady _ _) ?_)
    | (with_reducible refine steady_trans (State_setCand_steady _ _ _) ?_)
    | (with_reducible refine steady_trans (dropSamples_steady _ _) ?_)
    | (with_reducible refine steady_trans (foldl_steady (fun s a => ?_) _ _) ?_)
    | (with_reducible refine foldl_steady (fun s a => ?_) _ _)
    | (with_reducible exact steady_refl _))

@[simp] theorem settleSel_steady (s : State) (n : Nat) :
    (settleSel s n).steady = s.steady := by
  unfold settleSel
  repeat' (first
    | (with_reducible refine steady_ite (fun _ => ?_) (fun _ => ?_))
    | (with_reducible refine steady_trans (noteSelection_steady _ _ _ _) ?_)
    | (with_reducible refine steady_trans (foldl_steady (fun s a => ?_) _ _) ?_)
    | (with_reducible refine foldl_steady (fun s a => ?_) _ _)
    | (with_reducible exact steady_refl _)
    | (with_reducible refine steady_trans (foldl_steady (fun s a => ?_) _ _) ?_)
    | dsimp only
    | split
    | exact rfl)

@[simp] theorem settleSelected_steady (s : State) (c : Nat) :
    (settleSelected s c).steady = s.steady := by
  unfold settleSelected
  repeat' (first
    | (with_reducible refine steady_ite (fun _ => ?_) (fun _ => ?_))
    | (with_reducible refine steady_trans (candGo_steady _ _ _) ?_)
    | (with_reducible refine steady_trans (foldl_steady (fun s a => ?_) _ _) ?_)
    | (with_reducible refine foldl_steady (fun s a => ?_) _ _)
    | (with_reducible exact steady_refl _)
    | (with_reducible refine steady_trans (foldl_steady (fun s a => ?_) _ _) ?_)
    | dsimp only
    | split)

@[simp] theorem evaluateSelectors_steady (s : State) :
    (evaluateSelectors s).steady = s.steady := by
  unfold evaluateSelectors
  repeat' (first
    | (with_reducible refine steady_ite (fun _ => ?_) (fun _ => ?_))
    | (with_reducible refine steady_trans (settleSelected_steady _ _) ?_)
    | (with_reducible refine steady_trans (settleSel_steady _ _) ?_)
    | (with_reducible refine steady_trans (foldl_steady (fun s a => ?_) _ _) ?_)
    | (with_reducible refine foldl_steady (fun s a => ?_) _ _)
    | (with_reducible exact steady_refl _))

/-! ## The passing of time (R18) -/

/-- The engine count `dt` ns on, where the engine clock runs (R18). -/
def Clk.ticked (dt : Nat) (c : Clk) : Clk := if c.running then { c with count := c.count + dt } else c

theorem Clk.ticked_add (a b : Nat) (c : Clk) : (c.ticked a).ticked b = c.ticked (a + b) := by
  unfold Clk.ticked
  by_cases h : c.running <;> simp [h, Nat.add_assoc]

theorem Clk.ticked_zero (c : Clk) : c.ticked 0 = c := by
  unfold Clk.ticked
  split <;> rfl

/-- The state with its engine count `dt` ns on. -/
def State.ticked (dt : Nat) (s : State) : State := { s with clk := s.clk.ticked dt }

/-- The engine count `dt` ns on, in what settling never touches. -/
theorem steady_ticked {s t : State} (dt : Nat) (h : t.steady = s.steady) : (t.ticked dt).steady = (s.ticked dt).steady :=
  congrArg (fun z : State => { z with clk := z.clk.ticked dt }) h

theorem advance_clk (dt : Nat) (s : State) : (advance dt s).clk = s.clk.ticked dt := by
  unfold advance Clk.ticked
  split <;> rfl

/-- Passing time touches the engine count, the DCOs, the timebases, the outputs and the event controller alone. -/
theorem advance_apart (dt : Nat) (s : State) :
    { advance dt s with tx := s.tx, clk := s.clk, dp := s.dp, tb := s.tb, ou := s.ou, ev := s.ev } = s := by
  unfold advance
  split <;> rfl

theorem advance_steady (dt : Nat) (s : State) : (advance dt s).steady = (s.ticked dt).steady := by
  unfold advance State.ticked Clk.ticked
  split <;> rfl

theorem nextCycle_steady (commit mode sel : Bool) (s : State) : (nextCycle commit mode sel s).steady = s.steady := by
  have h1 : (if commit then commitNow s else s).steady = s.steady := by
    split
    · exact commitNow_steady s
    · rfl
  unfold nextCycle
  dsimp only
  generalize (if commit then commitNow s else s) = a at *
  have h2 : (if sel then evaluateSelectors a else a).steady = a.steady := by
    split
    · exact evaluateSelectors_steady a
    · rfl
  generalize (if sel then evaluateSelectors a else a) = b at *
  have h3 : (if mode then settleMode b else b).steady = b.steady := by
    split
    · exact steady_of_rest (settleMode_rest b)
    · rfl
  exact (steady_of_rest (settle_rest _)).trans (h3.trans (h2.trans h1))

theorem passCycles_steady (n dt : Nat) (s : State) : (passCycles n dt s).steady = (s.ticked dt).steady := by
  induction n generalizing dt s with
  | zero => exact advance_steady dt s
  | succ n ih =>
    unfold passCycles
    split
    · next h =>
      have hd : 1 + (dt - 1) = dt := by
        have : 0 < dt := by
          simp at h
          exact h.2
        omega
      rw [ih, steady_ticked (dt - 1) ((nextCycle_steady _ _ _ _).trans
        ((steady_of_rest (takeSettings_rest _)).trans (advance_steady 1 s)))]
      unfold State.ticked
      dsimp only
      rw [Clk.ticked_add, hd]
    · exact advance_steady dt s

/-- Passing time moves the engine count by its length and touches nothing of the rest but the synthesizer, the outputs and what settles. -/
theorem elapse_steady (dt : Nat) (s : State) : (elapse dt s).steady = (s.ticked dt).steady :=
  (steady_of_rest (noteTargets_rest true _)).trans (passCycles_steady 4 dt s)

/-- Where nothing waits for the next cycle, time passes in one piece. -/
theorem elapse_plain (dt : Nat) (s : State) (h : nextCycleDue s = false) : elapse dt s = noteTargets true (advance dt s) := by
  unfold elapse pass passCycles
  rw [h]
  rfl

/-- No time passes. -/
theorem elapse_zero (s : State) : elapse 0 s = noteTargets true (advance 0 s) := by
  unfold elapse pass passCycles
  simp

/-- A state but for the event controller, the calendar and the frames sent. -/
def apartFrom (s : State) (ev : Ev) (sc : Sc) : State := { s with ev := ev, sc := sc }

theorem foldl_apart {α : Type} {f : State → α → State} (h : ∀ s a ev sc, apartFrom (f s a) ev sc = apartFrom s ev sc) (l : List α) (s : State)
    (ev : Ev) (sc : Sc) : apartFrom (l.foldl f s) ev sc = apartFrom s ev sc := by
  induction l generalizing s with
  | nil => rfl
  | cons a l ih => rw [List.foldl_cons, ih, h]

theorem raiseIf_apart (b : Bool) (n : Nat) (s : State) (ev : Ev) (sc : Sc) : apartFrom (raiseIf b n s) ev sc = apartFrom s ev sc := by
  cases b <;> rfl

theorem completeFrame_apart (k : Nat) (a f t : Rat) (s : State) (ev : Ev) (sc : Sc) :
    apartFrom (completeFrame k a f t s) ev sc = apartFrom s ev sc := by
  unfold completeFrame
  dsimp only
  rw [raiseIf_apart]
  split <;> rfl

/-- What the servo notes touches the event controller and the calendar alone (R338). -/
theorem noteTargets_apart (back : Bool) (s : State) (ev : Ev) (sc : Sc) : apartFrom (noteTargets back s) ev sc = apartFrom s ev sc := by
  unfold noteTargets
  refine foldl_apart (fun s k ev sc => ?_) _ _ _ _
  unfold noteTarget completeFrames
  dsimp only
  exact foldl_apart (fun s q ev sc => completeFrame_apart _ _ _ _ _ _ _) _ _ _ _

end Sys2Proof.Machine
end

