-- ==== Sys2Proof/Laws/Finish.lean ====
section
/-! SUPPORT. What follows a command, register group by register group: the parts that it never touches. -/

namespace Sys2Proof.Machine

@[simp] theorem finish_pending (s : State) : (finish s).pending = s.pending :=
  have h := congrArg (fun t : State => t.pending) (finish_rest s); h
@[simp] theorem finish_nv (s : State) : (finish s).nv = s.nv :=
  have h := congrArg (fun t : State => t.nv) (finish_rest s); h
@[simp] theorem finish_nvc (s : State) : (finish s).nvc = s.nvc :=
  have h := congrArg (fun t : State => t.nvc) (finish_rest s); h
@[simp] theorem finish_pwr (s : State) : (finish s).pwr = s.pwr :=
  have h := congrArg (fun t : State => t.pwr) (finish_rest s); h
@[simp] theorem finish_clk (s : State) : (finish s).clk = s.clk :=
  have h := congrArg (fun t : State => t.clk) (finish_rest s); h
@[simp] theorem finish_cores (s : State) : (finish s).cores = s.cores :=
  have h := congrArg (fun t : State => t.cores) (finish_rest s); h
@[simp] theorem finish_stoppedAt (s : State) : (finish s).stoppedAt = s.stoppedAt :=
  have h := congrArg (fun t : State => t.stoppedAt) (finish_rest s); h
@[simp] theorem finish_fc (s : State) : (finish s).fc = s.fc :=
  have h := congrArg (fun t : State => t.fc) (finish_rest s); h
@[simp] theorem finish_tc (s : State) : (finish s).tc = s.tc :=
  have h := congrArg (fun t : State => t.tc) (finish_rest s); h
@[simp] theorem finish_ax (s : State) : (finish s).ax = s.ax :=
  have h := congrArg (fun t : State => t.ax) (finish_rest s); h
@[simp] theorem finish_jr (s : State) : (finish s).jr = s.jr :=
  have h := congrArg (fun t : State => t.jr) (finish_rest s); h
@[simp] theorem finish_sram (s : State) : (finish s).sram = s.sram :=
  have h := congrArg (fun t : State => t.sram) (finish_rest s); h
@[simp] theorem finish_tap (s : State) : (finish s).tap = s.tap :=
  have h := congrArg (fun t : State => t.tap) (finish_rest s); h
@[simp] theorem finish_free (s : State) : (finish s).free = s.free :=
  have h := congrArg (fun t : State => t.free) (finish_rest s); h

/-! ## `md` -/

@[simp] theorem finish_md_ovenReady (s : State) : (finish s).md.ovenReady = s.md.ovenReady :=
  have h := congrArg (fun t : State => t.md.ovenReady) (finish_rest s); h
@[simp] theorem finish_md_ovenReadyAt (s : State) : (finish s).md.ovenReadyAt = s.md.ovenReadyAt :=
  have h := congrArg (fun t : State => t.md.ovenReadyAt) (finish_rest s); h
@[simp] theorem finish_md_ocxoSuspect (s : State) : (finish s).md.ocxoSuspect = s.md.ocxoSuspect :=
  have h := congrArg (fun t : State => t.md.ocxoSuspect) (finish_rest s); h
@[simp] theorem finish_md_fwSlot (s : State) : (finish s).md.fwSlot = s.md.fwSlot :=
  have h := congrArg (fun t : State => t.md.fwSlot) (finish_rest s); h
@[simp] theorem finish_md_bootRom (s : State) : (finish s).md.bootRom = s.md.bootRom :=
  have h := congrArg (fun t : State => t.md.bootRom) (finish_rest s); h
@[simp] theorem finish_md_startDuration (s : State) : (finish s).md.startDuration = s.md.startDuration :=
  have h := congrArg (fun t : State => t.md.startDuration) (finish_rest s); h
@[simp] theorem finish_md_configSource (s : State) : (finish s).md.configSource = s.md.configSource :=
  have h := congrArg (fun t : State => t.md.configSource) (finish_rest s); h
@[simp] theorem finish_md_limitSource (s : State) : (finish s).md.limitSource = s.md.limitSource :=
  have h := congrArg (fun t : State => t.md.limitSource) (finish_rest s); h
@[simp] theorem finish_md_bistFails (s : State) : (finish s).md.bistFails = s.md.bistFails :=
  have h := congrArg (fun t : State => t.md.bistFails) (finish_rest s); h
@[simp] theorem finish_md_lastShutdown (s : State) : (finish s).md.lastShutdown = s.md.lastShutdown :=
  have h := congrArg (fun t : State => t.md.lastShutdown) (finish_rest s); h
@[simp] theorem finish_md_levels (s : State) : (finish s).md.levels = s.md.levels :=
  have h := congrArg (fun t : State => t.md.levels) (finish_rest s); h
@[simp] theorem finish_md_phase (s : State) : (finish s).md.phase = s.md.phase :=
  have h := congrArg (fun t : State => t.md.phase) (finish_rest s); h
@[simp] theorem finish_md_startedAt (s : State) : (finish s).md.startedAt = s.md.startedAt :=
  have h := congrArg (fun t : State => t.md.startedAt) (finish_rest s); h
@[simp] theorem finish_md_holdEnd (s : State) : (finish s).md.holdEnd = s.md.holdEnd :=
  have h := congrArg (fun t : State => t.md.holdEnd) (finish_rest s); h
@[simp] theorem finish_md_limitsOk (s : State) : (finish s).md.limitsOk = s.md.limitsOk :=
  have h := congrArg (fun t : State => t.md.limitsOk) (finish_rest s); h
@[simp] theorem finish_md_sealed (s : State) : (finish s).md.sealed = s.md.sealed :=
  have h := congrArg (fun t : State => t.md.sealed) (finish_rest s); h
@[simp] theorem finish_md_sleep (s : State) : (finish s).md.sleep = s.md.sleep :=
  have h := congrArg (fun t : State => t.md.sleep) (finish_rest s); h
@[simp] theorem finish_md_wakeLatched (s : State) : (finish s).md.wakeLatched = s.md.wakeLatched :=
  have h := congrArg (fun t : State => t.md.wakeLatched) (finish_rest s); h
@[simp] theorem finish_md_waking (s : State) : (finish s).md.waking = s.md.waking :=
  have h := congrArg (fun t : State => t.md.waking) (finish_rest s); h
@[simp] theorem finish_md_sleptFrom (s : State) : (finish s).md.sleptFrom = s.md.sleptFrom :=
  have h := congrArg (fun t : State => t.md.sleptFrom) (finish_rest s); h
@[simp] theorem finish_md_lastWakeCause (s : State) : (finish s).md.lastWakeCause = s.md.lastWakeCause :=
  have h := congrArg (fun t : State => t.md.lastWakeCause) (finish_rest s); h
@[simp] theorem finish_md_lastWakePort (s : State) : (finish s).md.lastWakePort = s.md.lastWakePort :=
  have h := congrArg (fun t : State => t.md.lastWakePort) (finish_rest s); h
@[simp] theorem finish_md_wakePinHigh (s : State) : (finish s).md.wakePinHigh = s.md.wakePinHigh :=
  have h := congrArg (fun t : State => t.md.wakePinHigh) (finish_rest s); h
@[simp] theorem finish_md_grossBad (s : State) : (finish s).md.grossBad = s.md.grossBad :=
  have h := congrArg (fun t : State => t.md.grossBad) (finish_rest s); h
@[simp] theorem finish_md_fineBad (s : State) : (finish s).md.fineBad = s.md.fineBad :=
  have h := congrArg (fun t : State => t.md.fineBad) (finish_rest s); h

/-! ## `rf` -/

@[simp] theorem finish_rf_gnss (s : State) : (finish s).rf.gnss = s.rf.gnss :=
  have h := congrArg (fun t : State => t.rf.gnss) (finish_rest s); h
@[simp] theorem finish_rf_stopped (s : State) : (finish s).rf.stopped = s.rf.stopped :=
  have h := congrArg (fun t : State => t.rf.stopped) (finish_rest s); h

/-! ## `ln` -/

@[simp] theorem finish_ln_model (s : State) : (finish s).ln.model = s.ln.model :=
  have h := congrArg (fun t : State => t.ln.model) (finish_rest s); h
@[simp] theorem finish_ln_work (s : State) : (finish s).ln.work = s.ln.work :=
  have h := congrArg (fun t : State => t.ln.work) (finish_rest s); h
@[simp] theorem finish_ln_commits (s : State) : (finish s).ln.commits = s.ln.commits :=
  have h := congrArg (fun t : State => t.ln.commits) (finish_rest s); h
@[simp] theorem finish_ln_tInt (s : State) : (finish s).ln.tInt = s.ln.tInt :=
  have h := congrArg (fun t : State => t.ln.tInt) (finish_rest s); h
@[simp] theorem finish_ln_pInt (s : State) : (finish s).ln.pInt = s.ln.pInt :=
  have h := congrArg (fun t : State => t.ln.pInt) (finish_rest s); h
@[simp] theorem finish_ln_f (s : State) : (finish s).ln.f = s.ln.f :=
  have h := congrArg (fun t : State => t.ln.f) (finish_rest s); h
@[simp] theorem finish_ln_extrap (s : State) : (finish s).ln.extrap = s.ln.extrap :=
  have h := congrArg (fun t : State => t.ln.extrap) (finish_rest s); h
@[simp] theorem finish_ln_unmod (s : State) : (finish s).ln.unmod = s.ln.unmod :=
  have h := congrArg (fun t : State => t.ln.unmod) (finish_rest s); h
@[simp] theorem finish_ln_sums (s : State) : (finish s).ln.sums = s.ln.sums :=
  have h := congrArg (fun t : State => t.ln.sums) (finish_rest s); h
@[simp] theorem finish_ln_hours (s : State) : (finish s).ln.hours = s.ln.hours :=
  have h := congrArg (fun t : State => t.ln.hours) (finish_rest s); h

/-! ## `sn` -/

@[simp] theorem finish_sn_core (s : State) : (finish s).sn.core = s.sn.core :=
  have h := congrArg (fun t : State => t.sn.core) (finish_rest s); h
@[simp] theorem finish_sn_cards (s : State) : (finish s).sn.cards = s.sn.cards :=
  have h := congrArg (fun t : State => t.sn.cards) (finish_rest s); h
@[simp] theorem finish_sn_cut (s : State) : (finish s).sn.cut = s.sn.cut :=
  have h := congrArg (fun t : State => t.sn.cut) (finish_rest s); h
@[simp] theorem finish_sn_lastCommit (s : State) : (finish s).sn.lastCommit = s.sn.lastCommit :=
  have h := congrArg (fun t : State => t.sn.lastCommit) (finish_rest s); h

/-! ## `ou` -/

@[simp] theorem finish_ou_heartbeatAt (s : State) : (finish s).ou.heartbeatAt = s.ou.heartbeatAt :=
  have h := congrArg (fun t : State => t.ou.heartbeatAt) (finish_rest s); h
@[simp] theorem finish_ou_heartbeatClosed (s : State) : (finish s).ou.heartbeatClosed = s.ou.heartbeatClosed :=
  have h := congrArg (fun t : State => t.ou.heartbeatClosed) (finish_rest s); h
@[simp] theorem finish_ou_heartbeatLapses (s : State) : (finish s).ou.heartbeatLapses = s.ou.heartbeatLapses :=
  have h := congrArg (fun t : State => t.ou.heartbeatLapses) (finish_rest s); h

/-! ## `pt` -/

@[simp] theorem finish_pt_learned (s : State) : (finish s).pt.learned = s.pt.learned :=
  have h := congrArg (fun t : State => t.pt.learned) (finish_rest s); h

/-! ## `ts` -/

@[simp] theorem finish_ts_served (s : State) : (finish s).ts.served = s.ts.served :=
  have h := congrArg (fun t : State => t.ts.served) (finish_rest s); h
@[simp] theorem finish_ts_ring (s : State) : (finish s).ts.ring = s.ts.ring :=
  have h := congrArg (fun t : State => t.ts.ring) (finish_rest s); h
@[simp] theorem finish_ts_peak (s : State) : (finish s).ts.peak = s.ts.peak :=
  have h := congrArg (fun t : State => t.ts.peak) (finish_rest s); h
@[simp] theorem finish_ts_nextSeq (s : State) : (finish s).ts.nextSeq = s.ts.nextSeq :=
  have h := congrArg (fun t : State => t.ts.nextSeq) (finish_rest s); h
@[simp] theorem finish_ts_anchorsDropped (s : State) : (finish s).ts.anchorsDropped = s.ts.anchorsDropped :=
  have h := congrArg (fun t : State => t.ts.anchorsDropped) (finish_rest s); h
@[simp] theorem finish_ts_markersLost (s : State) : (finish s).ts.markersLost = s.ts.markersLost :=
  have h := congrArg (fun t : State => t.ts.markersLost) (finish_rest s); h
@[simp] theorem finish_ts_streamed (s : State) : (finish s).ts.streamed = s.ts.streamed :=
  have h := congrArg (fun t : State => t.ts.streamed) (finish_rest s); h
@[simp] theorem finish_ts_tbSec (s : State) : (finish s).ts.tbSec = s.ts.tbSec :=
  have h := congrArg (fun t : State => t.ts.tbSec) (finish_rest s); h

/-! ## `sc` -/

@[simp] theorem finish_sc_win (s : State) : (finish s).sc.win = s.sc.win :=
  have h := congrArg (fun t : State => t.sc.win) (finish_rest s); h
@[simp] theorem finish_sc_lastStatus (s : State) : (finish s).sc.lastStatus = s.sc.lastStatus :=
  have h := congrArg (fun t : State => t.sc.lastStatus) (finish_rest s); h
@[simp] theorem finish_sc_overruns (s : State) : (finish s).sc.overruns = s.sc.overruns :=
  have h := congrArg (fun t : State => t.sc.overruns) (finish_rest s); h
@[simp] theorem finish_sc_firedAt (s : State) : (finish s).sc.firedAt = s.sc.firedAt :=
  have h := congrArg (fun t : State => t.sc.firedAt) (finish_rest s); h
@[simp] theorem finish_sc_fired (s : State) : (finish s).sc.fired = s.sc.fired :=
  have h := congrArg (fun t : State => t.sc.fired) (finish_rest s); h
@[simp] theorem finish_sc_stopped (s : State) : (finish s).sc.stopped = s.sc.stopped :=
  have h := congrArg (fun t : State => t.sc.stopped) (finish_rest s); h

/-! ## `dop` -/

@[simp] theorem finish_dop_active (s : State) : (finish s).dop.active = s.dop.active :=
  have h := congrArg (fun t : State => t.dop.active) (finish_rest s); h
@[simp] theorem finish_dop_addressInUse (s : State) : (finish s).dop.addressInUse = s.dop.addressInUse :=
  have h := congrArg (fun t : State => t.dop.addressInUse) (finish_rest s); h
@[simp] theorem finish_dop_wx (s : State) : (finish s).dop.wx = s.dop.wx :=
  have h := congrArg (fun t : State => t.dop.wx) (finish_rest s); h
@[simp] theorem finish_dop_rx (s : State) : (finish s).dop.rx = s.dop.rx :=
  have h := congrArg (fun t : State => t.dop.rx) (finish_rest s); h
@[simp] theorem finish_dop_subs (s : State) : (finish s).dop.subs = s.dop.subs :=
  have h := congrArg (fun t : State => t.dop.subs) (finish_rest s); h
@[simp] theorem finish_dop_requests (s : State) : (finish s).dop.requests = s.dop.requests :=
  have h := congrArg (fun t : State => t.dop.requests) (finish_rest s); h
@[simp] theorem finish_dop_discarded (s : State) : (finish s).dop.discarded = s.dop.discarded :=
  have h := congrArg (fun t : State => t.dop.discarded) (finish_rest s); h
@[simp] theorem finish_dop_queueDrops (s : State) : (finish s).dop.queueDrops = s.dop.queueDrops :=
  have h := congrArg (fun t : State => t.dop.queueDrops) (finish_rest s); h
@[simp] theorem finish_dop_cachedReplies (s : State) : (finish s).dop.cachedReplies = s.dop.cachedReplies :=
  have h := congrArg (fun t : State => t.dop.cachedReplies) (finish_rest s); h
@[simp] theorem finish_dop_eventPackets (s : State) : (finish s).dop.eventPackets = s.dop.eventPackets :=
  have h := congrArg (fun t : State => t.dop.eventPackets) (finish_rest s); h

/-! ## `cfg` -/

@[simp] theorem finish_cfg_sy (s : State) : (finish s).cfg.sy = s.cfg.sy :=
  have h := congrArg (fun t : State => t.cfg.sy) (finish_rest s); h
@[simp] theorem finish_cfg_pw (s : State) : (finish s).cfg.pw = s.cfg.pw :=
  have h := congrArg (fun t : State => t.cfg.pw) (finish_rest s); h
@[simp] theorem finish_cfg_fc (s : State) : (finish s).cfg.fc = s.cfg.fc :=
  have h := congrArg (fun t : State => t.cfg.fc) (finish_rest s); h
@[simp] theorem finish_cfg_ev (s : State) : (finish s).cfg.ev = s.cfg.ev :=
  have h := congrArg (fun t : State => t.cfg.ev) (finish_rest s); h
@[simp] theorem finish_cfg_refs (s : State) : (finish s).cfg.refs = s.cfg.refs :=
  have h := congrArg (fun t : State => t.cfg.refs) (finish_rest s); h
@[simp] theorem finish_cfg_lrefs (s : State) : (finish s).cfg.lrefs = s.cfg.lrefs :=
  have h := congrArg (fun t : State => t.cfg.lrefs) (finish_rest s); h
@[simp] theorem finish_cfg_gnss (s : State) : (finish s).cfg.gnss = s.cfg.gnss :=
  have h := congrArg (fun t : State => t.cfg.gnss) (finish_rest s); h
@[simp] theorem finish_cfg_sels (s : State) : (finish s).cfg.sels = s.cfg.sels :=
  have h := congrArg (fun t : State => t.cfg.sels) (finish_rest s); h
@[simp] theorem finish_cfg_dp (s : State) : (finish s).cfg.dp = s.cfg.dp :=
  have h := congrArg (fun t : State => t.cfg.dp) (finish_rest s); h
@[simp] theorem finish_cfg_ldaSelect (s : State) : (finish s).cfg.ldaSelect = s.cfg.ldaSelect :=
  have h := congrArg (fun t : State => t.cfg.ldaSelect) (finish_rest s); h
@[simp] theorem finish_cfg_ln (s : State) : (finish s).cfg.ln = s.cfg.ln :=
  have h := congrArg (fun t : State => t.cfg.ln) (finish_rest s); h
@[simp] theorem finish_cfg_sn (s : State) : (finish s).cfg.sn = s.cfg.sn :=
  have h := congrArg (fun t : State => t.cfg.sn) (finish_rest s); h
@[simp] theorem finish_cfg_commitTb (s : State) : (finish s).cfg.commitTb = s.cfg.commitTb :=
  have h := congrArg (fun t : State => t.cfg.commitTb) (finish_rest s); h
@[simp] theorem finish_cfg_commitEdgeOut (s : State) : (finish s).cfg.commitEdgeOut = s.cfg.commitEdgeOut :=
  have h := congrArg (fun t : State => t.cfg.commitEdgeOut) (finish_rest s); h
@[simp] theorem finish_cfg_cardTempWindow (s : State) : (finish s).cfg.cardTempWindow = s.cfg.cardTempWindow :=
  have h := congrArg (fun t : State => t.cfg.cardTempWindow) (finish_rest s); h
@[simp] theorem finish_cfg_ou (s : State) : (finish s).cfg.ou = s.cfg.ou :=
  have h := congrArg (fun t : State => t.cfg.ou) (finish_rest s); h
@[simp] theorem finish_cfg_lim (s : State) : (finish s).cfg.lim = s.cfg.lim :=
  have h := congrArg (fun t : State => t.cfg.lim) (finish_rest s); h
@[simp] theorem finish_cfg_tb (s : State) : (finish s).cfg.tb = s.cfg.tb :=
  have h := congrArg (fun t : State => t.cfg.tb) (finish_rest s); h
@[simp] theorem finish_cfg_dom (s : State) : (finish s).cfg.dom = s.cfg.dom :=
  have h := congrArg (fun t : State => t.cfg.dom) (finish_rest s); h
@[simp] theorem finish_cfg_pt (s : State) : (finish s).cfg.pt = s.cfg.pt :=
  have h := congrArg (fun t : State => t.cfg.pt) (finish_rest s); h
@[simp] theorem finish_cfg_inst (s : State) : (finish s).cfg.inst = s.cfg.inst :=
  have h := congrArg (fun t : State => t.cfg.inst) (finish_rest s); h
@[simp] theorem finish_cfg_ts (s : State) : (finish s).cfg.ts = s.cfg.ts :=
  have h := congrArg (fun t : State => t.cfg.ts) (finish_rest s); h
@[simp] theorem finish_cfg_tc (s : State) : (finish s).cfg.tc = s.cfg.tc :=
  have h := congrArg (fun t : State => t.cfg.tc) (finish_rest s); h
@[simp] theorem finish_cfg_ax (s : State) : (finish s).cfg.ax = s.cfg.ax :=
  have h := congrArg (fun t : State => t.cfg.ax) (finish_rest s); h
@[simp] theorem finish_cfg_act (s : State) : (finish s).cfg.act = s.cfg.act :=
  have h := congrArg (fun t : State => t.cfg.act) (finish_rest s); h
@[simp] theorem finish_cfg_servo (s : State) : (finish s).cfg.servo = s.cfg.servo :=
  have h := congrArg (fun t : State => t.cfg.servo) (finish_rest s); h
@[simp] theorem finish_cfg_nv (s : State) : (finish s).cfg.nv = s.cfg.nv :=
  have h := congrArg (fun t : State => t.cfg.nv) (finish_rest s); h

end Sys2Proof.Machine
end

