-- ==== Sys2Proof/Laws/Frames.lean ====
section
/-! SUPPORT. Which operations leave the queue of commands and the processor SRAM alone. -/

namespace Sys2Proof.Machine

theorem frame_trans {s t u : State}
    (h1 : u.pending = t.pending ∧ u.sram = t.sram)
    (h2 : t.pending = s.pending ∧ t.sram = s.sram) :
    u.pending = s.pending ∧ u.sram = s.sram :=
  ⟨h1.1.trans h2.1, h1.2.trans h2.2⟩
theorem foldl_frame {α : Type} {f : State → α → State}
    (h : ∀ s a, (f s a).pending = s.pending ∧ (f s a).sram = s.sram)
    (l : List α) (s : State) :
    (l.foldl f s).pending = s.pending ∧ (l.foldl f s).sram = s.sram := by
  induction l generalizing s with
  | nil => exact ⟨rfl, rfl⟩
  | cons a l ih => exact frame_trans (ih (f s a)) (h s a)
@[simp] theorem ite_pending (c : Prop) [Decidable c] (a b : State) : (if c then a else b).pending = if c then a.pending else b.pending := apply_ite (fun s : State => s.pending) c a b
@[simp] theorem ite_sram (c : Prop) [Decidable c] (a b : State) : (if c then a else b).sram = if c then a.sram else b.sram := apply_ite (fun s : State => s.sram) c a b
theorem frame_ite {c : Prop} [Decidable c] {s a b : State}
    (h1 : c → a.pending = s.pending ∧ a.sram = s.sram)
    (h2 : ¬ c → b.pending = s.pending ∧ b.sram = s.sram) :
    (if c then a else b).pending = s.pending ∧ (if c then a else b).sram = s.sram := by
  split
  · exact h1 ‹_›
  · exact h2 ‹_›
theorem frame_refl (s : State) : s.pending = s.pending ∧ s.sram = s.sram := ⟨rfl, rfl⟩
theorem foldl_fst_frame {α β : Type} {f : State × β → α → State × β}
    (h : ∀ x a, (f x a).1.pending = x.1.pending ∧ (f x a).1.sram = x.1.sram)
    (l : List α) (x : State × β) : (l.foldl f x).1.pending = x.1.pending ∧ (l.foldl f x).1.sram = x.1.sram := by
  induction l generalizing x with
  | nil => exact ⟨rfl, rfl⟩
  | cons a l ih => exact frame_trans (ih (f x a)) (h x a)
theorem frame_of_rest {s t : State} (h : t.rest = s.rest) : t.pending = s.pending ∧ t.sram = s.sram := by
  have a := congrArg (fun z : State => z.pending) h
  have b := congrArg (fun z : State => z.sram) h
  exact ⟨a, b⟩
theorem frame_of_steady {s t : State} {dt : Nat} (h : t.steady = (s.ticked dt).steady) : t.pending = s.pending ∧ t.sram = s.sram := by
  have a := congrArg (fun z : State => z.pending) h
  have b := congrArg (fun z : State => z.sram) h
  exact ⟨a, b⟩

@[simp] theorem advance_frame (dt : Nat) (s : State) :
    (advance dt s).pending = s.pending ∧ (advance dt s).sram = s.sram := by
  simp [advance]

@[simp] theorem raise_frame (n : Nat) (s : State) :
    (raise n s).pending = s.pending ∧ (raise n s).sram = s.sram := by
  exact ⟨rfl, rfl⟩

@[simp] theorem raiseIf_frame (b : Bool) (n : Nat) (s : State) :
    (raiseIf b n s).pending = s.pending ∧ (raiseIf b n s).sram = s.sram := by
  simp [raiseIf]

@[simp] theorem level_frame (n : Nat) (b : Bool) (s : State) :
    (level n b s).pending = s.pending ∧ (level n b s).sram = s.sram := by
  exact ⟨rfl, rfl⟩

@[simp] theorem State_setTrg_frame (s : State) (n : Nat) (f : Trg → Trg) :
    (State.setTrg s n f).pending = s.pending ∧ (State.setTrg s n f).sram = s.sram := by
  exact ⟨rfl, rfl⟩

@[simp] theorem riseTrg_frame (s : State) (n : Nat) (pass : Trg → Trg) (hold : Trg → Trg) :
    (riseTrg s n pass hold).pending = s.pending ∧ (riseTrg s n pass hold).sram = s.sram := by
  simp [riseTrg]

@[simp] theorem firePulse_frame (n : Nat) (width : Nat) (s : State) :
    (firePulse n width s).pending = s.pending ∧ (firePulse n width s).sram = s.sram := by
  simp [firePulse]

@[simp] theorem fireSet_frame (n : Nat) (s : State) :
    (fireSet n s).pending = s.pending ∧ (fireSet n s).sram = s.sram := by
  simp [fireSet]

@[simp] theorem fireClear_frame (n : Nat) (s : State) :
    (fireClear n s).pending = s.pending ∧ (fireClear n s).sram = s.sram := by
  exact ⟨rfl, rfl⟩

@[simp] theorem stopTriggers_frame (s : State) :
    (stopTriggers s).pending = s.pending ∧ (stopTriggers s).sram = s.sram := by
  exact ⟨rfl, rfl⟩

@[simp] theorem State_setWin_frame (s : State) (n : Nat) (f : Win → Win) :
    (State.setWin s n f).pending = s.pending ∧ (State.setWin s n f).sram = s.sram := by
  exact ⟨rfl, rfl⟩

@[simp] theorem closeWindows_frame (s : State) :
    (closeWindows s).pending = s.pending ∧ (closeWindows s).sram = s.sram := by
  exact ⟨rfl, rfl⟩

@[simp] theorem State_setAct_frame (s : State) (a : Nat) (f : Act → Act) :
    (State.setAct s a f).pending = s.pending ∧ (State.setAct s a f).sram = s.sram := by
  exact ⟨rfl, rfl⟩

@[simp] theorem statusEvent_frame (a : Nat) (s : State) :
    (statusEvent a s).pending = s.pending ∧ (statusEvent a s).sram = s.sram := by
  exact ⟨rfl, rfl⟩

@[simp] theorem endAction_frame (a : Nat) (st : ActState) (s : State) :
    (endAction a st s).pending = s.pending ∧ (endAction a st s).sram = s.sram := by
  exact ⟨rfl, rfl⟩

@[simp] theorem skipAction_frame (a : Nat) (d : Int) (lam : Rat) (s : State) :
    (skipAction a d lam s).pending = s.pending ∧ (skipAction a d lam s).sram = s.sram := by
  simp [skipAction]

@[simp] theorem applyPolicy_frame (a : Nat) (ns : Nat) (afterLate : Bool) (s : State) :
    (applyPolicy a ns afterLate s).pending = s.pending ∧ (applyPolicy a ns afterLate s).sram = s.sram := by
  simp [applyPolicy]

@[simp] theorem noteSign_frame (a : Nat) (s : State) :
    (noteSign a s).pending = s.pending ∧ (noteSign a s).sram = s.sram := by
  exact ⟨rfl, rfl⟩

@[simp] theorem fireNext_frame (a : Nat) (s : State) :
    (fireNext a s).pending = s.pending ∧ (fireNext a s).sram = s.sram := by
  unfold fireNext
  repeat' (first
    | (with_reducible refine frame_ite (fun _ => ?_) (fun _ => ?_))
    | (with_reducible refine frame_trans (State_setAct_frame _ _ _) ?_)
    | (with_reducible refine frame_trans (foldl_frame (fun s a => ?_) _ _) ?_)
    | (with_reducible refine foldl_frame (fun s a => ?_) _ _)
    | (with_reducible exact frame_refl _))

@[simp] theorem reevaluate_frame (a : Nat) (s : State) :
    (reevaluate a s).pending = s.pending ∧ (reevaluate a s).sram = s.sram := by
  simp [reevaluate]

theorem armAction_frame (a : Nat) (s : State) :
    (armAction a s).2.pending = s.pending ∧ (armAction a s).2.sram = s.sram := by
  unfold armAction
  dsimp only
  split
  · exact ⟨rfl, rfl⟩
  · split
    · exact ⟨rfl, rfl⟩
    · split
      · exact ⟨rfl, rfl⟩
      · exact frame_trans (noteSign_frame _ _) (frame_trans (applyPolicy_frame _ _ _ _) ⟨rfl, rfl⟩)

@[simp] theorem disarmAction_frame (a : Nat) (s : State) :
    (disarmAction a s).pending = s.pending ∧ (disarmAction a s).sram = s.sram := by
  exact ⟨rfl, rfl⟩

@[simp] theorem actionEffect_frame (a : Nat) (late : Bool) (s : State) :
    (actionEffect a late s).pending = s.pending ∧ (actionEffect a late s).sram = s.sram := by
  simp [actionEffect]

@[simp] theorem servoMiss_frame (k : Nat) (s : State) :
    (servoMiss k s).pending = s.pending ∧ (servoMiss k s).sram = s.sram := by
  exact ⟨rfl, rfl⟩

@[simp] theorem openFrame_frame (a : Nat) (target : BitVec 64) (s : State) :
    (openFrame a target s).pending = s.pending ∧ (openFrame a target s).sram = s.sram := by
  unfold openFrame
  repeat' (first
    | with_reducible exact ⟨rfl, rfl⟩
    | (with_reducible refine frame_ite (fun _ => ?_) (fun _ => ?_))
    | (with_reducible refine frame_trans (servoMiss_frame _ _) ?_)
    | (with_reducible refine frame_trans (foldl_frame (fun s a => ?_) _ _) ?_)
    | (with_reducible refine foldl_frame (fun s a => ?_) _ _)
    | dsimp only
    | split)

@[simp] theorem moveOn_frame (a : Nat) (wasLate : Bool) (s : State) :
    (moveOn a wasLate s).pending = s.pending ∧ (moveOn a wasLate s).sram = s.sram := by
  simp [moveOn]

@[simp] theorem fireAction_frame (a : Nat) (overrun : Bool) (s : State) :
    (fireAction a overrun s).pending = s.pending ∧ (fireAction a overrun s).sram = s.sram := by
  unfold fireAction
  repeat' (first
    | with_reducible exact ⟨rfl, rfl⟩
    | (with_reducible refine frame_ite (fun _ => ?_) (fun _ => ?_))
    | (with_reducible refine frame_trans (actionEffect_frame _ _ _) ?_)
    | (with_reducible refine frame_trans (State_setAct_frame _ _ _) ?_)
    | (with_reducible refine frame_trans (moveOn_frame _ _ _) ?_)
    | (with_reducible refine frame_trans (openFrame_frame _ _ _) ?_)
    | (with_reducible refine frame_trans (raiseIf_frame _ _ _) ?_))

@[simp] theorem fireList_frame (l : List Nat) (s : State) :
    (fireList l s).pending = s.pending ∧ (fireList l s).sram = s.sram := by
  unfold fireList
  repeat' (first
    | with_reducible exact ⟨rfl, rfl⟩
    | (with_reducible refine frame_ite (fun _ => ?_) (fun _ => ?_))
    | (with_reducible refine frame_trans (fireAction_frame _ _ _) ?_)
    | (with_reducible refine frame_trans (foldl_frame (fun s a => ?_) _ _) ?_))

@[simp] theorem delayList_frame (l : List Nat) (s : State) :
    (delayList l s).pending = s.pending ∧ (delayList l s).sram = s.sram := by
  unfold delayList
  repeat' (first
    | (with_reducible refine frame_ite (fun _ => ?_) (fun _ => ?_))
    | (with_reducible refine frame_trans (raise_frame _ _) ?_)
    | (with_reducible refine frame_trans (State_setAct_frame _ _ _) ?_)
    | (with_reducible refine frame_trans (foldl_frame (fun s a => ?_) _ _) ?_)
    | (with_reducible refine foldl_frame (fun s a => ?_) _ _)
    | (with_reducible exact frame_refl _))

@[simp] theorem suspendAxis_frame (axis : Nat) (s : State) :
    (suspendAxis axis s).pending = s.pending ∧ (suspendAxis axis s).sram = s.sram := by
  unfold suspendAxis
  refine foldl_frame (fun _ _ => ?_) _ _
  first
    | with_reducible exact ⟨rfl, rfl⟩

@[simp] theorem resumeAxis_frame (axis : Nat) (s : State) :
    (resumeAxis axis s).pending = s.pending ∧ (resumeAxis axis s).sram = s.sram := by
  unfold resumeAxis
  refine foldl_frame (fun _ _ => ?_) _ _
  first
    | with_reducible exact ⟨rfl, rfl⟩
    | simp

@[simp] theorem setAxisState_frame (a : Nat) (st : AxisState) (s : State) :
    (setAxisState a st s).pending = s.pending ∧ (setAxisState a st s).sram = s.sram := by
  simp [setAxisState]

@[simp] theorem rebaseAxis_frame (axis : Nat) (delta : BitVec 64) (s : State) :
    (rebaseAxis axis delta s).pending = s.pending ∧ (rebaseAxis axis delta s).sram = s.sram := by
  unfold rebaseAxis
  repeat' (first
    | with_reducible exact ⟨rfl, rfl⟩
    | (with_reducible refine frame_ite (fun _ => ?_) (fun _ => ?_))
    | (with_reducible refine frame_trans (raise_frame _ _) ?_)
    | (with_reducible refine frame_trans (State_setAct_frame _ _ _) ?_)
    | (with_reducible refine frame_trans (reevaluate_frame _ _) ?_)
    | (with_reducible refine frame_trans (foldl_frame (fun s a => ?_) _ _) ?_))

@[simp] theorem fenceCalendar_frame (s : State) :
    (fenceCalendar s).pending = s.pending ∧ (fenceCalendar s).sram = s.sram := by
  unfold fenceCalendar
  repeat' (first
    | (with_reducible refine frame_ite (fun _ => ?_) (fun _ => ?_))
    | (with_reducible refine frame_trans (closeWindows_frame _) ?_)
    | (with_reducible refine frame_trans (stopTriggers_frame _) ?_)
    | (with_reducible refine frame_trans (statusEvent_frame _ _) ?_)
    | (with_reducible refine frame_trans (foldl_frame (fun s a => ?_) _ _) ?_)
    | (with_reducible refine foldl_frame (fun s a => ?_) _ _)
    | (with_reducible exact frame_refl _))

@[simp] theorem State_setServo_frame (s : State) (k : Nat) (f : Servo → Servo) :
    (State.setServo s k f).pending = s.pending ∧ (State.setServo s k f).sram = s.sram := by
  exact ⟨rfl, rfl⟩

@[simp] theorem setLead_frame (k : Nat) (l : Nat) (s : State) :
    (setLead k l s).pending = s.pending ∧ (setLead k l s).sram = s.sram := by
  exact ⟨rfl, rfl⟩

@[simp] theorem enableServo_frame (k : Nat) (v : Nat) (s : State) :
    (enableServo k v s).pending = s.pending ∧ (enableServo k v s).sram = s.sram := by
  simp [enableServo]

@[simp] theorem completeFrame_frame (k : Nat) (a : Rat) (f : Rat) (target : Rat) (s : State) :
    (completeFrame k a f target s).pending = s.pending ∧ (completeFrame k a f target s).sram = s.sram := by
  simp [completeFrame]

@[simp] theorem completeFrames_frame (k : Nat) (s : State) :
    (completeFrames k s).pending = s.pending ∧ (completeFrames k s).sram = s.sram := by
  unfold completeFrames
  repeat' (first
    | (with_reducible refine frame_ite (fun _ => ?_) (fun _ => ?_))
    | (with_reducible refine frame_trans (completeFrame_frame _ _ _ _ _) ?_)
    | (with_reducible refine frame_trans (State_setServo_frame _ _ _) ?_)
    | (with_reducible refine frame_trans (foldl_frame (fun s a => ?_) _ _) ?_)
    | (with_reducible refine foldl_frame (fun s a => ?_) _ _)
    | (with_reducible exact frame_refl _))

@[simp] theorem exposingEdge_frame (k : Nat) (t : Rat) (s : State) :
    (exposingEdge k t s).pending = s.pending ∧ (exposingEdge k t s).sram = s.sram := by
  unfold exposingEdge
  repeat' (first
    | with_reducible exact ⟨rfl, rfl⟩
    | (with_reducible refine frame_ite (fun _ => ?_) (fun _ => ?_)))

@[simp] theorem closingEdge_frame (k : Nat) (t : Rat) (s : State) :
    (closingEdge k t s).pending = s.pending ∧ (closingEdge k t s).sram = s.sram := by
  unfold closingEdge
  try dsimp only
  (repeat' split) <;> first
    | with_reducible exact ⟨rfl, rfl⟩
    | simp

@[simp] theorem strobeEdge_frame (n : Nat) (falling : Bool) (t : Rat) (s : State) :
    (strobeEdge n falling t s).pending = s.pending ∧ (strobeEdge n falling t s).sram = s.sram := by
  unfold strobeEdge
  repeat' (first
    | with_reducible exact ⟨rfl, rfl⟩
    | (with_reducible refine frame_ite (fun _ => ?_) (fun _ => ?_))
    | (with_reducible refine frame_trans (exposingEdge_frame _ _ _) ?_)
    | (with_reducible refine frame_trans (closingEdge_frame _ _ _) ?_)
    | (with_reducible refine frame_trans (foldl_frame (fun s a => ?_) _ _) ?_))

@[simp] theorem strobeExpiry_frame (k : Nat) (s : State) :
    (strobeExpiry k s).pending = s.pending ∧ (strobeExpiry k s).sram = s.sram := by
  unfold strobeExpiry
  repeat' (first
    | (with_reducible refine frame_ite (fun _ => ?_) (fun _ => ?_))
    | (with_reducible refine frame_trans (servoMiss_frame _ _) ?_)
    | (with_reducible refine frame_trans (State_setServo_frame _ _ _) ?_)
    | (with_reducible refine frame_trans (foldl_frame (fun s a => ?_) _ _) ?_)
    | (with_reducible refine foldl_frame (fun s a => ?_) _ _)
    | (with_reducible exact frame_refl _))

@[simp] theorem noteTarget_frame (back : Bool) (s : State) (k : Nat) :
    (noteTarget back s k).pending = s.pending ∧ (noteTarget back s k).sram = s.sram := by
  unfold noteTarget
  try dsimp only
  (repeat' split) <;> first
    | with_reducible exact ⟨rfl, rfl⟩
    | simp

@[simp] theorem noteTargets_frame (back : Bool) (s : State) :
    (noteTargets back s).pending = s.pending ∧ (noteTargets back s).sram = s.sram := by
  unfold noteTargets
  refine foldl_frame (fun _ _ => ?_) _ _
  first
    | with_reducible exact ⟨rfl, rfl⟩
    | simp

@[simp] theorem State_setTsi_frame (s : State) (n : Nat) (f : Tsi → Tsi) :
    (State.setTsi s n f).pending = s.pending ∧ (State.setTsi s n f).sram = s.sram := by
  exact ⟨rfl, rfl⟩

@[simp] theorem State_setTc_frame (s : State) (k : Nat) (f : Tc → Tc) :
    (State.setTc s k f).pending = s.pending ∧ (State.setTc s k f).sram = s.sram := by
  exact ⟨rfl, rfl⟩

@[simp] theorem State_setRun_frame (s : State) (k : Nat) (v : Nat) :
    (State.setRun s k v).pending = s.pending ∧ (State.setRun s k v).sram = s.sram := by
  exact ⟨rfl, rfl⟩

@[simp] theorem publish_frame (k : Nat) (t : Rat) (interrupted : Bool) (s : State) :
    (publish k t interrupted s).pending = s.pending ∧ (publish k t interrupted s).sram = s.sram := by
  exact ⟨rfl, rfl⟩

@[simp] theorem nextGate_frame (k : Nat) (t : Rat) (s : State) :
    (nextGate k t s).pending = s.pending ∧ (nextGate k t s).sram = s.sram := by
  exact ⟨rfl, rfl⟩

@[simp] theorem stopTc_frame (k : Nat) (st : Nat) (s : State) :
    (stopTc k st s).pending = s.pending ∧ (stopTc k st s).sram = s.sram := by
  exact ⟨rfl, rfl⟩

@[simp] theorem gateEnd_frame (k : Nat) (s : State) :
    (gateEnd k s).pending = s.pending ∧ (gateEnd k s).sram = s.sram := by
  unfold gateEnd
  repeat' (first
    | with_reducible exact ⟨rfl, rfl⟩
    | (with_reducible refine frame_ite (fun _ => ?_) (fun _ => ?_))
    | (with_reducible refine frame_trans (publish_frame _ _ _ _) ?_)
    | (with_reducible refine frame_trans (stopTc_frame _ _ _) ?_)
    | (with_reducible refine frame_trans (nextGate_frame _ _ _) ?_)
    | (with_reducible refine frame_trans (foldl_frame (fun s a => ?_) _ _) ?_)
    | (with_reducible refine foldl_frame (fun s a => ?_) _ _)
    | dsimp only
    | split)

@[simp] theorem cutGate_frame (k : Nat) (s : State) :
    (cutGate k s).pending = s.pending ∧ (cutGate k s).sram = s.sram := by
  simp [cutGate]

@[simp] theorem interruptInput_frame (n : Nat) (s : State) :
    (interruptInput n s).pending = s.pending ∧ (interruptInput n s).sram = s.sram := by
  unfold interruptInput
  refine foldl_frame (fun _ _ => ?_) _ _
  first
    | with_reducible exact ⟨rfl, rfl⟩
    | simp

@[simp] theorem fenceTc_frame (k : Nat) (s : State) :
    (fenceTc k s).pending = s.pending ∧ (fenceTc k s).sram = s.sram := by
  simp [fenceTc]

@[simp] theorem sleepTcs_frame (s : State) :
    (sleepTcs s).pending = s.pending ∧ (sleepTcs s).sram = s.sram := by
  unfold sleepTcs
  repeat' (first
    | (with_reducible refine frame_ite (fun _ => ?_) (fun _ => ?_))
    | (with_reducible refine frame_trans (cutGate_frame _ _) ?_)
    | (with_reducible refine frame_trans (stopTc_frame _ _ _) ?_)
    | (with_reducible refine frame_trans (State_setTc_frame _ _ _) ?_)
    | (with_reducible refine frame_trans (foldl_frame (fun s a => ?_) _ _) ?_)
    | (with_reducible refine foldl_frame (fun s a => ?_) _ _)
    | (with_reducible exact frame_refl _))

@[simp] theorem wakeTcs_frame (s : State) :
    (wakeTcs s).pending = s.pending ∧ (wakeTcs s).sram = s.sram := by
  exact ⟨rfl, rfl⟩

@[simp] theorem writeRun_frame (k : Nat) (v : Nat) (s : State) :
    (writeRun k v s).pending = s.pending ∧ (writeRun k v s).sram = s.sram := by
  simp [writeRun]

@[simp] theorem loadTcs_frame (s : State) :
    (loadTcs s).pending = s.pending ∧ (loadTcs s).sram = s.sram := by
  unfold loadTcs
  repeat' (first
    | (with_reducible refine frame_ite (fun _ => ?_) (fun _ => ?_))
    | (with_reducible refine frame_trans (writeRun_frame _ _ _) ?_)
    | (with_reducible refine frame_trans (stopTc_frame _ _ _) ?_)
    | (with_reducible refine frame_trans (foldl_frame (fun s a => ?_) _ _) ?_)
    | (with_reducible refine foldl_frame (fun s a => ?_) _ _)
    | (with_reducible exact frame_refl _))

@[simp] theorem evaluateEdge_frame (k : Nat) (s : State) :
    (evaluateEdge k s).pending = s.pending ∧ (evaluateEdge k s).sram = s.sram := by
  unfold evaluateEdge
  repeat' (first
    | with_reducible exact ⟨rfl, rfl⟩
    | (with_reducible refine frame_ite (fun _ => ?_) (fun _ => ?_))
    | (with_reducible refine frame_trans (State_setTc_frame _ _ _) ?_)
    | (with_reducible refine frame_trans (foldl_frame (fun s a => ?_) _ _) ?_)
    | (with_reducible refine foldl_frame (fun s a => ?_) _ _)
    | dsimp only
    | split)

@[simp] theorem stopExpiry_frame (k : Nat) (s : State) :
    (stopExpiry k s).pending = s.pending ∧ (stopExpiry k s).sram = s.sram := by
  unfold stopExpiry
  repeat' (first
    | with_reducible exact ⟨rfl, rfl⟩
    | (with_reducible refine frame_ite (fun _ => ?_) (fun _ => ?_))
    | (with_reducible refine frame_trans (State_setTc_frame _ _ _) ?_)
    | (with_reducible refine frame_trans (foldl_frame (fun s a => ?_) _ _) ?_)
    | (with_reducible refine foldl_frame (fun s a => ?_) _ _)
    | dsimp only
    | split)

@[simp] theorem stampToTcs_frame (n : Nat) (falling : Bool) (t : Rat) (s : State) :
    (stampToTcs n falling t s).pending = s.pending ∧ (stampToTcs n falling t s).sram = s.sram := by
  exact ⟨rfl, rfl⟩

@[simp] theorem recordStamp_frame (n : Nat) (falling : Bool) (t : Rat) (s : State) :
    (recordStamp n falling t s).pending = s.pending ∧ (recordStamp n falling t s).sram = s.sram := by
  simp [recordStamp]

@[simp] theorem captureFilters_frame (n : Nat) (falling : Bool) (t : Rat) (s : State) :
    (captureFilters n falling t s).pending = s.pending ∧ (captureFilters n falling t s).sram = s.sram := by
  simp [captureFilters]

@[simp] theorem stampEdge_frame (n : Nat) (falling : Bool) (t : Rat) (s : State) :
    (stampEdge n falling t s).pending = s.pending ∧ (stampEdge n falling t s).sram = s.sram := by
  unfold stampEdge
  repeat' (first
    | with_reducible exact ⟨rfl, rfl⟩
    | (with_reducible refine frame_ite (fun _ => ?_) (fun _ => ?_))
    | (with_reducible refine frame_trans (State_setTsi_frame _ _ _) ?_)
    | (with_reducible refine frame_trans (strobeEdge_frame _ _ _ _) ?_)
    | (with_reducible refine frame_trans (stampToTcs_frame _ _ _ _) ?_)
    | (with_reducible refine frame_trans (captureFilters_frame _ _ _ _) ?_))

@[simp] theorem tsiEdge_frame (n : Nat) (falling : Bool) (pin : Rat) (short : Bool) (s : State) :
    (tsiEdge n falling pin short s).pending = s.pending ∧ (tsiEdge n falling pin short s).sram = s.sram := by
  unfold tsiEdge
  repeat' (first
    | with_reducible exact ⟨rfl, rfl⟩
    | (with_reducible refine frame_ite (fun _ => ?_) (fun _ => ?_))
    | (with_reducible refine frame_trans (stampEdge_frame _ _ _ _) ?_))

@[simp] theorem tdcCalibrated_frame (n : Nat) (s : State) :
    (tdcCalibrated n s).pending = s.pending ∧ (tdcCalibrated n s).sram = s.sram := by
  exact ⟨rfl, rfl⟩

@[simp] theorem tdcRestart_frame (s : State) :
    (tdcRestart s).pending = s.pending ∧ (tdcRestart s).sram = s.sram := by
  exact ⟨rfl, rfl⟩

@[simp] theorem enableTsi_frame (n : Nat) (v : Nat) (s : State) :
    (enableTsi n v s).pending = s.pending ∧ (enableTsi n v s).sram = s.sram := by
  simp [enableTsi]

@[simp] theorem fenceTsi_frame (n : Nat) (s : State) :
    (fenceTsi n s).pending = s.pending ∧ (fenceTsi n s).sram = s.sram := by
  unfold fenceTsi
  refine foldl_frame (fun _ _ => ?_) _ _
  first
    | with_reducible exact ⟨rfl, rfl⟩
    | simp

@[simp] theorem staleRecord_frame (n : Nat) (s : State) :
    (staleRecord n s).pending = s.pending ∧ (staleRecord n s).sram = s.sram := by
  simp [staleRecord]

@[simp] theorem ringSlot_frame (s : State) :
    (ringSlot s).pending = s.pending ∧ (ringSlot s).sram = s.sram := by
  simp [ringSlot]

@[simp] theorem anchorPeriodic_frame (k : Nat) (s : State) :
    (anchorPeriodic k s).pending = s.pending ∧ (anchorPeriodic k s).sram = s.sram := by
  simp [anchorPeriodic]

@[simp] theorem State_setAxis_frame (s : State) (a : Nat) (f : Axis → Axis) :
    (State.setAxis s a f).pending = s.pending ∧ (State.setAxis s a f).sram = s.sram := by
  exact ⟨rfl, rfl⟩

@[simp] theorem illegalEdge_frame (a : Nat) (s : State) :
    (illegalEdge a s).pending = s.pending ∧ (illegalEdge a s).sram = s.sram := by
  simp [illegalEdge]

@[simp] theorem countEdge_frame (k : Nat) (aChanged : Bool) (bChanged : Bool) (a : Bool) (b : Bool) (s : State) :
    (countEdge k aChanged bChanged a b s).pending = s.pending ∧ (countEdge k aChanged bChanged a b s).sram = s.sram := by
  unfold countEdge
  try dsimp only
  (repeat' split) <;> first
    | with_reducible exact ⟨rfl, rfl⟩
    | simp

@[simp] theorem indexEdge_frame (k : Nat) (s : State) :
    (indexEdge k s).pending = s.pending ∧ (indexEdge k s).sram = s.sram := by
  unfold indexEdge
  try dsimp only
  (repeat' split) <;> first
    | with_reducible exact ⟨rfl, rfl⟩
    | simp

@[simp] theorem axisStall_frame (k : Nat) (s : State) :
    (axisStall k s).pending = s.pending ∧ (axisStall k s).sram = s.sram := by
  simp [axisStall]

@[simp] theorem writeKind_frame (k : Nat) (v : Nat) (s : State) :
    (writeKind k v s).pending = s.pending ∧ (writeKind k v s).sram = s.sram := by
  simp [writeKind]

@[simp] theorem fenceAxis_frame (a : Nat) (s : State) :
    (fenceAxis a s).pending = s.pending ∧ (fenceAxis a s).sram = s.sram := by
  simp [fenceAxis]

@[simp] theorem loadAxes_frame (s : State) :
    (loadAxes s).pending = s.pending ∧ (loadAxes s).sram = s.sram := by
  unfold loadAxes
  repeat' (first
    | (with_reducible refine frame_ite (fun _ => ?_) (fun _ => ?_))
    | (with_reducible refine frame_trans (writeKind_frame _ _ _) ?_)
    | (with_reducible refine frame_trans (foldl_frame (fun s a => ?_) _ _) ?_)
    | (with_reducible refine foldl_frame (fun s a => ?_) _ _)
    | (with_reducible exact frame_refl _))

@[simp] theorem wakeAxes_frame (s : State) :
    (wakeAxes s).pending = s.pending ∧ (wakeAxes s).sram = s.sram := by
  unfold wakeAxes
  repeat' (first
    | (with_reducible refine frame_ite (fun _ => ?_) (fun _ => ?_))
    | (with_reducible refine frame_trans (setAxisState_frame _ _ _) ?_)
    | (with_reducible refine frame_trans (State_setAxis_frame _ _ _) ?_)
    | (with_reducible refine frame_trans (foldl_frame (fun s a => ?_) _ _) ?_)
    | (with_reducible refine foldl_frame (fun s a => ?_) _ _)
    | (with_reducible exact frame_refl _))

@[simp] theorem sleepCalendar_frame (s : State) :
    (sleepCalendar s).pending = s.pending ∧ (sleepCalendar s).sram = s.sram := by
  exact ⟨rfl, rfl⟩

@[simp] theorem wakeCalendar_frame (s : State) :
    (wakeCalendar s).pending = s.pending ∧ (wakeCalendar s).sram = s.sram := by
  unfold wakeCalendar
  repeat' (first
    | (with_reducible refine frame_ite (fun _ => ?_) (fun _ => ?_))
    | (with_reducible refine frame_trans (wakeAxes_frame _) ?_)
    | (with_reducible refine frame_trans (reevaluate_frame _ _) ?_)
    | (with_reducible refine frame_trans (foldl_frame (fun s a => ?_) _ _) ?_)
    | (with_reducible refine foldl_frame (fun s a => ?_) _ _)
    | (with_reducible exact frame_refl _))

@[simp] theorem fireDue_frame (s : State) :
    (fireDue s).pending = s.pending ∧ (fireDue s).sram = s.sram := by
  unfold fireDue
  repeat' (first
    | (with_reducible refine frame_ite (fun _ => ?_) (fun _ => ?_))
    | (with_reducible refine frame_trans (delayList_frame _ _) ?_)
    | (with_reducible refine frame_trans (fireList_frame _ _) ?_)
    | (with_reducible refine frame_trans (foldl_frame (fun s a => ?_) _ _) ?_)
    | (with_reducible refine foldl_frame (fun s a => ?_) _ _)
    | (with_reducible exact frame_refl _))

@[simp] theorem fireDelayed_frame (s : State) :
    (fireDelayed s).pending = s.pending ∧ (fireDelayed s).sram = s.sram := by
  unfold fireDelayed
  repeat' (first
    | (with_reducible refine frame_ite (fun _ => ?_) (fun _ => ?_))
    | (with_reducible refine frame_trans (fireList_frame _ _) ?_)
    | (with_reducible refine frame_trans (foldl_frame (fun s a => ?_) _ _) ?_)
    | (with_reducible refine foldl_frame (fun s a => ?_) _ _)
    | (with_reducible exact frame_refl _))

@[simp] theorem armEffect_frame (a : Nat) (s : State) :
    (armEffect a s).pending = s.pending ∧ (armEffect a s).sram = s.sram := by
  unfold armEffect
  repeat' (first
    | (with_reducible refine frame_ite (fun _ => ?_) (fun _ => ?_))
    | (with_reducible refine frame_trans (State_setAct_frame _ _ _) ?_)
    | (with_reducible refine frame_trans (noteSign_frame _ _) ?_)
    | (with_reducible refine frame_trans (delayList_frame _ _) ?_)
    | (with_reducible refine frame_trans (fireList_frame _ _) ?_)
    | (with_reducible refine frame_trans (foldl_frame (fun s a => ?_) _ _) ?_)
    | (with_reducible refine foldl_frame (fun s a => ?_) _ _)
    | (with_reducible exact frame_refl _)
    | dsimp only
    | split)

@[simp] theorem disarmAll_frame (s : State) :
    (disarmAll s).pending = s.pending ∧ (disarmAll s).sram = s.sram := by
  unfold disarmAll
  refine foldl_frame (fun _ _ => ?_) _ _
  first
    | with_reducible exact ⟨rfl, rfl⟩

@[simp] theorem writeActKind_frame (a : Nat) (v : Nat) (s : State) :
    (writeActKind a v s).pending = s.pending ∧ (writeActKind a v s).sram = s.sram := by
  simp [writeActKind]

@[simp] theorem loadActions_frame (s : State) :
    (loadActions s).pending = s.pending ∧ (loadActions s).sram = s.sram := by
  exact ⟨rfl, rfl⟩

@[simp] theorem armLoaded_frame (s : State) :
    (armLoaded s).pending = s.pending ∧ (armLoaded s).sram = s.sram := by
  unfold armLoaded
  exact foldl_frame (fun s a => armAction_frame a s) _ _

@[simp] theorem writeCalendar_frame (b : List Byte) (s : State) :
    (writeCalendar b s).pending = s.pending ∧ (writeCalendar b s).sram = s.sram := by
  unfold writeCalendar
  repeat' (first
    | with_reducible exact ⟨rfl, rfl⟩
    | (with_reducible refine frame_ite (fun _ => ?_) (fun _ => ?_))
    | (with_reducible refine frame_trans (armLoaded_frame _) ?_)
    | (with_reducible refine frame_trans (loadActions_frame _) ?_)
    | (with_reducible refine frame_trans (foldl_frame (fun s a => ?_) _ _) ?_)
    | (with_reducible refine foldl_frame (fun s a => ?_) _ _)
    | dsimp only
    | split)

@[simp] theorem pulseEnd_frame (n : Nat) (s : State) :
    (pulseEnd n s).pending = s.pending ∧ (pulseEnd n s).sram = s.sram := by
  unfold pulseEnd
  repeat' (first
    | with_reducible exact ⟨rfl, rfl⟩
    | (with_reducible refine frame_ite (fun _ => ?_) (fun _ => ?_))
    | (with_reducible refine frame_trans (State_setTrg_frame _ _ _) ?_)
    | (with_reducible refine frame_trans (settle_frame _) ?_)
    | (with_reducible refine frame_trans (foldl_frame (fun s a => ?_) _ _) ?_)
    | (with_reducible refine foldl_frame (fun s a => ?_) _ _)
    | dsimp only
    | split)

@[simp] theorem windowEnd_frame (n : Nat) (s : State) :
    (windowEnd n s).pending = s.pending ∧ (windowEnd n s).sram = s.sram := by
  unfold windowEnd
  repeat' (first
    | with_reducible exact ⟨rfl, rfl⟩
    | (with_reducible refine frame_ite (fun _ => ?_) (fun _ => ?_))
    | (with_reducible refine frame_trans (State_setWin_frame _ _ _) ?_)
    | (with_reducible refine frame_trans (foldl_frame (fun s a => ?_) _ _) ?_)
    | (with_reducible refine foldl_frame (fun s a => ?_) _ _)
    | dsimp only
    | split)

@[simp] theorem State_setChan_frame (s : State) (n : Nat) (f : Chan → Chan) :
    (State.setChan s n f).pending = s.pending ∧ (State.setChan s n f).sram = s.sram := by
  exact ⟨rfl, rfl⟩

@[simp] theorem State_setHo_frame (s : State) (n : Nat) (f : Ho → Ho) :
    (State.setHo s n f).pending = s.pending ∧ (State.setHo s n f).sram = s.sram := by
  exact ⟨rfl, rfl⟩

@[simp] theorem setConditions_frame (n : Nat) (b : BitVec 8) (s : State) :
    (setConditions n b s).pending = s.pending ∧ (setConditions n b s).sram = s.sram := by
  simp [setConditions]

@[simp] theorem refreshBound_frame (n : Nat) (s : State) :
    (refreshBound n s).pending = s.pending ∧ (refreshBound n s).sram = s.sram := by
  simp [refreshBound]

@[simp] theorem beginEpisode_frame (n : Nat) (v : StartVals) (gap : Rat) (s : State) :
    (beginEpisode n v gap s).pending = s.pending ∧ (beginEpisode n v gap s).sram = s.sram := by
  simp [beginEpisode]

@[simp] theorem endEpisode_frame (n : Nat) (s : State) :
    (endEpisode n s).pending = s.pending ∧ (endEpisode n s).sram = s.sram := by
  exact ⟨rfl, rfl⟩

@[simp] theorem holdSecond_frame (n : Nat) (s : State) :
    (holdSecond n s).pending = s.pending ∧ (holdSecond n s).sram = s.sram := by
  simp [holdSecond]

@[simp] theorem trackSecond_frame (n : Nat) (s : State) :
    (trackSecond n s).pending = s.pending ∧ (trackSecond n s).sram = s.sram := by
  unfold trackSecond
  try dsimp only
  (repeat' split) <;> first
    | with_reducible exact ⟨rfl, rfl⟩
    | simp

@[simp] theorem recordSecond_frame (n : Nat) (s : State) :
    (recordSecond n s).pending = s.pending ∧ (recordSecond n s).sram = s.sram := by
  exact ⟨rfl, rfl⟩

@[simp] theorem lanternSecond_frame (s : State) (n : Nat) :
    (lanternSecond s n).pending = s.pending ∧ (lanternSecond s n).sram = s.sram := by
  simp [lanternSecond]

@[simp] theorem lanternEvaluate_frame (s : State) :
    (lanternEvaluate s).pending = s.pending ∧ (lanternEvaluate s).sram = s.sram := by
  unfold lanternEvaluate
  repeat' (first
    | (with_reducible refine frame_ite (fun _ => ?_) (fun _ => ?_))
    | (with_reducible refine frame_trans (lanternSecond_frame _ _) ?_)
    | (with_reducible refine frame_trans (foldl_frame (fun s a => ?_) _ _) ?_)
    | (with_reducible refine foldl_frame (fun s a => ?_) _ _)
    | (with_reducible exact frame_refl _))

@[simp] theorem admitDue_frame (s : State) :
    (admitDue s).pending = s.pending ∧ (admitDue s).sram = s.sram := by
  exact ⟨rfl, rfl⟩

@[simp] theorem settleLearn_frame (s : State) :
    (settleLearn s).pending = s.pending ∧ (settleLearn s).sram = s.sram := by
  unfold settleLearn
  repeat' (first
    | (with_reducible refine frame_ite (fun _ => ?_) (fun _ => ?_))
    | (with_reducible refine frame_trans (foldl_frame (fun s a => ?_) _ _) ?_)
    | (with_reducible refine foldl_frame (fun s a => ?_) _ _)
    | (with_reducible exact frame_refl _))

@[simp] theorem learn_frame (s : State) :
    (learn s).pending = s.pending ∧ (learn s).sram = s.sram := by
  unfold learn
  repeat' (first
    | with_reducible exact ⟨rfl, rfl⟩
    | (with_reducible refine frame_ite (fun _ => ?_) (fun _ => ?_))
    | (with_reducible refine frame_trans (admitDue_frame _) ?_)
    | (with_reducible refine frame_trans (foldl_frame (fun s a => ?_) _ _) ?_)
    | (with_reducible refine foldl_frame (fun s a => ?_) _ _)
    | dsimp only
    | split)

@[simp] theorem dropSamples_frame (c : Nat) (s : State) :
    (dropSamples c s).pending = s.pending ∧ (dropSamples c s).sram = s.sram := by
  exact ⟨rfl, rfl⟩

@[simp] theorem commitModel_frame (m : Model) (s : State) :
    (commitModel m s).pending = s.pending ∧ (commitModel m s).sram = s.sram := by
  exact ⟨rfl, rfl⟩

@[simp] theorem refitNow_frame (s : State) :
    (refitNow s).pending = s.pending ∧ (refitNow s).sram = s.sram := by
  simp [refitNow]

@[simp] theorem saveModel_frame (s : State) :
    (saveModel s).pending = s.pending ∧ (saveModel s).sram = s.sram := by
  unfold saveModel
  repeat' (first
    | (with_reducible refine frame_ite (fun _ => ?_) (fun _ => ?_))
    | (with_reducible refine frame_trans (foldl_frame (fun s a => ?_) _ _) ?_)
    | (with_reducible refine foldl_frame (fun s a => ?_) _ _)
    | (with_reducible exact frame_refl _))

@[simp] theorem writeModel_frame (b : List Byte) (s : State) :
    (writeModel b s).pending = s.pending ∧ (writeModel b s).sram = s.sram := by
  unfold writeModel
  repeat' (first
    | (with_reducible refine frame_ite (fun _ => ?_) (fun _ => ?_))
    | (with_reducible refine frame_trans (commitModel_frame _ _) ?_)
    | (with_reducible refine frame_trans (saveModel_frame _) ?_)
    | (with_reducible refine frame_trans (foldl_frame (fun s a => ?_) _ _) ?_)
    | (with_reducible refine foldl_frame (fun s a => ?_) _ _)
    | (with_reducible exact frame_refl _))

@[simp] theorem modelSaveNow_frame (s : State) :
    (modelSaveNow s).pending = s.pending ∧ (modelSaveNow s).sram = s.sram := by
  simp [modelSaveNow]

@[simp] theorem settleClamp_frame (s : State) (n : Nat) :
    (settleClamp s n).pending = s.pending ∧ (settleClamp s n).sram = s.sram := by
  simp [settleClamp]

@[simp] theorem writeSteering_frame (n : Nat) (v : Int) (s : State) :
    (writeSteering n v s).pending = s.pending ∧ (writeSteering n v s).sram = s.sram := by
  exact ⟨rfl, rfl⟩

@[simp] theorem chanFlag_frame (n : Nat) (b : Nat) (s : State) :
    (chanFlag n b s).pending = s.pending ∧ (chanFlag n b s).sram = s.sram := by
  exact ⟨rfl, rfl⟩

@[simp] theorem chanGo_frame (n : Nat) (st : ChanState) (s : State) :
    (chanGo n st s).pending = s.pending ∧ (chanGo n st s).sram = s.sram := by
  exact ⟨rfl, rfl⟩

@[simp] theorem endPull_frame (n : Nat) (s : State) :
    (endPull n s).pending = s.pending ∧ (endPull n s).sram = s.sram := by
  simp [endPull]

@[simp] theorem refer_frame (n : Nat) (c : Nat) (s : State) :
    (refer n c s).pending = s.pending ∧ (refer n c s).sram = s.sram := by
  simp [refer]

@[simp] theorem toAcquire_frame (n : Nat) (c : Nat) (s : State) :
    (toAcquire n c s).pending = s.pending ∧ (toAcquire n c s).sram = s.sram := by
  simp [toAcquire]

@[simp] theorem toRelock_frame (n : Nat) (c : Nat) (s : State) :
    (toRelock n c s).pending = s.pending ∧ (toRelock n c s).sram = s.sram := by
  simp [toRelock]

@[simp] theorem switchTo_frame (n : Nat) (c : Nat) (s : State) :
    (switchTo n c s).pending = s.pending ∧ (switchTo n c s).sram = s.sram := by
  simp [switchTo]

@[simp] theorem toIdle_frame (n : Nat) (s : State) :
    (toIdle n s).pending = s.pending ∧ (toIdle n s).sram = s.sram := by
  simp [toIdle]

@[simp] theorem toHoldover_frame (n : Nat) (s : State) :
    (toHoldover n s).pending = s.pending ∧ (toHoldover n s).sram = s.sram := by
  simp [toHoldover]

@[simp] theorem fenceChannel_frame (n : Nat) (s : State) :
    (fenceChannel n s).pending = s.pending ∧ (fenceChannel n s).sram = s.sram := by
  simp [fenceChannel]

@[simp] theorem followSelection_frame (s : State) (n : Nat) :
    (followSelection s n).pending = s.pending ∧ (followSelection s n).sram = s.sram := by
  unfold followSelection
  try dsimp only
  (repeat' split) <;> first
    | with_reducible exact ⟨rfl, rfl⟩
    | simp

@[simp] theorem noteSelection_frame (n : Nat) (old : Option Nat) (new : Option Nat) (s : State) :
    (noteSelection n old new s).pending = s.pending ∧ (noteSelection n old new s).sram = s.sram := by
  unfold noteSelection
  repeat' (first
    | with_reducible exact ⟨rfl, rfl⟩
    | (with_reducible refine frame_ite (fun _ => ?_) (fun _ => ?_))
    | (with_reducible refine frame_trans (raise_frame _ _) ?_)
    | (with_reducible refine frame_trans (chanFlag_frame _ _ _) ?_)
    | (with_reducible refine frame_trans (foldl_frame (fun s a => ?_) _ _) ?_)
    | (with_reducible refine foldl_frame (fun s a => ?_) _ _)
    | dsimp only
    | split)

@[simp] theorem lockCriterion_frame (n : Nat) (s : State) :
    (lockCriterion n s).pending = s.pending ∧ (lockCriterion n s).sram = s.sram := by
  unfold lockCriterion
  repeat' (first
    | with_reducible exact ⟨rfl, rfl⟩
    | (with_reducible refine frame_ite (fun _ => ?_) (fun _ => ?_))
    | (with_reducible refine frame_trans (State_setChan_frame _ _ _) ?_)
    | (with_reducible refine frame_trans (chanGo_frame _ _ _) ?_)
    | (with_reducible refine frame_trans (foldl_frame (fun s a => ?_) _ _) ?_)
    | (with_reducible refine foldl_frame (fun s a => ?_) _ _)
    | dsimp only
    | split)

@[simp] theorem settleBandwidth_frame (s : State) (n : Nat) :
    (settleBandwidth s n).pending = s.pending ∧ (settleBandwidth s n).sram = s.sram := by
  unfold settleBandwidth
  repeat' (first
    | with_reducible exact ⟨rfl, rfl⟩
    | (with_reducible refine frame_ite (fun _ => ?_) (fun _ => ?_))
    | (with_reducible refine frame_trans (State_setChan_frame _ _ _) ?_)
    | (with_reducible refine frame_trans (foldl_frame (fun s a => ?_) _ _) ?_)
    | (with_reducible refine foldl_frame (fun s a => ?_) _ _)
    | dsimp only
    | split)

@[simp] theorem settleLock_frame (s : State) (n : Nat) :
    (settleLock s n).pending = s.pending ∧ (settleLock s n).sram = s.sram := by
  simp [settleLock]

@[simp] theorem shiftOuts_frame (n : Nat) (d : Rat) (s : State) :
    (shiftOuts n d s).pending = s.pending ∧ (shiftOuts n d s).sram = s.sram := by
  unfold shiftOuts
  repeat' (first
    | (with_reducible refine frame_ite (fun _ => ?_) (fun _ => ?_))
    | (with_reducible refine frame_trans (foldl_frame (fun s a => ?_) _ _) ?_)
    | (with_reducible refine foldl_frame (fun s a => ?_) _ _)
    | (with_reducible exact frame_refl _))

@[simp] theorem realign_frame (n : Nat) (t : Rat) (s : State) :
    (realign n t s).pending = s.pending ∧ (realign n t s).sram = s.sram := by
  exact ⟨rfl, rfl⟩

@[simp] theorem pdCycle_frame (n : Nat) (c : Nat) (t : Rat) (s : State) :
    (pdCycle n c t s).pending = s.pending ∧ (pdCycle n c t s).sram = s.sram := by
  simp [pdCycle]

@[simp] theorem edgeToChannel_frame (c : Nat) (t : Rat) (s : State) (n : Nat) :
    (edgeToChannel c t s n).pending = s.pending ∧ (edgeToChannel c t s n).sram = s.sram := by
  simp [edgeToChannel]

@[simp] theorem edgeToChannels_frame (c : Nat) (t : Rat) (s : State) :
    (edgeToChannels c t s).pending = s.pending ∧ (edgeToChannels c t s).sram = s.sram := by
  unfold edgeToChannels
  repeat' (first
    | (with_reducible refine frame_ite (fun _ => ?_) (fun _ => ?_))
    | (with_reducible refine frame_trans (edgeToChannel_frame _ _ _ _) ?_)
    | (with_reducible refine frame_trans (foldl_frame (fun s a => ?_) _ _) ?_)
    | (with_reducible refine foldl_frame (fun s a => ?_) _ _)
    | (with_reducible exact frame_refl _))

@[simp] theorem firstAlignment_frame (n : Nat) (t : Rat) (s : State) :
    (firstAlignment n t s).pending = s.pending ∧ (firstAlignment n t s).sram = s.sram := by
  unfold firstAlignment
  repeat' (first
    | with_reducible exact ⟨rfl, rfl⟩
    | (with_reducible refine frame_ite (fun _ => ?_) (fun _ => ?_))
    | (with_reducible refine frame_trans (realign_frame _ _ _) ?_)
    | (with_reducible refine frame_trans (foldl_frame (fun s a => ?_) _ _) ?_)
    | (with_reducible refine foldl_frame (fun s a => ?_) _ _)
    | dsimp only
    | split)

@[simp] theorem labelAligned_frame (c : Nat) (u : Nat) (t : Rat) (s : State) (n : Nat) :
    (labelAligned c u t s n).pending = s.pending ∧ (labelAligned c u t s n).sram = s.sram := by
  unfold labelAligned
  repeat' (first
    | with_reducible exact ⟨rfl, rfl⟩
    | (with_reducible refine frame_ite (fun _ => ?_) (fun _ => ?_))
    | (with_reducible refine frame_trans (State_setChan_frame _ _ _) ?_)
    | (with_reducible refine frame_trans (foldl_frame (fun s a => ?_) _ _) ?_)
    | (with_reducible refine foldl_frame (fun s a => ?_) _ _)
    | dsimp only
    | split)

@[simp] theorem State_setSyn_frame (s : State) (c : Nat) (f : Syn → Syn) :
    (State.setSyn s c f).pending = s.pending ∧ (State.setSyn s c f).sram = s.sram := by
  exact ⟨rfl, rfl⟩

@[simp] theorem State_setOut_frame (s : State) (n : Nat) (f : Out → Out) :
    (State.setOut s n f).pending = s.pending ∧ (State.setOut s n f).sram = s.sram := by
  exact ⟨rfl, rfl⟩

@[simp] theorem startOut_frame (s : State) (n : Nat) :
    (startOut s n).pending = s.pending ∧ (startOut s n).sram = s.sram := by
  unfold startOut
  repeat' (first
    | (with_reducible refine frame_ite (fun _ => ?_) (fun _ => ?_))
    | (with_reducible refine frame_trans (State_setOut_frame _ _ _) ?_)
    | (with_reducible refine frame_trans (foldl_frame (fun s a => ?_) _ _) ?_)
    | (with_reducible refine foldl_frame (fun s a => ?_) _ _)
    | (with_reducible exact frame_refl _))

@[simp] theorem stopOut_frame (s : State) (n : Nat) :
    (stopOut s n).pending = s.pending ∧ (stopOut s n).sram = s.sram := by
  unfold stopOut
  repeat' (first
    | (with_reducible refine frame_ite (fun _ => ?_) (fun _ => ?_))
    | (with_reducible refine frame_trans (State_setOut_frame _ _ _) ?_)
    | (with_reducible refine frame_trans (foldl_frame (fun s a => ?_) _ _) ?_)
    | (with_reducible refine foldl_frame (fun s a => ?_) _ _)
    | (with_reducible exact frame_refl _))

@[simp] theorem amplitudeWritten_frame (n : Nat) (old : Nat) (s : State) :
    (amplitudeWritten n old s).pending = s.pending ∧ (amplitudeWritten n old s).sram = s.sram := by
  unfold amplitudeWritten
  repeat' (first
    | (with_reducible refine frame_ite (fun _ => ?_) (fun _ => ?_))
    | (with_reducible refine frame_trans (State_setOut_frame _ _ _) ?_)
    | (with_reducible refine frame_trans (foldl_frame (fun s a => ?_) _ _) ?_)
    | (with_reducible refine foldl_frame (fun s a => ?_) _ _)
    | (with_reducible exact frame_refl _))

@[simp] theorem settleWave_frame (s : State) (n : Nat) :
    (settleWave s n).pending = s.pending ∧ (settleWave s n).sram = s.sram := by
  unfold settleWave
  repeat' (first
    | (with_reducible refine frame_ite (fun _ => ?_) (fun _ => ?_))
    | (with_reducible refine frame_trans (State_setOut_frame _ _ _) ?_)
    | (with_reducible refine frame_trans (startOut_frame _ _) ?_)
    | (with_reducible refine frame_trans (stopOut_frame _ _) ?_)
    | (with_reducible refine frame_trans (foldl_frame (fun s a => ?_) _ _) ?_)
    | (with_reducible refine foldl_frame (fun s a => ?_) _ _)
    | (with_reducible exact frame_refl _))

@[simp] theorem settleOut_frame (s : State) (n : Nat) :
    (settleOut s n).pending = s.pending ∧ (settleOut s n).sram = s.sram := by
  simp [settleOut]

@[simp] theorem settleOuts_frame (s : State) :
    (settleOuts s).pending = s.pending ∧ (settleOuts s).sram = s.sram := by
  unfold settleOuts
  repeat' (first
    | (with_reducible refine frame_ite (fun _ => ?_) (fun _ => ?_))
    | (with_reducible refine frame_trans (settleOut_frame _ _) ?_)
    | (with_reducible refine frame_trans (foldl_frame (fun s a => ?_) _ _) ?_)
    | (with_reducible refine foldl_frame (fun s a => ?_) _ _)
    | (with_reducible exact frame_refl _))

@[simp] theorem cancelCommit_frame (s : State) :
    (cancelCommit s).pending = s.pending ∧ (cancelCommit s).sram = s.sram := by
  simp [cancelCommit]

@[simp] theorem settleCommit_frame (s : State) :
    (settleCommit s).pending = s.pending ∧ (settleCommit s).sram = s.sram := by
  unfold settleCommit
  try dsimp only
  (repeat' split) <;> first
    | with_reducible exact ⟨rfl, rfl⟩
    | simp

@[simp] theorem tuneFrom_frame (c : Nat) (r : Retune) (s : State) :
    (tuneFrom c r s).pending = s.pending ∧ (tuneFrom c r s).sram = s.sram := by
  unfold tuneFrom
  repeat' (first
    | (with_reducible refine frame_ite (fun _ => ?_) (fun _ => ?_))
    | (with_reducible refine frame_trans (State_setSyn_frame _ _ _) ?_)
    | (with_reducible refine frame_trans (foldl_frame (fun s a => ?_) _ _) ?_)
    | (with_reducible refine foldl_frame (fun s a => ?_) _ _)
    | (with_reducible exact frame_refl _))

@[simp] theorem stopOuts_frame (c : Nat) (s : State) :
    (stopOuts c s).pending = s.pending ∧ (stopOuts c s).sram = s.sram := by
  unfold stopOuts
  repeat' (first
    | (with_reducible refine frame_ite (fun _ => ?_) (fun _ => ?_))
    | (with_reducible refine frame_trans (stopOut_frame _ _) ?_)
    | (with_reducible refine frame_trans (foldl_frame (fun s a => ?_) _ _) ?_)
    | (with_reducible refine foldl_frame (fun s a => ?_) _ _)
    | (with_reducible exact frame_refl _))

@[simp] theorem beginRetune_frame (c : Nat) (s : State) :
    (beginRetune c s).pending = s.pending ∧ (beginRetune c s).sram = s.sram := by
  simp [beginRetune]

@[simp] theorem originNow_frame (s : State) (n : Nat) :
    (originNow s n).pending = s.pending ∧ (originNow s n).sram = s.sram := by
  unfold originNow
  repeat' (first
    | (with_reducible refine frame_ite (fun _ => ?_) (fun _ => ?_))
    | (with_reducible refine frame_trans (State_setOut_frame _ _ _) ?_)
    | (with_reducible refine frame_trans (foldl_frame (fun s a => ?_) _ _) ?_)
    | (with_reducible refine foldl_frame (fun s a => ?_) _ _)
    | (with_reducible exact frame_refl _))

@[simp] theorem commitOut_frame (s : State) (n : Nat) (new : Divider) :
    (commitOut s n new).pending = s.pending ∧ (commitOut s n new).sram = s.sram := by
  simp [commitOut]

@[simp] theorem commitCore_frame (s : State) (c : Nat) (new : CfgSn) :
    (commitCore s c new).pending = s.pending ∧ (commitCore s c new).sram = s.sram := by
  unfold commitCore
  repeat' (first
    | (with_reducible refine frame_ite (fun _ => ?_) (fun _ => ?_))
    | (with_reducible refine frame_trans (stopOuts_frame _ _) ?_)
    | (with_reducible refine frame_trans (State_setOut_frame _ _ _) ?_)
    | (with_reducible refine frame_trans (State_setSyn_frame _ _ _) ?_)
    | (with_reducible refine frame_trans (beginRetune_frame _ _) ?_)
    | (with_reducible refine frame_trans (foldl_frame (fun s a => ?_) _ _) ?_)
    | (with_reducible refine foldl_frame (fun s a => ?_) _ _)
    | (with_reducible exact frame_refl _))

@[simp] theorem keepShadows_frame (old : Cfg) (s : State) :
    (keepShadows old s).pending = s.pending ∧ (keepShadows old s).sram = s.sram := by
  unfold keepShadows
  repeat' (first
    | (with_reducible refine frame_ite (fun _ => ?_) (fun _ => ?_))
    | (with_reducible refine frame_trans (foldl_frame (fun s a => ?_) _ _) ?_)
    | (with_reducible refine foldl_frame (fun s a => ?_) _ _)
    | (with_reducible exact frame_refl _)
    | dsimp only
    | split)

@[simp] theorem commitNow_frame (s : State) :
    (commitNow s).pending = s.pending ∧ (commitNow s).sram = s.sram := by
  unfold commitNow
  repeat' (first
    | (with_reducible refine frame_ite (fun _ => ?_) (fun _ => ?_))
    | (with_reducible refine frame_trans (commitCore_frame _ _ _) ?_)
    | (with_reducible refine frame_trans (commitOut_frame _ _ _) ?_)
    | (with_reducible refine frame_trans (raise_frame _ _) ?_)
    | (with_reducible refine frame_trans (foldl_frame (fun s a => ?_) _ _) ?_)
    | (with_reducible refine foldl_frame (fun s a => ?_) _ _)
    | (with_reducible exact frame_refl _))

@[simp] theorem commitInstant_frame (s : State) :
    (commitInstant s).pending = s.pending ∧ (commitInstant s).sram = s.sram := by
  unfold commitInstant
  repeat' (first
    | (with_reducible refine frame_ite (fun _ => ?_) (fun _ => ?_))
    | (with_reducible refine frame_trans (commitNow_frame _) ?_)
    | (with_reducible refine frame_trans (foldl_frame (fun s a => ?_) _ _) ?_)
    | (with_reducible refine foldl_frame (fun s a => ?_) _ _)
    | (with_reducible exact frame_refl _)
    | dsimp only
    | split)

@[simp] theorem enableCore_frame (c : Nat) (v : Nat) (s : State) :
    (enableCore c v s).pending = s.pending ∧ (enableCore c v s).sram = s.sram := by
  simp [enableCore]

@[simp] theorem outputsStopped_frame (c : Nat) (s : State) :
    (outputsStopped c s).pending = s.pending ∧ (outputsStopped c s).sram = s.sram := by
  unfold outputsStopped
  repeat' (first
    | with_reducible exact ⟨rfl, rfl⟩
    | (with_reducible refine frame_ite (fun _ => ?_) (fun _ => ?_))
    | (with_reducible refine frame_trans (State_setSyn_frame _ _ _) ?_)
    | (with_reducible refine frame_trans (foldl_frame (fun s a => ?_) _ _) ?_)
    | (with_reducible refine foldl_frame (fun s a => ?_) _ _)
    | dsimp only
    | split)

@[simp] theorem onCard_frame (k : Card) (f : Card → Card) (s : State) :
    (onCard k f s).pending = s.pending ∧ (onCard k f s).sram = s.sram := by
  unfold onCard
  repeat' (first
    | (with_reducible refine frame_ite (fun _ => ?_) (fun _ => ?_))
    | (with_reducible refine frame_trans (foldl_frame (fun s a => ?_) _ _) ?_)
    | (with_reducible refine foldl_frame (fun s a => ?_) _ _)
    | (with_reducible exact frame_refl _))

@[simp] theorem cardsChanged_frame (s : State) :
    (cardsChanged s).pending = s.pending ∧ (cardsChanged s).sram = s.sram := by
  exact ⟨rfl, rfl⟩

@[simp] theorem storeCard_frame (c : Nat) (band : Nat) (fine : Nat) (time : Nat) (s : State) :
    (storeCard c band fine time s).pending = s.pending ∧ (storeCard c band fine time s).sram = s.sram := by
  exact ⟨rfl, rfl⟩

@[simp] theorem lockCore_frame (c : Nat) (band : Nat) (fine : Nat) (s : State) :
    (lockCore c band fine s).pending = s.pending ∧ (lockCore c band fine s).sram = s.sram := by
  unfold lockCore
  repeat' (first
    | (with_reducible refine frame_ite (fun _ => ?_) (fun _ => ?_))
    | (with_reducible refine frame_trans (raise_frame _ _) ?_)
    | (with_reducible refine frame_trans (State_setSyn_frame _ _ _) ?_)
    | (with_reducible refine frame_trans (onCard_frame _ _ _) ?_)
    | (with_reducible refine frame_trans (storeCard_frame _ _ _ _ _) ?_)
    | (with_reducible refine frame_trans (originNow_frame _ _) ?_)
    | (with_reducible refine frame_trans (foldl_frame (fun s a => ?_) _ _) ?_)
    | (with_reducible refine foldl_frame (fun s a => ?_) _ _)
    | (with_reducible exact frame_refl _)
    | dsimp only
    | split)

@[simp] theorem cardTimeout_frame (c : Nat) (s : State) :
    (cardTimeout c s).pending = s.pending ∧ (cardTimeout c s).sram = s.sram := by
  unfold cardTimeout
  repeat' (first
    | with_reducible exact ⟨rfl, rfl⟩
    | (with_reducible refine frame_ite (fun _ => ?_) (fun _ => ?_))
    | (with_reducible refine frame_trans (raise_frame _ _) ?_)
    | (with_reducible refine frame_trans (cardsChanged_frame _) ?_)
    | (with_reducible refine frame_trans (State_setSyn_frame _ _ _) ?_)
    | (with_reducible refine frame_trans (foldl_frame (fun s a => ?_) _ _) ?_)
    | (with_reducible refine foldl_frame (fun s a => ?_) _ _)
    | dsimp only
    | split)

@[simp] theorem fenceSyn_frame (c : Nat) (s : State) :
    (fenceSyn c s).pending = s.pending ∧ (fenceSyn c s).sram = s.sram := by
  simp [fenceSyn]

@[simp] theorem writeCards_frame (b : List Byte) (s : State) :
    (writeCards b s).pending = s.pending ∧ (writeCards b s).sram = s.sram := by
  unfold writeCards
  repeat' (first
    | (with_reducible refine frame_ite (fun _ => ?_) (fun _ => ?_))
    | (with_reducible refine frame_trans (cardsChanged_frame _) ?_)
    | (with_reducible refine frame_trans (foldl_frame (fun s a => ?_) _ _) ?_)
    | (with_reducible refine foldl_frame (fun s a => ?_) _ _)
    | (with_reducible exact frame_refl _))

@[simp] theorem storeCards_frame (s : State) :
    (storeCards s).pending = s.pending ∧ (storeCards s).sram = s.sram := by
  simp [storeCards]

@[simp] theorem frequencyTest_frame (n : Nat) (fast : Rat) (fine : Rat) (s : State) :
    (frequencyTest n fast fine s).pending = s.pending ∧ (frequencyTest n fast fine s).sram = s.sram := by
  simp [frequencyTest]

@[simp] theorem slewTest_frame (n : Nat) (short : Rat) (long : Rat) (s : State) :
    (slewTest n short long s).pending = s.pending ∧ (slewTest n short long s).sram = s.sram := by
  simp [slewTest]

@[simp] theorem reopenGates_frame (n : Nat) (s : State) :
    (reopenGates n s).pending = s.pending ∧ (reopenGates n s).sram = s.sram := by
  exact ⟨rfl, rfl⟩

@[simp] theorem heartbeatRefresh_frame (s : State) :
    (heartbeatRefresh s).pending = s.pending ∧ (heartbeatRefresh s).sram = s.sram := by
  simp [heartbeatRefresh]

@[simp] theorem heartbeatLapse_frame (s : State) :
    (heartbeatLapse s).pending = s.pending ∧ (heartbeatLapse s).sram = s.sram := by
  simp [heartbeatLapse]

@[simp] theorem channelSecond_frame (n : Nat) (s : State) :
    (channelSecond n s).pending = s.pending ∧ (channelSecond n s).sram = s.sram := by
  simp [channelSecond]

@[simp] theorem State_setTb_frame (s : State) (k : Nat) (f : Tb → Tb) :
    (State.setTb s k f).pending = s.pending ∧ (State.setTb s k f).sram = s.sram := by
  exact ⟨rfl, rfl⟩

@[simp] theorem State_setDom_frame (s : State) (i : Nat) (f : Dom → Dom) :
    (State.setDom s i f).pending = s.pending ∧ (State.setDom s i f).sram = s.sram := by
  exact ⟨rfl, rfl⟩

@[simp] theorem domGo_frame (i : Nat) (st : DomState) (s : State) :
    (domGo i st s).pending = s.pending ∧ (domGo i st s).sram = s.sram := by
  exact ⟨rfl, rfl⟩

@[simp] theorem restamp_frame (k : Nat) (s : State) :
    (restamp k s).pending = s.pending ∧ (restamp k s).sram = s.sram := by
  unfold restamp
  repeat' (first
    | (with_reducible refine frame_ite (fun _ => ?_) (fun _ => ?_))
    | (with_reducible refine frame_trans (foldl_frame (fun s a => ?_) _ _) ?_)
    | (with_reducible refine foldl_frame (fun s a => ?_) _ _)
    | (with_reducible exact frame_refl _))

@[simp] theorem tbGo_frame (k : Nat) (st : TbState) (s : State) :
    (tbGo k st s).pending = s.pending ∧ (tbGo k st s).sram = s.sram := by
  exact ⟨rfl, rfl⟩

@[simp] theorem aimAt_frame (k : Nat) (theta : Rat) (s : State) :
    (aimAt k theta s).pending = s.pending ∧ (aimAt k theta s).sram = s.sram := by
  exact ⟨rfl, rfl⟩

@[simp] theorem setFreqTerm_frame (k : Nat) (v : Rat) (s : State) :
    (setFreqTerm k v s).pending = s.pending ∧ (setFreqTerm k v s).sram = s.sram := by
  exact ⟨rfl, rfl⟩

@[simp] theorem servoUpdate_frame (k : Nat) (theta : Rat) (s : State) :
    (servoUpdate k theta s).pending = s.pending ∧ (servoUpdate k theta s).sram = s.sram := by
  simp [servoUpdate]

@[simp] theorem enterTbHoldover_frame (k : Nat) (s : State) :
    (enterTbHoldover k s).pending = s.pending ∧ (enterTbHoldover k s).sram = s.sram := by
  simp [enterTbHoldover]

@[simp] theorem countSwitch_frame (k : Nat) (s : State) :
    (countSwitch k s).pending = s.pending ∧ (countSwitch k s).sram = s.sram := by
  exact ⟨rfl, rfl⟩

@[simp] theorem copyUtc_frame (k : Nat) (s : State) :
    (copyUtc k s).pending = s.pending ∧ (copyUtc k s).sram = s.sram := by
  simp [copyUtc]

@[simp] theorem announceUtc_frame (k : Nat) (d : Dataset) (s : State) :
    (announceUtc k d s).pending = s.pending ∧ (announceUtc k d s).sram = s.sram := by
  simp [announceUtc]

@[simp] theorem followUtc_frame (k : Nat) (s : State) :
    (followUtc k s).pending = s.pending ∧ (followUtc k s).sram = s.sram := by
  unfold followUtc
  repeat' (first
    | (with_reducible refine frame_ite (fun _ => ?_) (fun _ => ?_))
    | (with_reducible refine frame_trans (announceUtc_frame _ _ _) ?_)
    | (with_reducible refine frame_trans (foldl_frame (fun s a => ?_) _ _) ?_)
    | (with_reducible refine foldl_frame (fun s a => ?_) _ _)
    | (with_reducible exact frame_refl _)
    | dsimp only
    | split)

@[simp] theorem setActive_frame (k : Nat) (d : Option Nat) (s : State) :
    (setActive k d s).pending = s.pending ∧ (setActive k d s).sram = s.sram := by
  unfold setActive
  repeat' (first
    | (with_reducible refine frame_ite (fun _ => ?_) (fun _ => ?_))
    | (with_reducible refine frame_trans (State_setTb_frame _ _ _) ?_)
    | (with_reducible refine frame_trans (aimAt_frame _ _ _) ?_)
    | (with_reducible refine frame_trans (followUtc_frame _ _) ?_)
    | (with_reducible refine frame_trans (countSwitch_frame _ _) ?_)
    | (with_reducible refine frame_trans (foldl_frame (fun s a => ?_) _ _) ?_)
    | (with_reducible refine foldl_frame (fun s a => ?_) _ _)
    | (with_reducible exact frame_refl _)
    | dsimp only
    | split)

@[simp] theorem settleTb_frame (s : State) (k : Nat) :
    (settleTb s k).pending = s.pending ∧ (settleTb s k).sram = s.sram := by
  unfold settleTb
  repeat' (first
    | with_reducible exact ⟨rfl, rfl⟩
    | (with_reducible refine frame_ite (fun _ => ?_) (fun _ => ?_))
    | (with_reducible refine frame_trans (State_setTb_frame _ _ _) ?_)
    | (with_reducible refine frame_trans (raise_frame _ _) ?_)
    | (with_reducible refine frame_trans (setActive_frame _ _ _) ?_)
    | (with_reducible refine frame_trans (enterTbHoldover_frame _ _) ?_)
    | (with_reducible refine frame_trans (tbGo_frame _ _ _) ?_)
    | (with_reducible refine frame_trans (foldl_frame (fun s a => ?_) _ _) ?_)
    | (with_reducible refine foldl_frame (fun s a => ?_) _ _)
    | dsimp only
    | split)

@[simp] theorem settleTbClamp_frame (s : State) (k : Nat) :
    (settleTbClamp s k).pending = s.pending ∧ (settleTbClamp s k).sram = s.sram := by
  exact ⟨rfl, rfl⟩

@[simp] theorem cutBeacon_frame (s : State) :
    (cutBeacon s).pending = s.pending ∧ (cutBeacon s).sram = s.sram := by
  unfold cutBeacon
  repeat' (first
    | (with_reducible refine frame_ite (fun _ => ?_) (fun _ => ?_))
    | (with_reducible refine frame_trans (foldl_frame (fun s a => ?_) _ _) ?_)
    | (with_reducible refine foldl_frame (fun s a => ?_) _ _)
    | (with_reducible exact frame_refl _))

@[simp] theorem stepBeacon_frame (k : Nat) (now : Rat) (s : State) :
    (stepBeacon k now s).pending = s.pending ∧ (stepBeacon k now s).sram = s.sram := by
  unfold stepBeacon
  repeat' (first
    | (with_reducible refine frame_ite (fun _ => ?_) (fun _ => ?_))
    | (with_reducible refine frame_trans (cutBeacon_frame _) ?_)
    | (with_reducible refine frame_trans (foldl_frame (fun s a => ?_) _ _) ?_)
    | (with_reducible refine foldl_frame (fun s a => ?_) _ _)
    | (with_reducible exact frame_refl _))

@[simp] theorem shiftSeconds_frame (k : Nat) (d : Int) (s : State) :
    (shiftSeconds k d s).pending = s.pending ∧ (shiftSeconds k d s).sram = s.sram := by
  unfold shiftSeconds
  repeat' (first
    | with_reducible exact ⟨rfl, rfl⟩
    | (with_reducible refine frame_ite (fun _ => ?_) (fun _ => ?_))
    | (with_reducible refine frame_trans (foldl_frame (fun s a => ?_) _ _) ?_)
    | (with_reducible refine foldl_frame (fun s a => ?_) _ _)
    | dsimp only
    | split)

@[simp] theorem stepTb_frame (k : Nat) (after : TbState) (delta : Rat) (s : State) :
    (stepTb k after delta s).pending = s.pending ∧ (stepTb k after delta s).sram = s.sram := by
  unfold stepTb
  repeat' (first
    | (with_reducible refine frame_ite (fun _ => ?_) (fun _ => ?_))
    | (with_reducible refine frame_trans (stepBeacon_frame _ _ _) ?_)
    | (with_reducible refine frame_trans (shiftSeconds_frame _ _ _) ?_)
    | (with_reducible refine frame_trans (restamp_frame _ _) ?_)
    | (with_reducible refine frame_trans (raise_frame _ _) ?_)
    | (with_reducible refine frame_trans (rebaseAxis_frame _ _ _) ?_)
    | (with_reducible refine frame_trans (foldl_frame (fun s a => ?_) _ _) ?_)
    | (with_reducible refine foldl_frame (fun s a => ?_) _ _)
    | (with_reducible exact frame_refl _))

@[simp] theorem makeStep_frame (i : Nat) (theta : Rat) (s : State) :
    (makeStep i theta s).pending = s.pending ∧ (makeStep i theta s).sram = s.sram := by
  unfold makeStep
  repeat' (first
    | (with_reducible refine frame_ite (fun _ => ?_) (fun _ => ?_))
    | (with_reducible refine frame_trans (stepTb_frame _ _ _ _) ?_)
    | (with_reducible refine frame_trans (State_setTb_frame _ _ _) ?_)
    | (with_reducible refine frame_trans (countSwitch_frame _ _) ?_)
    | (with_reducible refine frame_trans (State_setDom_frame _ _ _) ?_)
    | (with_reducible refine frame_trans (domGo_frame _ _ _) ?_)
    | (with_reducible refine frame_trans (tbGo_frame _ _ _) ?_)
    | (with_reducible refine frame_trans (foldl_frame (fun s a => ?_) _ _) ?_)
    | (with_reducible refine foldl_frame (fun s a => ?_) _ _)
    | (with_reducible exact frame_refl _))

@[simp] theorem acceptEst_frame (i : Nat) (t : Rat) (theta : Rat) (s : State) :
    (acceptEst i t theta s).pending = s.pending ∧ (acceptEst i t theta s).sram = s.sram := by
  exact ⟨rfl, rfl⟩

@[simp] theorem restartEst_frame (i : Nat) (t : Rat) (theta : Rat) (s : State) :
    (restartEst i t theta s).pending = s.pending ∧ (restartEst i t theta s).sram = s.sram := by
  exact ⟨rfl, rfl⟩

@[simp] theorem qualify_frame (i : Nat) (t : Rat) (theta : Rat) (s : State) :
    (qualify i t theta s).pending = s.pending ∧ (qualify i t theta s).sram = s.sram := by
  unfold qualify
  repeat' (first
    | with_reducible exact ⟨rfl, rfl⟩
    | (with_reducible refine frame_ite (fun _ => ?_) (fun _ => ?_))
    | (with_reducible refine frame_trans (domGo_frame _ _ _) ?_)
    | (with_reducible refine frame_trans (State_setDom_frame _ _ _) ?_)
    | (with_reducible refine frame_trans (foldl_frame (fun s a => ?_) _ _) ?_)
    | (with_reducible refine foldl_frame (fun s a => ?_) _ _)
    | dsimp only
    | split)

@[simp] theorem qualifiedRun_frame (i : Nat) (t : Rat) (theta : Rat) (resid : Rat) (s : State) :
    (qualifiedRun i t theta resid s).pending = s.pending ∧ (qualifiedRun i t theta resid s).sram = s.sram := by
  simp [qualifiedRun]

@[simp] theorem requalify_frame (i : Nat) (t : Rat) (s : State) :
    (requalify i t s).pending = s.pending ∧ (requalify i t s).sram = s.sram := by
  unfold requalify
  repeat' (first
    | (with_reducible refine frame_ite (fun _ => ?_) (fun _ => ?_))
    | (with_reducible refine frame_trans (State_setDom_frame _ _ _) ?_)
    | (with_reducible refine frame_trans (foldl_frame (fun s a => ?_) _ _) ?_)
    | (with_reducible refine foldl_frame (fun s a => ?_) _ _)
    | (with_reducible exact frame_refl _))

@[simp] theorem judgeEst_frame (i : Nat) (t : Rat) (theta : Rat) (resid : Rat) (s : State) :
    (judgeEst i t theta resid s).pending = s.pending ∧ (judgeEst i t theta resid s).sram = s.sram := by
  unfold judgeEst
  repeat' (first
    | with_reducible exact ⟨rfl, rfl⟩
    | (with_reducible refine frame_ite (fun _ => ?_) (fun _ => ?_))
    | (with_reducible refine frame_trans (qualify_frame _ _ _ _) ?_)
    | (with_reducible refine frame_trans (restartEst_frame _ _ _ _) ?_)
    | (with_reducible refine frame_trans (acceptEst_frame _ _ _ _) ?_)
    | (with_reducible refine frame_trans (qualifiedRun_frame _ _ _ _ _) ?_)
    | (with_reducible refine frame_trans (State_setDom_frame _ _ _) ?_)
    | (with_reducible refine frame_trans (domGo_frame _ _ _) ?_)
    | (with_reducible refine frame_trans (foldl_frame (fun s a => ?_) _ _) ?_)
    | (with_reducible refine foldl_frame (fun s a => ?_) _ _)
    | dsimp only
    | split)

@[simp] theorem noteEdgeSec_frame (i : Nat) (s : State) :
    (noteEdgeSec i s).pending = s.pending ∧ (noteEdgeSec i s).sram = s.sram := by
  simp [noteEdgeSec]

@[simp] theorem stepEst_frame (i : Nat) (t : Rat) (theta : Rat) (s : State) :
    (stepEst i t theta s).pending = s.pending ∧ (stepEst i t theta s).sram = s.sram := by
  unfold stepEst
  repeat' (first
    | (with_reducible refine frame_ite (fun _ => ?_) (fun _ => ?_))
    | (with_reducible refine frame_trans (makeStep_frame _ _ _) ?_)
    | (with_reducible refine frame_trans (State_setDom_frame _ _ _) ?_)
    | (with_reducible refine frame_trans (noteEdgeSec_frame _ _) ?_)
    | (with_reducible refine frame_trans (restartEst_frame _ _ _ _) ?_)
    | (with_reducible refine frame_trans (acceptEst_frame _ _ _ _) ?_)
    | (with_reducible refine frame_trans (foldl_frame (fun s a => ?_) _ _) ?_)
    | (with_reducible refine foldl_frame (fun s a => ?_) _ _)
    | (with_reducible exact frame_refl _))

@[simp] theorem useEst_frame (i : Nat) (t : Rat) (theta : Rat) (s : State) :
    (useEst i t theta s).pending = s.pending ∧ (useEst i t theta s).sram = s.sram := by
  unfold useEst
  repeat' (first
    | (with_reducible refine frame_ite (fun _ => ?_) (fun _ => ?_))
    | (with_reducible refine frame_trans (State_setDom_frame _ _ _) ?_)
    | (with_reducible refine frame_trans (servoUpdate_frame _ _ _) ?_)
    | (with_reducible refine frame_trans (noteEdgeSec_frame _ _) ?_)
    | (with_reducible refine frame_trans (judgeEst_frame _ _ _ _ _) ?_)
    | (with_reducible refine frame_trans (foldl_frame (fun s a => ?_) _ _) ?_)
    | (with_reducible refine foldl_frame (fun s a => ?_) _ _)
    | (with_reducible exact frame_refl _))

@[simp] theorem estimate_frame (i : Nat) (t : Rat) (theta : Rat) (s : State) :
    (estimate i t theta s).pending = s.pending ∧ (estimate i t theta s).sram = s.sram := by
  unfold estimate
  repeat' (first
    | (with_reducible refine frame_ite (fun _ => ?_) (fun _ => ?_))
    | (with_reducible refine frame_trans (stepEst_frame _ _ _ _) ?_)
    | (with_reducible refine frame_trans (useEst_frame _ _ _ _) ?_)
    | (with_reducible refine frame_trans (foldl_frame (fun s a => ?_) _ _) ?_)
    | (with_reducible refine foldl_frame (fun s a => ?_) _ _)
    | (with_reducible exact frame_refl _))

@[simp] theorem estimates_frame (l : List (Nat × Rat × Rat)) (s : State) :
    (estimates l s).pending = s.pending ∧ (estimates l s).sram = s.sram := by
  unfold estimates
  dsimp only
  refine frame_trans (foldl_frame (fun s p => ?_) _ _) (foldl_fst_frame (fun x p => ?_) _ _)
  · split
    · exact useEst_frame _ _ _ _
    · exact frame_refl _
  · split
    · exact stepEst_frame _ _ _ _
    · exact frame_refl _

@[simp] theorem timePulse_frame (c : Nat) (t : Rat) (u : Nat) (sec60 : Bool) (s : State) :
    (timePulse c t u sec60 s).pending = s.pending ∧ (timePulse c t u sec60 s).sram = s.sram := by
  unfold timePulse
  repeat' (first
    | (with_reducible refine frame_ite (fun _ => ?_) (fun _ => ?_))
    | (with_reducible refine frame_trans (estimates_frame _ _) ?_)
    | (with_reducible refine frame_trans (foldl_frame (fun s a => ?_) _ _) ?_)
    | (with_reducible refine foldl_frame (fun s a => ?_) _ _)
    | (with_reducible exact frame_refl _))

@[simp] theorem localSecond_frame (n : Nat) (t : Rat) (s : State) :
    (localSecond n t s).pending = s.pending ∧ (localSecond n t s).sram = s.sram := by
  unfold localSecond
  repeat' (first
    | (with_reducible refine frame_ite (fun _ => ?_) (fun _ => ?_))
    | (with_reducible refine frame_trans (State_setTb_frame _ _ _) ?_)
    | (with_reducible refine frame_trans (estimates_frame _ _) ?_)
    | (with_reducible refine frame_trans (foldl_frame (fun s a => ?_) _ _) ?_)
    | (with_reducible refine foldl_frame (fun s a => ?_) _ _)
    | (with_reducible exact frame_refl _)
    | dsimp only
    | split)

@[simp] theorem secondFell_frame (was : State) (s : State) (n : Nat) :
    (secondFell was s n).pending = s.pending ∧ (secondFell was s n).sram = s.sram := by
  unfold secondFell
  repeat' (first
    | (with_reducible refine frame_ite (fun _ => ?_) (fun _ => ?_))
    | (with_reducible refine frame_trans (localSecond_frame _ _ _) ?_)
    | (with_reducible refine frame_trans (foldl_frame (fun s a => ?_) _ _) ?_)
    | (with_reducible refine foldl_frame (fun s a => ?_) _ _)
    | (with_reducible exact frame_refl _)
    | dsimp only
    | split)

@[simp] theorem kindWritten_frame (i : Nat) (old : Nat) (s : State) :
    (kindWritten i old s).pending = s.pending ∧ (kindWritten i old s).sram = s.sram := by
  simp [kindWritten]

@[simp] theorem applyLeap_frame (k : Nat) (s : State) :
    (applyLeap k s).pending = s.pending ∧ (applyLeap k s).sram = s.sram := by
  simp [applyLeap]

@[simp] theorem fenceTb_frame (k : Nat) (s : State) :
    (fenceTb k s).pending = s.pending ∧ (fenceTb k s).sram = s.sram := by
  simp [fenceTb]

@[simp] theorem freezeRates_frame (s : State) :
    (freezeRates s).pending = s.pending ∧ (freezeRates s).sram = s.sram := by
  exact ⟨rfl, rfl⟩

@[simp] theorem sleepTimebases_frame (s : State) :
    (sleepTimebases s).pending = s.pending ∧ (sleepTimebases s).sram = s.sram := by
  unfold sleepTimebases
  repeat' (first
    | (with_reducible refine frame_ite (fun _ => ?_) (fun _ => ?_))
    | (with_reducible refine frame_trans (domGo_frame _ _ _) ?_)
    | (with_reducible refine frame_trans (State_setTb_frame _ _ _) ?_)
    | (with_reducible refine frame_trans (tbGo_frame _ _ _) ?_)
    | (with_reducible refine frame_trans (freezeRates_frame _) ?_)
    | (with_reducible refine frame_trans (foldl_frame (fun s a => ?_) _ _) ?_)
    | (with_reducible refine foldl_frame (fun s a => ?_) _ _)
    | (with_reducible exact frame_refl _))

@[simp] theorem wakeTimebases_frame (s : State) :
    (wakeTimebases s).pending = s.pending ∧ (wakeTimebases s).sram = s.sram := by
  unfold wakeTimebases
  repeat' (first
    | with_reducible exact ⟨rfl, rfl⟩
    | (with_reducible refine frame_ite (fun _ => ?_) (fun _ => ?_))
    | (with_reducible refine frame_trans (setFreqTerm_frame _ _ _) ?_)
    | (with_reducible refine frame_trans (State_setTb_frame _ _ _) ?_)
    | (with_reducible refine frame_trans (foldl_frame (fun s a => ?_) _ _) ?_)
    | (with_reducible refine foldl_frame (fun s a => ?_) _ _)
    | dsimp only
    | split)

@[simp] theorem State_setPort_frame (s : State) (n : Nat) (f : Port → Port) :
    (State.setPort s n f).pending = s.pending ∧ (State.setPort s n f).sram = s.sram := by
  exact ⟨rfl, rfl⟩

@[simp] theorem State_setInst_frame (s : State) (i : Nat) (f : PtpInst → PtpInst) :
    (State.setInst s i f).pending = s.pending ∧ (State.setInst s i f).sram = s.sram := by
  exact ⟨rfl, rfl⟩

@[simp] theorem send_frame (x : Tx) (s : State) :
    (send x s).pending = s.pending ∧ (send x s).sram = s.sram := by
  exact ⟨rfl, rfl⟩

@[simp] theorem setPortState_frame (i : Nat) (n : Nat) (st : PortState) (s : State) :
    (setPortState i n st s).pending = s.pending ∧ (setPortState i n st s).sram = s.sram := by
  simp [setPortState]

@[simp] theorem settleGm_frame (s : State) (i : Nat) :
    (settleGm s i).pending = s.pending ∧ (settleGm s i).sram = s.sram := by
  unfold settleGm
  try dsimp only
  (repeat' split) <;> first
    | with_reducible exact ⟨rfl, rfl⟩
    | simp

@[simp] theorem settleAdvertised_frame (s : State) (i : Nat) :
    (settleAdvertised s i).pending = s.pending ∧ (settleAdvertised s i).sram = s.sram := by
  unfold settleAdvertised
  repeat' (first
    | (with_reducible refine frame_ite (fun _ => ?_) (fun _ => ?_))
    | (with_reducible refine frame_trans (settleGm_frame _ _) ?_)
    | (with_reducible refine frame_trans (foldl_frame (fun s a => ?_) _ _) ?_)
    | (with_reducible refine foldl_frame (fun s a => ?_) _ _)
    | (with_reducible exact frame_refl _))

@[simp] theorem settleInst_frame (s : State) (i : Nat) :
    (settleInst s i).pending = s.pending ∧ (settleInst s i).sram = s.sram := by
  unfold settleInst
  repeat' (first
    | (with_reducible refine frame_ite (fun _ => ?_) (fun _ => ?_))
    | (with_reducible refine frame_trans (setPortState_frame _ _ _ _) ?_)
    | (with_reducible refine frame_trans (State_setInst_frame _ _ _) ?_)
    | (with_reducible refine frame_trans (State_setDom_frame _ _ _) ?_)
    | (with_reducible refine frame_trans (settleGm_frame _ _) ?_)
    | (with_reducible refine frame_trans (foldl_frame (fun s a => ?_) _ _) ?_)
    | (with_reducible refine foldl_frame (fun s a => ?_) _ _)
    | (with_reducible exact frame_refl _))

@[simp] theorem receiptTimeout_frame (i : Nat) (announce : Bool) (s : State) :
    (receiptTimeout i announce s).pending = s.pending ∧ (receiptTimeout i announce s).sram = s.sram := by
  unfold receiptTimeout
  repeat' (first
    | (with_reducible refine frame_ite (fun _ => ?_) (fun _ => ?_))
    | (with_reducible refine frame_trans (State_setDom_frame _ _ _) ?_)
    | (with_reducible refine frame_trans (State_setInst_frame _ _ _) ?_)
    | (with_reducible refine frame_trans (setPortState_frame _ _ _ _) ?_)
    | (with_reducible refine frame_trans (foldl_frame (fun s a => ?_) _ _) ?_)
    | (with_reducible refine foldl_frame (fun s a => ?_) _ _)
    | (with_reducible exact frame_refl _))

@[simp] theorem discardPtp_frame (n : Nat) (s : State) :
    (discardPtp n s).pending = s.pending ∧ (discardPtp n s).sram = s.sram := by
  unfold discardPtp
  repeat' (first
    | (with_reducible refine frame_ite (fun _ => ?_) (fun _ => ?_))
    | (with_reducible refine frame_trans (State_setPort_frame _ _ _) ?_)
    | (with_reducible refine frame_trans (foldl_frame (fun s a => ?_) _ _) ?_)
    | (with_reducible refine foldl_frame (fun s a => ?_) _ _)
    | (with_reducible exact frame_refl _))

@[simp] theorem syncComplete_frame (i : Nat) (n : Nat) (at_ : Nat) (rx : Rat) (origin : Rat) (corr : Rat) (ratio : Rat) (s : State) :
    (syncComplete i n at_ rx origin corr ratio s).pending = s.pending ∧ (syncComplete i n at_ rx origin corr ratio s).sram = s.sram := by
  unfold syncComplete
  repeat' (first
    | with_reducible exact ⟨rfl, rfl⟩
    | (with_reducible refine frame_ite (fun _ => ?_) (fun _ => ?_))
    | (with_reducible refine frame_trans (estimate_frame _ _ _ _) ?_))

@[simp] theorem noteGm_frame (i : Nat) (g : Option (Nat × Int)) (s : State) :
    (noteGm i g s).pending = s.pending ∧ (noteGm i g s).sram = s.sram := by
  unfold noteGm
  repeat' (first
    | (with_reducible refine frame_ite (fun _ => ?_) (fun _ => ?_))
    | (with_reducible refine frame_trans (State_setDom_frame _ _ _) ?_)
    | (with_reducible refine frame_trans (State_setInst_frame _ _ _) ?_)
    | (with_reducible refine frame_trans (raise_frame _ _) ?_)
    | (with_reducible refine frame_trans (foldl_frame (fun s a => ?_) _ _) ?_)
    | (with_reducible refine foldl_frame (fun s a => ?_) _ _)
    | (with_reducible exact frame_refl _)
    | dsimp only
    | split)

@[simp] theorem syncReceive_frame (n : Nat) (h : PtpHdr) (kind : SyncKind) (origin : Rat) (ratio : Rat) (i : Nat) (s : State) :
    (syncReceive n h kind origin ratio i s).pending = s.pending ∧ (syncReceive n h kind origin ratio i s).sram = s.sram := by
  unfold syncReceive
  repeat' (first
    | (with_reducible refine frame_ite (fun _ => ?_) (fun _ => ?_))
    | (with_reducible refine frame_trans (State_setDom_frame _ _ _) ?_)
    | (with_reducible refine frame_trans (State_setInst_frame _ _ _) ?_)
    | (with_reducible refine frame_trans (syncComplete_frame _ _ _ _ _ _ _ _) ?_)
    | (with_reducible refine frame_trans (noteGm_frame _ _ _) ?_)
    | (with_reducible refine frame_trans (foldl_frame (fun s a => ?_) _ _) ?_)
    | (with_reducible refine foldl_frame (fun s a => ?_) _ _)
    | (with_reducible exact frame_refl _)
    | split)

@[simp] theorem followUpReceive_frame (n : Nat) (h : PtpHdr) (origin : Rat) (ratio : Rat) (gm : Option (Nat × Int)) (i : Nat) (s : State) :
    (followUpReceive n h origin ratio gm i s).pending = s.pending ∧ (followUpReceive n h origin ratio gm i s).sram = s.sram := by
  unfold followUpReceive
  repeat' (first
    | (with_reducible refine frame_ite (fun _ => ?_) (fun _ => ?_))
    | (with_reducible refine frame_trans (noteGm_frame _ _ _) ?_)
    | (with_reducible refine frame_trans (syncComplete_frame _ _ _ _ _ _ _ _) ?_)
    | (with_reducible refine frame_trans (foldl_frame (fun s a => ?_) _ _) ?_)
    | (with_reducible refine foldl_frame (fun s a => ?_) _ _)
    | (with_reducible exact frame_refl _)
    | dsimp only
    | split)

@[simp] theorem takePriorities_frame (i : Nat) (s : State) :
    (takePriorities i s).pending = s.pending ∧ (takePriorities i s).sram = s.sram := by
  unfold takePriorities
  repeat' (first
    | (with_reducible refine frame_ite (fun _ => ?_) (fun _ => ?_))
    | (with_reducible refine frame_trans (State_setInst_frame _ _ _) ?_)
    | (with_reducible refine frame_trans (foldl_frame (fun s a => ?_) _ _) ?_)
    | (with_reducible refine foldl_frame (fun s a => ?_) _ _)
    | (with_reducible exact frame_refl _))

@[simp] theorem announceReceive_frame (n : Nat) (h : PtpHdr) (d : Dataset) (i : Nat) (s : State) :
    (announceReceive n h d i s).pending = s.pending ∧ (announceReceive n h d i s).sram = s.sram := by
  unfold announceReceive
  repeat' (first
    | (with_reducible refine frame_ite (fun _ => ?_) (fun _ => ?_))
    | (with_reducible refine frame_trans (settleInst_frame _ _) ?_)
    | (with_reducible refine frame_trans (takePriorities_frame _ _) ?_)
    | (with_reducible refine frame_trans (State_setInst_frame _ _ _) ?_)
    | (with_reducible refine frame_trans (announceUtc_frame _ _ _) ?_)
    | (with_reducible refine frame_trans (foldl_frame (fun s a => ?_) _ _) ?_)
    | (with_reducible refine foldl_frame (fun s a => ?_) _ _)
    | (with_reducible exact frame_refl _))

@[simp] theorem delayReqReceive_frame (n : Nat) (h : PtpHdr) (i : Nat) (s : State) :
    (delayReqReceive n h i s).pending = s.pending ∧ (delayReqReceive n h i s).sram = s.sram := by
  simp [delayReqReceive]

@[simp] theorem delayRespReceive_frame (n : Nat) (h : PtpHdr) (receive : Rat) (ident : Nat) (port : Nat) (i : Nat) (s : State) :
    (delayRespReceive n h receive ident port i s).pending = s.pending ∧ (delayRespReceive n h receive ident port i s).sram = s.sram := by
  unfold delayRespReceive
  repeat' (first
    | with_reducible exact ⟨rfl, rfl⟩
    | (with_reducible refine frame_ite (fun _ => ?_) (fun _ => ?_))
    | (with_reducible refine frame_trans (State_setInst_frame _ _ _) ?_)
    | (with_reducible refine frame_trans (foldl_frame (fun s a => ?_) _ _) ?_)
    | (with_reducible refine foldl_frame (fun s a => ?_) _ _)
    | dsimp only
    | split)

@[simp] theorem pdelayReqReceive_frame (n : Nat) (h : PtpHdr) (i : Nat) (s : State) :
    (pdelayReqReceive n h i s).pending = s.pending ∧ (pdelayReqReceive n h i s).sram = s.sram := by
  simp [pdelayReqReceive]

@[simp] theorem pdelayRespReceive_frame (n : Nat) (h : PtpHdr) (t2 : Rat) (t3 : Rat) (ident : Nat) (port : Nat) (i : Nat) (s : State) :
    (pdelayRespReceive n h t2 t3 ident port i s).pending = s.pending ∧ (pdelayRespReceive n h t2 t3 ident port i s).sram = s.sram := by
  unfold pdelayRespReceive
  repeat' (first
    | with_reducible exact ⟨rfl, rfl⟩
    | (with_reducible refine frame_ite (fun _ => ?_) (fun _ => ?_))
    | (with_reducible refine frame_trans (State_setPort_frame _ _ _) ?_)
    | (with_reducible refine frame_trans (foldl_frame (fun s a => ?_) _ _) ?_)
    | (with_reducible refine foldl_frame (fun s a => ?_) _ _)
    | dsimp only
    | split)

@[simp] theorem noteResidence_frame (i : Nat) (n : Nat) (h : PtpHdr) (kind : PtpKind) (twoStep : Bool) (residence : Rat) (s : State) :
    (noteResidence i n h kind twoStep residence s).pending = s.pending ∧ (noteResidence i n h kind twoStep residence s).sram = s.sram := by
  unfold noteResidence
  repeat' (first
    | (with_reducible refine frame_ite (fun _ => ?_) (fun _ => ?_))
    | (with_reducible refine frame_trans (State_setInst_frame _ _ _) ?_)
    | (with_reducible refine frame_trans (foldl_frame (fun s a => ?_) _ _) ?_)
    | (with_reducible refine foldl_frame (fun s a => ?_) _ _)
    | (with_reducible exact frame_refl _))

@[simp] theorem transparentForward_frame (n : Nat) (h : PtpHdr) (kind : PtpKind) (twoStep : Bool) (residence : Rat) (s : State) :
    (transparentForward n h kind twoStep residence s).pending = s.pending ∧ (transparentForward n h kind twoStep residence s).sram = s.sram := by
  unfold transparentForward
  repeat' (first
    | (with_reducible refine frame_ite (fun _ => ?_) (fun _ => ?_))
    | (with_reducible refine frame_trans (discardPtp_frame _ _) ?_)
    | (with_reducible refine frame_trans (send_frame _ _) ?_)
    | (with_reducible refine frame_trans (noteResidence_frame _ _ _ _ _ _ _) ?_)
    | (with_reducible refine frame_trans (foldl_frame (fun s a => ?_) _ _) ?_)
    | (with_reducible refine foldl_frame (fun s a => ?_) _ _)
    | (with_reducible exact frame_refl _)
    | dsimp only
    | split)

@[simp] theorem txNext_frame (n : Nat) (i : Nat) (j : Nat) (log : Int) (s : State) :
    (txNext n i j log s).pending = s.pending ∧ (txNext n i j log s).sram = s.sram := by
  unfold txNext
  repeat' (first
    | (with_reducible refine frame_ite (fun _ => ?_) (fun _ => ?_))
    | (with_reducible refine frame_trans (State_setPort_frame _ _ _) ?_)
    | (with_reducible refine frame_trans (foldl_frame (fun s a => ?_) _ _) ?_)
    | (with_reducible refine foldl_frame (fun s a => ?_) _ _)
    | (with_reducible exact frame_refl _))

@[simp] theorem announceTransmit_frame (n : Nat) (i : Nat) (s : State) :
    (announceTransmit n i s).pending = s.pending ∧ (announceTransmit n i s).sram = s.sram := by
  unfold announceTransmit originate
  dsimp only
  repeat' split
  all_goals first
    | exact ⟨rfl, rfl⟩
    | exact frame_trans (send_frame _ _) ⟨rfl, rfl⟩

@[simp] theorem syncTransmit_frame (n : Nat) (i : Nat) (s : State) :
    (syncTransmit n i s).pending = s.pending ∧ (syncTransmit n i s).sram = s.sram := by
  unfold syncTransmit originate
  dsimp only
  repeat' split
  all_goals first
    | exact ⟨rfl, rfl⟩
    | exact frame_trans (send_frame _ _) ⟨rfl, rfl⟩

@[simp] theorem delayReqTransmit_frame (n : Nat) (i : Nat) (s : State) :
    (delayReqTransmit n i s).pending = s.pending ∧ (delayReqTransmit n i s).sram = s.sram := by
  unfold delayReqTransmit
  repeat' (first
    | with_reducible exact ⟨rfl, rfl⟩
    | (with_reducible refine frame_ite (fun _ => ?_) (fun _ => ?_)))

@[simp] theorem pdelayReqTransmit_frame (n : Nat) (i : Nat) (s : State) :
    (pdelayReqTransmit n i s).pending = s.pending ∧ (pdelayReqTransmit n i s).sram = s.sram := by
  simp [pdelayReqTransmit]

@[simp] theorem linkChange_frame (n : Nat) (up : Bool) (partnerMaster : Bool) (s : State) :
    (linkChange n up partnerMaster s).pending = s.pending ∧ (linkChange n up partnerMaster s).sram = s.sram := by
  simp [linkChange]

@[simp] theorem realignCopies_frame (n : Nat) (mismatch : BitVec 4) (s : State) :
    (realignCopies n mismatch s).pending = s.pending ∧ (realignCopies n mismatch s).sram = s.sram := by
  exact ⟨rfl, rfl⟩

@[simp] theorem settleDomRank_frame (s : State) (i : Nat) :
    (settleDomRank s i).pending = s.pending ∧ (settleDomRank s i).sram = s.sram := by
  unfold settleDomRank
  repeat' (first
    | with_reducible exact ⟨rfl, rfl⟩
    | (with_reducible refine frame_ite (fun _ => ?_) (fun _ => ?_))
    | (with_reducible refine frame_trans (State_setDom_frame _ _ _) ?_)
    | (with_reducible refine frame_trans (raise_frame _ _) ?_)
    | (with_reducible refine frame_trans (foldl_frame (fun s a => ?_) _ _) ?_)
    | (with_reducible refine foldl_frame (fun s a => ?_) _ _)
    | dsimp only
    | split)

@[simp] theorem domainRankWait_frame (i : Nat) (s : State) :
    (domainRankWait i s).pending = s.pending ∧ (domainRankWait i s).sram = s.sram := by
  unfold domainRankWait
  repeat' (first
    | with_reducible exact ⟨rfl, rfl⟩
    | (with_reducible refine frame_ite (fun _ => ?_) (fun _ => ?_))
    | (with_reducible refine frame_trans (raise_frame _ _) ?_)
    | (with_reducible refine frame_trans (State_setDom_frame _ _ _) ?_)
    | (with_reducible refine frame_trans (foldl_frame (fun s a => ?_) _ _) ?_)
    | (with_reducible refine foldl_frame (fun s a => ?_) _ _)
    | dsimp only
    | split)

@[simp] theorem settleDom_frame (s : State) (i : Nat) :
    (settleDom s i).pending = s.pending ∧ (settleDom s i).sram = s.sram := by
  simp [settleDom]

@[simp] theorem kindChanged_frame (i : Nat) (old : Nat) (s : State) :
    (kindChanged i old s).pending = s.pending ∧ (kindChanged i old s).sram = s.sram := by
  simp [kindChanged]

@[simp] theorem layer2_frame (n : Nat) (dst : Nat) (src : Nat) (etherType : Nat) (payload : List Byte) (s : State) :
    (layer2 n dst src etherType payload s).pending = s.pending ∧ (layer2 n dst src etherType payload s).sram = s.sram := by
  unfold layer2
  repeat' (first
    | with_reducible exact ⟨rfl, rfl⟩
    | (with_reducible refine frame_ite (fun _ => ?_) (fun _ => ?_))
    | (with_reducible refine frame_trans (send_frame _ _) ?_)
    | (with_reducible refine frame_trans (foldl_frame (fun s a => ?_) _ _) ?_))

@[simp] theorem State_setCand_frame (s : State) (c : Nat) (f : Cand → Cand) :
    (State.setCand s c f).pending = s.pending ∧ (State.setCand s c f).sram = s.sram := by
  exact ⟨rfl, rfl⟩

@[simp] theorem State_setGnss_frame (s : State) (f : Gnss → Gnss) :
    (State.setGnss s f).pending = s.pending ∧ (State.setGnss s f).sram = s.sram := by
  exact ⟨rfl, rfl⟩

@[simp] theorem candGo_frame (c : Nat) (st : CandState) (s : State) :
    (candGo c st s).pending = s.pending ∧ (candGo c st s).sram = s.sram := by
  simp [candGo]

@[simp] theorem missEdge_frame (c : Nat) (s : State) :
    (missEdge c s).pending = s.pending ∧ (missEdge c s).sram = s.sram := by
  exact ⟨rfl, rfl⟩

@[simp] theorem candEdge_frame (c : Nat) (t : Rat) (s : State) :
    (candEdge c t s).pending = s.pending ∧ (candEdge c t s).sram = s.sram := by
  unfold candEdge
  repeat' (first
    | (with_reducible refine frame_ite (fun _ => ?_) (fun _ => ?_))
    | (with_reducible refine frame_trans (State_setCand_frame _ _ _) ?_)
    | (with_reducible refine frame_trans (foldl_frame (fun s a => ?_) _ _) ?_)
    | (with_reducible refine foldl_frame (fun s a => ?_) _ _)
    | (with_reducible exact frame_refl _))

@[simp] theorem extraEdge_frame (c : Nat) (s : State) :
    (extraEdge c s).pending = s.pending ∧ (extraEdge c s).sram = s.sram := by
  exact ⟨rfl, rfl⟩

@[simp] theorem judgePulse_frame (c : Nat) (t : Rat) (s : State) :
    (judgePulse c t s).pending = s.pending ∧ (judgePulse c t s).sram = s.sram := by
  unfold judgePulse
  repeat' (first
    | (with_reducible refine frame_ite (fun _ => ?_) (fun _ => ?_))
    | (with_reducible refine frame_trans (State_setGnss_frame _ _) ?_)
    | (with_reducible refine frame_trans (missEdge_frame _ _) ?_)
    | (with_reducible refine frame_trans (labelAligned_frame _ _ _ _ _) ?_)
    | (with_reducible refine frame_trans (candEdge_frame _ _ _) ?_)
    | (with_reducible refine frame_trans (timePulse_frame _ _ _ _ _) ?_)
    | (with_reducible refine frame_trans (foldl_frame (fun s a => ?_) _ _) ?_)
    | (with_reducible refine foldl_frame (fun s a => ?_) _ _)
    | (with_reducible exact frame_refl _))

@[simp] theorem judgeOpen_frame (c : Nat) (s : State) :
    (judgeOpen c s).pending = s.pending ∧ (judgeOpen c s).sram = s.sram := by
  unfold judgeOpen
  repeat' (first
    | (with_reducible refine frame_ite (fun _ => ?_) (fun _ => ?_))
    | (with_reducible refine frame_trans (judgePulse_frame _ _ _) ?_)
    | (with_reducible refine frame_trans (foldl_frame (fun s a => ?_) _ _) ?_)
    | (with_reducible refine foldl_frame (fun s a => ?_) _ _)
    | (with_reducible exact frame_refl _)
    | dsimp only
    | split)

@[simp] theorem labelledPulse_frame (c : Nat) (t : Rat) (s : State) :
    (labelledPulse c t s).pending = s.pending ∧ (labelledPulse c t s).sram = s.sram := by
  unfold labelledPulse
  repeat' (first
    | (with_reducible refine frame_ite (fun _ => ?_) (fun _ => ?_))
    | (with_reducible refine frame_trans (State_setGnss_frame _ _) ?_)
    | (with_reducible refine frame_trans (judgeOpen_frame _ _) ?_)
    | (with_reducible refine frame_trans (edgeToChannels_frame _ _ _) ?_)
    | (with_reducible refine frame_trans (judgePulse_frame _ _ _) ?_)
    | (with_reducible refine frame_trans (foldl_frame (fun s a => ?_) _ _) ?_)
    | (with_reducible refine foldl_frame (fun s a => ?_) _ _)
    | (with_reducible exact frame_refl _))

@[simp] theorem labelledMissing_frame (c : Nat) (s : State) :
    (labelledMissing c s).pending = s.pending ∧ (labelledMissing c s).sram = s.sram := by
  simp [labelledMissing]

@[simp] theorem gnssSentence_frame (chars : List Byte) (began : Nat) (s : State) :
    (gnssSentence chars began s).pending = s.pending ∧ (gnssSentence chars began s).sram = s.sram := by
  unfold gnssSentence
  repeat' (first
    | (with_reducible refine frame_ite (fun _ => ?_) (fun _ => ?_))
    | (with_reducible refine frame_trans (State_setGnss_frame _ _) ?_)
    | (with_reducible refine frame_trans (judgeOpen_frame _ _) ?_)
    | (with_reducible refine frame_trans (foldl_frame (fun s a => ?_) _ _) ?_)
    | (with_reducible refine foldl_frame (fun s a => ?_) _ _)
    | (with_reducible exact frame_refl _)
    | dsimp only
    | split)

@[simp] theorem msgLatestExpiry_frame (s : State) :
    (msgLatestExpiry s).pending = s.pending ∧ (msgLatestExpiry s).sram = s.sram := by
  unfold msgLatestExpiry
  repeat' (first
    | (with_reducible refine frame_ite (fun _ => ?_) (fun _ => ?_))
    | (with_reducible refine frame_trans (judgeOpen_frame _ _) ?_)
    | (with_reducible refine frame_trans (foldl_frame (fun s a => ?_) _ _) ?_)
    | (with_reducible refine foldl_frame (fun s a => ?_) _ _)
    | (with_reducible exact frame_refl _)
    | dsimp only
    | split)

@[simp] theorem gnssSourceMissing_frame (n : Nat) (s : State) :
    (gnssSourceMissing n s).pending = s.pending ∧ (gnssSourceMissing n s).sram = s.sram := by
  simp [gnssSourceMissing]

@[simp] theorem clkEdge_frame (c : Nat) (t : Rat) (s : State) :
    (clkEdge c t s).pending = s.pending ∧ (clkEdge c t s).sram = s.sram := by
  unfold clkEdge
  repeat' (first
    | (with_reducible refine frame_ite (fun _ => ?_) (fun _ => ?_))
    | (with_reducible refine frame_trans (State_setCand_frame _ _ _) ?_)
    | (with_reducible refine frame_trans (candEdge_frame _ _ _) ?_)
    | (with_reducible refine frame_trans (edgeToChannels_frame _ _ _) ?_)
    | (with_reducible refine frame_trans (foldl_frame (fun s a => ?_) _ _) ?_)
    | (with_reducible refine foldl_frame (fun s a => ?_) _ _)
    | (with_reducible exact frame_refl _))

@[simp] theorem pulseEdge_frame (c : Nat) (t : Rat) (s : State) :
    (pulseEdge c t s).pending = s.pending ∧ (pulseEdge c t s).sram = s.sram := by
  unfold pulseEdge
  repeat' (first
    | (with_reducible refine frame_ite (fun _ => ?_) (fun _ => ?_))
    | (with_reducible refine frame_trans (candEdge_frame _ _ _) ?_)
    | (with_reducible refine frame_trans (State_setCand_frame _ _ _) ?_)
    | (with_reducible refine frame_trans (edgeToChannels_frame _ _ _) ?_)
    | (with_reducible refine frame_trans (labelledPulse_frame _ _ _) ?_)
    | (with_reducible refine frame_trans (extraEdge_frame _ _) ?_)
    | (with_reducible refine frame_trans (foldl_frame (fun s a => ?_) _ _) ?_)
    | (with_reducible refine foldl_frame (fun s a => ?_) _ _)
    | (with_reducible exact frame_refl _)
    | dsimp only
    | split)

@[simp] theorem referenceEdge_frame (n : Nat) (pin : Rat) (s : State) :
    (referenceEdge n pin s).pending = s.pending ∧ (referenceEdge n pin s).sram = s.sram := by
  unfold referenceEdge
  repeat' (first
    | (with_reducible refine frame_ite (fun _ => ?_) (fun _ => ?_))
    | (with_reducible refine frame_trans (clkEdge_frame _ _ _) ?_)
    | (with_reducible refine frame_trans (pulseEdge_frame _ _ _) ?_)
    | (with_reducible refine frame_trans (foldl_frame (fun s a => ?_) _ _) ?_)
    | (with_reducible refine foldl_frame (fun s a => ?_) _ _)
    | (with_reducible exact frame_refl _)
    | dsimp only
    | split)

@[simp] theorem domainEdge_frame (i : Nat) (s : State) :
    (domainEdge i s).pending = s.pending ∧ (domainEdge i s).sram = s.sram := by
  unfold domainEdge
  repeat' (first
    | (with_reducible refine frame_ite (fun _ => ?_) (fun _ => ?_))
    | (with_reducible refine frame_trans (candEdge_frame _ _ _) ?_)
    | (with_reducible refine frame_trans (State_setCand_frame _ _ _) ?_)
    | (with_reducible refine frame_trans (edgeToChannels_frame _ _ _) ?_)
    | (with_reducible refine frame_trans (labelAligned_frame _ _ _ _ _) ?_)
    | (with_reducible refine frame_trans (State_setDom_frame _ _ _) ?_)
    | (with_reducible refine frame_trans (foldl_frame (fun s a => ?_) _ _) ?_)
    | (with_reducible refine foldl_frame (fun s a => ?_) _ _)
    | (with_reducible exact frame_refl _))

@[simp] theorem missingEdge_frame (c : Nat) (s : State) :
    (missingEdge c s).pending = s.pending ∧ (missingEdge c s).sram = s.sram := by
  unfold missingEdge
  try dsimp only
  (repeat' split) <;> first
    | with_reducible exact ⟨rfl, rfl⟩
    | simp

@[simp] theorem frequencyUpdate_frame (c : Nat) (s : State) :
    (frequencyUpdate c s).pending = s.pending ∧ (frequencyUpdate c s).sram = s.sram := by
  simp [frequencyUpdate]

@[simp] theorem startCand_frame (c : Nat) (s : State) :
    (startCand c s).pending = s.pending ∧ (startCand c s).sram = s.sram := by
  unfold startCand
  try dsimp only
  (repeat' split) <;> first
    | with_reducible exact ⟨rfl, rfl⟩
    | simp

@[simp] theorem enableWritten_frame (c : Nat) (s : State) :
    (enableWritten c s).pending = s.pending ∧ (enableWritten c s).sram = s.sram := by
  simp [enableWritten]

@[simp] theorem qualifyCand_frame (c : Nat) (s : State) :
    (qualifyCand c s).pending = s.pending ∧ (qualifyCand c s).sram = s.sram := by
  unfold qualifyCand
  repeat' (first
    | (with_reducible refine frame_ite (fun _ => ?_) (fun _ => ?_))
    | (with_reducible refine frame_trans (candGo_frame _ _ _) ?_)
    | (with_reducible refine frame_trans (State_setCand_frame _ _ _) ?_)
    | (with_reducible refine frame_trans (foldl_frame (fun s a => ?_) _ _) ?_)
    | (with_reducible refine foldl_frame (fun s a => ?_) _ _)
    | (with_reducible exact frame_refl _))

@[simp] theorem candDisqualified_frame (c : Nat) (s : State) :
    (candDisqualified c s).pending = s.pending ∧ (candDisqualified c s).sram = s.sram := by
  unfold candDisqualified
  repeat' (first
    | (with_reducible refine frame_ite (fun _ => ?_) (fun _ => ?_))
    | (with_reducible refine frame_trans (candGo_frame _ _ _) ?_)
    | (with_reducible refine frame_trans (State_setCand_frame _ _ _) ?_)
    | (with_reducible refine frame_trans (foldl_frame (fun s a => ?_) _ _) ?_)
    | (with_reducible refine foldl_frame (fun s a => ?_) _ _)
    | (with_reducible exact frame_refl _))

@[simp] theorem settleCand_frame (s : State) (c : Nat) :
    (settleCand s c).pending = s.pending ∧ (settleCand s c).sram = s.sram := by
  unfold settleCand
  try dsimp only
  (repeat' split) <;> first
    | with_reducible exact ⟨rfl, rfl⟩
    | simp

@[simp] theorem wtrReached_frame (c : Nat) (s : State) :
    (wtrReached c s).pending = s.pending ∧ (wtrReached c s).sram = s.sram := by
  unfold wtrReached
  try dsimp only
  (repeat' split) <;> first
    | with_reducible exact ⟨rfl, rfl⟩
    | simp

@[simp] theorem settleRank_frame (s : State) (c : Nat) :
    (settleRank s c).pending = s.pending ∧ (settleRank s c).sram = s.sram := by
  unfold settleRank
  repeat' (first
    | with_reducible exact ⟨rfl, rfl⟩
    | (with_reducible refine frame_ite (fun _ => ?_) (fun _ => ?_))
    | (with_reducible refine frame_trans (State_setCand_frame _ _ _) ?_)
    | (with_reducible refine frame_trans (raise_frame _ _) ?_)
    | (with_reducible refine frame_trans (foldl_frame (fun s a => ?_) _ _) ?_)
    | (with_reducible refine foldl_frame (fun s a => ?_) _ _)
    | dsimp only
    | split)

@[simp] theorem rankImprovement_frame (c : Nat) (s : State) :
    (rankImprovement c s).pending = s.pending ∧ (rankImprovement c s).sram = s.sram := by
  unfold rankImprovement
  repeat' (first
    | with_reducible exact ⟨rfl, rfl⟩
    | (with_reducible refine frame_ite (fun _ => ?_) (fun _ => ?_))
    | (with_reducible refine frame_trans (raise_frame _ _) ?_)
    | (with_reducible refine frame_trans (State_setCand_frame _ _ _) ?_)
    | (with_reducible refine frame_trans (foldl_frame (fun s a => ?_) _ _) ?_)
    | (with_reducible refine foldl_frame (fun s a => ?_) _ _)
    | dsimp only
    | split)

@[simp] theorem settleSel_frame (s : State) (n : Nat) :
    (settleSel s n).pending = s.pending ∧ (settleSel s n).sram = s.sram := by
  unfold settleSel
  repeat' (first
    | with_reducible exact ⟨rfl, rfl⟩
    | (with_reducible refine frame_ite (fun _ => ?_) (fun _ => ?_))
    | (with_reducible refine frame_trans (noteSelection_frame _ _ _ _) ?_))

@[simp] theorem settleSelected_frame (s : State) (c : Nat) :
    (settleSelected s c).pending = s.pending ∧ (settleSelected s c).sram = s.sram := by
  unfold settleSelected
  try dsimp only
  (repeat' split) <;> first
    | with_reducible exact ⟨rfl, rfl⟩
    | simp

@[simp] theorem evaluateSelectors_frame (s : State) :
    (evaluateSelectors s).pending = s.pending ∧ (evaluateSelectors s).sram = s.sram := by
  unfold evaluateSelectors
  repeat' (first
    | (with_reducible refine frame_ite (fun _ => ?_) (fun _ => ?_))
    | (with_reducible refine frame_trans (settleSelected_frame _ _) ?_)
    | (with_reducible refine frame_trans (settleSel_frame _ _) ?_)
    | (with_reducible refine frame_trans (foldl_frame (fun s a => ?_) _ _) ?_)
    | (with_reducible refine foldl_frame (fun s a => ?_) _ _)
    | (with_reducible exact frame_refl _))

@[simp] theorem fenceCand_frame (c : Nat) (s : State) :
    (fenceCand c s).pending = s.pending ∧ (fenceCand c s).sram = s.sram := by
  unfold fenceCand
  repeat' (first
    | (with_reducible refine frame_ite (fun _ => ?_) (fun _ => ?_))
    | (with_reducible refine frame_trans (settleSelected_frame _ _) ?_)
    | (with_reducible refine frame_trans (settleSel_frame _ _) ?_)
    | (with_reducible refine frame_trans (candGo_frame _ _ _) ?_)
    | (with_reducible refine frame_trans (foldl_frame (fun s a => ?_) _ _) ?_)
    | (with_reducible refine foldl_frame (fun s a => ?_) _ _)
    | (with_reducible exact frame_refl _))

@[simp] theorem flushJournal_frame (s : State) :
    (flushJournal s).pending = s.pending ∧ (flushJournal s).sram = s.sram := by
  exact ⟨rfl, rfl⟩

@[simp] theorem record_frame (r : JRec) (s : State) :
    (record r s).pending = s.pending ∧ (record r s).sram = s.sram := by
  have hj (j : Jr) : ({ s with jr := j } : State).pending = s.pending ∧ ({ s with jr := j } : State).sram = s.sram := ⟨rfl, rfl⟩
  refine frame_trans (raise_frame _ _) ?_
  exact frame_ite (fun _ => frame_trans (flushJournal_frame _) (hj _)) (fun _ => hj _)

@[simp] theorem journalFlush_frame (s : State) :
    (journalFlush s).pending = s.pending ∧ (journalFlush s).sram = s.sram := by
  simp [journalFlush]

@[simp] theorem settleVouch_frame (s : State) :
    (settleVouch s).pending = s.pending ∧ (settleVouch s).sram = s.sram := by
  simp [settleVouch]

@[simp] theorem enterMode_frame (m : Mode) (s : State) :
    (enterMode m s).pending = s.pending ∧ (enterMode m s).sram = s.sram := by
  exact frame_of_rest (enterMode_rest m s)

@[simp] theorem settleMode_frame (s : State) :
    (settleMode s).pending = s.pending ∧ (settleMode s).sram = s.sram := by
  exact frame_of_rest (settleMode_rest s)

@[simp] theorem principalWritten_frame (s : State) :
    (principalWritten s).pending = s.pending ∧ (principalWritten s).sram = s.sram := by
  unfold principalWritten
  repeat' (first
    | (with_reducible refine frame_ite (fun _ => ?_) (fun _ => ?_))
    | (with_reducible refine frame_trans (enterMode_frame _ _) ?_)
    | (with_reducible refine frame_trans (foldl_frame (fun s a => ?_) _ _) ?_)
    | (with_reducible refine foldl_frame (fun s a => ?_) _ _)
    | (with_reducible exact frame_refl _))

@[simp] theorem settleLevels_frame (s : State) :
    (settleLevels s).pending = s.pending ∧ (settleLevels s).sram = s.sram := by
  unfold settleLevels
  refine foldl_frame (fun s p => ?_) _ _
  exact ⟨rfl, rfl⟩

@[simp] theorem settleDeliveries_frame (s : State) :
    (settleDeliveries s).pending = s.pending ∧ (settleDeliveries s).sram = s.sram := by
  simp [settleDeliveries]

@[simp] theorem settlePins_frame (s : State) :
    (settlePins s).pending = s.pending ∧ (settlePins s).sram = s.sram := by
  exact ⟨rfl, rfl⟩

@[simp] theorem settleRefs_frame (s : State) :
    (settleRefs s).pending = s.pending ∧ (settleRefs s).sram = s.sram := by
  exact frame_of_rest (settleRefs_rest s)

@[simp] theorem settleChannels_frame (s : State) :
    (settleChannels s).pending = s.pending ∧ (settleChannels s).sram = s.sram := by
  exact frame_of_rest (settleChannels_rest s)

@[simp] theorem settleTime_frame (s : State) :
    (settleTime s).pending = s.pending ∧ (settleTime s).sram = s.sram := by
  exact frame_of_rest (settleTime_rest s)

@[simp] theorem settleEngine_frame (s : State) :
    (settleEngine s).pending = s.pending ∧ (settleEngine s).sram = s.sram := by
  exact frame_of_rest (settleEngine_rest s)

@[simp] theorem settle_frame (s : State) :
    (settle s).pending = s.pending ∧ (settle s).sram = s.sram := by
  exact frame_of_rest (settle_rest s)

@[simp] theorem nextCycle_frame (commit : Bool) (mode : Bool) (sel : Bool) (s : State) :
    (nextCycle commit mode sel s).pending = s.pending ∧ (nextCycle commit mode sel s).sram = s.sram := by
  exact frame_of_steady (dt := 0) ((nextCycle_steady commit mode sel s).trans (by unfold State.ticked; rw [Clk.ticked_zero]))

@[simp] theorem elapse_frame (dt : Nat) (s : State) :
    (elapse dt s).pending = s.pending ∧ (elapse dt s).sram = s.sram := by
  exact frame_of_steady (elapse_steady dt s)

@[simp] theorem writeTarn_frame (r : TarnRec) (s : State) :
    (writeTarn r s).pending = s.pending ∧ (writeTarn r s).sram = s.sram := by
  simp [writeTarn]

@[simp] theorem clearTarn_frame (s : State) :
    (clearTarn s).pending = s.pending ∧ (clearTarn s).sram = s.sram := by
  exact ⟨rfl, rfl⟩

@[simp] theorem steerStops_frame (c : Nat) (s : State) :
    (steerStops c s).pending = s.pending ∧ (steerStops c s).sram = s.sram := by
  simp [steerStops]

@[simp] theorem stopCore_frame (c : Nat) (st : CoreState) (s : State) :
    (stopCore c st s).pending = s.pending ∧ (stopCore c st s).sram = s.sram := by
  simp [stopCore]

@[simp] theorem fenceCore_frame (c : Nat) (s : State) :
    (fenceCore c s).pending = s.pending ∧ (fenceCore c s).sram = s.sram := by
  simp [fenceCore]

@[simp] theorem closeMasks_frame (s : State) :
    (closeMasks s).pending = s.pending ∧ (closeMasks s).sram = s.sram := by
  exact ⟨rfl, rfl⟩

@[simp] theorem fenceEffect_frame (u : FUnit) (s : State) :
    (fenceEffect u s).pending = s.pending ∧ (fenceEffect u s).sram = s.sram := by
  unfold fenceEffect
  repeat' (first
    | (with_reducible refine frame_ite (fun _ => ?_) (fun _ => ?_))
    | (with_reducible refine frame_trans (fenceCand_frame _ _) ?_)
    | (with_reducible refine frame_trans (fenceChannel_frame _ _) ?_)
    | (with_reducible refine frame_trans (fenceSyn_frame _ _) ?_)
    | (with_reducible refine frame_trans (fenceTb_frame _ _) ?_)
    | (with_reducible refine frame_trans (fenceTsi_frame _ _) ?_)
    | (with_reducible refine frame_trans (fenceTc_frame _ _) ?_)
    | (with_reducible refine frame_trans (fenceAxis_frame _ _) ?_)
    | (with_reducible refine frame_trans (fenceCalendar_frame _) ?_)
    | (with_reducible refine frame_trans (State_setTrg_frame _ _ _) ?_)
    | (with_reducible refine frame_trans (settle_frame _) ?_)
    | (with_reducible refine frame_trans (fenceCore_frame _ _) ?_)
    | (with_reducible refine frame_trans (foldl_frame (fun s a => ?_) _ _) ?_)
    | (with_reducible refine foldl_frame (fun s a => ?_) _ _)
    | (with_reducible exact frame_refl _)
    | dsimp only
    | split)

@[simp] theorem fenceUnit_frame (u : FUnit) (cls : Nat) (s : State) :
    (fenceUnit u cls s).pending = s.pending ∧ (fenceUnit u cls s).sram = s.sram := by
  unfold fenceUnit
  repeat' (first
    | (with_reducible refine frame_ite (fun _ => ?_) (fun _ => ?_))
    | (with_reducible refine frame_trans (fenceEffect_frame _ _) ?_)
    | (with_reducible refine frame_trans (foldl_frame (fun s a => ?_) _ _) ?_)
    | (with_reducible refine foldl_frame (fun s a => ?_) _ _)
    | (with_reducible exact frame_refl _))

@[simp] theorem holdWords_frame (s : State) :
    (holdWords s).pending = s.pending ∧ (holdWords s).sram = s.sram := by
  unfold holdWords
  repeat' (first
    | (with_reducible refine frame_ite (fun _ => ?_) (fun _ => ?_))
    | (with_reducible refine frame_trans (endPull_frame _ _) ?_)
    | (with_reducible refine frame_trans (foldl_frame (fun s a => ?_) _ _) ?_)
    | (with_reducible refine foldl_frame (fun s a => ?_) _ _)
    | (with_reducible exact frame_refl _))

@[simp] theorem leaveStandby_frame (s : State) :
    (leaveStandby s).pending = s.pending ∧ (leaveStandby s).sram = s.sram := by
  unfold leaveStandby
  repeat' (first
    | (with_reducible refine frame_ite (fun _ => ?_) (fun _ => ?_))
    | (with_reducible refine frame_trans (wakeCalendar_frame _) ?_)
    | (with_reducible refine frame_trans (wakeTcs_frame _) ?_)
    | (with_reducible refine frame_trans (tdcRestart_frame _) ?_)
    | (with_reducible refine frame_trans (foldl_frame (fun s a => ?_) _ _) ?_)
    | (with_reducible refine foldl_frame (fun s a => ?_) _ _)
    | (with_reducible exact frame_refl _))

@[simp] theorem enterSafeMode_frame (cause : Option TarnRec) (s : State) :
    (enterSafeMode cause s).pending = s.pending ∧ (enterSafeMode cause s).sram = s.sram := by
  unfold enterSafeMode
  repeat' (first
    | (with_reducible refine frame_ite (fun _ => ?_) (fun _ => ?_))
    | (with_reducible refine frame_trans (enterMode_frame _ _) ?_)
    | (with_reducible refine frame_trans (holdWords_frame _) ?_)
    | (with_reducible refine frame_trans (leaveStandby_frame _) ?_)
    | (with_reducible refine frame_trans (stopCore_frame _ _ _) ?_)
    | (with_reducible refine frame_trans (foldl_frame (fun s a => ?_) _ _) ?_)
    | (with_reducible refine foldl_frame (fun s a => ?_) _ _)
    | (with_reducible exact frame_refl _))

@[simp] theorem writeSafeRecord_frame (s : State) :
    (writeSafeRecord s).pending = s.pending ∧ (writeSafeRecord s).sram = s.sram := by
  unfold writeSafeRecord
  repeat' (first
    | with_reducible exact ⟨rfl, rfl⟩
    | (with_reducible refine frame_ite (fun _ => ?_) (fun _ => ?_))
    | (with_reducible refine frame_trans (foldl_frame (fun s a => ?_) _ _) ?_)
    | (with_reducible refine foldl_frame (fun s a => ?_) _ _)
    | dsimp only
    | split)

@[simp] theorem engineStops_frame (s : State) :
    (engineStops s).pending = s.pending ∧ (engineStops s).sram = s.sram := by
  exact ⟨rfl, rfl⟩

@[simp] theorem eccReaction_frame (id : Nat) (syn : BitVec 32) (s : State) :
    (eccReaction id syn s).pending = s.pending ∧ (eccReaction id syn s).sram = s.sram := by
  unfold eccReaction
  repeat' (first
    | (with_reducible refine frame_ite (fun _ => ?_) (fun _ => ?_))
    | (with_reducible refine frame_trans (State_setHo_frame _ _ _) ?_)
    | (with_reducible refine frame_trans (foldl_frame (fun s a => ?_) _ _) ?_)
    | (with_reducible refine foldl_frame (fun s a => ?_) _ _)
    | (with_reducible exact frame_refl _)
    | dsimp only
    | split)

@[simp] theorem tallied_frame (f : Fc → Fc) (s : State) :
    (tallied f s).pending = s.pending ∧ (tallied f s).sram = s.sram := by
  unfold tallied
  repeat' (first
    | (with_reducible refine frame_ite (fun _ => ?_) (fun _ => ?_))
    | (with_reducible refine frame_trans (foldl_frame (fun s a => ?_) _ _) ?_)
    | (with_reducible refine foldl_frame (fun s a => ?_) _ _)
    | (with_reducible exact frame_refl _))

@[simp] theorem reactTo_frame (id : Nat) (syn : BitVec 32) (path : Bool) (cls : Nat) (r : TarnRec) (s : State) :
    (reactTo id syn path cls r s).pending = s.pending ∧ (reactTo id syn path cls r s).sram = s.sram := by
  unfold reactTo
  repeat' (first
    | (with_reducible refine frame_ite (fun _ => ?_) (fun _ => ?_))
    | (with_reducible refine frame_trans (enterSafeMode_frame _ _) ?_)
    | (with_reducible refine frame_trans (fenceUnit_frame _ _ _) ?_)
    | (with_reducible refine frame_trans (foldl_frame (fun s a => ?_) _ _) ?_)
    | (with_reducible refine foldl_frame (fun s a => ?_) _ _)
    | (with_reducible exact frame_refl _)
    | dsimp only
    | split)

@[simp] theorem independent_frame (id : Nat) (syn : BitVec 32) (path : Bool) (cls : Nat) (s : State) :
    (independent id syn path cls s).pending = s.pending ∧ (independent id syn path cls s).sram = s.sram := by
  unfold independent
  repeat' (first
    | (with_reducible refine frame_ite (fun _ => ?_) (fun _ => ?_))
    | (with_reducible refine frame_trans (raise_frame _ _) ?_)
    | (with_reducible refine frame_trans (writeTarn_frame _ _) ?_)
    | (with_reducible refine frame_trans (tallied_frame _ _) ?_)
    | (with_reducible refine frame_trans (reactTo_frame _ _ _ _ _ _) ?_)
    | (with_reducible refine frame_trans (foldl_frame (fun s a => ?_) _ _) ?_)
    | (with_reducible refine foldl_frame (fun s a => ?_) _ _)
    | (with_reducible exact frame_refl _))

@[simp] theorem consequential_frame (id : Nat) (syn : BitVec 32) (cls : Nat) (s : State) :
    (consequential id syn cls s).pending = s.pending ∧ (consequential id syn cls s).sram = s.sram := by
  unfold consequential
  repeat' (first
    | (with_reducible refine frame_ite (fun _ => ?_) (fun _ => ?_))
    | (with_reducible refine frame_trans (counted_frame _ _) ?_)
    | (with_reducible refine frame_trans (writeTarn_frame _ _) ?_)
    | (with_reducible refine frame_trans (foldl_frame (fun s a => ?_) _ _) ?_)
    | (with_reducible refine foldl_frame (fun s a => ?_) _ _)
    | (with_reducible exact frame_refl _)
    | dsimp only
    | split
    | exact ⟨rfl, rfl⟩
    | simp)

@[simp] theorem takeReport_frame (id : Nat) (syn : BitVec 32) (path : Bool) (s : State) :
    (takeReport id syn path s).pending = s.pending ∧ (takeReport id syn path s).sram = s.sram := by
  unfold takeReport
  repeat' (first
    | (with_reducible refine frame_ite (fun _ => ?_) (fun _ => ?_))
    | (with_reducible refine frame_trans (tallied_frame _ _) ?_)
    | (with_reducible refine frame_trans (eccReaction_frame _ _ _) ?_)
    | (with_reducible refine frame_trans (consequential_frame _ _ _ _) ?_)
    | (with_reducible refine frame_trans (independent_frame _ _ _ _ _) ?_)
    | (with_reducible refine frame_trans (engineStops_frame _) ?_)
    | (with_reducible refine frame_trans (foldl_frame (fun s a => ?_) _ _) ?_)
    | (with_reducible refine foldl_frame (fun s a => ?_) _ _)
    | (with_reducible exact frame_refl _))

@[simp] theorem reportFree_frame (id : Nat) (s : State) :
    (reportFree id s).pending = s.pending ∧ (reportFree id s).sram = s.sram := by
  unfold reportFree
  repeat' (first
    | (with_reducible refine frame_ite (fun _ => ?_) (fun _ => ?_))
    | (with_reducible refine frame_trans (takeReport_frame _ _ _ _) ?_)
    | (with_reducible refine frame_trans (foldl_frame (fun s a => ?_) _ _) ?_)
    | (with_reducible refine foldl_frame (fun s a => ?_) _ _)
    | (with_reducible exact frame_refl _))

@[simp] theorem noReport_frame (id : Nat) (s : State) :
    (noReport id s).pending = s.pending ∧ (noReport id s).sram = s.sram :=
  frame_trans (takeReport_frame _ _ _ _) (frame_refl _)

@[simp] theorem selfFault_frame (recordPath : Bool) (s : State) :
    (selfFault recordPath s).pending = s.pending ∧ (selfFault recordPath s).sram = s.sram := by
  unfold selfFault
  repeat' (first
    | (with_reducible refine frame_ite (fun _ => ?_) (fun _ => ?_))
    | (with_reducible refine frame_trans (enterSafeMode_frame _ _) ?_)
    | (with_reducible refine frame_trans (raise_frame _ _) ?_)
    | (with_reducible refine frame_trans (writeTarn_frame _ _) ?_)
    | (with_reducible refine frame_trans (tallied_frame _ _) ?_)
    | (with_reducible refine frame_trans (foldl_frame (fun s a => ?_) _ _) ?_)
    | (with_reducible refine foldl_frame (fun s a => ?_) _ _)
    | (with_reducible exact frame_refl _))

@[simp] theorem injectedReport_frame (id : Nat) (s : State) :
    (injectedReport id s).pending = s.pending ∧ (injectedReport id s).sram = s.sram := by
  unfold injectedReport
  repeat' (first
    | (with_reducible refine frame_ite (fun _ => ?_) (fun _ => ?_))
    | (with_reducible refine frame_trans (counted_frame _ _) ?_)
    | (with_reducible refine frame_trans (writeTarn_frame _ _) ?_)
    | (with_reducible refine frame_trans (foldl_frame (fun s a => ?_) _ _) ?_)
    | (with_reducible refine foldl_frame (fun s a => ?_) _ _)
    | (with_reducible exact frame_refl _)
    | dsimp only
    | split
    | exact ⟨rfl, rfl⟩
    | simp)

@[simp] theorem realReport_frame (id : Nat) (o : Option (BitVec 32)) (s : State) :
    (realReport id o s).pending = s.pending ∧ (realReport id o s).sram = s.sram := by
  unfold realReport
  repeat' (first
    | (with_reducible refine frame_ite (fun _ => ?_) (fun _ => ?_))
    | (with_reducible refine frame_trans (takeReport_frame _ _ _ _) ?_)
    | (with_reducible refine frame_trans (foldl_frame (fun s a => ?_) _ _) ?_)
    | (with_reducible refine foldl_frame (fun s a => ?_) _ _)
    | (with_reducible exact frame_refl _)
    | dsimp only
    | split)

@[simp] theorem injectionCheck_frame (id : Nat) (show_ : Bool) (i0 : Option (BitVec 32)) (i0b : Option (BitVec 32)) (i1 : Option (BitVec 32)) (s : State) :
    (injectionCheck id show_ i0 i0b i1 s).pending = s.pending ∧ (injectionCheck id show_ i0 i0b i1 s).sram = s.sram := by
  unfold injectionCheck
  repeat' (first
    | (with_reducible refine frame_ite (fun _ => ?_) (fun _ => ?_))
    | (with_reducible refine frame_trans (takeReport_frame _ _ _ _) ?_)
    | (with_reducible refine frame_trans (noReport_frame _ _) ?_)
    | (with_reducible refine frame_trans (injectedReport_frame _ _) ?_)
    | (with_reducible refine frame_trans (realReport_frame _ _ _) ?_)
    | (with_reducible refine frame_trans (foldl_frame (fun s a => ?_) _ _) ?_)
    | (with_reducible refine foldl_frame (fun s a => ?_) _ _)
    | (with_reducible exact frame_refl _)
    | dsimp only
    | split)

@[simp] theorem startInjection_frame (id : Nat) (s : State) :
    (startInjection id s).pending = s.pending ∧ (startInjection id s).sram = s.sram := by
  exact ⟨rfl, rfl⟩

@[simp] theorem completeInjection_frame (i0 : Option (BitVec 32)) (i0b : Option (BitVec 32)) (i1 : Option (BitVec 32)) (s : State) :
    (completeInjection i0 i0b i1 s).pending = s.pending ∧ (completeInjection i0 i0b i1 s).sram = s.sram := by
  unfold completeInjection
  repeat' (first
    | (with_reducible refine frame_ite (fun _ => ?_) (fun _ => ?_))
    | (with_reducible refine frame_trans (injectionCheck_frame _ _ _ _ _ _) ?_)
    | (with_reducible refine frame_trans (raise_frame _ _) ?_)
    | (with_reducible refine frame_trans (foldl_frame (fun s a => ?_) _ _) ?_)
    | (with_reducible refine foldl_frame (fun s a => ?_) _ _)
    | (with_reducible exact frame_refl _)
    | dsimp only
    | split)

@[simp] theorem startSweep_frame (s : State) :
    (startSweep s).pending = s.pending ∧ (startSweep s).sram = s.sram := by
  exact ⟨rfl, rfl⟩

@[simp] theorem sweepStep_frame (i0 : Option (BitVec 32)) (i0b : Option (BitVec 32)) (i1 : Option (BitVec 32)) (s : State) :
    (sweepStep i0 i0b i1 s).pending = s.pending ∧ (sweepStep i0 i0b i1 s).sram = s.sram := by
  unfold sweepStep
  repeat' (first
    | (with_reducible refine frame_ite (fun _ => ?_) (fun _ => ?_))
    | (with_reducible refine frame_trans (completeInjection_frame _ _ _ _) ?_)
    | (with_reducible refine frame_trans (foldl_frame (fun s a => ?_) _ _) ?_)
    | (with_reducible refine foldl_frame (fun s a => ?_) _ _)
    | (with_reducible exact frame_refl _)
    | dsimp only
    | split)

@[simp] theorem startupInjection_frame (bad : List Nat) (s : State) (id : Nat) :
    (startupInjection bad s id).pending = s.pending ∧ (startupInjection bad s id).sram = s.sram := by
  unfold startupInjection
  repeat' (first
    | (with_reducible refine frame_ite (fun _ => ?_) (fun _ => ?_))
    | (with_reducible refine frame_trans (noReport_frame _ _) ?_)
    | (with_reducible refine frame_trans (foldl_frame (fun s a => ?_) _ _) ?_)
    | (with_reducible refine foldl_frame (fun s a => ?_) _ _)
    | (with_reducible exact frame_refl _))

@[simp] theorem lowInput_frame (s : State) :
    (lowInput s).pending = s.pending ∧ (lowInput s).sram = s.sram := by
  simp [lowInput]

@[simp] theorem setPfail_frame (s : State) :
    (setPfail s).pending = s.pending ∧ (setPfail s).sram = s.sram := by
  simp [setPfail]

@[simp] theorem overVoltage_frame (mv : Nat) (s : State) :
    (overVoltage mv s).pending = s.pending ∧ (overVoltage mv s).sram = s.sram := by
  simp [overVoltage]

@[simp] theorem inputRestored_frame (mv : Nat) (s : State) :
    (inputRestored mv s).pending = s.pending ∧ (inputRestored mv s).sram = s.sram := by
  exact ⟨rfl, rfl⟩

@[simp] theorem holdupWritten_frame (s : State) :
    (holdupWritten s).pending = s.pending ∧ (holdupWritten s).sram = s.sram := by
  simp [holdupWritten]

@[simp] theorem clearPfail_frame (s : State) :
    (clearPfail s).pending = s.pending ∧ (clearPfail s).sram = s.sram := by
  simp [clearPfail]

@[simp] theorem holdupCopied_frame (s : State) :
    (holdupCopied s).pending = s.pending ∧ (holdupCopied s).sram = s.sram := by
  simp [holdupCopied]

@[simp] theorem reportCodings_frame (s : State) :
    (reportCodings s).pending = s.pending ∧ (reportCodings s).sram = s.sram := by
  unfold reportCodings
  repeat' (first
    | (with_reducible refine frame_ite (fun _ => ?_) (fun _ => ?_))
    | (with_reducible refine frame_trans (reportFree_frame _ _) ?_)
    | (with_reducible refine frame_trans (foldl_frame (fun s a => ?_) _ _) ?_)
    | (with_reducible refine foldl_frame (fun s a => ?_) _ _)
    | (with_reducible exact frame_refl _))

@[simp] theorem loadConfig_frame (i : StartIn) (s : State) :
    (loadConfig i s).pending = s.pending ∧ (loadConfig i s).sram = s.sram := by
  simp [loadConfig]

@[simp] theorem loadStores_frame (i : StartIn) (s : State) :
    (loadStores i s).pending = s.pending ∧ (loadStores i s).sram = s.sram := by
  exact ⟨rfl, rfl⟩

@[simp] theorem startCandidate_frame (s : State) (c : Nat) :
    (startCandidate s c).pending = s.pending ∧ (startCandidate s c).sram = s.sram := by
  unfold startCandidate
  repeat' (first
    | (with_reducible refine frame_ite (fun _ => ?_) (fun _ => ?_))
    | (with_reducible refine frame_trans (startCand_frame _ _) ?_)
    | (with_reducible refine frame_trans (enableWritten_frame _ _) ?_)
    | (with_reducible refine frame_trans (foldl_frame (fun s a => ?_) _ _) ?_)
    | (with_reducible refine foldl_frame (fun s a => ?_) _ _)
    | (with_reducible exact frame_refl _))

@[simp] theorem startRanks_frame (s : State) :
    (startRanks s).pending = s.pending ∧ (startRanks s).sram = s.sram := by
  unfold startRanks
  refine foldl_frame (fun s c => ?_) _ _
  exact ⟨rfl, rfl⟩

@[simp] theorem startBlocks_frame (s : State) :
    (startBlocks s).pending = s.pending ∧ (startBlocks s).sram = s.sram := by
  unfold startBlocks
  repeat' (first
    | (with_reducible refine frame_ite (fun _ => ?_) (fun _ => ?_))
    | (with_reducible refine frame_trans (commitCore_frame _ _ _) ?_)
    | (with_reducible refine frame_trans (enableCore_frame _ _ _) ?_)
    | (with_reducible refine frame_trans (takePriorities_frame _ _) ?_)
    | (with_reducible refine frame_trans (startCandidate_frame _ _) ?_)
    | (with_reducible refine frame_trans (domGo_frame _ _ _) ?_)
    | (with_reducible refine frame_trans (copyUtc_frame _ _) ?_)
    | (with_reducible refine frame_trans (loadTcs_frame _) ?_)
    | (with_reducible refine frame_trans (loadAxes_frame _) ?_)
    | (with_reducible refine frame_trans (loadActions_frame _) ?_)
    | (with_reducible refine frame_trans (startRanks_frame _) ?_)
    | (with_reducible refine frame_trans (enableServo_frame _ _ _) ?_)
    | (with_reducible refine frame_trans (foldl_frame (fun s a => ?_) _ _) ?_)
    | (with_reducible refine foldl_frame (fun s a => ?_) _ _)
    | (with_reducible exact frame_refl _))

@[simp] theorem stepOne_frame (i : StartIn) (s : State) :
    (stepOne i s).pending = s.pending ∧ (stepOne i s).sram = s.sram := by
  unfold stepOne
  repeat' (first
    | (with_reducible refine frame_ite (fun _ => ?_) (fun _ => ?_))
    | (with_reducible refine frame_trans (startBlocks_frame _) ?_)
    | (with_reducible refine frame_trans (loadStores_frame _ _) ?_)
    | (with_reducible refine frame_trans (loadConfig_frame _ _) ?_)
    | (with_reducible refine frame_trans (foldl_frame (fun s a => ?_) _ _) ?_)
    | (with_reducible refine foldl_frame (fun s a => ?_) _ _)
    | (with_reducible exact frame_refl _))

@[simp] theorem stepTwo_frame (i : StartIn) (s : State) :
    (stepTwo i s).pending = s.pending ∧ (stepTwo i s).sram = s.sram := by
  unfold stepTwo
  repeat' (first
    | (with_reducible refine frame_ite (fun _ => ?_) (fun _ => ?_))
    | (with_reducible refine frame_trans (startupInjection_frame _ _ _) ?_)
    | (with_reducible refine frame_trans (foldl_frame (fun s a => ?_) _ _) ?_)
    | (with_reducible refine foldl_frame (fun s a => ?_) _ _)
    | (with_reducible exact frame_refl _))

@[simp] theorem startCores_frame (i : StartIn) (s : State) :
    (startCores i s).pending = s.pending ∧ (startCores i s).sram = s.sram := by
  exact ⟨rfl, rfl⟩

@[simp] theorem recordStart_frame (s : State) :
    (recordStart s).pending = s.pending ∧ (recordStart s).sram = s.sram := by
  simp [recordStart]

@[simp] theorem stepThree_frame (i : StartIn) (s : State) :
    (stepThree i s).pending = s.pending ∧ (stepThree i s).sram = s.sram := by
  unfold stepThree
  repeat' (first
    | (with_reducible refine frame_ite (fun _ => ?_) (fun _ => ?_))
    | (with_reducible refine frame_trans (raiseIf_frame _ _ _) ?_)
    | (with_reducible refine frame_trans (reportFree_frame _ _) ?_)
    | (with_reducible refine frame_trans (startCores_frame _ _) ?_)
    | (with_reducible refine frame_trans (recordStart_frame _) ?_)
    | (with_reducible refine frame_trans (foldl_frame (fun s a => ?_) _ _) ?_)
    | (with_reducible refine foldl_frame (fun s a => ?_) _ _)
    | (with_reducible exact frame_refl _))

@[simp] theorem tablesAfter_frame (dt : Nat) (s : State) :
    (tablesAfter dt s).pending = s.pending ∧ (tablesAfter dt s).sram = s.sram := by
  simp [tablesAfter]

@[simp] theorem sealLimits_frame (s : State) :
    (sealLimits s).pending = s.pending ∧ (sealLimits s).sram = s.sram := by
  simp [sealLimits]

@[simp] theorem enterFreerun_frame (s : State) :
    (enterFreerun s).pending = s.pending ∧ (enterFreerun s).sram = s.sram := by
  unfold enterFreerun
  repeat' (first
    | (with_reducible refine frame_ite (fun _ => ?_) (fun _ => ?_))
    | (with_reducible refine frame_trans (armLoaded_frame _) ?_)
    | (with_reducible refine frame_trans (enterMode_frame _ _) ?_)
    | (with_reducible refine frame_trans (foldl_frame (fun s a => ?_) _ _) ?_)
    | (with_reducible refine foldl_frame (fun s a => ?_) _ _)
    | (with_reducible exact frame_refl _))

@[simp] theorem finishStart_frame (sealDur : Nat) (entryDur : Nat) (s : State) :
    (finishStart sealDur entryDur s).pending = s.pending ∧ (finishStart sealDur entryDur s).sram = s.sram := by
  unfold finishStart
  repeat' (first
    | (with_reducible refine frame_ite (fun _ => ?_) (fun _ => ?_))
    | (with_reducible refine frame_trans (enterFreerun_frame _) ?_)
    | (with_reducible refine frame_trans (elapse_frame _ _) ?_)
    | (with_reducible refine frame_trans (settle_frame _) ?_)
    | (with_reducible refine frame_trans (sealLimits_frame _) ?_)
    | (with_reducible refine frame_trans (foldl_frame (fun s a => ?_) _ _) ?_)
    | (with_reducible refine foldl_frame (fun s a => ?_) _ _)
    | (with_reducible exact frame_refl _))

@[simp] theorem startHold_frame (sealDur : Nat) (entryDur : Nat) (s : State) :
    (startHold sealDur entryDur s).pending = s.pending ∧ (startHold sealDur entryDur s).sram = s.sram := by
  unfold startHold
  repeat' (first
    | (with_reducible refine frame_ite (fun _ => ?_) (fun _ => ?_))
    | (with_reducible refine frame_trans (finishStart_frame _ _ _) ?_)
    | (with_reducible refine frame_trans (foldl_frame (fun s a => ?_) _ _) ?_)
    | (with_reducible refine foldl_frame (fun s a => ?_) _ _)
    | (with_reducible exact frame_refl _))

@[simp] theorem stopStart_frame (s : State) :
    (stopStart s).pending = s.pending ∧ (stopStart s).sram = s.sram := by
  unfold stopStart
  repeat' (first
    | (with_reducible refine frame_ite (fun _ => ?_) (fun _ => ?_))
    | (with_reducible refine frame_trans (setPfail_frame _) ?_)
    | (with_reducible refine frame_trans (foldl_frame (fun s a => ?_) _ _) ?_)
    | (with_reducible refine foldl_frame (fun s a => ?_) _ _)
    | (with_reducible exact frame_refl _))

@[simp] theorem runSteps_frame (i : StartIn) (sealDur : Nat) (entryDur : Nat) (s : State) :
    (runSteps i sealDur entryDur s).pending = s.pending ∧ (runSteps i sealDur entryDur s).sram = s.sram := by
  unfold runSteps
  repeat' (first
    | (with_reducible refine frame_ite (fun _ => ?_) (fun _ => ?_))
    | (with_reducible refine frame_trans (settle_frame _) ?_)
    | (with_reducible refine frame_trans (stepOne_frame _ _) ?_)
    | (with_reducible refine frame_trans (elapse_frame _ _) ?_)
    | (with_reducible refine frame_trans (stepTwo_frame _ _) ?_)
    | (with_reducible refine frame_trans (startHold_frame _ _ _) ?_)
    | (with_reducible refine frame_trans (stepThree_frame _ _) ?_)
    | (with_reducible refine frame_trans (tablesAfter_frame _ _) ?_)
    | (with_reducible refine frame_trans (stopStart_frame _) ?_)
    | (with_reducible refine frame_trans (foldl_frame (fun s a => ?_) _ _) ?_)
    | (with_reducible refine foldl_frame (fun s a => ?_) _ _)
    | (with_reducible exact frame_refl _)
    | dsimp only
    | split)

@[simp] theorem holdExpiry_frame (sealDur : Nat) (entryDur : Nat) (s : State) :
    (holdExpiry sealDur entryDur s).pending = s.pending ∧ (holdExpiry sealDur entryDur s).sram = s.sram := by
  unfold holdExpiry
  repeat' (first
    | (with_reducible refine frame_ite (fun _ => ?_) (fun _ => ?_))
    | (with_reducible refine frame_trans (finishStart_frame _ _ _) ?_)
    | (with_reducible refine frame_trans (foldl_frame (fun s a => ?_) _ _) ?_)
    | (with_reducible refine foldl_frame (fun s a => ?_) _ _)
    | (with_reducible exact frame_refl _))

@[simp] theorem setOvenReady_frame (s : State) :
    (setOvenReady s).pending = s.pending ∧ (setOvenReady s).sram = s.sram := by
  simp [setOvenReady]

@[simp] theorem reportUnnamed_frame (s : State) :
    (reportUnnamed s).pending = s.pending ∧ (reportUnnamed s).sram = s.sram := by
  unfold reportUnnamed
  repeat' (first
    | (with_reducible refine frame_ite (fun _ => ?_) (fun _ => ?_))
    | (with_reducible refine frame_trans (reportFree_frame _ _) ?_)
    | (with_reducible refine frame_trans (foldl_frame (fun s a => ?_) _ _) ?_)
    | (with_reducible refine foldl_frame (fun s a => ?_) _ _)
    | (with_reducible exact frame_refl _))

@[simp] theorem ovenExcursion_frame (s : State) :
    (ovenExcursion s).pending = s.pending ∧ (ovenExcursion s).sram = s.sram := by
  unfold ovenExcursion
  repeat' (first
    | (with_reducible refine frame_ite (fun _ => ?_) (fun _ => ?_))
    | (with_reducible refine frame_trans (reportUnnamed_frame _) ?_)
    | (with_reducible refine frame_trans (raise_frame _ _) ?_)
    | (with_reducible refine frame_trans (foldl_frame (fun s a => ?_) _ _) ?_)
    | (with_reducible refine foldl_frame (fun s a => ?_) _ _)
    | (with_reducible exact frame_refl _))

@[simp] theorem refreshMeasurements_frame (m : Sensors) (s : State) :
    (refreshMeasurements m s).pending = s.pending ∧ (refreshMeasurements m s).sram = s.sram := by
  simp [refreshMeasurements]

@[simp] theorem acceptSleep_frame (arg : Nat) (s : State) :
    (acceptSleep arg s).pending = s.pending ∧ (acceptSleep arg s).sram = s.sram := by
  simp [acceptSleep]

@[simp] theorem beginWake_frame (cause : Nat) (port : Nat) (s : State) :
    (beginWake cause port s).pending = s.pending ∧ (beginWake cause port s).sram = s.sram := by
  exact ⟨rfl, rfl⟩

@[simp] theorem wakeSource_frame (bit : Nat) (port : Nat) (s : State) :
    (wakeSource bit port s).pending = s.pending ∧ (wakeSource bit port s).sram = s.sram := by
  simp [wakeSource]

@[simp] theorem wakePin_frame (held : Bool) (s : State) :
    (wakePin held s).pending = s.pending ∧ (wakePin held s).sram = s.sram := by
  simp [wakePin]

@[simp] theorem canWake_frame (ch : Nat) (ident : Nat) (s : State) :
    (canWake ch ident s).pending = s.pending ∧ (canWake ch ident s).sram = s.sram := by
  simp [canWake]

@[simp] theorem t1Wake_frame (port : Nat) (s : State) :
    (t1Wake port s).pending = s.pending ∧ (t1Wake port s).sram = s.sram := by
  simp [t1Wake]

@[simp] theorem timebaseAlarm_frame (s : State) :
    (timebaseAlarm s).pending = s.pending ∧ (timebaseAlarm s).sram = s.sram := by
  simp [timebaseAlarm]

@[simp] theorem deselectAll_frame (s : State) :
    (deselectAll s).pending = s.pending ∧ (deselectAll s).sram = s.sram := by
  unfold deselectAll
  repeat' (first
    | (with_reducible refine frame_ite (fun _ => ?_) (fun _ => ?_))
    | (with_reducible refine frame_trans (noteSelection_frame _ _ _ _) ?_)
    | (with_reducible refine frame_trans (foldl_frame (fun s a => ?_) _ _) ?_)
    | (with_reducible refine foldl_frame (fun s a => ?_) _ _)
    | (with_reducible exact frame_refl _)
    | dsimp only
    | split)

@[simp] theorem sleepPorts_frame (s : State) :
    (sleepPorts s).pending = s.pending ∧ (sleepPorts s).sram = s.sram := by
  unfold sleepPorts
  repeat' (first
    | (with_reducible refine frame_ite (fun _ => ?_) (fun _ => ?_))
    | (with_reducible refine frame_trans (linkChange_frame _ _ _ _) ?_)
    | (with_reducible refine frame_trans (State_setPort_frame _ _ _) ?_)
    | (with_reducible refine frame_trans (foldl_frame (fun s a => ?_) _ _) ?_)
    | (with_reducible refine foldl_frame (fun s a => ?_) _ _)
    | (with_reducible exact frame_refl _))

@[simp] theorem standbyStops_frame (s : State) :
    (standbyStops s).pending = s.pending ∧ (standbyStops s).sram = s.sram := by
  have h := frame_trans (sleepPorts_frame _) (frame_trans (sleepCalendar_frame _) (frame_trans (sleepTcs_frame _)
    (frame_trans (sleepTimebases_frame _) (frame_trans (foldl_frame (fun s n => followSelection_frame s n) (List.range 8) _)
      (deselectAll_frame { s with rf := { s.rf with stopped := true } })))))
  unfold standbyStops forEach
  dsimp only
  generalize sleepPorts _ = z at *
  exact h

@[simp] theorem commitSleep_frame (s : State) :
    (commitSleep s).pending = s.pending ∧ (commitSleep s).sram = s.sram := by
  unfold commitSleep
  repeat' (first
    | (with_reducible refine frame_ite (fun _ => ?_) (fun _ => ?_))
    | (with_reducible refine frame_trans (standbyStops_frame _) ?_)
    | (with_reducible refine frame_trans (enterMode_frame _ _) ?_)
    | (with_reducible refine frame_trans (beginWake_frame _ _ _) ?_)
    | (with_reducible refine frame_trans (foldl_frame (fun s a => ?_) _ _) ?_)
    | (with_reducible refine foldl_frame (fun s a => ?_) _ _)
    | (with_reducible exact frame_refl _)
    | dsimp only
    | split)

@[simp] theorem sleepCommit_frame (s : State) :
    (sleepCommit s).pending = s.pending ∧ (sleepCommit s).sram = s.sram := by
  unfold sleepCommit
  repeat' (first
    | (with_reducible refine frame_ite (fun _ => ?_) (fun _ => ?_))
    | (with_reducible refine frame_trans (commitSleep_frame _) ?_)
    | (with_reducible refine frame_trans (foldl_frame (fun s a => ?_) _ _) ?_)
    | (with_reducible refine foldl_frame (fun s a => ?_) _ _)
    | (with_reducible exact frame_refl _)
    | dsimp only
    | split)

@[simp] theorem wakeComplete_frame (s : State) :
    (wakeComplete s).pending = s.pending ∧ (wakeComplete s).sram = s.sram := by
  unfold wakeComplete
  repeat' (first
    | (with_reducible refine frame_ite (fun _ => ?_) (fun _ => ?_))
    | (with_reducible refine frame_trans (enterMode_frame _ _) ?_)
    | (with_reducible refine frame_trans (startCand_frame _ _) ?_)
    | (with_reducible refine frame_trans (raise_frame _ _) ?_)
    | (with_reducible refine frame_trans (wakeCalendar_frame _) ?_)
    | (with_reducible refine frame_trans (wakeTcs_frame _) ?_)
    | (with_reducible refine frame_trans (tdcRestart_frame _) ?_)
    | (with_reducible refine frame_trans (wakeTimebases_frame _) ?_)
    | (with_reducible refine frame_trans (foldl_frame (fun s a => ?_) _ _) ?_)
    | (with_reducible refine foldl_frame (fun s a => ?_) _ _)
    | (with_reducible exact frame_refl _))

@[simp] theorem codingChange_frame (s : State) :
    (codingChange s).pending = s.pending ∧ (codingChange s).sram = s.sram := by
  simp [codingChange]

@[simp] theorem beginStore_frame (erase : Bool) (s : State) :
    (beginStore erase s).pending = s.pending ∧ (beginStore erase s).sram = s.sram := by
  exact ⟨rfl, rfl⟩

@[simp] theorem storeComplete_frame (e : StoreEnd) (s : State) :
    (storeComplete e s).pending = s.pending ∧ (storeComplete e s).sram = s.sram := by
  unfold storeComplete
  repeat' (first
    | with_reducible exact ⟨rfl, rfl⟩
    | (with_reducible refine frame_ite (fun _ => ?_) (fun _ => ?_))
    | (with_reducible refine frame_trans (raise_frame _ _) ?_)
    | (with_reducible refine frame_trans (foldl_frame (fun s a => ?_) _ _) ?_)
    | (with_reducible refine foldl_frame (fun s a => ?_) _ _)
    | dsimp only
    | split)

@[simp] theorem setSlot_frame (f : FwSlot → FwSlot) (s : State) :
    (setSlot f s).pending = s.pending ∧ (setSlot f s).sram = s.sram := by
  exact ⟨rfl, rfl⟩

@[simp] theorem openFirmware_frame (s : State) :
    (openFirmware s).pending = s.pending ∧ (openFirmware s).sram = s.sram := by
  exact ⟨rfl, rfl⟩

@[simp] theorem dropFirmware_frame (s : State) :
    (dropFirmware s).pending = s.pending ∧ (dropFirmware s).sram = s.sram := by
  exact ⟨rfl, rfl⟩

@[simp] theorem refreshPass_frame (due : Nat) (failed : Nat) (spare : Nat) (erase : Nat) (s : State) :
    (refreshPass due failed spare erase s).pending = s.pending ∧ (refreshPass due failed spare erase s).sram = s.sram := by
  simp [refreshPass]

@[simp] theorem routeWritten_frame (n : Nat) (v : Int) (s : State) :
    (routeWritten n v s).pending = s.pending ∧ (routeWritten n v s).sram = s.sram := by
  simp [routeWritten]

@[simp] theorem enableOut_frame (n : Nat) (old : State) (v : Int) (s : State) :
    (enableOut n old v s).pending = s.pending ∧ (enableOut n old v s).sram = s.sram := by
  unfold enableOut
  repeat' (first
    | (with_reducible refine frame_ite (fun _ => ?_) (fun _ => ?_))
    | (with_reducible refine frame_trans (originNow_frame _ _) ?_)
    | (with_reducible refine frame_trans (foldl_frame (fun s a => ?_) _ _) ?_)
    | (with_reducible refine foldl_frame (fun s a => ?_) _ _)
    | (with_reducible exact frame_refl _))

@[simp] theorem coreWritten_frame (n : Nat) (old : State) (s : State) :
    (coreWritten n old s).pending = s.pending ∧ (coreWritten n old s).sram = s.sram := by
  unfold coreWritten
  repeat' (first
    | (with_reducible refine frame_ite (fun _ => ?_) (fun _ => ?_))
    | (with_reducible refine frame_trans (State_setOut_frame _ _ _) ?_)
    | (with_reducible refine frame_trans (foldl_frame (fun s a => ?_) _ _) ?_)
    | (with_reducible refine foldl_frame (fun s a => ?_) _ _)
    | (with_reducible exact frame_refl _))

@[simp] theorem emit_frame (r : Requester) (version : Nat) (opcode : Nat) (seq : Nat) (status : Nat) (flags : Nat) (address : Nat) (segment : Nat) (payload : List Byte) (s : State) :
    (emit r version opcode seq status flags address segment payload s).pending = s.pending ∧ (emit r version opcode seq status flags address segment payload s).sram = s.sram := by
  simp [emit]

@[simp] theorem respond_frame (r : Requester) (f : Frame) (version : Nat) (status : Nat) (payload : List Byte) (s : State) :
    (respond r f version status payload s).pending = s.pending ∧ (respond r f version status payload s).sram = s.sram := by
  simp [respond]

@[simp] theorem answer_frame (r : Requester) (f : Frame) (version : Nat) (status : Nat) (payload : List Byte) (s : State) :
    (answer r f version status payload s).pending = s.pending ∧ (answer r f version status payload s).sram = s.sram := by
  simp [answer]

@[simp] theorem journalWrite_frame (r : Requester) (f : Frame) (l : List (Elem × Int)) (old : State) (s : State) :
    (journalWrite r f l old s).pending = s.pending ∧ (journalWrite r f l old s).sram = s.sram := by
  unfold journalWrite
  refine foldl_frame (fun _ _ => ?_) _ _
  first
    | with_reducible exact ⟨rfl, rfl⟩
    | simp

@[simp] theorem waitRelay_frame (r : Requester) (f : Frame) (via : Nat) (s : State) :
    (waitRelay r f via s).pending = s.pending ∧ (waitRelay r f via s).sram = s.sram := by
  exact ⟨rfl, rfl⟩

@[simp] theorem endWrite_frame (r : Requester) (a : Nat) (s : State) :
    (endWrite r a s).pending = s.pending ∧ (endWrite r a s).sram = s.sram := by
  exact ⟨rfl, rfl⟩

@[simp] theorem interruptFirmware_frame (s : State) :
    (interruptFirmware s).pending = s.pending ∧ (interruptFirmware s).sram = s.sram := by
  exact ⟨rfl, rfl⟩

@[simp] theorem discardWrite_frame (r : Requester) (a : Nat) (s : State) :
    (discardWrite r a s).pending = s.pending ∧ (discardWrite r a s).sram = s.sram := by
  simp [discardWrite]

@[simp] theorem discardFrame_frame (s : State) :
    (discardFrame s).pending = s.pending ∧ (discardFrame s).sram = s.sram := by
  exact ⟨rfl, rfl⟩

@[simp] theorem endRelay_frame (status : Nat) (s : State) (x : Relay) :
    (endRelay status s x).pending = s.pending ∧ (endRelay status s x).sram = s.sram := by
  simp [endRelay]

@[simp] theorem relayTimeout_frame (s : State) :
    (relayTimeout s).pending = s.pending ∧ (relayTimeout s).sram = s.sram := by
  unfold relayTimeout
  refine foldl_frame (fun _ _ => ?_) _ _
  first
    | with_reducible exact ⟨rfl, rfl⟩
    | simp

@[simp] theorem settleRelays_frame (s : State) :
    (settleRelays s).pending = s.pending ∧ (settleRelays s).sram = s.sram := by
  unfold settleRelays
  refine foldl_frame (fun _ _ => ?_) _ _
  first
    | with_reducible exact ⟨rfl, rfl⟩
    | simp

@[simp] theorem transferTimeout_frame (s : State) :
    (transferTimeout s).pending = s.pending ∧ (transferTimeout s).sram = s.sram := by
  simp [transferTimeout]

@[simp] theorem leaseExpiry_frame (s : State) :
    (leaseExpiry s).pending = s.pending ∧ (leaseExpiry s).sram = s.sram := by
  exact ⟨rfl, rfl⟩

@[simp] theorem sendEvents_frame (k : Nat) (l : List DRec) (s : State) :
    (sendEvents k l s).pending = s.pending ∧ (sendEvents k l s).sram = s.sram := by
  unfold sendEvents
  try dsimp only
  (repeat' split) <;> first
    | with_reducible exact ⟨rfl, rfl⟩
    | simp

@[simp] theorem sendDelivery_frame (l : List DRec) (s : State) (k : Nat) :
    (sendDelivery l s k).pending = s.pending ∧ (sendDelivery l s k).sram = s.sram := by
  unfold sendDelivery
  repeat' (first
    | with_reducible exact ⟨rfl, rfl⟩
    | (with_reducible refine frame_ite (fun _ => ?_) (fun _ => ?_))
    | (with_reducible refine frame_trans (sendEvents_frame _ _ _) ?_)
    | (with_reducible refine frame_trans (foldl_frame (fun s a => ?_) _ _) ?_)
    | (with_reducible refine foldl_frame (fun s a => ?_) _ _)
    | dsimp only
    | split)

@[simp] theorem eventMessage_frame (s : State) :
    (eventMessage s).pending = s.pending ∧ (eventMessage s).sram = s.sram := by
  unfold eventMessage
  repeat' (first
    | with_reducible exact ⟨rfl, rfl⟩
    | (with_reducible refine frame_ite (fun _ => ?_) (fun _ => ?_))
    | (with_reducible refine frame_trans (sendDelivery_frame _ _ _) ?_)
    | (with_reducible refine frame_trans (foldl_frame (fun s a => ?_) _ _) ?_)
    | (with_reducible refine foldl_frame (fun s a => ?_) _ _)
    | dsimp only
    | split)

@[simp] theorem streamPacket_frame (s : State) :
    (streamPacket s).pending = s.pending ∧ (streamPacket s).sram = s.sram := by
  unfold streamPacket
  try dsimp only
  (repeat' split) <;> first
    | with_reducible exact ⟨rfl, rfl⟩
    | simp

@[simp] theorem settleStream_frame (s : State) :
    (settleStream s).pending = s.pending ∧ (settleStream s).sram = s.sram := by
  unfold settleStream
  repeat' (first
    | with_reducible exact ⟨rfl, rfl⟩
    | (with_reducible refine frame_ite (fun _ => ?_) (fun _ => ?_))
    | (with_reducible refine frame_trans (foldl_frame (fun s a => ?_) _ _) ?_)
    | (with_reducible refine foldl_frame (fun s a => ?_) _ _)
    | dsimp only
    | split)

@[simp] theorem answerSleep_frame (q : SleepSeq) (status : Nat) (kind : Nat) (s : State) :
    (answerSleep q status kind s).pending = s.pending ∧ (answerSleep q status kind s).sram = s.sram := by
  simp [answerSleep]

@[simp] theorem sleepDecision_frame (s : State) :
    (sleepDecision s).pending = s.pending ∧ (sleepDecision s).sram = s.sram := by
  unfold sleepDecision
  try dsimp only
  (repeat' split) <;> first
    | with_reducible exact ⟨rfl, rfl⟩
    | simp

@[simp] theorem arpReply_frame (port : Nat) (target : Nat) (mac : Nat) (ip : Nat) (s : State) :
    (arpReply port target mac ip s).pending = s.pending ∧ (arpReply port target mac ip s).sram = s.sram := by
  simp [arpReply]

@[simp] theorem icmpReply_frame (port : Nat) (target : Nat) (mac : Nat) (ip : Nat) (payload : List Byte) (s : State) :
    (icmpReply port target mac ip payload s).pending = s.pending ∧ (icmpReply port target mac ip payload s).sram = s.sram := by
  simp [icmpReply]

@[simp] theorem finish_frame (s : State) :
    (finish s).pending = s.pending ∧ (finish s).sram = s.sram := by
  exact frame_of_rest (finish_rest s)

@[simp] theorem claimBy_frame (c : Nat) (fast : Bool) (s : State) :
    (claimBy c fast s).pending = s.pending ∧ (claimBy c fast s).sram = s.sram := by
  simp [claimBy]

@[simp] theorem completeBy_frame (c : Nat) (word : BitVec 32) (s : State) :
    (completeBy c word s).pending = s.pending ∧ (completeBy c word s).sram = s.sram := by
  unfold completeBy
  repeat' (first
    | (with_reducible refine frame_ite (fun _ => ?_) (fun _ => ?_))
    | (with_reducible refine frame_trans (reportFree_frame _ _) ?_)
    | (with_reducible refine frame_trans (foldl_frame (fun s a => ?_) _ _) ?_)
    | (with_reducible refine foldl_frame (fun s a => ?_) _ _)
    | (with_reducible exact frame_refl _))

@[simp] theorem coalesceTimeout_frame (k : Nat) (s : State) :
    (coalesceTimeout k s).pending = s.pending ∧ (coalesceTimeout k s).sram = s.sram := by
  simp [coalesceTimeout]

@[simp] theorem deliveryRetry_frame (s : State) :
    (deliveryRetry s).pending = s.pending ∧ (deliveryRetry s).sram = s.sram := by
  simp [deliveryRetry]

@[simp] theorem stretchExpiry_frame (k : Nat) (s : State) :
    (stretchExpiry k s).pending = s.pending ∧ (stretchExpiry k s).sram = s.sram := by
  exact ⟨rfl, rfl⟩

@[simp] theorem calibration_frame (n : Nat) (ok : Bool) (syndrome : BitVec 32) (s : State) :
    (calibration n ok syndrome s).pending = s.pending ∧ (calibration n ok syndrome s).sram = s.sram := by
  unfold calibration
  repeat' (first
    | (with_reducible refine frame_ite (fun _ => ?_) (fun _ => ?_))
    | (with_reducible refine frame_trans (tdcCalibrated_frame _ _) ?_)
    | (with_reducible refine frame_trans (takeReport_frame _ _ _ _) ?_)
    | (with_reducible refine frame_trans (foldl_frame (fun s a => ?_) _ _) ?_)
    | (with_reducible refine foldl_frame (fun s a => ?_) _ _)
    | (with_reducible exact frame_refl _))

@[simp] theorem lockLoss_frame (c : Nat) (s : State) :
    (lockLoss c s).pending = s.pending ∧ (lockLoss c s).sram = s.sram := by
  simp [lockLoss]

@[simp] theorem copyRealign_frame (n : Nat) (mismatch : BitVec 4) (s : State) :
    (copyRealign n mismatch s).pending = s.pending ∧ (copyRealign n mismatch s).sram = s.sram := by
  unfold copyRealign
  repeat' (first
    | (with_reducible refine frame_ite (fun _ => ?_) (fun _ => ?_))
    | (with_reducible refine frame_trans (realignCopies_frame _ _ _) ?_)
    | (with_reducible refine frame_trans (takeReport_frame _ _ _ _) ?_)
    | (with_reducible refine frame_trans (foldl_frame (fun s a => ?_) _ _) ?_)
    | (with_reducible refine foldl_frame (fun s a => ?_) _ _)
    | (with_reducible exact frame_refl _))

@[simp] theorem pullEnd_frame (p : TaperPath) (s : State) :
    (pullEnd p s).pending = s.pending ∧ (pullEnd p s).sram = s.sram := by
  unfold pullEnd
  repeat' (first
    | with_reducible exact ⟨rfl, rfl⟩
    | (with_reducible refine frame_ite (fun _ => ?_) (fun _ => ?_))
    | (with_reducible refine frame_trans (State_setChan_frame _ _ _) ?_)
    | (with_reducible refine frame_trans (State_setTb_frame _ _ _) ?_)
    | (with_reducible refine frame_trans (State_setOut_frame _ _ _) ?_)
    | (with_reducible refine frame_trans (foldl_frame (fun s a => ?_) _ _) ?_)
    | (with_reducible refine foldl_frame (fun s a => ?_) _ _)
    | dsimp only
    | split)

@[simp] theorem ldaUpdate_frame (s : State) :
    (ldaUpdate s).pending = s.pending ∧ (ldaUpdate s).sram = s.sram := by
  simp [ldaUpdate]

@[simp] theorem grossGate_frame (offset : Rat) (syndrome : BitVec 32) (s : State) :
    (grossGate offset syndrome s).pending = s.pending ∧ (grossGate offset syndrome s).sram = s.sram := by
  unfold grossGate
  repeat' (first
    | (with_reducible refine frame_ite (fun _ => ?_) (fun _ => ?_))
    | (with_reducible refine frame_trans (takeReport_frame _ _ _ _) ?_)
    | (with_reducible refine frame_trans (foldl_frame (fun s a => ?_) _ _) ?_)
    | (with_reducible refine foldl_frame (fun s a => ?_) _ _)
    | (with_reducible exact frame_refl _))

@[simp] theorem fineGate_frame (offset : Rat) (syndrome : BitVec 32) (s : State) :
    (fineGate offset syndrome s).pending = s.pending ∧ (fineGate offset syndrome s).sram = s.sram := by
  unfold fineGate
  repeat' (first
    | (with_reducible refine frame_ite (fun _ => ?_) (fun _ => ?_))
    | (with_reducible refine frame_trans (takeReport_frame _ _ _ _) ?_)
    | (with_reducible refine frame_trans (foldl_frame (fun s a => ?_) _ _) ?_)
    | (with_reducible refine foldl_frame (fun s a => ?_) _ _)
    | (with_reducible exact frame_refl _))

@[simp] theorem consensusTest_frame (s : State) :
    (consensusTest s).pending = s.pending ∧ (consensusTest s).sram = s.sram := by
  unfold consensusTest
  repeat' (first
    | (with_reducible refine frame_ite (fun _ => ?_) (fun _ => ?_))
    | (with_reducible refine frame_trans (takeReport_frame _ _ _ _) ?_)
    | (with_reducible refine frame_trans (foldl_frame (fun s a => ?_) _ _) ?_)
    | (with_reducible refine foldl_frame (fun s a => ?_) _ _)
    | (with_reducible exact frame_refl _))

@[simp] theorem coreStops_frame (c : Nat) (s : State) :
    (coreStops c s).pending = s.pending ∧ (coreStops c s).sram = s.sram := by
  simp [coreStops]

@[simp] theorem watchdogTimeout_frame (c : Nat) (s : State) :
    (watchdogTimeout c s).pending = s.pending ∧ (watchdogTimeout c s).sram = s.sram := by
  unfold watchdogTimeout
  repeat' (first
    | (with_reducible refine frame_ite (fun _ => ?_) (fun _ => ?_))
    | (with_reducible refine frame_trans (reportFree_frame _ _) ?_)
    | (with_reducible refine frame_trans (foldl_frame (fun s a => ?_) _ _) ?_)
    | (with_reducible refine foldl_frame (fun s a => ?_) _ _)
    | (with_reducible exact frame_refl _))

@[simp] theorem activityLoss_frame (s : State) :
    (activityLoss s).pending = s.pending ∧ (activityLoss s).sram = s.sram := by
  unfold activityLoss
  repeat' (first
    | (with_reducible refine frame_ite (fun _ => ?_) (fun _ => ?_))
    | (with_reducible refine frame_trans (reportFree_frame _ _) ?_)
    | (with_reducible refine frame_trans (engineStops_frame _) ?_)
    | (with_reducible refine frame_trans (enterSafeMode_frame _ _) ?_)
    | (with_reducible refine frame_trans (foldl_frame (fun s a => ?_) _ _) ?_)
    | (with_reducible refine foldl_frame (fun s a => ?_) _ _)
    | (with_reducible exact frame_refl _))

end Sys2Proof.Machine
end

