-- ==== Sys2Proof/Laws/Kept.lean ====
section
/-! SUPPORT. Events leave the queue of commands and the processor SRAM alone (R30): what is left to show of them beside Frames. -/

namespace Sys2Proof.Machine

variable {l0 : List Instr} {m0 : Sram} {s t : State}

/-- The queue is `l0` and the SRAM is `m0`. -/
def Kept (l0 : List Instr) (m0 : Sram) (s : State) : Prop := s.pending = l0 ∧ s.sram = m0

theorem Kept.of_frame (h : t.pending = s.pending ∧ t.sram = s.sram) (hs : Kept l0 m0 s) : Kept l0 m0 t :=
  ⟨h.1.trans hs.1, h.2.trans hs.2⟩

theorem foldl_kept {α : Type} {f : State → α → State} (h : ∀ s a, Kept l0 m0 s → Kept l0 m0 (f s a)) (l : List α) (s : State)
    (hs : Kept l0 m0 s) : Kept l0 m0 (l.foldl f s) := by
  induction l generalizing s with
  | nil => exact hs
  | cons a l ih => exact ih _ (h s a hs)

theorem finish_kept (hs : Kept l0 m0 s) : Kept l0 m0 (finish s) := hs.of_frame (finish_frame s)

theorem elapse_kept (dt : Nat) (hs : Kept l0 m0 s) : Kept l0 m0 (elapse dt s) := hs.of_frame (elapse_frame dt s)

theorem railsQualified_pending (i : StartIn) (s : State) : (railsQualified i s).pending = s.pending := rfl

/-- A start from step 1 again (R94) leaves them alone; one from no power clears the SRAM. -/
theorem powerUp_kept (i : StartIn) (a b : Nat) (hs : Kept l0 m0 s) (hp : s.powered = true) : Kept l0 m0 (powerUp i a b s) := by
  unfold powerUp
  rw [hp]
  split
  · contradiction
  · split
    · exact hs.of_frame (runSteps_frame _ _ _ _)
    · exact hs

theorem withSeconds_kept {f : State → State} (hf : Kept l0 m0 (f s)) : Kept l0 m0 (withSeconds f s) :=
  foldl_kept (fun t n h => h.of_frame (secondFell_frame s t n)) _ _ hf

theorem ptpReceive_kept (n : Nat) (h : PtpHdr) {f : Nat → State → State} (hf : ∀ i, Kept l0 m0 (f i s)) (hs : Kept l0 m0 s) :
    Kept l0 m0 (ptpReceive n h f s) := by
  unfold ptpReceive
  repeat' split
  · exact hs.of_frame (discardPtp_frame _ _)
  · exact hs
  · exact hs.of_frame (discardPtp_frame _ _)
  · exact hf _

/-- A command whose effect leaves the queue and the SRAM alone leaves them alone with the time that passes and what follows. -/
theorem timed_kept {dt : Nat} {f : State → State} (hf : ∀ u, Kept l0 m0 u → Kept l0 m0 (f u)) (h : timed dt f s = .next t) (hs : Kept l0 m0 s) :
    Kept l0 m0 t := by
  cases h
  exact finish_kept (hf _ (elapse_kept dt hs))

end Sys2Proof.Machine
end

