-- ==== Sys2Proof/Laws/LanternSeconds.lean ====
section
/-! SUPPORT. One second of a channel with a holdover episode, and a commit of the model. -/

namespace Sys2Proof.Machine

/-- What a commit of model m leaves of Lantern (R172, R176): in an episode the model term goes on from where it stands. -/
theorem commitModel_done (m : Model) (s : State) (n : Nat) (h : n < s.ln.ho.length) :
    (commitModel m s).hov n = if inEpisode (s.chan n) = true then
      { s.hov n with f0 := (commitModel m s).ln.f - ((fNow s).1 - (s.hov n).f0) } else s.hov n :=
  nth_indexed_map s.ln.ho (fun n x => if inEpisode (s.chan n) = true then
    { x with f0 := (evalF s.cfg.ln m (tempNow s) (loadNow s) (ageNow s)).1 - ((fNow s).1 - x.f0) } else x) n Ho.reset h

/-- A second of channel n with a holdover episode (R167, R174, R176, R178, R179). -/
theorem lanternSecond_hold (n : Nat) (s : State) (h1 : n < s.ln.ho.length) (h2 : n < s.dp.length) (h3 : (s.chan n).state = .holdover ∨ (s.chan n).state = .fenced) :
  let c := s.chan n
          let t := lanternSecond s n
          (t.hov n).hist = ({ atNs := s.clk.count, term := if c.secDur = 0 then c.loopTerm else c.secTerm / c.secDur,
                              cand := c.secCand, locked := c.secLocked,
                              steer := if c.secDur = 0 then freq64 (s.hov n).steering else c.secSteer / c.secDur, t := tempNow s, p := loadNow s, ok := true }
              :: (s.hov n).hist).take 12288
            ∧ (t.hov n).conditions = (s.hov n).conditions ||| conditionsNow s n
            ∧ (t.hov n).m = (s.hov n).f0 - s.ln.f
            ∧ (t.hov n).vT = (s.hov n).vT + (if s.ln.extrap then 16 else 1)
                * (residTemp s.ln.model ((s.hov n).conditions ||| conditionsNow s n) : Rat) ^ 2 * 3600
            ∧ (t.chan n).secTerm = 0 ∧ (t.chan n).secDur = 0 ∧ (t.chan n).secCand = s.selected n := by
  intro c t
  have hh : ∀ (f : Ho → Ho) (z : State), z.ln.ho.length = s.ln.ho.length → (z.setHo n f).hov n = f (z.hov n) := fun f z hz =>
    nth_upd_eq z.ln.ho f _ (hz ▸ h1)
  have hr : ∀ (b : Bool) (z : State), (raiseIf b (72 + n) z).hov n = z.hov n ∧ (raiseIf b (72 + n) z).dp = z.dp := by
    intro b z; cases b <;> exact ⟨rfl, rfl⟩
  have hrl : ∀ (b : Bool) (z : State), (raiseIf b (72 + n) z).ln = z.ln := by intro b z; cases b <;> rfl
  obtain ⟨z, hz⟩ : ∃ z, recordSecond n s = z := ⟨_, rfl⟩
  have z1 : z.hov n =
      { s.hov n with
        hist := (({
          atNs := s.clk.count, term := if c.secDur = 0 then c.loopTerm else c.secTerm / c.secDur,
          cand := c.secCand, locked := c.secLocked,
                              steer := if c.secDur = 0 then freq64 (s.hov n).steering else c.secSteer / c.secDur, t := tempNow s, p := loadNow s, ok := true } : HistRec) :: (s.hov n).hist).take 12288 } := by
    rw [← hz]; exact hh _ s rfl
  have z2 : z.chan n = { c with secTerm := 0, secSteer := 0, secDur := 0, secCand := s.selected n, secLocked := c.state == .locked && c.inLock } := by
    rw [← hz]; exact nth_upd_eq s.dp _ _ h2
  have z3 : z.ln.ho.length = s.ln.ho.length ∧ z.ln.f = s.ln.f ∧ z.ln.extrap = s.ln.extrap ∧ z.ln.model = s.ln.model
      ∧ conditionsNow z n = conditionsNow s n := by
    rw [← hz]
    refine ⟨upd_len _ _ _, rfl, rfl, rfl, ?_⟩
    unfold conditionsNow
    rw [hz, z1]; subst hz; rfl
  obtain ⟨k1, k2, k3, k4, k5⟩ := z3
  have ht : t = holdSecond n z := by
    have he : inEpisode (z.chan n) = true := by
      rw [z2]; rcases h3 with h | h <;> simp only [inEpisode, c, h] <;> rfl
    show (if inEpisode ((recordSecond n s).chan n) then holdSecond n (recordSecond n s) else trackSecond n (recordSecond n s)) = _
    rw [hz, if_pos he]
  obtain ⟨w, hw⟩ : ∃ w, setConditions n ((z.hov n).conditions ||| conditionsNow z n) z = w := ⟨_, rfl⟩
  have w1 : w.hov n = { z.hov n with conditions := (z.hov n).conditions ||| conditionsNow z n } := by
    rw [← hw]; unfold setConditions; dsimp only; rw [(hr _ _).1]; exact hh _ z k1
  have w2 : w.dp = z.dp := by rw [← hw]; unfold setConditions; dsimp only; rw [(hr _ _).2]
  have w3 : w.ln.ho.length = s.ln.ho.length ∧ w.ln.f = s.ln.f ∧ w.ln.extrap = s.ln.extrap ∧ w.ln.model = s.ln.model := by
    rw [← hw]; unfold setConditions; dsimp only; rw [hrl]
    exact ⟨(upd_len _ _ _).trans k1, k2, k3, k4⟩
  obtain ⟨m1, m2, m3, m4⟩ := w3
  obtain ⟨v, hv⟩ : ∃ v : State, (w.setHo n fun h => { h with
      vT := h.vT + (if z.ln.extrap then 4 else 1) * (if z.ln.extrap then 4 else 1) * (residTemp z.ln.model (w.hov n).conditions : Rat)
        * (residTemp z.ln.model (w.hov n).conditions : Rat) * 3600, m := -(z.ln.f - h.f0) }) = v := ⟨_, rfl⟩
  have v1 := hh (fun h => { h with
      vT := h.vT + (if z.ln.extrap then 4 else 1) * (if z.ln.extrap then 4 else 1) * (residTemp z.ln.model (w.hov n).conditions : Rat)
        * (residTemp z.ln.model (w.hov n).conditions : Rat) * 3600, m := -(z.ln.f - h.f0) }) w m1
  have v2 : v.dp = w.dp := by rw [← hv]
  have v3 : v.ln.ho.length = s.ln.ho.length := by rw [← hv]; exact (upd_len _ _ _).trans m1
  rw [hv] at v1
  have hs : holdSecond n z = refreshBound n v := by rw [← hv, ← hw]; rfl
  have r1 : (refreshBound n v).hov n = { v.hov n with
      bound := boundOf v (v.hov n), overLim := (v.hov n).overLim || decide (v.cfg.sy.vouchLimit < boundOf v (v.hov n)) } := by
    unfold refreshBound; dsimp only; rw [(hr _ _).1]; exact hh _ v v3
  have r2 : (refreshBound n v).dp = v.dp := by unfold refreshBound; dsimp only; rw [(hr _ _).2]
  have r3 : (refreshBound n v).chan n = z.chan n := by simp only [State.chan, r2, v2, w2]
  clear_value t
  rw [ht, hs, r1, r3, z2, v1, w1, z1, k2, k3, k4, k5]
  refine ⟨rfl, rfl, ?_, ?_, rfl, rfl, rfl⟩
  · dsimp only; ring
  · dsimp only; split <;> ring
end Sys2Proof.Machine
end

