-- ==== Sys2Proof/Laws/Memory.lean ====
section
/-! SUPPORT. What the two operations of the processor SRAM do: a read after a write, and the canonical form kept. -/

namespace Sys2Proof.Machine

open Sys2Proof

/-- Every listed address of a memory in canonical form whose first listed address is above `a` lies above `a`, so `a` reads 0. -/
theorem readByte_below (m : List Host.Cell) (a : Nat) (h : Memory.wf m = true) (hm : ∀ c rest, m = c :: rest → a < c.1) :
    readByte m a = 0#8 := by
  induction m with
  | nil => rfl
  | cons c rest ih =>
    have hc : a < c.1 := hm c rest rfl
    simp only [readByte, if_neg (Nat.ne_of_gt hc)]
    cases rest with
    | nil => rfl
    | cons d tail =>
      simp only [Memory.wf, Bool.and_eq_true, decide_eq_true_eq] at h
      refine ih h.2 fun e r he => ?_
      cases he
      exact Nat.lt_trans hc h.1.1

/-- A tail of a memory in canonical form is in canonical form. -/
theorem memory_wf_tail (c : Host.Cell) (m : List Host.Cell) (h : Memory.wf (c :: m) = true) : Memory.wf m = true := by
  cases m with
  | nil => rfl
  | cons d tail => simp only [Memory.wf, Bool.and_eq_true] at h; exact h.2

/-- In a memory in canonical form the second listed address is above the first. -/
theorem memory_wf_lt (c d : Host.Cell) (m : List Host.Cell) (h : Memory.wf (c :: d :: m) = true) : c.1 < d.1 := by
  simp only [Memory.wf, Bool.and_eq_true, decide_eq_true_eq] at h; exact h.1.1

/-- Reading the byte just written gives it. -/
theorem readByte_writeByte_same (m : List Host.Cell) (a : Nat) (b : Byte) (h : Memory.wf m = true) :
    readByte (writeByte m a b) a = b := by
  induction m with
  | nil => unfold writeByte; split <;> simp_all [readByte]
  | cons c rest ih =>
    unfold writeByte
    split
    · rename_i hlt
      split
      · rename_i hb
        rw [hb]
        exact readByte_below _ a h fun d r he => by cases he; exact hlt
      · simp [readByte]
    · split
      · rename_i hac
        split
        · rename_i hb
          rw [hb]
          refine readByte_below _ a (memory_wf_tail c rest h) fun d r he => ?_
          rw [hac]
          exact memory_wf_lt c d r (he ▸ h)
        · simp [readByte]
      · rename_i hne
        simp only [readByte, if_neg (fun he => hne (Eq.symm he))]
        exact ih (memory_wf_tail c rest h)

/-- A write leaves every other byte as it was. -/
theorem readByte_writeByte_other (m : List Host.Cell) (a x : Nat) (b : Byte) (hx : x ≠ a) :
    readByte (writeByte m a b) x = readByte m x := by
  induction m with
  | nil => unfold writeByte; split <;> simp [readByte, Ne.symm hx]
  | cons c rest ih =>
    unfold writeByte
    split
    · split
      · rfl
      · simp [readByte, Ne.symm hx]
    · split
      · rename_i hac
        split <;> simp [readByte, ← hac, Ne.symm hx]
      · simp only [readByte, ih]

/-- The first listed address after a write is the written one or the first listed before. -/
theorem writeByte_head (m : List Host.Cell) (a : Nat) (b : Byte) (d : Host.Cell) (r : List Host.Cell)
    (h : Memory.wf m = true) (he : writeByte m a b = d :: r) (n : Nat) (ha : n < a) (hm : ∀ c t, m = c :: t → n < c.1) :
    n < d.1 := by
  unfold writeByte at he
  cases m with
  | nil => dsimp only at he; split at he <;> cases he; exact ha
  | cons c rest =>
    have hc := hm c rest rfl
    dsimp only at he
    repeat' split at he
    all_goals first
      | exact Nat.lt_trans hc (memory_wf_lt c d r (he ▸ h))
      | (cases he; first | exact ha | exact hc)

/-- Putting a listed cell below a memory in canonical form keeps the form. -/
theorem memory_wf_cons (c : Host.Cell) (m : List Host.Cell) (hc : c.1 < sramSize) (hb : c.2 ≠ 0#8) (h : Memory.wf m = true)
    (hm : ∀ d t, m = d :: t → c.1 < d.1) : Memory.wf (c :: m) = true := by
  cases m with
  | nil => simp [Memory.wf, hc, hb]
  | cons d tail => simp [Memory.wf, hm d tail rfl, hb, h]

/-- The first listed cell of a memory in canonical form lies in the SRAM and does not hold 0. -/
theorem memory_wf_first (c : Host.Cell) (m : List Host.Cell) (h : Memory.wf (c :: m) = true) :
    c.1 < sramSize ∧ c.2 ≠ 0#8 := by
  induction m generalizing c with
  | nil => simpa [Memory.wf] using h
  | cons d tail ih =>
    have hd := ih d (memory_wf_tail c _ h)
    have hlt := memory_wf_lt c d tail h
    refine ⟨Nat.lt_trans hlt hd.1, ?_⟩
    simp only [Memory.wf, Bool.and_eq_true, bne_iff_ne, ne_eq] at h
    exact h.1.2

/-- A write inside the SRAM keeps the canonical form. -/
theorem writeByte_wf (m : List Host.Cell) (a : Nat) (b : Byte) (ha : a < sramSize) (h : Memory.wf m = true) :
    Memory.wf (writeByte m a b) = true := by
  induction m with
  | nil => unfold writeByte; split <;> simp_all [Memory.wf]
  | cons c rest ih =>
    have hf := memory_wf_first c rest h
    have ht := memory_wf_tail c rest h
    unfold writeByte
    split
    · rename_i hlt
      split
      · exact h
      · rename_i hb
        exact memory_wf_cons (a, b) _ ha hb h fun d t he => by cases he; exact hlt
    · rename_i hge
      split
      · rename_i hac
        split
        · exact ht
        · rename_i hb
          exact memory_wf_cons (a, b) _ ha hb ht fun d t he => by
            have := memory_wf_lt c d t (he ▸ h)
            omega
      · rename_i hne
        refine memory_wf_cons c _ hf.1 hf.2 (ih ht) fun d t he => ?_
        exact writeByte_head rest a b d t ht he c.1 (by omega) fun e u hu => memory_wf_lt c e u (hu ▸ h)

/-- The SRAM right after reset is in canonical form. -/
theorem reset_sram_wf : Memory.wf State.reset.sram.mem = true := rfl

end Sys2Proof.Machine
end

