-- ==== Sys2Proof/Laws/Mode.lean ====
section
/-! SUPPORT. Which settling operations leave the mode registers alone, and what settling does to the mode (R75, R80, R81). -/

namespace Sys2Proof.Machine

theorem md_trans {s t u : State} (h1 : u.md = t.md) (h2 : t.md = s.md) : u.md = s.md := h1.trans h2
theorem md_refl (s : State) : s.md = s.md := rfl
theorem md_ite {c : Prop} [Decidable c] {s a b : State} (h1 : c → a.md = s.md) (h2 : ¬ c → b.md = s.md) :
    (if c then a else b).md = s.md := by
  split
  · exact h1 ‹_›
  · exact h2 ‹_›
theorem foldl_md {α : Type} {f : State → α → State} (h : ∀ s a, (f s a).md = s.md) (l : List α) (s : State) :
    (l.foldl f s).md = s.md := by
  induction l generalizing s with
  | nil => rfl
  | cons a l ih => rw [List.foldl_cons, ih, h]
theorem forEach_md {f : State → Nat → State} (h : ∀ s a, (f s a).md = s.md) (n : Nat) (s : State) :
    (forEach n f s).md = s.md := foldl_md h _ _
@[simp] theorem raise_md (n : Nat) (s : State) :
    (raise n s).md = s.md := by
  rfl

@[simp] theorem raiseIf_md (b : Bool) (n : Nat) (s : State) :
    (raiseIf b n s).md = s.md := by
  unfold raiseIf
  repeat' (first
    | (with_reducible refine md_ite (fun _ => ?_) (fun _ => ?_))
    | (with_reducible refine md_trans (raise_md _ _) ?_)
    | (with_reducible refine md_trans (foldl_md (fun s a => ?_) _ _) ?_)
    | (with_reducible refine foldl_md (fun s a => ?_) _ _)
    | (with_reducible exact md_refl _))

@[simp] theorem level_md (n : Nat) (b : Bool) (s : State) :
    (level n b s).md = s.md := by
  rfl

@[simp] theorem State_setAct_md (s : State) (a : Nat) (f : Act → Act) :
    (State.setAct s a f).md = s.md := by
  rfl

@[simp] theorem State_setServo_md (s : State) (k : Nat) (f : Servo → Servo) :
    (State.setServo s k f).md = s.md := by
  rfl

@[simp] theorem completeFrame_md (k : Nat) (a : Rat) (f : Rat) (target : Rat) (s : State) :
    (completeFrame k a f target s).md = s.md := by
  unfold completeFrame
  repeat' (first
    | (with_reducible refine md_ite (fun _ => ?_) (fun _ => ?_))
    | (with_reducible refine md_trans (State_setServo_md _ _ _) ?_)
    | (with_reducible refine md_trans (raiseIf_md _ _ _) ?_)
    | (with_reducible refine md_trans (State_setAct_md _ _ _) ?_)
    | (with_reducible refine md_trans (foldl_md (fun s a => ?_) _ _) ?_)
    | (with_reducible refine foldl_md (fun s a => ?_) _ _)
    | (with_reducible exact md_refl _))

@[simp] theorem completeFrames_md (k : Nat) (s : State) :
    (completeFrames k s).md = s.md := by
  unfold completeFrames
  repeat' (first
    | (with_reducible refine md_ite (fun _ => ?_) (fun _ => ?_))
    | (with_reducible refine md_trans (completeFrame_md _ _ _ _ _) ?_)
    | (with_reducible refine md_trans (State_setServo_md _ _ _) ?_)
    | (with_reducible refine md_trans (foldl_md (fun s a => ?_) _ _) ?_)
    | (with_reducible refine foldl_md (fun s a => ?_) _ _)
    | (with_reducible exact md_refl _))

@[simp] theorem noteTarget_md (back : Bool) (s : State) (k : Nat) :
    (noteTarget back s k).md = s.md := by
  simp [noteTarget]

@[simp] theorem noteTargets_md (back : Bool) (s : State) :
    (noteTargets back s).md = s.md := by
  unfold noteTargets
  repeat' (first
    | (with_reducible refine md_ite (fun _ => ?_) (fun _ => ?_))
    | (with_reducible refine md_trans (noteTarget_md _ _ _) ?_)
    | (with_reducible refine md_trans (foldl_md (fun s a => ?_) _ _) ?_)
    | (with_reducible refine foldl_md (fun s a => ?_) _ _)
    | (with_reducible exact md_refl _))

@[simp] theorem State_setChan_md (s : State) (n : Nat) (f : Chan → Chan) :
    (State.setChan s n f).md = s.md := by
  rfl

@[simp] theorem State_setHo_md (s : State) (n : Nat) (f : Ho → Ho) :
    (State.setHo s n f).md = s.md := by
  rfl

@[simp] theorem setConditions_md (n : Nat) (b : BitVec 8) (s : State) :
    (setConditions n b s).md = s.md := by
  simp [setConditions]

@[simp] theorem refreshBound_md (n : Nat) (s : State) :
    (refreshBound n s).md = s.md := by
  simp [refreshBound]

@[simp] theorem beginEpisode_md (n : Nat) (v : StartVals) (gap : Rat) (s : State) :
    (beginEpisode n v gap s).md = s.md := by
  simp [beginEpisode]

@[simp] theorem endEpisode_md (n : Nat) (s : State) :
    (endEpisode n s).md = s.md := by
  rfl

@[simp] theorem settleLearn_md (s : State) :
    (settleLearn s).md = s.md := by
  rfl

@[simp] theorem dropSamples_md (c : Nat) (s : State) :
    (dropSamples c s).md = s.md := by
  rfl

@[simp] theorem settleClamp_md (s : State) (n : Nat) :
    (settleClamp s n).md = s.md := by
  simp [settleClamp]

@[simp] theorem chanFlag_md (n : Nat) (b : Nat) (s : State) :
    (chanFlag n b s).md = s.md := by
  rfl

@[simp] theorem chanGo_md (n : Nat) (st : ChanState) (s : State) :
    (chanGo n st s).md = s.md := by
  rfl

@[simp] theorem endPull_md (n : Nat) (s : State) :
    (endPull n s).md = s.md := by
  unfold endPull
  repeat' (first
    | (with_reducible refine md_ite (fun _ => ?_) (fun _ => ?_))
    | (with_reducible refine md_trans (State_setChan_md _ _ _) ?_)
    | (with_reducible refine md_trans (chanFlag_md _ _ _) ?_)
    | (with_reducible refine md_trans (foldl_md (fun s a => ?_) _ _) ?_)
    | (with_reducible refine foldl_md (fun s a => ?_) _ _)
    | (with_reducible exact md_refl _))

@[simp] theorem refer_md (n : Nat) (c : Nat) (s : State) :
    (refer n c s).md = s.md := by
  unfold refer
  repeat' (first
    | (with_reducible refine md_ite (fun _ => ?_) (fun _ => ?_))
    | (with_reducible refine md_trans (State_setChan_md _ _ _) ?_)
    | (with_reducible refine md_trans (chanFlag_md _ _ _) ?_)
    | (with_reducible refine md_trans (foldl_md (fun s a => ?_) _ _) ?_)
    | (with_reducible refine foldl_md (fun s a => ?_) _ _)
    | (with_reducible exact md_refl _))

@[simp] theorem toAcquire_md (n : Nat) (c : Nat) (s : State) :
    (toAcquire n c s).md = s.md := by
  simp [toAcquire]

@[simp] theorem toRelock_md (n : Nat) (c : Nat) (s : State) :
    (toRelock n c s).md = s.md := by
  simp [toRelock]

@[simp] theorem switchTo_md (n : Nat) (c : Nat) (s : State) :
    (switchTo n c s).md = s.md := by
  simp [switchTo]

@[simp] theorem toIdle_md (n : Nat) (s : State) :
    (toIdle n s).md = s.md := by
  simp [toIdle]

@[simp] theorem toHoldover_md (n : Nat) (s : State) :
    (toHoldover n s).md = s.md := by
  simp [toHoldover]

@[simp] theorem followSelection_md (s : State) (n : Nat) :
    (followSelection s n).md = s.md := by
  unfold followSelection
  repeat' (first
    | (with_reducible refine md_ite (fun _ => ?_) (fun _ => ?_))
    | (with_reducible refine md_trans (toAcquire_md _ _ _) ?_)
    | (with_reducible refine md_trans (toIdle_md _ _) ?_)
    | (with_reducible refine md_trans (toRelock_md _ _ _) ?_)
    | (with_reducible refine md_trans (toHoldover_md _ _) ?_)
    | (with_reducible refine md_trans (switchTo_md _ _ _) ?_)
    | (with_reducible refine md_trans (foldl_md (fun s a => ?_) _ _) ?_)
    | (with_reducible refine foldl_md (fun s a => ?_) _ _)
    | (with_reducible exact md_refl _)
    | (with_reducible refine md_trans (forEach_md (fun s a => ?_) _ _) ?_)
    | dsimp only
    | split)

@[simp] theorem settleBandwidth_md (s : State) (n : Nat) :
    (settleBandwidth s n).md = s.md := by
  unfold settleBandwidth
  repeat' (first
    | (with_reducible refine md_ite (fun _ => ?_) (fun _ => ?_))
    | (with_reducible refine md_trans (State_setChan_md _ _ _) ?_)
    | (with_reducible refine md_trans (foldl_md (fun s a => ?_) _ _) ?_)
    | (with_reducible refine foldl_md (fun s a => ?_) _ _)
    | (with_reducible exact md_refl _)
    | (with_reducible refine md_trans (forEach_md (fun s a => ?_) _ _) ?_)
    | dsimp only
    | split)

@[simp] theorem settleLock_md (s : State) (n : Nat) :
    (settleLock s n).md = s.md := by
  simp [settleLock]

@[simp] theorem State_setOut_md (s : State) (n : Nat) (f : Out → Out) :
    (State.setOut s n f).md = s.md := by
  rfl

@[simp] theorem startOut_md (s : State) (n : Nat) :
    (startOut s n).md = s.md := by
  rfl

@[simp] theorem stopOut_md (s : State) (n : Nat) :
    (stopOut s n).md = s.md := by
  rfl

@[simp] theorem settleWave_md (s : State) (n : Nat) :
    (settleWave s n).md = s.md := by
  unfold settleWave
  repeat' (first
    | (with_reducible refine md_ite (fun _ => ?_) (fun _ => ?_))
    | (with_reducible refine md_trans (State_setOut_md _ _ _) ?_)
    | (with_reducible refine md_trans (startOut_md _ _) ?_)
    | (with_reducible refine md_trans (stopOut_md _ _) ?_)
    | (with_reducible refine md_trans (foldl_md (fun s a => ?_) _ _) ?_)
    | (with_reducible refine foldl_md (fun s a => ?_) _ _)
    | (with_reducible exact md_refl _))

@[simp] theorem settleOut_md (s : State) (n : Nat) :
    (settleOut s n).md = s.md := by
  simp [settleOut]

@[simp] theorem settleOuts_md (s : State) :
    (settleOuts s).md = s.md := by
  unfold settleOuts
  repeat' (first
    | (with_reducible refine md_ite (fun _ => ?_) (fun _ => ?_))
    | (with_reducible refine md_trans (settleOut_md _ _) ?_)
    | (with_reducible refine md_trans (foldl_md (fun s a => ?_) _ _) ?_)
    | (with_reducible refine foldl_md (fun s a => ?_) _ _)
    | (with_reducible exact md_refl _))

@[simp] theorem cancelCommit_md (s : State) :
    (cancelCommit s).md = s.md := by
  unfold cancelCommit
  repeat' (first
    | (with_reducible refine md_ite (fun _ => ?_) (fun _ => ?_))
    | (with_reducible refine md_trans (raise_md _ _) ?_)
    | (with_reducible refine md_trans (foldl_md (fun s a => ?_) _ _) ?_)
    | (with_reducible refine foldl_md (fun s a => ?_) _ _)
    | (with_reducible exact md_refl _))

@[simp] theorem settleCommit_md (s : State) :
    (settleCommit s).md = s.md := by
  unfold settleCommit
  repeat' (first
    | (with_reducible refine md_ite (fun _ => ?_) (fun _ => ?_))
    | (with_reducible refine md_trans (cancelCommit_md _) ?_)
    | (with_reducible refine md_trans (foldl_md (fun s a => ?_) _ _) ?_)
    | (with_reducible refine foldl_md (fun s a => ?_) _ _)
    | (with_reducible exact md_refl _)
    | (with_reducible refine md_trans (forEach_md (fun s a => ?_) _ _) ?_)
    | dsimp only
    | split)

@[simp] theorem State_setTb_md (s : State) (k : Nat) (f : Tb → Tb) :
    (State.setTb s k f).md = s.md := by
  rfl

@[simp] theorem State_setDom_md (s : State) (i : Nat) (f : Dom → Dom) :
    (State.setDom s i f).md = s.md := by
  rfl

@[simp] theorem domGo_md (i : Nat) (st : DomState) (s : State) :
    (domGo i st s).md = s.md := by
  rfl

@[simp] theorem restamp_md (k : Nat) (s : State) :
    (restamp k s).md = s.md := by
  rfl

@[simp] theorem tbGo_md (k : Nat) (st : TbState) (s : State) :
    (tbGo k st s).md = s.md := by
  rfl

@[simp] theorem aimAt_md (k : Nat) (theta : Rat) (s : State) :
    (aimAt k theta s).md = s.md := by
  rfl

@[simp] theorem setFreqTerm_md (k : Nat) (v : Rat) (s : State) :
    (setFreqTerm k v s).md = s.md := by
  rfl

@[simp] theorem enterTbHoldover_md (k : Nat) (s : State) :
    (enterTbHoldover k s).md = s.md := by
  unfold enterTbHoldover
  dsimp only
  split
  · exact tbGo_md k .holdover s
  · exact (setFreqTerm_md _ _ _).trans (show State.md (State.setTb _ _ _) = _ from tbGo_md k .holdover s)

@[simp] theorem countSwitch_md (k : Nat) (s : State) :
    (countSwitch k s).md = s.md := by
  rfl

@[simp] theorem copyUtc_md (k : Nat) (s : State) :
    (copyUtc k s).md = s.md := by
  unfold copyUtc
  repeat' (first
    | (with_reducible refine md_ite (fun _ => ?_) (fun _ => ?_))
    | (with_reducible refine md_trans (State_setTb_md _ _ _) ?_)
    | (with_reducible refine md_trans (raiseIf_md _ _ _) ?_)
    | (with_reducible refine md_trans (foldl_md (fun s a => ?_) _ _) ?_)
    | (with_reducible refine foldl_md (fun s a => ?_) _ _)
    | (with_reducible exact md_refl _))

@[simp] theorem announceUtc_md (k : Nat) (d : Dataset) (s : State) :
    (announceUtc k d s).md = s.md := by
  unfold announceUtc
  repeat' (first
    | (with_reducible refine md_ite (fun _ => ?_) (fun _ => ?_))
    | (with_reducible refine md_trans (copyUtc_md _ _) ?_)
    | (with_reducible refine md_trans (foldl_md (fun s a => ?_) _ _) ?_)
    | (with_reducible refine foldl_md (fun s a => ?_) _ _)
    | (with_reducible exact md_refl _))

@[simp] theorem followUtc_md (k : Nat) (s : State) :
    (followUtc k s).md = s.md := by
  unfold followUtc
  repeat' (first
    | (with_reducible refine md_ite (fun _ => ?_) (fun _ => ?_))
    | (with_reducible refine md_trans (announceUtc_md _ _ _) ?_)
    | (with_reducible refine md_trans (foldl_md (fun s a => ?_) _ _) ?_)
    | (with_reducible refine foldl_md (fun s a => ?_) _ _)
    | (with_reducible exact md_refl _)
    | (with_reducible refine md_trans (forEach_md (fun s a => ?_) _ _) ?_)
    | dsimp only
    | split)

@[simp] theorem setActive_md (k : Nat) (d : Option Nat) (s : State) :
    (setActive k d s).md = s.md := by
  unfold setActive
  repeat' (first
    | (with_reducible refine md_ite (fun _ => ?_) (fun _ => ?_))
    | (with_reducible refine md_trans (State_setTb_md _ _ _) ?_)
    | (with_reducible refine md_trans (aimAt_md _ _ _) ?_)
    | (with_reducible refine md_trans (followUtc_md _ _) ?_)
    | (with_reducible refine md_trans (countSwitch_md _ _) ?_)
    | (with_reducible refine md_trans (foldl_md (fun s a => ?_) _ _) ?_)
    | (with_reducible refine foldl_md (fun s a => ?_) _ _)
    | (with_reducible exact md_refl _)
    | (with_reducible refine md_trans (forEach_md (fun s a => ?_) _ _) ?_)
    | dsimp only
    | split)

@[simp] theorem settleTb_md (s : State) (k : Nat) :
    (settleTb s k).md = s.md := by
  unfold settleTb
  dsimp only
  split
  · rfl
  · split
    · rfl
    · exact setActive_md _ _ _
  · generalize hr : (match (s.tbs k).restep with
      | some d => if (s.domi (2 * k + d)).measures then s
        else raise (120 + k) (s.setTb k fun t => { t with restep := none, restepState := 3 })
      | none => s) = s1
    have h1 : s1.md = s.md := by
      rw [← hr]
      repeat' split
      all_goals rfl
    repeat' split
    all_goals try simp only [enterTbHoldover_md, tbGo_md, setActive_md]
    all_goals first | exact h1 | rfl

@[simp] theorem settleTbClamp_md (s : State) (k : Nat) :
    (settleTbClamp s k).md = s.md := by
  rfl

@[simp] theorem cutBeacon_md (s : State) :
    (cutBeacon s).md = s.md := by
  unfold cutBeacon
  repeat' (first
    | (with_reducible refine md_ite (fun _ => ?_) (fun _ => ?_))
    | (with_reducible refine md_trans (foldl_md (fun s a => ?_) _ _) ?_)
    | (with_reducible refine foldl_md (fun s a => ?_) _ _)
    | (with_reducible exact md_refl _))

@[simp] theorem State_setPort_md (s : State) (n : Nat) (f : Port → Port) :
    (State.setPort s n f).md = s.md := by
  rfl

@[simp] theorem State_setInst_md (s : State) (i : Nat) (f : PtpInst → PtpInst) :
    (State.setInst s i f).md = s.md := by
  rfl

@[simp] theorem send_keeps_md (x : Tx) (s : State) : (send x s).md = s.md := rfl

@[simp] theorem setPortState_md (i : Nat) (n : Nat) (st : PortState) (s : State) :
    (setPortState i n st s).md = s.md := by
  unfold setPortState
  repeat' (first
    | (with_reducible refine md_ite (fun _ => ?_) (fun _ => ?_))
    | (with_reducible refine md_trans (raise_md _ _) ?_)
    | (with_reducible refine md_trans (State_setPort_md _ _ _) ?_)
    | (with_reducible refine md_trans (foldl_md (fun s a => ?_) _ _) ?_)
    | (with_reducible refine foldl_md (fun s a => ?_) _ _)
    | (with_reducible exact md_refl _))

@[simp] theorem settleGm_md (s : State) (i : Nat) :
    (settleGm s i).md = s.md := by
  unfold settleGm
  repeat' (first
    | (with_reducible refine md_ite (fun _ => ?_) (fun _ => ?_))
    | (with_reducible refine md_trans (raiseIf_md _ _ _) ?_)
    | (with_reducible refine md_trans (State_setInst_md _ _ _) ?_)
    | (with_reducible refine md_trans (foldl_md (fun s a => ?_) _ _) ?_)
    | (with_reducible refine foldl_md (fun s a => ?_) _ _)
    | (with_reducible exact md_refl _)
    | (with_reducible refine md_trans (forEach_md (fun s a => ?_) _ _) ?_)
    | dsimp only
    | split)

@[simp] theorem settleAdvertised_md (s : State) (i : Nat) :
    (settleAdvertised s i).md = s.md := by
  unfold settleAdvertised
  repeat' (first
    | (with_reducible refine md_ite (fun _ => ?_) (fun _ => ?_))
    | (with_reducible refine md_trans (settleGm_md _ _) ?_)
    | (with_reducible refine md_trans (foldl_md (fun s a => ?_) _ _) ?_)
    | (with_reducible refine foldl_md (fun s a => ?_) _ _)
    | (with_reducible exact md_refl _))

@[simp] theorem settleInst_md (s : State) (i : Nat) :
    (settleInst s i).md = s.md := by
  have hp (l : List (Nat × PortState)) : (l.foldl (fun (s : State) p => setPortState i p.1 p.2 s) s).md = s.md :=
    foldl_md (fun s (p : Nat × PortState) => setPortState_md i p.1 p.2 s) _ _
  unfold settleInst
  split
  · rfl
  · dsimp only
    generalize hs : (indexed ((List.range 14).map (portStateNow s i))).foldl _ s = s1
    have h1 : s1.md = s.md := by rw [← hs]; exact hp _
    rw [settleGm_md]
    split <;> exact h1

@[simp] theorem settleDomRank_md (s : State) (i : Nat) :
    (settleDomRank s i).md = s.md := by
  unfold settleDomRank
  repeat' (first
    | (with_reducible refine md_ite (fun _ => ?_) (fun _ => ?_))
    | (with_reducible refine md_trans (State_setDom_md _ _ _) ?_)
    | (with_reducible refine md_trans (raise_md _ _) ?_)
    | (with_reducible refine md_trans (foldl_md (fun s a => ?_) _ _) ?_)
    | (with_reducible refine foldl_md (fun s a => ?_) _ _)
    | (with_reducible exact md_refl _)
    | (with_reducible refine md_trans (forEach_md (fun s a => ?_) _ _) ?_)
    | dsimp only
    | split)

@[simp] theorem settleDom_md (s : State) (i : Nat) :
    (settleDom s i).md = s.md := by
  unfold settleDom
  repeat' (first
    | (with_reducible refine md_ite (fun _ => ?_) (fun _ => ?_))
    | (with_reducible refine md_trans (domGo_md _ _ _) ?_)
    | (with_reducible refine md_trans (foldl_md (fun s a => ?_) _ _) ?_)
    | (with_reducible refine foldl_md (fun s a => ?_) _ _)
    | (with_reducible exact md_refl _))

@[simp] theorem State_setCand_md (s : State) (c : Nat) (f : Cand → Cand) :
    (State.setCand s c f).md = s.md := by
  rfl

@[simp] theorem candGo_md (c : Nat) (st : CandState) (s : State) :
    (candGo c st s).md = s.md := by
  unfold candGo
  repeat' (first
    | (with_reducible refine md_ite (fun _ => ?_) (fun _ => ?_))
    | (with_reducible refine md_trans (raise_md _ _) ?_)
    | (with_reducible refine md_trans (State_setCand_md _ _ _) ?_)
    | (with_reducible refine md_trans (dropSamples_md _ _) ?_)
    | (with_reducible refine md_trans (foldl_md (fun s a => ?_) _ _) ?_)
    | (with_reducible refine foldl_md (fun s a => ?_) _ _)
    | (with_reducible exact md_refl _))

@[simp] theorem qualifyCand_md (c : Nat) (s : State) :
    (qualifyCand c s).md = s.md := by
  simp [qualifyCand]

@[simp] theorem candDisqualified_md (c : Nat) (s : State) :
    (candDisqualified c s).md = s.md := by
  simp [candDisqualified]

@[simp] theorem settleCand_md (s : State) (c : Nat) :
    (settleCand s c).md = s.md := by
  have hq (t : State) (f : Cand → Cand) : (t.setCand c f).md = t.md := rfl
  unfold settleCand
  dsimp only
  repeat' split
  all_goals try simp only [candDisqualified_md, qualifyCand_md, hq, candGo_md]

@[simp] theorem settleRank_md (s : State) (c : Nat) :
    (settleRank s c).md = s.md := by
  unfold settleRank
  repeat' (first
    | (with_reducible refine md_ite (fun _ => ?_) (fun _ => ?_))
    | (with_reducible refine md_trans (State_setCand_md _ _ _) ?_)
    | (with_reducible refine md_trans (raise_md _ _) ?_)
    | (with_reducible refine md_trans (foldl_md (fun s a => ?_) _ _) ?_)
    | (with_reducible refine foldl_md (fun s a => ?_) _ _)
    | (with_reducible exact md_refl _)
    | (with_reducible refine md_trans (forEach_md (fun s a => ?_) _ _) ?_)
    | dsimp only
    | split)

@[simp] theorem settleLevels_md (s : State) :
    (settleLevels s).md = s.md := by
  simp [settleLevels]

@[simp] theorem settleDeliveries_md (s : State) :
    (settleDeliveries s).md = s.md := by
  simp [settleDeliveries]

@[simp] theorem settlePins_md (s : State) :
    (settlePins s).md = s.md := by
  rfl

@[simp] theorem settleRefs_md (s : State) :
    (settleRefs s).md = s.md := by
  unfold settleRefs
  repeat' (first
    | (with_reducible refine md_ite (fun _ => ?_) (fun _ => ?_))
    | (with_reducible refine md_trans (settleRank_md _ _) ?_)
    | (with_reducible refine md_trans (settleCand_md _ _) ?_)
    | (with_reducible refine md_trans (settleDomRank_md _ _) ?_)
    | (with_reducible refine md_trans (foldl_md (fun s a => ?_) _ _) ?_)
    | (with_reducible refine foldl_md (fun s a => ?_) _ _)
    | (with_reducible exact md_refl _)
    | (with_reducible refine md_trans (forEach_md (fun s a => ?_) _ _) ?_))

@[simp] theorem settleChannels_md (s : State) :
    (settleChannels s).md = s.md := by
  unfold settleChannels
  repeat' (first
    | (with_reducible refine md_ite (fun _ => ?_) (fun _ => ?_))
    | (with_reducible refine md_trans (settleLearn_md _) ?_)
    | (with_reducible refine md_trans (settleClamp_md _ _) ?_)
    | (with_reducible refine md_trans (settleLock_md _ _) ?_)
    | (with_reducible refine md_trans (settleBandwidth_md _ _) ?_)
    | (with_reducible refine md_trans (followSelection_md _ _) ?_)
    | (with_reducible refine md_trans (foldl_md (fun s a => ?_) _ _) ?_)
    | (with_reducible refine foldl_md (fun s a => ?_) _ _)
    | (with_reducible exact md_refl _)
    | (with_reducible refine md_trans (forEach_md (fun s a => ?_) _ _) ?_))

@[simp] theorem settleTime_md (s : State) :
    (settleTime s).md = s.md := by
  unfold settleTime
  repeat' (first
    | (with_reducible refine md_ite (fun _ => ?_) (fun _ => ?_))
    | (with_reducible refine md_trans (settleAdvertised_md _ _) ?_)
    | (with_reducible refine md_trans (settleTbClamp_md _ _) ?_)
    | (with_reducible refine md_trans (settleTb_md _ _) ?_)
    | (with_reducible refine md_trans (settleDom_md _ _) ?_)
    | (with_reducible refine md_trans (settleInst_md _ _) ?_)
    | (with_reducible refine md_trans (foldl_md (fun s a => ?_) _ _) ?_)
    | (with_reducible refine foldl_md (fun s a => ?_) _ _)
    | (with_reducible exact md_refl _)
    | (with_reducible refine md_trans (forEach_md (fun s a => ?_) _ _) ?_))

@[simp] theorem emit_md (r : Requester) (version : Nat) (opcode : Nat) (seq : Nat) (status : Nat) (flags : Nat) (address : Nat) (segment : Nat) (payload : List Byte) (s : State) :
    (emit r version opcode seq status flags address segment payload s).md = s.md := by
  unfold emit
  repeat' (first
    | (with_reducible refine md_ite (fun _ => ?_) (fun _ => ?_))
    | (with_reducible refine md_trans (send_keeps_md _ _) ?_)
    | (with_reducible refine md_trans (foldl_md (fun s a => ?_) _ _) ?_)
    | (with_reducible refine foldl_md (fun s a => ?_) _ _)
    | (with_reducible exact md_refl _))

@[simp] theorem respond_md (r : Requester) (f : Frame) (version : Nat) (status : Nat) (payload : List Byte) (s : State) :
    (respond r f version status payload s).md = s.md := by
  simp [respond]

@[simp] theorem answer_md (r : Requester) (f : Frame) (version : Nat) (status : Nat) (payload : List Byte) (s : State) :
    (answer r f version status payload s).md = s.md := by
  unfold answer
  repeat' (first
    | (with_reducible refine md_ite (fun _ => ?_) (fun _ => ?_))
    | (with_reducible refine md_trans (respond_md _ _ _ _ _ _) ?_)
    | (with_reducible refine md_trans (foldl_md (fun s a => ?_) _ _) ?_)
    | (with_reducible refine foldl_md (fun s a => ?_) _ _)
    | (with_reducible exact md_refl _))

@[simp] theorem endRelay_md (status : Nat) (s : State) (x : Relay) :
    (endRelay status s x).md = s.md := by
  unfold endRelay
  repeat' (first
    | (with_reducible refine md_ite (fun _ => ?_) (fun _ => ?_))
    | (with_reducible refine md_trans (answer_md _ _ _ _ _ _) ?_)
    | (with_reducible refine md_trans (foldl_md (fun s a => ?_) _ _) ?_)
    | (with_reducible refine foldl_md (fun s a => ?_) _ _)
    | (with_reducible exact md_refl _))

@[simp] theorem settleRelays_md (s : State) :
    (settleRelays s).md = s.md := by
  unfold settleRelays
  repeat' (first
    | (with_reducible refine md_ite (fun _ => ?_) (fun _ => ?_))
    | (with_reducible refine md_trans (endRelay_md _ _ _) ?_)
    | (with_reducible refine md_trans (foldl_md (fun s a => ?_) _ _) ?_)
    | (with_reducible refine foldl_md (fun s a => ?_) _ _)
    | (with_reducible exact md_refl _))

@[simp] theorem settleStream_md (s : State) :
    (settleStream s).md = s.md := by
  unfold settleStream
  repeat' (first
    | (with_reducible refine md_ite (fun _ => ?_) (fun _ => ?_))
    | (with_reducible refine md_trans (foldl_md (fun s a => ?_) _ _) ?_)
    | (with_reducible refine foldl_md (fun s a => ?_) _ _)
    | (with_reducible exact md_refl _)
    | (with_reducible refine md_trans (forEach_md (fun s a => ?_) _ _) ?_)
    | dsimp only
    | split)

/-! ## The mode after settling -/

@[simp] theorem settleVouch_mode (s : State) : (settleVouch s).md.mode = s.md.mode := by
  unfold settleVouch
  dsimp only
  split
  · rfl
  · show (cutBeacon _).md.mode = _
    rw [cutBeacon_md]

theorem gated_mode (f : State → State) (s : State) : (gated f s).md.mode = (f s).md.mode := by
  unfold gated
  dsimp only
  split <;> rfl

/-- After a transition of R80 the mode is the one it goes to. -/
@[simp] theorem enterMode_mode (m : Mode) (s : State) : (enterMode m s).md.mode = m := by
  unfold enterMode
  split
  · assumption
  · rw [gated_mode, settleVouch_mode]
    rfl

/-- The mode follows the timebase, in the cycle after another transition where one fell in this one (R81). -/
@[simp] theorem settleMode_mode (s : State) : (settleMode s).md.mode = if moved s then s.md.mode else modeNow s := by
  unfold settleMode
  rw [gated_mode, settleVouch_mode]
  split <;> simp

/-- Outside FREERUN, TRACKING and HOLDOVER settling leaves the mode. -/
theorem modeNow_fixed (s : State) (h1 : s.md.mode ≠ .freerun) (h2 : s.md.mode ≠ .tracking) (h3 : s.md.mode ≠ .holdover) :
    modeNow s = s.md.mode := by
  unfold modeNow
  dsimp only
  split <;> simp_all

theorem settle_mode_fixed (s : State) (h1 : s.md.mode ≠ .freerun) (h2 : s.md.mode ≠ .tracking) (h3 : s.md.mode ≠ .holdover) :
    (settle s).md.mode = s.md.mode := by
  unfold settle
  split
  · rfl
  · split
    · simp only [settleEngine, settlePins_md, settleDeliveries_md, settleLevels_md, settleCommit_md, settleOuts_md, settleMode_mode]
      rw [modeNow_fixed] <;> simp [h1, h2, h3]
    · simp

/-- In STARTUP, STANDBY and SAFE what follows a command leaves the mode. -/
theorem finish_mode_fixed (s : State) (h1 : s.md.mode ≠ .freerun) (h2 : s.md.mode ≠ .tracking) (h3 : s.md.mode ≠ .holdover) :
    (finish s).md.mode = s.md.mode := by
  simp only [finish, settleRelays_md, noteTargets_md]
  rw [settle_mode_fixed] <;> simp [h1, h2, h3]

end Sys2Proof.Machine
end

