-- ==== Sys2Proof/Laws/Objects.lean ====
section
/-! SUPPORT. Which object an object number of each area names (R412): one lemma per family. -/

namespace Sys2Proof.Machine

variable {s : State} {n : Nat}

theorem object_ref (hb : s.md.bootRom = false) (h : n < 16) : objectAt s 16 n = some (objRef n) := by
  simp [objectAt, hb, objRf, h]

theorem object_lref (hb : s.md.bootRom = false) (h : n < 8) : objectAt s 16 (16 + n) = some (objLref n) := by
  simp only [objectAt, hb, objRf, Bool.false_eq_true, if_false]
  repeat (first | rw [if_pos (by omega), Nat.add_sub_cancel_left] | rw [if_neg (by omega)])

theorem object_cand (hb : s.md.bootRom = false) (h : n < 24) : objectAt s 16 (40 + n) = some (objCand n) := by
  simp only [objectAt, hb, objRf, Bool.false_eq_true, if_false]
  repeat (first | rw [if_pos (by omega), Nat.add_sub_cancel_left] | rw [if_neg (by omega)])

theorem object_sel (hb : s.md.bootRom = false) (h : n < 8) : objectAt s 16 (100 + n) = some (objSel n) := by
  simp only [objectAt, hb, objRf, Bool.false_eq_true, if_false]
  repeat (first | rw [if_pos (by omega), Nat.add_sub_cancel_left] | rw [if_neg (by omega)])

theorem object_dpll (hb : s.md.bootRom = false) (h : n < 8) : objectAt s 17 n = some (objDpll n) := by
  simp [objectAt, hb, objDp, h]

theorem object_chan (hb : s.md.bootRom = false) (h : n < 8) : objectAt s 17 (10 + n) = some (objChan n) := by
  simp only [objectAt, hb, objDp, Bool.false_eq_true, if_false]
  repeat (first | rw [if_pos (by omega), Nat.add_sub_cancel_left] | rw [if_neg (by omega)])

theorem object_ho (hb : s.md.bootRom = false) (h : n < 8) : objectAt s 18 (10 + n) = some (objHo n) := by
  simp only [objectAt, hb, objLn, Bool.false_eq_true, if_false]
  repeat (first | rw [if_pos (by omega), Nat.add_sub_cancel_left] | rw [if_neg (by omega)])

theorem object_core (hb : s.md.bootRom = false) (h : n < 4) : objectAt s 19 n = some (objCore n) := by
  simp [objectAt, hb, objSn, h]

theorem object_coreStatus (hb : s.md.bootRom = false) (h : n < 4) : objectAt s 19 (10 + n) = some (objCoreStatus n) := by
  simp only [objectAt, hb, objSn, Bool.false_eq_true, if_false]
  repeat (first | rw [if_pos (by omega), Nat.add_sub_cancel_left] | rw [if_neg (by omega)])

theorem object_out (hb : s.md.bootRom = false) (h : n < 32) : objectAt s 20 n = some (objOut n) := by
  simp [objectAt, hb, objOu, h]

theorem object_outStatus (hb : s.md.bootRom = false) (h : n < 32) : objectAt s 20 (40 + n) = some (objOutStatus n) := by
  simp only [objectAt, hb, objOu, Bool.false_eq_true, if_false]
  repeat (first | rw [if_pos (by omega), Nat.add_sub_cancel_left] | rw [if_neg (by omega)])

theorem object_timebase (hb : s.md.bootRom = false) (h : n < 4) : objectAt s 32 n = some (objTimebase n) := by
  simp [objectAt, hb, objTb, h]

theorem object_domain (hb : s.md.bootRom = false) (h : n < 8) : objectAt s 32 (10 + n) = some (objDomain n) := by
  simp only [objectAt, hb, objTb, Bool.false_eq_true, if_false]
  repeat (first | rw [if_pos (by omega), Nat.add_sub_cancel_left] | rw [if_neg (by omega)])

theorem object_utc (hb : s.md.bootRom = false) (h : n < 4) : objectAt s 32 (20 + n) = some (objUtc n) := by
  simp only [objectAt, hb, objTb, Bool.false_eq_true, if_false]
  repeat (first | rw [if_pos (by omega), Nat.add_sub_cancel_left] | rw [if_neg (by omega)])

theorem object_port (hb : s.md.bootRom = false) (h : n < 14) : objectAt s 33 n = some (objPort n) := by
  simp [objectAt, hb, objPt, h]

theorem object_tsi (hb : s.md.bootRom = false) (h : n < 64) : objectAt s 48 n = some (objTsi n) := by
  simp [objectAt, hb, objTs, h]

theorem object_tsiStatus (hb : s.md.bootRom = false) (h : n < 64) : objectAt s 48 (100 + n) = some (objTsiStatus n) := by
  simp only [objectAt, hb, objTs, Bool.false_eq_true, if_false]
  repeat (first | rw [if_pos (by omega), Nat.add_sub_cancel_left] | rw [if_neg (by omega)])

theorem object_tc (hb : s.md.bootRom = false) (h : n < 16) : objectAt s 49 n = some (objTcCfg n) := by
  simp [objectAt, hb, objTc, h]

theorem object_axis (hb : s.md.bootRom = false) (h : n < 8) : objectAt s 64 (10 + n) = some (objAxis n) := by
  simp only [objectAt, hb, objAx, Bool.false_eq_true, if_false]
  repeat (first | rw [if_pos (by omega), Nat.add_sub_cancel_left] | rw [if_neg (by omega)])

theorem object_axi (hb : s.md.bootRom = false) (h : n < 4) : objectAt s 64 (20 + n) = some (objAxi n) := by
  simp only [objectAt, hb, objAx, Bool.false_eq_true, if_false]
  repeat (first | rw [if_pos (by omega), Nat.add_sub_cancel_left] | rw [if_neg (by omega)])

theorem object_action (hb : s.md.bootRom = false) (h : n < 1024) : objectAt s 65 n = some (objAction n) := by
  simp [objectAt, hb, objSc, h]

theorem object_servo (hb : s.md.bootRom = false) (h : n < 48) : objectAt s 65 (2050 + n) = some (objServo n) := by
  simp only [objectAt, hb, objSc, Bool.false_eq_true, if_false]
  repeat (first | rw [if_pos (by omega), Nat.add_sub_cancel_left] | rw [if_neg (by omega)])

/-- The commands of timebase n (R242, R250, R275). -/
theorem object_tbCommands (hb : s.md.bootRom = false) (h : n < 4) : objectAt s 32 (50 + n) = some
    { els := [
      command 0 .u8 (fun v => restepCommand n v.toNat), command 1 .u8 (fun v => clearDiscCommand n v.toNat),
      command 2 .time80 (fun v => writeLabel n (decodeTime80 v))] } := by
  simp only [objectAt, hb, objTb, Bool.false_eq_true, if_false]
  repeat (first | rw [if_pos (by omega), Nat.add_sub_cancel_left] | rw [if_neg (by omega)])

end Sys2Proof.Machine
end

