-- ==== Sys2Proof/Laws/Stays.lean ====
section
/-! SUPPORT. Which operations leave the mode and the supply alone. -/

namespace Sys2Proof.Machine

theorem stays_trans {s t u : State}
    (h1 : u.md.mode = t.md.mode ∧ u.pwr.supply = t.pwr.supply)
    (h2 : t.md.mode = s.md.mode ∧ t.pwr.supply = s.pwr.supply) :
    u.md.mode = s.md.mode ∧ u.pwr.supply = s.pwr.supply :=
  ⟨h1.1.trans h2.1, h1.2.trans h2.2⟩
theorem foldl_stays {α : Type} {f : State → α → State}
    (h : ∀ s a, (f s a).md.mode = s.md.mode ∧ (f s a).pwr.supply = s.pwr.supply)
    (l : List α) (s : State) :
    (l.foldl f s).md.mode = s.md.mode ∧ (l.foldl f s).pwr.supply = s.pwr.supply := by
  induction l generalizing s with
  | nil => exact ⟨rfl, rfl⟩
  | cons a l ih => exact stays_trans (ih (f s a)) (h s a)
@[simp] theorem ite_mode (c : Prop) [Decidable c] (a b : State) : (if c then a else b).md.mode = if c then a.md.mode else b.md.mode := apply_ite (fun s : State => s.md.mode) c a b
@[simp] theorem ite_pw (c : Prop) [Decidable c] (a b : State) : (if c then a else b).pwr.supply = if c then a.pwr.supply else b.pwr.supply := apply_ite (fun s : State => s.pwr.supply) c a b
theorem stays_ite {c : Prop} [Decidable c] {s a b : State}
    (h1 : c → a.md.mode = s.md.mode ∧ a.pwr.supply = s.pwr.supply)
    (h2 : ¬ c → b.md.mode = s.md.mode ∧ b.pwr.supply = s.pwr.supply) :
    (if c then a else b).md.mode = s.md.mode
      ∧ (if c then a else b).pwr.supply = s.pwr.supply := by
  split
  · exact h1 ‹_›
  · exact h2 ‹_›
theorem stays_refl (s : State) : s.md.mode = s.md.mode ∧ s.pwr.supply = s.pwr.supply := ⟨rfl, rfl⟩
theorem foldl_fst_stays {α β : Type} {f : State × β → α → State × β}
    (h : ∀ x a, (f x a).1.md.mode = x.1.md.mode ∧ (f x a).1.pwr.supply = x.1.pwr.supply)
    (l : List α) (x : State × β) : (l.foldl f x).1.md.mode = x.1.md.mode ∧ (l.foldl f x).1.pwr.supply = x.1.pwr.supply := by
  induction l generalizing x with
  | nil => exact ⟨rfl, rfl⟩
  | cons a l ih => exact stays_trans (ih (f x a)) (h x a)

@[simp] theorem advance_stays (dt : Nat) (s : State) :
    (advance dt s).md.mode = s.md.mode ∧ (advance dt s).pwr.supply = s.pwr.supply := by
  simp [advance]

@[simp] theorem raise_stays (n : Nat) (s : State) :
    (raise n s).md.mode = s.md.mode ∧ (raise n s).pwr.supply = s.pwr.supply := by
  exact ⟨rfl, rfl⟩

@[simp] theorem raiseIf_stays (b : Bool) (n : Nat) (s : State) :
    (raiseIf b n s).md.mode = s.md.mode ∧ (raiseIf b n s).pwr.supply = s.pwr.supply := by
  simp [raiseIf]

@[simp] theorem level_stays (n : Nat) (b : Bool) (s : State) :
    (level n b s).md.mode = s.md.mode ∧ (level n b s).pwr.supply = s.pwr.supply := by
  exact ⟨rfl, rfl⟩

@[simp] theorem State_setTrg_stays (s : State) (n : Nat) (f : Trg → Trg) :
    (State.setTrg s n f).md.mode = s.md.mode ∧ (State.setTrg s n f).pwr.supply = s.pwr.supply := by
  exact ⟨rfl, rfl⟩

@[simp] theorem riseTrg_stays (s : State) (n : Nat) (pass : Trg → Trg) (hold : Trg → Trg) :
    (riseTrg s n pass hold).md.mode = s.md.mode ∧ (riseTrg s n pass hold).pwr.supply = s.pwr.supply := by
  simp [riseTrg]

@[simp] theorem firePulse_stays (n : Nat) (width : Nat) (s : State) :
    (firePulse n width s).md.mode = s.md.mode ∧ (firePulse n width s).pwr.supply = s.pwr.supply := by
  simp [firePulse]

@[simp] theorem fireSet_stays (n : Nat) (s : State) :
    (fireSet n s).md.mode = s.md.mode ∧ (fireSet n s).pwr.supply = s.pwr.supply := by
  simp [fireSet]

@[simp] theorem fireClear_stays (n : Nat) (s : State) :
    (fireClear n s).md.mode = s.md.mode ∧ (fireClear n s).pwr.supply = s.pwr.supply := by
  exact ⟨rfl, rfl⟩

@[simp] theorem stopTriggers_stays (s : State) :
    (stopTriggers s).md.mode = s.md.mode ∧ (stopTriggers s).pwr.supply = s.pwr.supply := by
  exact ⟨rfl, rfl⟩

@[simp] theorem State_setWin_stays (s : State) (n : Nat) (f : Win → Win) :
    (State.setWin s n f).md.mode = s.md.mode ∧ (State.setWin s n f).pwr.supply = s.pwr.supply := by
  exact ⟨rfl, rfl⟩

@[simp] theorem closeWindows_stays (s : State) :
    (closeWindows s).md.mode = s.md.mode ∧ (closeWindows s).pwr.supply = s.pwr.supply := by
  exact ⟨rfl, rfl⟩

@[simp] theorem State_setAct_stays (s : State) (a : Nat) (f : Act → Act) :
    (State.setAct s a f).md.mode = s.md.mode ∧ (State.setAct s a f).pwr.supply = s.pwr.supply := by
  exact ⟨rfl, rfl⟩

@[simp] theorem statusEvent_stays (a : Nat) (s : State) :
    (statusEvent a s).md.mode = s.md.mode ∧ (statusEvent a s).pwr.supply = s.pwr.supply := by
  exact ⟨rfl, rfl⟩

@[simp] theorem endAction_stays (a : Nat) (st : ActState) (s : State) :
    (endAction a st s).md.mode = s.md.mode ∧ (endAction a st s).pwr.supply = s.pwr.supply := by
  exact ⟨rfl, rfl⟩

@[simp] theorem skipAction_stays (a : Nat) (d : Int) (lam : Rat) (s : State) :
    (skipAction a d lam s).md.mode = s.md.mode ∧ (skipAction a d lam s).pwr.supply = s.pwr.supply := by
  simp [skipAction]

@[simp] theorem applyPolicy_stays (a : Nat) (ns : Nat) (afterLate : Bool) (s : State) :
    (applyPolicy a ns afterLate s).md.mode = s.md.mode ∧ (applyPolicy a ns afterLate s).pwr.supply = s.pwr.supply := by
  simp [applyPolicy]

@[simp] theorem noteSign_stays (a : Nat) (s : State) :
    (noteSign a s).md.mode = s.md.mode ∧ (noteSign a s).pwr.supply = s.pwr.supply := by
  exact ⟨rfl, rfl⟩

@[simp] theorem fireNext_stays (a : Nat) (s : State) :
    (fireNext a s).md.mode = s.md.mode ∧ (fireNext a s).pwr.supply = s.pwr.supply := by
  unfold fireNext
  repeat' (first
    | (with_reducible refine stays_ite (fun _ => ?_) (fun _ => ?_))
    | (with_reducible refine stays_trans (State_setAct_stays _ _ _) ?_)
    | (with_reducible refine stays_trans (foldl_stays (fun s a => ?_) _ _) ?_)
    | (with_reducible refine foldl_stays (fun s a => ?_) _ _)
    | (with_reducible exact stays_refl _))

@[simp] theorem reevaluate_stays (a : Nat) (s : State) :
    (reevaluate a s).md.mode = s.md.mode ∧ (reevaluate a s).pwr.supply = s.pwr.supply := by
  simp [reevaluate]

theorem armAction_stays (a : Nat) (s : State) :
    (armAction a s).2.md.mode = s.md.mode ∧ (armAction a s).2.pwr.supply = s.pwr.supply := by
  unfold armAction
  dsimp only
  split
  · exact ⟨rfl, rfl⟩
  · split
    · exact ⟨rfl, rfl⟩
    · split
      · exact ⟨rfl, rfl⟩
      · exact stays_trans (noteSign_stays _ _) (stays_trans (applyPolicy_stays _ _ _ _) ⟨rfl, rfl⟩)

@[simp] theorem disarmAction_stays (a : Nat) (s : State) :
    (disarmAction a s).md.mode = s.md.mode ∧ (disarmAction a s).pwr.supply = s.pwr.supply := by
  exact ⟨rfl, rfl⟩

@[simp] theorem actionEffect_stays (a : Nat) (late : Bool) (s : State) :
    (actionEffect a late s).md.mode = s.md.mode ∧ (actionEffect a late s).pwr.supply = s.pwr.supply := by
  simp [actionEffect]

@[simp] theorem servoMiss_stays (k : Nat) (s : State) :
    (servoMiss k s).md.mode = s.md.mode ∧ (servoMiss k s).pwr.supply = s.pwr.supply := by
  exact ⟨rfl, rfl⟩

@[simp] theorem openFrame_stays (a : Nat) (target : BitVec 64) (s : State) :
    (openFrame a target s).md.mode = s.md.mode ∧ (openFrame a target s).pwr.supply = s.pwr.supply := by
  unfold openFrame
  repeat' (first
    | with_reducible exact ⟨rfl, rfl⟩
    | (with_reducible refine stays_ite (fun _ => ?_) (fun _ => ?_))
    | (with_reducible refine stays_trans (servoMiss_stays _ _) ?_)
    | (with_reducible refine stays_trans (foldl_stays (fun s a => ?_) _ _) ?_)
    | (with_reducible refine foldl_stays (fun s a => ?_) _ _)
    | dsimp only
    | split)

@[simp] theorem moveOn_stays (a : Nat) (wasLate : Bool) (s : State) :
    (moveOn a wasLate s).md.mode = s.md.mode ∧ (moveOn a wasLate s).pwr.supply = s.pwr.supply := by
  simp [moveOn]

@[simp] theorem fireAction_stays (a : Nat) (overrun : Bool) (s : State) :
    (fireAction a overrun s).md.mode = s.md.mode ∧ (fireAction a overrun s).pwr.supply = s.pwr.supply := by
  unfold fireAction
  repeat' (first
    | with_reducible exact ⟨rfl, rfl⟩
    | (with_reducible refine stays_ite (fun _ => ?_) (fun _ => ?_))
    | (with_reducible refine stays_trans (actionEffect_stays _ _ _) ?_)
    | (with_reducible refine stays_trans (State_setAct_stays _ _ _) ?_)
    | (with_reducible refine stays_trans (moveOn_stays _ _ _) ?_)
    | (with_reducible refine stays_trans (openFrame_stays _ _ _) ?_)
    | (with_reducible refine stays_trans (raiseIf_stays _ _ _) ?_))

@[simp] theorem fireList_stays (l : List Nat) (s : State) :
    (fireList l s).md.mode = s.md.mode ∧ (fireList l s).pwr.supply = s.pwr.supply := by
  unfold fireList
  repeat' (first
    | with_reducible exact ⟨rfl, rfl⟩
    | (with_reducible refine stays_ite (fun _ => ?_) (fun _ => ?_))
    | (with_reducible refine stays_trans (fireAction_stays _ _ _) ?_)
    | (with_reducible refine stays_trans (foldl_stays (fun s a => ?_) _ _) ?_))

@[simp] theorem delayList_stays (l : List Nat) (s : State) :
    (delayList l s).md.mode = s.md.mode ∧ (delayList l s).pwr.supply = s.pwr.supply := by
  unfold delayList
  repeat' (first
    | (with_reducible refine stays_ite (fun _ => ?_) (fun _ => ?_))
    | (with_reducible refine stays_trans (raise_stays _ _) ?_)
    | (with_reducible refine stays_trans (State_setAct_stays _ _ _) ?_)
    | (with_reducible refine stays_trans (foldl_stays (fun s a => ?_) _ _) ?_)
    | (with_reducible refine foldl_stays (fun s a => ?_) _ _)
    | (with_reducible exact stays_refl _))

@[simp] theorem suspendAxis_stays (axis : Nat) (s : State) :
    (suspendAxis axis s).md.mode = s.md.mode ∧ (suspendAxis axis s).pwr.supply = s.pwr.supply := by
  unfold suspendAxis
  refine foldl_stays (fun _ _ => ?_) _ _
  first
    | with_reducible exact ⟨rfl, rfl⟩

@[simp] theorem resumeAxis_stays (axis : Nat) (s : State) :
    (resumeAxis axis s).md.mode = s.md.mode ∧ (resumeAxis axis s).pwr.supply = s.pwr.supply := by
  unfold resumeAxis
  refine foldl_stays (fun _ _ => ?_) _ _
  first
    | with_reducible exact ⟨rfl, rfl⟩
    | simp

@[simp] theorem setAxisState_stays (a : Nat) (st : AxisState) (s : State) :
    (setAxisState a st s).md.mode = s.md.mode ∧ (setAxisState a st s).pwr.supply = s.pwr.supply := by
  simp [setAxisState]

@[simp] theorem rebaseAxis_stays (axis : Nat) (delta : BitVec 64) (s : State) :
    (rebaseAxis axis delta s).md.mode = s.md.mode ∧ (rebaseAxis axis delta s).pwr.supply = s.pwr.supply := by
  unfold rebaseAxis
  repeat' (first
    | with_reducible exact ⟨rfl, rfl⟩
    | (with_reducible refine stays_ite (fun _ => ?_) (fun _ => ?_))
    | (with_reducible refine stays_trans (raise_stays _ _) ?_)
    | (with_reducible refine stays_trans (State_setAct_stays _ _ _) ?_)
    | (with_reducible refine stays_trans (reevaluate_stays _ _) ?_)
    | (with_reducible refine stays_trans (foldl_stays (fun s a => ?_) _ _) ?_))

@[simp] theorem fenceCalendar_stays (s : State) :
    (fenceCalendar s).md.mode = s.md.mode ∧ (fenceCalendar s).pwr.supply = s.pwr.supply := by
  unfold fenceCalendar
  repeat' (first
    | (with_reducible refine stays_ite (fun _ => ?_) (fun _ => ?_))
    | (with_reducible refine stays_trans (closeWindows_stays _) ?_)
    | (with_reducible refine stays_trans (stopTriggers_stays _) ?_)
    | (with_reducible refine stays_trans (statusEvent_stays _ _) ?_)
    | (with_reducible refine stays_trans (foldl_stays (fun s a => ?_) _ _) ?_)
    | (with_reducible refine foldl_stays (fun s a => ?_) _ _)
    | (with_reducible exact stays_refl _))

@[simp] theorem State_setServo_stays (s : State) (k : Nat) (f : Servo → Servo) :
    (State.setServo s k f).md.mode = s.md.mode ∧ (State.setServo s k f).pwr.supply = s.pwr.supply := by
  exact ⟨rfl, rfl⟩

@[simp] theorem setLead_stays (k : Nat) (l : Nat) (s : State) :
    (setLead k l s).md.mode = s.md.mode ∧ (setLead k l s).pwr.supply = s.pwr.supply := by
  exact ⟨rfl, rfl⟩

@[simp] theorem enableServo_stays (k : Nat) (v : Nat) (s : State) :
    (enableServo k v s).md.mode = s.md.mode ∧ (enableServo k v s).pwr.supply = s.pwr.supply := by
  simp [enableServo]

@[simp] theorem completeFrame_stays (k : Nat) (a : Rat) (f : Rat) (target : Rat) (s : State) :
    (completeFrame k a f target s).md.mode = s.md.mode ∧ (completeFrame k a f target s).pwr.supply = s.pwr.supply := by
  simp [completeFrame]

@[simp] theorem completeFrames_stays (k : Nat) (s : State) :
    (completeFrames k s).md.mode = s.md.mode ∧ (completeFrames k s).pwr.supply = s.pwr.supply := by
  unfold completeFrames
  repeat' (first
    | (with_reducible refine stays_ite (fun _ => ?_) (fun _ => ?_))
    | (with_reducible refine stays_trans (completeFrame_stays _ _ _ _ _) ?_)
    | (with_reducible refine stays_trans (State_setServo_stays _ _ _) ?_)
    | (with_reducible refine stays_trans (foldl_stays (fun s a => ?_) _ _) ?_)
    | (with_reducible refine foldl_stays (fun s a => ?_) _ _)
    | (with_reducible exact stays_refl _))

@[simp] theorem exposingEdge_stays (k : Nat) (t : Rat) (s : State) :
    (exposingEdge k t s).md.mode = s.md.mode ∧ (exposingEdge k t s).pwr.supply = s.pwr.supply := by
  unfold exposingEdge
  repeat' (first
    | with_reducible exact ⟨rfl, rfl⟩
    | (with_reducible refine stays_ite (fun _ => ?_) (fun _ => ?_)))

@[simp] theorem closingEdge_stays (k : Nat) (t : Rat) (s : State) :
    (closingEdge k t s).md.mode = s.md.mode ∧ (closingEdge k t s).pwr.supply = s.pwr.supply := by
  unfold closingEdge
  try dsimp only
  (repeat' split) <;> first
    | with_reducible exact ⟨rfl, rfl⟩
    | simp

@[simp] theorem strobeEdge_stays (n : Nat) (falling : Bool) (t : Rat) (s : State) :
    (strobeEdge n falling t s).md.mode = s.md.mode ∧ (strobeEdge n falling t s).pwr.supply = s.pwr.supply := by
  unfold strobeEdge
  repeat' (first
    | with_reducible exact ⟨rfl, rfl⟩
    | (with_reducible refine stays_ite (fun _ => ?_) (fun _ => ?_))
    | (with_reducible refine stays_trans (exposingEdge_stays _ _ _) ?_)
    | (with_reducible refine stays_trans (closingEdge_stays _ _ _) ?_)
    | (with_reducible refine stays_trans (foldl_stays (fun s a => ?_) _ _) ?_))

@[simp] theorem strobeExpiry_stays (k : Nat) (s : State) :
    (strobeExpiry k s).md.mode = s.md.mode ∧ (strobeExpiry k s).pwr.supply = s.pwr.supply := by
  unfold strobeExpiry
  repeat' (first
    | (with_reducible refine stays_ite (fun _ => ?_) (fun _ => ?_))
    | (with_reducible refine stays_trans (servoMiss_stays _ _) ?_)
    | (with_reducible refine stays_trans (State_setServo_stays _ _ _) ?_)
    | (with_reducible refine stays_trans (foldl_stays (fun s a => ?_) _ _) ?_)
    | (with_reducible refine foldl_stays (fun s a => ?_) _ _)
    | (with_reducible exact stays_refl _))

@[simp] theorem noteTarget_stays (back : Bool) (s : State) (k : Nat) :
    (noteTarget back s k).md.mode = s.md.mode ∧ (noteTarget back s k).pwr.supply = s.pwr.supply := by
  unfold noteTarget
  try dsimp only
  (repeat' split) <;> first
    | with_reducible exact ⟨rfl, rfl⟩
    | simp

@[simp] theorem noteTargets_stays (back : Bool) (s : State) :
    (noteTargets back s).md.mode = s.md.mode ∧ (noteTargets back s).pwr.supply = s.pwr.supply := by
  unfold noteTargets
  refine foldl_stays (fun _ _ => ?_) _ _
  first
    | with_reducible exact ⟨rfl, rfl⟩
    | simp

@[simp] theorem State_setTsi_stays (s : State) (n : Nat) (f : Tsi → Tsi) :
    (State.setTsi s n f).md.mode = s.md.mode ∧ (State.setTsi s n f).pwr.supply = s.pwr.supply := by
  exact ⟨rfl, rfl⟩

@[simp] theorem State_setTc_stays (s : State) (k : Nat) (f : Tc → Tc) :
    (State.setTc s k f).md.mode = s.md.mode ∧ (State.setTc s k f).pwr.supply = s.pwr.supply := by
  exact ⟨rfl, rfl⟩

@[simp] theorem State_setRun_stays (s : State) (k : Nat) (v : Nat) :
    (State.setRun s k v).md.mode = s.md.mode ∧ (State.setRun s k v).pwr.supply = s.pwr.supply := by
  exact ⟨rfl, rfl⟩

@[simp] theorem publish_stays (k : Nat) (t : Rat) (interrupted : Bool) (s : State) :
    (publish k t interrupted s).md.mode = s.md.mode ∧ (publish k t interrupted s).pwr.supply = s.pwr.supply := by
  exact ⟨rfl, rfl⟩

@[simp] theorem nextGate_stays (k : Nat) (t : Rat) (s : State) :
    (nextGate k t s).md.mode = s.md.mode ∧ (nextGate k t s).pwr.supply = s.pwr.supply := by
  exact ⟨rfl, rfl⟩

@[simp] theorem stopTc_stays (k : Nat) (st : Nat) (s : State) :
    (stopTc k st s).md.mode = s.md.mode ∧ (stopTc k st s).pwr.supply = s.pwr.supply := by
  exact ⟨rfl, rfl⟩

@[simp] theorem gateEnd_stays (k : Nat) (s : State) :
    (gateEnd k s).md.mode = s.md.mode ∧ (gateEnd k s).pwr.supply = s.pwr.supply := by
  unfold gateEnd
  repeat' (first
    | with_reducible exact ⟨rfl, rfl⟩
    | (with_reducible refine stays_ite (fun _ => ?_) (fun _ => ?_))
    | (with_reducible refine stays_trans (publish_stays _ _ _ _) ?_)
    | (with_reducible refine stays_trans (stopTc_stays _ _ _) ?_)
    | (with_reducible refine stays_trans (nextGate_stays _ _ _) ?_)
    | (with_reducible refine stays_trans (foldl_stays (fun s a => ?_) _ _) ?_)
    | (with_reducible refine foldl_stays (fun s a => ?_) _ _)
    | dsimp only
    | split)

@[simp] theorem cutGate_stays (k : Nat) (s : State) :
    (cutGate k s).md.mode = s.md.mode ∧ (cutGate k s).pwr.supply = s.pwr.supply := by
  simp [cutGate]

@[simp] theorem interruptInput_stays (n : Nat) (s : State) :
    (interruptInput n s).md.mode = s.md.mode ∧ (interruptInput n s).pwr.supply = s.pwr.supply := by
  unfold interruptInput
  refine foldl_stays (fun _ _ => ?_) _ _
  first
    | with_reducible exact ⟨rfl, rfl⟩
    | simp

@[simp] theorem fenceTc_stays (k : Nat) (s : State) :
    (fenceTc k s).md.mode = s.md.mode ∧ (fenceTc k s).pwr.supply = s.pwr.supply := by
  simp [fenceTc]

@[simp] theorem sleepTcs_stays (s : State) :
    (sleepTcs s).md.mode = s.md.mode ∧ (sleepTcs s).pwr.supply = s.pwr.supply := by
  unfold sleepTcs
  repeat' (first
    | (with_reducible refine stays_ite (fun _ => ?_) (fun _ => ?_))
    | (with_reducible refine stays_trans (cutGate_stays _ _) ?_)
    | (with_reducible refine stays_trans (stopTc_stays _ _ _) ?_)
    | (with_reducible refine stays_trans (State_setTc_stays _ _ _) ?_)
    | (with_reducible refine stays_trans (foldl_stays (fun s a => ?_) _ _) ?_)
    | (with_reducible refine foldl_stays (fun s a => ?_) _ _)
    | (with_reducible exact stays_refl _))

@[simp] theorem wakeTcs_stays (s : State) :
    (wakeTcs s).md.mode = s.md.mode ∧ (wakeTcs s).pwr.supply = s.pwr.supply := by
  exact ⟨rfl, rfl⟩

@[simp] theorem writeRun_stays (k : Nat) (v : Nat) (s : State) :
    (writeRun k v s).md.mode = s.md.mode ∧ (writeRun k v s).pwr.supply = s.pwr.supply := by
  simp [writeRun]

@[simp] theorem loadTcs_stays (s : State) :
    (loadTcs s).md.mode = s.md.mode ∧ (loadTcs s).pwr.supply = s.pwr.supply := by
  unfold loadTcs
  repeat' (first
    | (with_reducible refine stays_ite (fun _ => ?_) (fun _ => ?_))
    | (with_reducible refine stays_trans (writeRun_stays _ _ _) ?_)
    | (with_reducible refine stays_trans (stopTc_stays _ _ _) ?_)
    | (with_reducible refine stays_trans (foldl_stays (fun s a => ?_) _ _) ?_)
    | (with_reducible refine foldl_stays (fun s a => ?_) _ _)
    | (with_reducible exact stays_refl _))

@[simp] theorem evaluateEdge_stays (k : Nat) (s : State) :
    (evaluateEdge k s).md.mode = s.md.mode ∧ (evaluateEdge k s).pwr.supply = s.pwr.supply := by
  unfold evaluateEdge
  repeat' (first
    | with_reducible exact ⟨rfl, rfl⟩
    | (with_reducible refine stays_ite (fun _ => ?_) (fun _ => ?_))
    | (with_reducible refine stays_trans (State_setTc_stays _ _ _) ?_)
    | (with_reducible refine stays_trans (foldl_stays (fun s a => ?_) _ _) ?_)
    | (with_reducible refine foldl_stays (fun s a => ?_) _ _)
    | dsimp only
    | split)

@[simp] theorem stopExpiry_stays (k : Nat) (s : State) :
    (stopExpiry k s).md.mode = s.md.mode ∧ (stopExpiry k s).pwr.supply = s.pwr.supply := by
  unfold stopExpiry
  repeat' (first
    | with_reducible exact ⟨rfl, rfl⟩
    | (with_reducible refine stays_ite (fun _ => ?_) (fun _ => ?_))
    | (with_reducible refine stays_trans (State_setTc_stays _ _ _) ?_)
    | (with_reducible refine stays_trans (foldl_stays (fun s a => ?_) _ _) ?_)
    | (with_reducible refine foldl_stays (fun s a => ?_) _ _)
    | dsimp only
    | split)

@[simp] theorem stampToTcs_stays (n : Nat) (falling : Bool) (t : Rat) (s : State) :
    (stampToTcs n falling t s).md.mode = s.md.mode ∧ (stampToTcs n falling t s).pwr.supply = s.pwr.supply := by
  exact ⟨rfl, rfl⟩

@[simp] theorem recordStamp_stays (n : Nat) (falling : Bool) (t : Rat) (s : State) :
    (recordStamp n falling t s).md.mode = s.md.mode ∧ (recordStamp n falling t s).pwr.supply = s.pwr.supply := by
  simp [recordStamp]

@[simp] theorem captureFilters_stays (n : Nat) (falling : Bool) (t : Rat) (s : State) :
    (captureFilters n falling t s).md.mode = s.md.mode ∧ (captureFilters n falling t s).pwr.supply = s.pwr.supply := by
  simp [captureFilters]

@[simp] theorem stampEdge_stays (n : Nat) (falling : Bool) (t : Rat) (s : State) :
    (stampEdge n falling t s).md.mode = s.md.mode ∧ (stampEdge n falling t s).pwr.supply = s.pwr.supply := by
  unfold stampEdge
  repeat' (first
    | with_reducible exact ⟨rfl, rfl⟩
    | (with_reducible refine stays_ite (fun _ => ?_) (fun _ => ?_))
    | (with_reducible refine stays_trans (State_setTsi_stays _ _ _) ?_)
    | (with_reducible refine stays_trans (strobeEdge_stays _ _ _ _) ?_)
    | (with_reducible refine stays_trans (stampToTcs_stays _ _ _ _) ?_)
    | (with_reducible refine stays_trans (captureFilters_stays _ _ _ _) ?_))

@[simp] theorem tsiEdge_stays (n : Nat) (falling : Bool) (pin : Rat) (short : Bool) (s : State) :
    (tsiEdge n falling pin short s).md.mode = s.md.mode ∧ (tsiEdge n falling pin short s).pwr.supply = s.pwr.supply := by
  unfold tsiEdge
  repeat' (first
    | with_reducible exact ⟨rfl, rfl⟩
    | (with_reducible refine stays_ite (fun _ => ?_) (fun _ => ?_))
    | (with_reducible refine stays_trans (stampEdge_stays _ _ _ _) ?_))

@[simp] theorem tdcCalibrated_stays (n : Nat) (s : State) :
    (tdcCalibrated n s).md.mode = s.md.mode ∧ (tdcCalibrated n s).pwr.supply = s.pwr.supply := by
  exact ⟨rfl, rfl⟩

@[simp] theorem tdcRestart_stays (s : State) :
    (tdcRestart s).md.mode = s.md.mode ∧ (tdcRestart s).pwr.supply = s.pwr.supply := by
  exact ⟨rfl, rfl⟩

@[simp] theorem enableTsi_stays (n : Nat) (v : Nat) (s : State) :
    (enableTsi n v s).md.mode = s.md.mode ∧ (enableTsi n v s).pwr.supply = s.pwr.supply := by
  simp [enableTsi]

@[simp] theorem fenceTsi_stays (n : Nat) (s : State) :
    (fenceTsi n s).md.mode = s.md.mode ∧ (fenceTsi n s).pwr.supply = s.pwr.supply := by
  unfold fenceTsi
  refine foldl_stays (fun _ _ => ?_) _ _
  first
    | with_reducible exact ⟨rfl, rfl⟩
    | simp

@[simp] theorem staleRecord_stays (n : Nat) (s : State) :
    (staleRecord n s).md.mode = s.md.mode ∧ (staleRecord n s).pwr.supply = s.pwr.supply := by
  simp [staleRecord]

@[simp] theorem ringSlot_stays (s : State) :
    (ringSlot s).md.mode = s.md.mode ∧ (ringSlot s).pwr.supply = s.pwr.supply := by
  simp [ringSlot]

@[simp] theorem anchorPeriodic_stays (k : Nat) (s : State) :
    (anchorPeriodic k s).md.mode = s.md.mode ∧ (anchorPeriodic k s).pwr.supply = s.pwr.supply := by
  simp [anchorPeriodic]

@[simp] theorem State_setAxis_stays (s : State) (a : Nat) (f : Axis → Axis) :
    (State.setAxis s a f).md.mode = s.md.mode ∧ (State.setAxis s a f).pwr.supply = s.pwr.supply := by
  exact ⟨rfl, rfl⟩

@[simp] theorem illegalEdge_stays (a : Nat) (s : State) :
    (illegalEdge a s).md.mode = s.md.mode ∧ (illegalEdge a s).pwr.supply = s.pwr.supply := by
  simp [illegalEdge]

@[simp] theorem countEdge_stays (k : Nat) (aChanged : Bool) (bChanged : Bool) (a : Bool) (b : Bool) (s : State) :
    (countEdge k aChanged bChanged a b s).md.mode = s.md.mode ∧ (countEdge k aChanged bChanged a b s).pwr.supply = s.pwr.supply := by
  unfold countEdge
  try dsimp only
  (repeat' split) <;> first
    | with_reducible exact ⟨rfl, rfl⟩
    | simp

@[simp] theorem indexEdge_stays (k : Nat) (s : State) :
    (indexEdge k s).md.mode = s.md.mode ∧ (indexEdge k s).pwr.supply = s.pwr.supply := by
  unfold indexEdge
  try dsimp only
  (repeat' split) <;> first
    | with_reducible exact ⟨rfl, rfl⟩
    | simp

@[simp] theorem axisStall_stays (k : Nat) (s : State) :
    (axisStall k s).md.mode = s.md.mode ∧ (axisStall k s).pwr.supply = s.pwr.supply := by
  simp [axisStall]

@[simp] theorem writeKind_stays (k : Nat) (v : Nat) (s : State) :
    (writeKind k v s).md.mode = s.md.mode ∧ (writeKind k v s).pwr.supply = s.pwr.supply := by
  simp [writeKind]

@[simp] theorem fenceAxis_stays (a : Nat) (s : State) :
    (fenceAxis a s).md.mode = s.md.mode ∧ (fenceAxis a s).pwr.supply = s.pwr.supply := by
  simp [fenceAxis]

@[simp] theorem loadAxes_stays (s : State) :
    (loadAxes s).md.mode = s.md.mode ∧ (loadAxes s).pwr.supply = s.pwr.supply := by
  unfold loadAxes
  repeat' (first
    | (with_reducible refine stays_ite (fun _ => ?_) (fun _ => ?_))
    | (with_reducible refine stays_trans (writeKind_stays _ _ _) ?_)
    | (with_reducible refine stays_trans (foldl_stays (fun s a => ?_) _ _) ?_)
    | (with_reducible refine foldl_stays (fun s a => ?_) _ _)
    | (with_reducible exact stays_refl _))

@[simp] theorem wakeAxes_stays (s : State) :
    (wakeAxes s).md.mode = s.md.mode ∧ (wakeAxes s).pwr.supply = s.pwr.supply := by
  unfold wakeAxes
  repeat' (first
    | (with_reducible refine stays_ite (fun _ => ?_) (fun _ => ?_))
    | (with_reducible refine stays_trans (setAxisState_stays _ _ _) ?_)
    | (with_reducible refine stays_trans (State_setAxis_stays _ _ _) ?_)
    | (with_reducible refine stays_trans (foldl_stays (fun s a => ?_) _ _) ?_)
    | (with_reducible refine foldl_stays (fun s a => ?_) _ _)
    | (with_reducible exact stays_refl _))

@[simp] theorem sleepCalendar_stays (s : State) :
    (sleepCalendar s).md.mode = s.md.mode ∧ (sleepCalendar s).pwr.supply = s.pwr.supply := by
  exact ⟨rfl, rfl⟩

@[simp] theorem wakeCalendar_stays (s : State) :
    (wakeCalendar s).md.mode = s.md.mode ∧ (wakeCalendar s).pwr.supply = s.pwr.supply := by
  unfold wakeCalendar
  repeat' (first
    | (with_reducible refine stays_ite (fun _ => ?_) (fun _ => ?_))
    | (with_reducible refine stays_trans (wakeAxes_stays _) ?_)
    | (with_reducible refine stays_trans (reevaluate_stays _ _) ?_)
    | (with_reducible refine stays_trans (foldl_stays (fun s a => ?_) _ _) ?_)
    | (with_reducible refine foldl_stays (fun s a => ?_) _ _)
    | (with_reducible exact stays_refl _))

@[simp] theorem fireDue_stays (s : State) :
    (fireDue s).md.mode = s.md.mode ∧ (fireDue s).pwr.supply = s.pwr.supply := by
  unfold fireDue
  repeat' (first
    | (with_reducible refine stays_ite (fun _ => ?_) (fun _ => ?_))
    | (with_reducible refine stays_trans (delayList_stays _ _) ?_)
    | (with_reducible refine stays_trans (fireList_stays _ _) ?_)
    | (with_reducible refine stays_trans (foldl_stays (fun s a => ?_) _ _) ?_)
    | (with_reducible refine foldl_stays (fun s a => ?_) _ _)
    | (with_reducible exact stays_refl _))

@[simp] theorem fireDelayed_stays (s : State) :
    (fireDelayed s).md.mode = s.md.mode ∧ (fireDelayed s).pwr.supply = s.pwr.supply := by
  unfold fireDelayed
  repeat' (first
    | (with_reducible refine stays_ite (fun _ => ?_) (fun _ => ?_))
    | (with_reducible refine stays_trans (fireList_stays _ _) ?_)
    | (with_reducible refine stays_trans (foldl_stays (fun s a => ?_) _ _) ?_)
    | (with_reducible refine foldl_stays (fun s a => ?_) _ _)
    | (with_reducible exact stays_refl _))

@[simp] theorem armEffect_stays (a : Nat) (s : State) :
    (armEffect a s).md.mode = s.md.mode ∧ (armEffect a s).pwr.supply = s.pwr.supply := by
  unfold armEffect
  repeat' (first
    | (with_reducible refine stays_ite (fun _ => ?_) (fun _ => ?_))
    | (with_reducible refine stays_trans (State_setAct_stays _ _ _) ?_)
    | (with_reducible refine stays_trans (noteSign_stays _ _) ?_)
    | (with_reducible refine stays_trans (delayList_stays _ _) ?_)
    | (with_reducible refine stays_trans (fireList_stays _ _) ?_)
    | (with_reducible refine stays_trans (foldl_stays (fun s a => ?_) _ _) ?_)
    | (with_reducible refine foldl_stays (fun s a => ?_) _ _)
    | (with_reducible exact stays_refl _)
    | dsimp only
    | split)

@[simp] theorem disarmAll_stays (s : State) :
    (disarmAll s).md.mode = s.md.mode ∧ (disarmAll s).pwr.supply = s.pwr.supply := by
  unfold disarmAll
  refine foldl_stays (fun _ _ => ?_) _ _
  first
    | with_reducible exact ⟨rfl, rfl⟩

@[simp] theorem writeActKind_stays (a : Nat) (v : Nat) (s : State) :
    (writeActKind a v s).md.mode = s.md.mode ∧ (writeActKind a v s).pwr.supply = s.pwr.supply := by
  simp [writeActKind]

@[simp] theorem loadActions_stays (s : State) :
    (loadActions s).md.mode = s.md.mode ∧ (loadActions s).pwr.supply = s.pwr.supply := by
  exact ⟨rfl, rfl⟩

@[simp] theorem armLoaded_stays (s : State) :
    (armLoaded s).md.mode = s.md.mode ∧ (armLoaded s).pwr.supply = s.pwr.supply := by
  unfold armLoaded
  exact foldl_stays (fun s a => armAction_stays a s) _ _

@[simp] theorem writeCalendar_stays (b : List Byte) (s : State) :
    (writeCalendar b s).md.mode = s.md.mode ∧ (writeCalendar b s).pwr.supply = s.pwr.supply := by
  unfold writeCalendar
  repeat' (first
    | with_reducible exact ⟨rfl, rfl⟩
    | (with_reducible refine stays_ite (fun _ => ?_) (fun _ => ?_))
    | (with_reducible refine stays_trans (armLoaded_stays _) ?_)
    | (with_reducible refine stays_trans (loadActions_stays _) ?_)
    | (with_reducible refine stays_trans (foldl_stays (fun s a => ?_) _ _) ?_)
    | (with_reducible refine foldl_stays (fun s a => ?_) _ _)
    | dsimp only
    | split)

@[simp] theorem pulseEnd_stays (n : Nat) (s : State) :
    (pulseEnd n s).md.mode = s.md.mode ∧ (pulseEnd n s).pwr.supply = s.pwr.supply := by
  unfold pulseEnd
  repeat' (first
    | with_reducible exact ⟨rfl, rfl⟩
    | (with_reducible refine stays_ite (fun _ => ?_) (fun _ => ?_))
    | (with_reducible refine stays_trans (State_setTrg_stays _ _ _) ?_)
    | (with_reducible refine stays_trans (settle_stays _) ?_)
    | (with_reducible refine stays_trans (foldl_stays (fun s a => ?_) _ _) ?_)
    | (with_reducible refine foldl_stays (fun s a => ?_) _ _)
    | dsimp only
    | split)

@[simp] theorem windowEnd_stays (n : Nat) (s : State) :
    (windowEnd n s).md.mode = s.md.mode ∧ (windowEnd n s).pwr.supply = s.pwr.supply := by
  unfold windowEnd
  repeat' (first
    | with_reducible exact ⟨rfl, rfl⟩
    | (with_reducible refine stays_ite (fun _ => ?_) (fun _ => ?_))
    | (with_reducible refine stays_trans (State_setWin_stays _ _ _) ?_)
    | (with_reducible refine stays_trans (foldl_stays (fun s a => ?_) _ _) ?_)
    | (with_reducible refine foldl_stays (fun s a => ?_) _ _)
    | dsimp only
    | split)

@[simp] theorem State_setChan_stays (s : State) (n : Nat) (f : Chan → Chan) :
    (State.setChan s n f).md.mode = s.md.mode ∧ (State.setChan s n f).pwr.supply = s.pwr.supply := by
  exact ⟨rfl, rfl⟩

@[simp] theorem State_setHo_stays (s : State) (n : Nat) (f : Ho → Ho) :
    (State.setHo s n f).md.mode = s.md.mode ∧ (State.setHo s n f).pwr.supply = s.pwr.supply := by
  exact ⟨rfl, rfl⟩

@[simp] theorem setConditions_stays (n : Nat) (b : BitVec 8) (s : State) :
    (setConditions n b s).md.mode = s.md.mode ∧ (setConditions n b s).pwr.supply = s.pwr.supply := by
  simp [setConditions]

@[simp] theorem refreshBound_stays (n : Nat) (s : State) :
    (refreshBound n s).md.mode = s.md.mode ∧ (refreshBound n s).pwr.supply = s.pwr.supply := by
  simp [refreshBound]

@[simp] theorem beginEpisode_stays (n : Nat) (v : StartVals) (gap : Rat) (s : State) :
    (beginEpisode n v gap s).md.mode = s.md.mode ∧ (beginEpisode n v gap s).pwr.supply = s.pwr.supply := by
  simp [beginEpisode]

@[simp] theorem endEpisode_stays (n : Nat) (s : State) :
    (endEpisode n s).md.mode = s.md.mode ∧ (endEpisode n s).pwr.supply = s.pwr.supply := by
  exact ⟨rfl, rfl⟩

@[simp] theorem holdSecond_stays (n : Nat) (s : State) :
    (holdSecond n s).md.mode = s.md.mode ∧ (holdSecond n s).pwr.supply = s.pwr.supply := by
  simp [holdSecond]

@[simp] theorem trackSecond_stays (n : Nat) (s : State) :
    (trackSecond n s).md.mode = s.md.mode ∧ (trackSecond n s).pwr.supply = s.pwr.supply := by
  unfold trackSecond
  try dsimp only
  (repeat' split) <;> first
    | with_reducible exact ⟨rfl, rfl⟩
    | simp

@[simp] theorem recordSecond_stays (n : Nat) (s : State) :
    (recordSecond n s).md.mode = s.md.mode ∧ (recordSecond n s).pwr.supply = s.pwr.supply := by
  exact ⟨rfl, rfl⟩

@[simp] theorem lanternSecond_stays (s : State) (n : Nat) :
    (lanternSecond s n).md.mode = s.md.mode ∧ (lanternSecond s n).pwr.supply = s.pwr.supply := by
  simp [lanternSecond]

@[simp] theorem lanternEvaluate_stays (s : State) :
    (lanternEvaluate s).md.mode = s.md.mode ∧ (lanternEvaluate s).pwr.supply = s.pwr.supply := by
  unfold lanternEvaluate
  repeat' (first
    | (with_reducible refine stays_ite (fun _ => ?_) (fun _ => ?_))
    | (with_reducible refine stays_trans (lanternSecond_stays _ _) ?_)
    | (with_reducible refine stays_trans (foldl_stays (fun s a => ?_) _ _) ?_)
    | (with_reducible refine foldl_stays (fun s a => ?_) _ _)
    | (with_reducible exact stays_refl _))

@[simp] theorem admitDue_stays (s : State) :
    (admitDue s).md.mode = s.md.mode ∧ (admitDue s).pwr.supply = s.pwr.supply := by
  exact ⟨rfl, rfl⟩

@[simp] theorem settleLearn_stays (s : State) :
    (settleLearn s).md.mode = s.md.mode ∧ (settleLearn s).pwr.supply = s.pwr.supply := by
  unfold settleLearn
  repeat' (first
    | (with_reducible refine stays_ite (fun _ => ?_) (fun _ => ?_))
    | (with_reducible refine stays_trans (foldl_stays (fun s a => ?_) _ _) ?_)
    | (with_reducible refine foldl_stays (fun s a => ?_) _ _)
    | (with_reducible exact stays_refl _))

@[simp] theorem learn_stays (s : State) :
    (learn s).md.mode = s.md.mode ∧ (learn s).pwr.supply = s.pwr.supply := by
  unfold learn
  repeat' (first
    | with_reducible exact ⟨rfl, rfl⟩
    | (with_reducible refine stays_ite (fun _ => ?_) (fun _ => ?_))
    | (with_reducible refine stays_trans (admitDue_stays _) ?_)
    | (with_reducible refine stays_trans (foldl_stays (fun s a => ?_) _ _) ?_)
    | (with_reducible refine foldl_stays (fun s a => ?_) _ _)
    | dsimp only
    | split)

@[simp] theorem dropSamples_stays (c : Nat) (s : State) :
    (dropSamples c s).md.mode = s.md.mode ∧ (dropSamples c s).pwr.supply = s.pwr.supply := by
  exact ⟨rfl, rfl⟩

@[simp] theorem commitModel_stays (m : Model) (s : State) :
    (commitModel m s).md.mode = s.md.mode ∧ (commitModel m s).pwr.supply = s.pwr.supply := by
  exact ⟨rfl, rfl⟩

@[simp] theorem refitNow_stays (s : State) :
    (refitNow s).md.mode = s.md.mode ∧ (refitNow s).pwr.supply = s.pwr.supply := by
  simp [refitNow]

@[simp] theorem saveModel_stays (s : State) :
    (saveModel s).md.mode = s.md.mode ∧ (saveModel s).pwr.supply = s.pwr.supply := by
  unfold saveModel
  repeat' (first
    | (with_reducible refine stays_ite (fun _ => ?_) (fun _ => ?_))
    | (with_reducible refine stays_trans (foldl_stays (fun s a => ?_) _ _) ?_)
    | (with_reducible refine foldl_stays (fun s a => ?_) _ _)
    | (with_reducible exact stays_refl _))

@[simp] theorem writeModel_stays (b : List Byte) (s : State) :
    (writeModel b s).md.mode = s.md.mode ∧ (writeModel b s).pwr.supply = s.pwr.supply := by
  unfold writeModel
  repeat' (first
    | (with_reducible refine stays_ite (fun _ => ?_) (fun _ => ?_))
    | (with_reducible refine stays_trans (commitModel_stays _ _) ?_)
    | (with_reducible refine stays_trans (saveModel_stays _) ?_)
    | (with_reducible refine stays_trans (foldl_stays (fun s a => ?_) _ _) ?_)
    | (with_reducible refine foldl_stays (fun s a => ?_) _ _)
    | (with_reducible exact stays_refl _))

@[simp] theorem modelSaveNow_stays (s : State) :
    (modelSaveNow s).md.mode = s.md.mode ∧ (modelSaveNow s).pwr.supply = s.pwr.supply := by
  simp [modelSaveNow]

@[simp] theorem settleClamp_stays (s : State) (n : Nat) :
    (settleClamp s n).md.mode = s.md.mode ∧ (settleClamp s n).pwr.supply = s.pwr.supply := by
  simp [settleClamp]

@[simp] theorem writeSteering_stays (n : Nat) (v : Int) (s : State) :
    (writeSteering n v s).md.mode = s.md.mode ∧ (writeSteering n v s).pwr.supply = s.pwr.supply := by
  exact ⟨rfl, rfl⟩

@[simp] theorem chanFlag_stays (n : Nat) (b : Nat) (s : State) :
    (chanFlag n b s).md.mode = s.md.mode ∧ (chanFlag n b s).pwr.supply = s.pwr.supply := by
  exact ⟨rfl, rfl⟩

@[simp] theorem chanGo_stays (n : Nat) (st : ChanState) (s : State) :
    (chanGo n st s).md.mode = s.md.mode ∧ (chanGo n st s).pwr.supply = s.pwr.supply := by
  exact ⟨rfl, rfl⟩

@[simp] theorem endPull_stays (n : Nat) (s : State) :
    (endPull n s).md.mode = s.md.mode ∧ (endPull n s).pwr.supply = s.pwr.supply := by
  simp [endPull]

@[simp] theorem refer_stays (n : Nat) (c : Nat) (s : State) :
    (refer n c s).md.mode = s.md.mode ∧ (refer n c s).pwr.supply = s.pwr.supply := by
  simp [refer]

@[simp] theorem toAcquire_stays (n : Nat) (c : Nat) (s : State) :
    (toAcquire n c s).md.mode = s.md.mode ∧ (toAcquire n c s).pwr.supply = s.pwr.supply := by
  simp [toAcquire]

@[simp] theorem toRelock_stays (n : Nat) (c : Nat) (s : State) :
    (toRelock n c s).md.mode = s.md.mode ∧ (toRelock n c s).pwr.supply = s.pwr.supply := by
  simp [toRelock]

@[simp] theorem switchTo_stays (n : Nat) (c : Nat) (s : State) :
    (switchTo n c s).md.mode = s.md.mode ∧ (switchTo n c s).pwr.supply = s.pwr.supply := by
  simp [switchTo]

@[simp] theorem toIdle_stays (n : Nat) (s : State) :
    (toIdle n s).md.mode = s.md.mode ∧ (toIdle n s).pwr.supply = s.pwr.supply := by
  simp [toIdle]

@[simp] theorem toHoldover_stays (n : Nat) (s : State) :
    (toHoldover n s).md.mode = s.md.mode ∧ (toHoldover n s).pwr.supply = s.pwr.supply := by
  simp [toHoldover]

@[simp] theorem fenceChannel_stays (n : Nat) (s : State) :
    (fenceChannel n s).md.mode = s.md.mode ∧ (fenceChannel n s).pwr.supply = s.pwr.supply := by
  simp [fenceChannel]

@[simp] theorem followSelection_stays (s : State) (n : Nat) :
    (followSelection s n).md.mode = s.md.mode ∧ (followSelection s n).pwr.supply = s.pwr.supply := by
  unfold followSelection
  try dsimp only
  (repeat' split) <;> first
    | with_reducible exact ⟨rfl, rfl⟩
    | simp

@[simp] theorem noteSelection_stays (n : Nat) (old : Option Nat) (new : Option Nat) (s : State) :
    (noteSelection n old new s).md.mode = s.md.mode ∧ (noteSelection n old new s).pwr.supply = s.pwr.supply := by
  unfold noteSelection
  repeat' (first
    | with_reducible exact ⟨rfl, rfl⟩
    | (with_reducible refine stays_ite (fun _ => ?_) (fun _ => ?_))
    | (with_reducible refine stays_trans (raise_stays _ _) ?_)
    | (with_reducible refine stays_trans (chanFlag_stays _ _ _) ?_)
    | (with_reducible refine stays_trans (foldl_stays (fun s a => ?_) _ _) ?_)
    | (with_reducible refine foldl_stays (fun s a => ?_) _ _)
    | dsimp only
    | split)

@[simp] theorem lockCriterion_stays (n : Nat) (s : State) :
    (lockCriterion n s).md.mode = s.md.mode ∧ (lockCriterion n s).pwr.supply = s.pwr.supply := by
  unfold lockCriterion
  repeat' (first
    | with_reducible exact ⟨rfl, rfl⟩
    | (with_reducible refine stays_ite (fun _ => ?_) (fun _ => ?_))
    | (with_reducible refine stays_trans (State_setChan_stays _ _ _) ?_)
    | (with_reducible refine stays_trans (chanGo_stays _ _ _) ?_)
    | (with_reducible refine stays_trans (foldl_stays (fun s a => ?_) _ _) ?_)
    | (with_reducible refine foldl_stays (fun s a => ?_) _ _)
    | dsimp only
    | split)

@[simp] theorem settleBandwidth_stays (s : State) (n : Nat) :
    (settleBandwidth s n).md.mode = s.md.mode ∧ (settleBandwidth s n).pwr.supply = s.pwr.supply := by
  unfold settleBandwidth
  repeat' (first
    | with_reducible exact ⟨rfl, rfl⟩
    | (with_reducible refine stays_ite (fun _ => ?_) (fun _ => ?_))
    | (with_reducible refine stays_trans (State_setChan_stays _ _ _) ?_)
    | (with_reducible refine stays_trans (foldl_stays (fun s a => ?_) _ _) ?_)
    | (with_reducible refine foldl_stays (fun s a => ?_) _ _)
    | dsimp only
    | split)

@[simp] theorem settleLock_stays (s : State) (n : Nat) :
    (settleLock s n).md.mode = s.md.mode ∧ (settleLock s n).pwr.supply = s.pwr.supply := by
  simp [settleLock]

@[simp] theorem shiftOuts_stays (n : Nat) (d : Rat) (s : State) :
    (shiftOuts n d s).md.mode = s.md.mode ∧ (shiftOuts n d s).pwr.supply = s.pwr.supply := by
  unfold shiftOuts
  repeat' (first
    | (with_reducible refine stays_ite (fun _ => ?_) (fun _ => ?_))
    | (with_reducible refine stays_trans (foldl_stays (fun s a => ?_) _ _) ?_)
    | (with_reducible refine foldl_stays (fun s a => ?_) _ _)
    | (with_reducible exact stays_refl _))

@[simp] theorem realign_stays (n : Nat) (t : Rat) (s : State) :
    (realign n t s).md.mode = s.md.mode ∧ (realign n t s).pwr.supply = s.pwr.supply := by
  exact ⟨rfl, rfl⟩

@[simp] theorem pdCycle_stays (n : Nat) (c : Nat) (t : Rat) (s : State) :
    (pdCycle n c t s).md.mode = s.md.mode ∧ (pdCycle n c t s).pwr.supply = s.pwr.supply := by
  simp [pdCycle]

@[simp] theorem edgeToChannel_stays (c : Nat) (t : Rat) (s : State) (n : Nat) :
    (edgeToChannel c t s n).md.mode = s.md.mode ∧ (edgeToChannel c t s n).pwr.supply = s.pwr.supply := by
  simp [edgeToChannel]

@[simp] theorem edgeToChannels_stays (c : Nat) (t : Rat) (s : State) :
    (edgeToChannels c t s).md.mode = s.md.mode ∧ (edgeToChannels c t s).pwr.supply = s.pwr.supply := by
  unfold edgeToChannels
  repeat' (first
    | (with_reducible refine stays_ite (fun _ => ?_) (fun _ => ?_))
    | (with_reducible refine stays_trans (edgeToChannel_stays _ _ _ _) ?_)
    | (with_reducible refine stays_trans (foldl_stays (fun s a => ?_) _ _) ?_)
    | (with_reducible refine foldl_stays (fun s a => ?_) _ _)
    | (with_reducible exact stays_refl _))

@[simp] theorem firstAlignment_stays (n : Nat) (t : Rat) (s : State) :
    (firstAlignment n t s).md.mode = s.md.mode ∧ (firstAlignment n t s).pwr.supply = s.pwr.supply := by
  unfold firstAlignment
  repeat' (first
    | with_reducible exact ⟨rfl, rfl⟩
    | (with_reducible refine stays_ite (fun _ => ?_) (fun _ => ?_))
    | (with_reducible refine stays_trans (realign_stays _ _ _) ?_)
    | (with_reducible refine stays_trans (foldl_stays (fun s a => ?_) _ _) ?_)
    | (with_reducible refine foldl_stays (fun s a => ?_) _ _)
    | dsimp only
    | split)

@[simp] theorem labelAligned_stays (c : Nat) (u : Nat) (t : Rat) (s : State) (n : Nat) :
    (labelAligned c u t s n).md.mode = s.md.mode ∧ (labelAligned c u t s n).pwr.supply = s.pwr.supply := by
  unfold labelAligned
  repeat' (first
    | with_reducible exact ⟨rfl, rfl⟩
    | (with_reducible refine stays_ite (fun _ => ?_) (fun _ => ?_))
    | (with_reducible refine stays_trans (State_setChan_stays _ _ _) ?_)
    | (with_reducible refine stays_trans (foldl_stays (fun s a => ?_) _ _) ?_)
    | (with_reducible refine foldl_stays (fun s a => ?_) _ _)
    | dsimp only
    | split)

@[simp] theorem State_setSyn_stays (s : State) (c : Nat) (f : Syn → Syn) :
    (State.setSyn s c f).md.mode = s.md.mode ∧ (State.setSyn s c f).pwr.supply = s.pwr.supply := by
  exact ⟨rfl, rfl⟩

@[simp] theorem State_setOut_stays (s : State) (n : Nat) (f : Out → Out) :
    (State.setOut s n f).md.mode = s.md.mode ∧ (State.setOut s n f).pwr.supply = s.pwr.supply := by
  exact ⟨rfl, rfl⟩

@[simp] theorem startOut_stays (s : State) (n : Nat) :
    (startOut s n).md.mode = s.md.mode ∧ (startOut s n).pwr.supply = s.pwr.supply := by
  unfold startOut
  repeat' (first
    | (with_reducible refine stays_ite (fun _ => ?_) (fun _ => ?_))
    | (with_reducible refine stays_trans (State_setOut_stays _ _ _) ?_)
    | (with_reducible refine stays_trans (foldl_stays (fun s a => ?_) _ _) ?_)
    | (with_reducible refine foldl_stays (fun s a => ?_) _ _)
    | (with_reducible exact stays_refl _))

@[simp] theorem stopOut_stays (s : State) (n : Nat) :
    (stopOut s n).md.mode = s.md.mode ∧ (stopOut s n).pwr.supply = s.pwr.supply := by
  unfold stopOut
  repeat' (first
    | (with_reducible refine stays_ite (fun _ => ?_) (fun _ => ?_))
    | (with_reducible refine stays_trans (State_setOut_stays _ _ _) ?_)
    | (with_reducible refine stays_trans (foldl_stays (fun s a => ?_) _ _) ?_)
    | (with_reducible refine foldl_stays (fun s a => ?_) _ _)
    | (with_reducible exact stays_refl _))

@[simp] theorem amplitudeWritten_stays (n : Nat) (old : Nat) (s : State) :
    (amplitudeWritten n old s).md.mode = s.md.mode ∧ (amplitudeWritten n old s).pwr.supply = s.pwr.supply := by
  unfold amplitudeWritten
  repeat' (first
    | (with_reducible refine stays_ite (fun _ => ?_) (fun _ => ?_))
    | (with_reducible refine stays_trans (State_setOut_stays _ _ _) ?_)
    | (with_reducible refine stays_trans (foldl_stays (fun s a => ?_) _ _) ?_)
    | (with_reducible refine foldl_stays (fun s a => ?_) _ _)
    | (with_reducible exact stays_refl _))

@[simp] theorem settleWave_stays (s : State) (n : Nat) :
    (settleWave s n).md.mode = s.md.mode ∧ (settleWave s n).pwr.supply = s.pwr.supply := by
  unfold settleWave
  repeat' (first
    | (with_reducible refine stays_ite (fun _ => ?_) (fun _ => ?_))
    | (with_reducible refine stays_trans (State_setOut_stays _ _ _) ?_)
    | (with_reducible refine stays_trans (startOut_stays _ _) ?_)
    | (with_reducible refine stays_trans (stopOut_stays _ _) ?_)
    | (with_reducible refine stays_trans (foldl_stays (fun s a => ?_) _ _) ?_)
    | (with_reducible refine foldl_stays (fun s a => ?_) _ _)
    | (with_reducible exact stays_refl _))

@[simp] theorem settleOut_stays (s : State) (n : Nat) :
    (settleOut s n).md.mode = s.md.mode ∧ (settleOut s n).pwr.supply = s.pwr.supply := by
  simp [settleOut]

@[simp] theorem settleOuts_stays (s : State) :
    (settleOuts s).md.mode = s.md.mode ∧ (settleOuts s).pwr.supply = s.pwr.supply := by
  unfold settleOuts
  repeat' (first
    | (with_reducible refine stays_ite (fun _ => ?_) (fun _ => ?_))
    | (with_reducible refine stays_trans (settleOut_stays _ _) ?_)
    | (with_reducible refine stays_trans (foldl_stays (fun s a => ?_) _ _) ?_)
    | (with_reducible refine foldl_stays (fun s a => ?_) _ _)
    | (with_reducible exact stays_refl _))

@[simp] theorem cancelCommit_stays (s : State) :
    (cancelCommit s).md.mode = s.md.mode ∧ (cancelCommit s).pwr.supply = s.pwr.supply := by
  simp [cancelCommit]

@[simp] theorem settleCommit_stays (s : State) :
    (settleCommit s).md.mode = s.md.mode ∧ (settleCommit s).pwr.supply = s.pwr.supply := by
  unfold settleCommit
  try dsimp only
  (repeat' split) <;> first
    | with_reducible exact ⟨rfl, rfl⟩
    | simp

@[simp] theorem tuneFrom_stays (c : Nat) (r : Retune) (s : State) :
    (tuneFrom c r s).md.mode = s.md.mode ∧ (tuneFrom c r s).pwr.supply = s.pwr.supply := by
  unfold tuneFrom
  repeat' (first
    | (with_reducible refine stays_ite (fun _ => ?_) (fun _ => ?_))
    | (with_reducible refine stays_trans (State_setSyn_stays _ _ _) ?_)
    | (with_reducible refine stays_trans (foldl_stays (fun s a => ?_) _ _) ?_)
    | (with_reducible refine foldl_stays (fun s a => ?_) _ _)
    | (with_reducible exact stays_refl _))

@[simp] theorem stopOuts_stays (c : Nat) (s : State) :
    (stopOuts c s).md.mode = s.md.mode ∧ (stopOuts c s).pwr.supply = s.pwr.supply := by
  unfold stopOuts
  repeat' (first
    | (with_reducible refine stays_ite (fun _ => ?_) (fun _ => ?_))
    | (with_reducible refine stays_trans (stopOut_stays _ _) ?_)
    | (with_reducible refine stays_trans (foldl_stays (fun s a => ?_) _ _) ?_)
    | (with_reducible refine foldl_stays (fun s a => ?_) _ _)
    | (with_reducible exact stays_refl _))

@[simp] theorem beginRetune_stays (c : Nat) (s : State) :
    (beginRetune c s).md.mode = s.md.mode ∧ (beginRetune c s).pwr.supply = s.pwr.supply := by
  simp [beginRetune]

@[simp] theorem originNow_stays (s : State) (n : Nat) :
    (originNow s n).md.mode = s.md.mode ∧ (originNow s n).pwr.supply = s.pwr.supply := by
  unfold originNow
  repeat' (first
    | (with_reducible refine stays_ite (fun _ => ?_) (fun _ => ?_))
    | (with_reducible refine stays_trans (State_setOut_stays _ _ _) ?_)
    | (with_reducible refine stays_trans (foldl_stays (fun s a => ?_) _ _) ?_)
    | (with_reducible refine foldl_stays (fun s a => ?_) _ _)
    | (with_reducible exact stays_refl _))

@[simp] theorem commitOut_stays (s : State) (n : Nat) (new : Divider) :
    (commitOut s n new).md.mode = s.md.mode ∧ (commitOut s n new).pwr.supply = s.pwr.supply := by
  simp [commitOut]

@[simp] theorem commitCore_stays (s : State) (c : Nat) (new : CfgSn) :
    (commitCore s c new).md.mode = s.md.mode ∧ (commitCore s c new).pwr.supply = s.pwr.supply := by
  unfold commitCore
  repeat' (first
    | (with_reducible refine stays_ite (fun _ => ?_) (fun _ => ?_))
    | (with_reducible refine stays_trans (stopOuts_stays _ _) ?_)
    | (with_reducible refine stays_trans (State_setOut_stays _ _ _) ?_)
    | (with_reducible refine stays_trans (State_setSyn_stays _ _ _) ?_)
    | (with_reducible refine stays_trans (beginRetune_stays _ _) ?_)
    | (with_reducible refine stays_trans (foldl_stays (fun s a => ?_) _ _) ?_)
    | (with_reducible refine foldl_stays (fun s a => ?_) _ _)
    | (with_reducible exact stays_refl _))

@[simp] theorem keepShadows_stays (old : Cfg) (s : State) :
    (keepShadows old s).md.mode = s.md.mode ∧ (keepShadows old s).pwr.supply = s.pwr.supply := by
  unfold keepShadows
  repeat' (first
    | (with_reducible refine stays_ite (fun _ => ?_) (fun _ => ?_))
    | (with_reducible refine stays_trans (foldl_stays (fun s a => ?_) _ _) ?_)
    | (with_reducible refine foldl_stays (fun s a => ?_) _ _)
    | (with_reducible exact stays_refl _)
    | dsimp only
    | split)

@[simp] theorem commitNow_stays (s : State) :
    (commitNow s).md.mode = s.md.mode ∧ (commitNow s).pwr.supply = s.pwr.supply := by
  unfold commitNow
  repeat' (first
    | (with_reducible refine stays_ite (fun _ => ?_) (fun _ => ?_))
    | (with_reducible refine stays_trans (commitCore_stays _ _ _) ?_)
    | (with_reducible refine stays_trans (commitOut_stays _ _ _) ?_)
    | (with_reducible refine stays_trans (raise_stays _ _) ?_)
    | (with_reducible refine stays_trans (foldl_stays (fun s a => ?_) _ _) ?_)
    | (with_reducible refine foldl_stays (fun s a => ?_) _ _)
    | (with_reducible exact stays_refl _))

@[simp] theorem commitInstant_stays (s : State) :
    (commitInstant s).md.mode = s.md.mode ∧ (commitInstant s).pwr.supply = s.pwr.supply := by
  unfold commitInstant
  repeat' (first
    | (with_reducible refine stays_ite (fun _ => ?_) (fun _ => ?_))
    | (with_reducible refine stays_trans (commitNow_stays _) ?_)
    | (with_reducible refine stays_trans (foldl_stays (fun s a => ?_) _ _) ?_)
    | (with_reducible refine foldl_stays (fun s a => ?_) _ _)
    | (with_reducible exact stays_refl _)
    | dsimp only
    | split)

@[simp] theorem enableCore_stays (c : Nat) (v : Nat) (s : State) :
    (enableCore c v s).md.mode = s.md.mode ∧ (enableCore c v s).pwr.supply = s.pwr.supply := by
  simp [enableCore]

@[simp] theorem outputsStopped_stays (c : Nat) (s : State) :
    (outputsStopped c s).md.mode = s.md.mode ∧ (outputsStopped c s).pwr.supply = s.pwr.supply := by
  unfold outputsStopped
  repeat' (first
    | with_reducible exact ⟨rfl, rfl⟩
    | (with_reducible refine stays_ite (fun _ => ?_) (fun _ => ?_))
    | (with_reducible refine stays_trans (State_setSyn_stays _ _ _) ?_)
    | (with_reducible refine stays_trans (foldl_stays (fun s a => ?_) _ _) ?_)
    | (with_reducible refine foldl_stays (fun s a => ?_) _ _)
    | dsimp only
    | split)

@[simp] theorem onCard_stays (k : Card) (f : Card → Card) (s : State) :
    (onCard k f s).md.mode = s.md.mode ∧ (onCard k f s).pwr.supply = s.pwr.supply := by
  unfold onCard
  repeat' (first
    | (with_reducible refine stays_ite (fun _ => ?_) (fun _ => ?_))
    | (with_reducible refine stays_trans (foldl_stays (fun s a => ?_) _ _) ?_)
    | (with_reducible refine foldl_stays (fun s a => ?_) _ _)
    | (with_reducible exact stays_refl _))

@[simp] theorem cardsChanged_stays (s : State) :
    (cardsChanged s).md.mode = s.md.mode ∧ (cardsChanged s).pwr.supply = s.pwr.supply := by
  exact ⟨rfl, rfl⟩

@[simp] theorem storeCard_stays (c : Nat) (band : Nat) (fine : Nat) (time : Nat) (s : State) :
    (storeCard c band fine time s).md.mode = s.md.mode ∧ (storeCard c band fine time s).pwr.supply = s.pwr.supply := by
  exact ⟨rfl, rfl⟩

@[simp] theorem lockCore_stays (c : Nat) (band : Nat) (fine : Nat) (s : State) :
    (lockCore c band fine s).md.mode = s.md.mode ∧ (lockCore c band fine s).pwr.supply = s.pwr.supply := by
  unfold lockCore
  repeat' (first
    | (with_reducible refine stays_ite (fun _ => ?_) (fun _ => ?_))
    | (with_reducible refine stays_trans (raise_stays _ _) ?_)
    | (with_reducible refine stays_trans (State_setSyn_stays _ _ _) ?_)
    | (with_reducible refine stays_trans (onCard_stays _ _ _) ?_)
    | (with_reducible refine stays_trans (storeCard_stays _ _ _ _ _) ?_)
    | (with_reducible refine stays_trans (originNow_stays _ _) ?_)
    | (with_reducible refine stays_trans (foldl_stays (fun s a => ?_) _ _) ?_)
    | (with_reducible refine foldl_stays (fun s a => ?_) _ _)
    | (with_reducible exact stays_refl _)
    | dsimp only
    | split)

@[simp] theorem cardTimeout_stays (c : Nat) (s : State) :
    (cardTimeout c s).md.mode = s.md.mode ∧ (cardTimeout c s).pwr.supply = s.pwr.supply := by
  unfold cardTimeout
  repeat' (first
    | with_reducible exact ⟨rfl, rfl⟩
    | (with_reducible refine stays_ite (fun _ => ?_) (fun _ => ?_))
    | (with_reducible refine stays_trans (raise_stays _ _) ?_)
    | (with_reducible refine stays_trans (cardsChanged_stays _) ?_)
    | (with_reducible refine stays_trans (State_setSyn_stays _ _ _) ?_)
    | (with_reducible refine stays_trans (foldl_stays (fun s a => ?_) _ _) ?_)
    | (with_reducible refine foldl_stays (fun s a => ?_) _ _)
    | dsimp only
    | split)

@[simp] theorem fenceSyn_stays (c : Nat) (s : State) :
    (fenceSyn c s).md.mode = s.md.mode ∧ (fenceSyn c s).pwr.supply = s.pwr.supply := by
  simp [fenceSyn]

@[simp] theorem writeCards_stays (b : List Byte) (s : State) :
    (writeCards b s).md.mode = s.md.mode ∧ (writeCards b s).pwr.supply = s.pwr.supply := by
  unfold writeCards
  repeat' (first
    | (with_reducible refine stays_ite (fun _ => ?_) (fun _ => ?_))
    | (with_reducible refine stays_trans (cardsChanged_stays _) ?_)
    | (with_reducible refine stays_trans (foldl_stays (fun s a => ?_) _ _) ?_)
    | (with_reducible refine foldl_stays (fun s a => ?_) _ _)
    | (with_reducible exact stays_refl _))

@[simp] theorem storeCards_stays (s : State) :
    (storeCards s).md.mode = s.md.mode ∧ (storeCards s).pwr.supply = s.pwr.supply := by
  simp [storeCards]

@[simp] theorem frequencyTest_stays (n : Nat) (fast : Rat) (fine : Rat) (s : State) :
    (frequencyTest n fast fine s).md.mode = s.md.mode ∧ (frequencyTest n fast fine s).pwr.supply = s.pwr.supply := by
  simp [frequencyTest]

@[simp] theorem slewTest_stays (n : Nat) (short : Rat) (long : Rat) (s : State) :
    (slewTest n short long s).md.mode = s.md.mode ∧ (slewTest n short long s).pwr.supply = s.pwr.supply := by
  simp [slewTest]

@[simp] theorem reopenGates_stays (n : Nat) (s : State) :
    (reopenGates n s).md.mode = s.md.mode ∧ (reopenGates n s).pwr.supply = s.pwr.supply := by
  exact ⟨rfl, rfl⟩

@[simp] theorem heartbeatRefresh_stays (s : State) :
    (heartbeatRefresh s).md.mode = s.md.mode ∧ (heartbeatRefresh s).pwr.supply = s.pwr.supply := by
  simp [heartbeatRefresh]

@[simp] theorem heartbeatLapse_stays (s : State) :
    (heartbeatLapse s).md.mode = s.md.mode ∧ (heartbeatLapse s).pwr.supply = s.pwr.supply := by
  simp [heartbeatLapse]

@[simp] theorem channelSecond_stays (n : Nat) (s : State) :
    (channelSecond n s).md.mode = s.md.mode ∧ (channelSecond n s).pwr.supply = s.pwr.supply := by
  simp [channelSecond]

@[simp] theorem State_setTb_stays (s : State) (k : Nat) (f : Tb → Tb) :
    (State.setTb s k f).md.mode = s.md.mode ∧ (State.setTb s k f).pwr.supply = s.pwr.supply := by
  exact ⟨rfl, rfl⟩

@[simp] theorem State_setDom_stays (s : State) (i : Nat) (f : Dom → Dom) :
    (State.setDom s i f).md.mode = s.md.mode ∧ (State.setDom s i f).pwr.supply = s.pwr.supply := by
  exact ⟨rfl, rfl⟩

@[simp] theorem domGo_stays (i : Nat) (st : DomState) (s : State) :
    (domGo i st s).md.mode = s.md.mode ∧ (domGo i st s).pwr.supply = s.pwr.supply := by
  exact ⟨rfl, rfl⟩

@[simp] theorem restamp_stays (k : Nat) (s : State) :
    (restamp k s).md.mode = s.md.mode ∧ (restamp k s).pwr.supply = s.pwr.supply := by
  unfold restamp
  repeat' (first
    | (with_reducible refine stays_ite (fun _ => ?_) (fun _ => ?_))
    | (with_reducible refine stays_trans (foldl_stays (fun s a => ?_) _ _) ?_)
    | (with_reducible refine foldl_stays (fun s a => ?_) _ _)
    | (with_reducible exact stays_refl _))

@[simp] theorem tbGo_stays (k : Nat) (st : TbState) (s : State) :
    (tbGo k st s).md.mode = s.md.mode ∧ (tbGo k st s).pwr.supply = s.pwr.supply := by
  exact ⟨rfl, rfl⟩

@[simp] theorem aimAt_stays (k : Nat) (theta : Rat) (s : State) :
    (aimAt k theta s).md.mode = s.md.mode ∧ (aimAt k theta s).pwr.supply = s.pwr.supply := by
  exact ⟨rfl, rfl⟩

@[simp] theorem setFreqTerm_stays (k : Nat) (v : Rat) (s : State) :
    (setFreqTerm k v s).md.mode = s.md.mode ∧ (setFreqTerm k v s).pwr.supply = s.pwr.supply := by
  exact ⟨rfl, rfl⟩

@[simp] theorem servoUpdate_stays (k : Nat) (theta : Rat) (s : State) :
    (servoUpdate k theta s).md.mode = s.md.mode ∧ (servoUpdate k theta s).pwr.supply = s.pwr.supply := by
  simp [servoUpdate]

@[simp] theorem enterTbHoldover_stays (k : Nat) (s : State) :
    (enterTbHoldover k s).md.mode = s.md.mode ∧ (enterTbHoldover k s).pwr.supply = s.pwr.supply := by
  simp [enterTbHoldover]

@[simp] theorem countSwitch_stays (k : Nat) (s : State) :
    (countSwitch k s).md.mode = s.md.mode ∧ (countSwitch k s).pwr.supply = s.pwr.supply := by
  exact ⟨rfl, rfl⟩

@[simp] theorem copyUtc_stays (k : Nat) (s : State) :
    (copyUtc k s).md.mode = s.md.mode ∧ (copyUtc k s).pwr.supply = s.pwr.supply := by
  simp [copyUtc]

@[simp] theorem announceUtc_stays (k : Nat) (d : Dataset) (s : State) :
    (announceUtc k d s).md.mode = s.md.mode ∧ (announceUtc k d s).pwr.supply = s.pwr.supply := by
  simp [announceUtc]

@[simp] theorem followUtc_stays (k : Nat) (s : State) :
    (followUtc k s).md.mode = s.md.mode ∧ (followUtc k s).pwr.supply = s.pwr.supply := by
  unfold followUtc
  repeat' (first
    | (with_reducible refine stays_ite (fun _ => ?_) (fun _ => ?_))
    | (with_reducible refine stays_trans (announceUtc_stays _ _ _) ?_)
    | (with_reducible refine stays_trans (foldl_stays (fun s a => ?_) _ _) ?_)
    | (with_reducible refine foldl_stays (fun s a => ?_) _ _)
    | (with_reducible exact stays_refl _)
    | dsimp only
    | split)

@[simp] theorem setActive_stays (k : Nat) (d : Option Nat) (s : State) :
    (setActive k d s).md.mode = s.md.mode ∧ (setActive k d s).pwr.supply = s.pwr.supply := by
  unfold setActive
  repeat' (first
    | (with_reducible refine stays_ite (fun _ => ?_) (fun _ => ?_))
    | (with_reducible refine stays_trans (State_setTb_stays _ _ _) ?_)
    | (with_reducible refine stays_trans (aimAt_stays _ _ _) ?_)
    | (with_reducible refine stays_trans (followUtc_stays _ _) ?_)
    | (with_reducible refine stays_trans (countSwitch_stays _ _) ?_)
    | (with_reducible refine stays_trans (foldl_stays (fun s a => ?_) _ _) ?_)
    | (with_reducible refine foldl_stays (fun s a => ?_) _ _)
    | (with_reducible exact stays_refl _)
    | dsimp only
    | split)

@[simp] theorem settleTb_stays (s : State) (k : Nat) :
    (settleTb s k).md.mode = s.md.mode ∧ (settleTb s k).pwr.supply = s.pwr.supply := by
  unfold settleTb
  repeat' (first
    | with_reducible exact ⟨rfl, rfl⟩
    | (with_reducible refine stays_ite (fun _ => ?_) (fun _ => ?_))
    | (with_reducible refine stays_trans (State_setTb_stays _ _ _) ?_)
    | (with_reducible refine stays_trans (raise_stays _ _) ?_)
    | (with_reducible refine stays_trans (setActive_stays _ _ _) ?_)
    | (with_reducible refine stays_trans (enterTbHoldover_stays _ _) ?_)
    | (with_reducible refine stays_trans (tbGo_stays _ _ _) ?_)
    | (with_reducible refine stays_trans (foldl_stays (fun s a => ?_) _ _) ?_)
    | (with_reducible refine foldl_stays (fun s a => ?_) _ _)
    | dsimp only
    | split)

@[simp] theorem settleTbClamp_stays (s : State) (k : Nat) :
    (settleTbClamp s k).md.mode = s.md.mode ∧ (settleTbClamp s k).pwr.supply = s.pwr.supply := by
  exact ⟨rfl, rfl⟩

@[simp] theorem cutBeacon_stays (s : State) :
    (cutBeacon s).md.mode = s.md.mode ∧ (cutBeacon s).pwr.supply = s.pwr.supply := by
  unfold cutBeacon
  repeat' (first
    | (with_reducible refine stays_ite (fun _ => ?_) (fun _ => ?_))
    | (with_reducible refine stays_trans (foldl_stays (fun s a => ?_) _ _) ?_)
    | (with_reducible refine foldl_stays (fun s a => ?_) _ _)
    | (with_reducible exact stays_refl _))

@[simp] theorem stepBeacon_stays (k : Nat) (now : Rat) (s : State) :
    (stepBeacon k now s).md.mode = s.md.mode ∧ (stepBeacon k now s).pwr.supply = s.pwr.supply := by
  unfold stepBeacon
  repeat' (first
    | (with_reducible refine stays_ite (fun _ => ?_) (fun _ => ?_))
    | (with_reducible refine stays_trans (cutBeacon_stays _) ?_)
    | (with_reducible refine stays_trans (foldl_stays (fun s a => ?_) _ _) ?_)
    | (with_reducible refine foldl_stays (fun s a => ?_) _ _)
    | (with_reducible exact stays_refl _))

@[simp] theorem shiftSeconds_stays (k : Nat) (d : Int) (s : State) :
    (shiftSeconds k d s).md.mode = s.md.mode ∧ (shiftSeconds k d s).pwr.supply = s.pwr.supply := by
  unfold shiftSeconds
  repeat' (first
    | with_reducible exact ⟨rfl, rfl⟩
    | (with_reducible refine stays_ite (fun _ => ?_) (fun _ => ?_))
    | (with_reducible refine stays_trans (foldl_stays (fun s a => ?_) _ _) ?_)
    | (with_reducible refine foldl_stays (fun s a => ?_) _ _)
    | dsimp only
    | split)

@[simp] theorem stepTb_stays (k : Nat) (after : TbState) (delta : Rat) (s : State) :
    (stepTb k after delta s).md.mode = s.md.mode ∧ (stepTb k after delta s).pwr.supply = s.pwr.supply := by
  unfold stepTb
  repeat' (first
    | (with_reducible refine stays_ite (fun _ => ?_) (fun _ => ?_))
    | (with_reducible refine stays_trans (stepBeacon_stays _ _ _) ?_)
    | (with_reducible refine stays_trans (shiftSeconds_stays _ _ _) ?_)
    | (with_reducible refine stays_trans (restamp_stays _ _) ?_)
    | (with_reducible refine stays_trans (raise_stays _ _) ?_)
    | (with_reducible refine stays_trans (rebaseAxis_stays _ _ _) ?_)
    | (with_reducible refine stays_trans (foldl_stays (fun s a => ?_) _ _) ?_)
    | (with_reducible refine foldl_stays (fun s a => ?_) _ _)
    | (with_reducible exact stays_refl _))

@[simp] theorem makeStep_stays (i : Nat) (theta : Rat) (s : State) :
    (makeStep i theta s).md.mode = s.md.mode ∧ (makeStep i theta s).pwr.supply = s.pwr.supply := by
  unfold makeStep
  repeat' (first
    | (with_reducible refine stays_ite (fun _ => ?_) (fun _ => ?_))
    | (with_reducible refine stays_trans (stepTb_stays _ _ _ _) ?_)
    | (with_reducible refine stays_trans (State_setTb_stays _ _ _) ?_)
    | (with_reducible refine stays_trans (countSwitch_stays _ _) ?_)
    | (with_reducible refine stays_trans (State_setDom_stays _ _ _) ?_)
    | (with_reducible refine stays_trans (domGo_stays _ _ _) ?_)
    | (with_reducible refine stays_trans (tbGo_stays _ _ _) ?_)
    | (with_reducible refine stays_trans (foldl_stays (fun s a => ?_) _ _) ?_)
    | (with_reducible refine foldl_stays (fun s a => ?_) _ _)
    | (with_reducible exact stays_refl _))

@[simp] theorem acceptEst_stays (i : Nat) (t : Rat) (theta : Rat) (s : State) :
    (acceptEst i t theta s).md.mode = s.md.mode ∧ (acceptEst i t theta s).pwr.supply = s.pwr.supply := by
  exact ⟨rfl, rfl⟩

@[simp] theorem restartEst_stays (i : Nat) (t : Rat) (theta : Rat) (s : State) :
    (restartEst i t theta s).md.mode = s.md.mode ∧ (restartEst i t theta s).pwr.supply = s.pwr.supply := by
  exact ⟨rfl, rfl⟩

@[simp] theorem qualify_stays (i : Nat) (t : Rat) (theta : Rat) (s : State) :
    (qualify i t theta s).md.mode = s.md.mode ∧ (qualify i t theta s).pwr.supply = s.pwr.supply := by
  unfold qualify
  repeat' (first
    | with_reducible exact ⟨rfl, rfl⟩
    | (with_reducible refine stays_ite (fun _ => ?_) (fun _ => ?_))
    | (with_reducible refine stays_trans (domGo_stays _ _ _) ?_)
    | (with_reducible refine stays_trans (State_setDom_stays _ _ _) ?_)
    | (with_reducible refine stays_trans (foldl_stays (fun s a => ?_) _ _) ?_)
    | (with_reducible refine foldl_stays (fun s a => ?_) _ _)
    | dsimp only
    | split)

@[simp] theorem qualifiedRun_stays (i : Nat) (t : Rat) (theta : Rat) (resid : Rat) (s : State) :
    (qualifiedRun i t theta resid s).md.mode = s.md.mode ∧ (qualifiedRun i t theta resid s).pwr.supply = s.pwr.supply := by
  simp [qualifiedRun]

@[simp] theorem requalify_stays (i : Nat) (t : Rat) (s : State) :
    (requalify i t s).md.mode = s.md.mode ∧ (requalify i t s).pwr.supply = s.pwr.supply := by
  unfold requalify
  repeat' (first
    | (with_reducible refine stays_ite (fun _ => ?_) (fun _ => ?_))
    | (with_reducible refine stays_trans (State_setDom_stays _ _ _) ?_)
    | (with_reducible refine stays_trans (foldl_stays (fun s a => ?_) _ _) ?_)
    | (with_reducible refine foldl_stays (fun s a => ?_) _ _)
    | (with_reducible exact stays_refl _))

@[simp] theorem judgeEst_stays (i : Nat) (t : Rat) (theta : Rat) (resid : Rat) (s : State) :
    (judgeEst i t theta resid s).md.mode = s.md.mode ∧ (judgeEst i t theta resid s).pwr.supply = s.pwr.supply := by
  unfold judgeEst
  repeat' (first
    | with_reducible exact ⟨rfl, rfl⟩
    | (with_reducible refine stays_ite (fun _ => ?_) (fun _ => ?_))
    | (with_reducible refine stays_trans (qualify_stays _ _ _ _) ?_)
    | (with_reducible refine stays_trans (restartEst_stays _ _ _ _) ?_)
    | (with_reducible refine stays_trans (acceptEst_stays _ _ _ _) ?_)
    | (with_reducible refine stays_trans (qualifiedRun_stays _ _ _ _ _) ?_)
    | (with_reducible refine stays_trans (State_setDom_stays _ _ _) ?_)
    | (with_reducible refine stays_trans (domGo_stays _ _ _) ?_)
    | (with_reducible refine stays_trans (foldl_stays (fun s a => ?_) _ _) ?_)
    | (with_reducible refine foldl_stays (fun s a => ?_) _ _)
    | dsimp only
    | split)

@[simp] theorem noteEdgeSec_stays (i : Nat) (s : State) :
    (noteEdgeSec i s).md.mode = s.md.mode ∧ (noteEdgeSec i s).pwr.supply = s.pwr.supply := by
  simp [noteEdgeSec]

@[simp] theorem stepEst_stays (i : Nat) (t : Rat) (theta : Rat) (s : State) :
    (stepEst i t theta s).md.mode = s.md.mode ∧ (stepEst i t theta s).pwr.supply = s.pwr.supply := by
  unfold stepEst
  repeat' (first
    | (with_reducible refine stays_ite (fun _ => ?_) (fun _ => ?_))
    | (with_reducible refine stays_trans (makeStep_stays _ _ _) ?_)
    | (with_reducible refine stays_trans (State_setDom_stays _ _ _) ?_)
    | (with_reducible refine stays_trans (noteEdgeSec_stays _ _) ?_)
    | (with_reducible refine stays_trans (restartEst_stays _ _ _ _) ?_)
    | (with_reducible refine stays_trans (acceptEst_stays _ _ _ _) ?_)
    | (with_reducible refine stays_trans (foldl_stays (fun s a => ?_) _ _) ?_)
    | (with_reducible refine foldl_stays (fun s a => ?_) _ _)
    | (with_reducible exact stays_refl _))

@[simp] theorem useEst_stays (i : Nat) (t : Rat) (theta : Rat) (s : State) :
    (useEst i t theta s).md.mode = s.md.mode ∧ (useEst i t theta s).pwr.supply = s.pwr.supply := by
  unfold useEst
  repeat' (first
    | (with_reducible refine stays_ite (fun _ => ?_) (fun _ => ?_))
    | (with_reducible refine stays_trans (State_setDom_stays _ _ _) ?_)
    | (with_reducible refine stays_trans (servoUpdate_stays _ _ _) ?_)
    | (with_reducible refine stays_trans (noteEdgeSec_stays _ _) ?_)
    | (with_reducible refine stays_trans (judgeEst_stays _ _ _ _ _) ?_)
    | (with_reducible refine stays_trans (foldl_stays (fun s a => ?_) _ _) ?_)
    | (with_reducible refine foldl_stays (fun s a => ?_) _ _)
    | (with_reducible exact stays_refl _))

@[simp] theorem estimate_stays (i : Nat) (t : Rat) (theta : Rat) (s : State) :
    (estimate i t theta s).md.mode = s.md.mode ∧ (estimate i t theta s).pwr.supply = s.pwr.supply := by
  unfold estimate
  repeat' (first
    | (with_reducible refine stays_ite (fun _ => ?_) (fun _ => ?_))
    | (with_reducible refine stays_trans (stepEst_stays _ _ _ _) ?_)
    | (with_reducible refine stays_trans (useEst_stays _ _ _ _) ?_)
    | (with_reducible refine stays_trans (foldl_stays (fun s a => ?_) _ _) ?_)
    | (with_reducible refine foldl_stays (fun s a => ?_) _ _)
    | (with_reducible exact stays_refl _))

@[simp] theorem estimates_stays (l : List (Nat × Rat × Rat)) (s : State) :
    (estimates l s).md.mode = s.md.mode ∧ (estimates l s).pwr.supply = s.pwr.supply := by
  unfold estimates
  dsimp only
  refine stays_trans (foldl_stays (fun s p => ?_) _ _) (foldl_fst_stays (fun x p => ?_) _ _)
  · split
    · exact useEst_stays _ _ _ _
    · exact stays_refl _
  · split
    · exact stepEst_stays _ _ _ _
    · exact stays_refl _

@[simp] theorem timePulse_stays (c : Nat) (t : Rat) (u : Nat) (sec60 : Bool) (s : State) :
    (timePulse c t u sec60 s).md.mode = s.md.mode ∧ (timePulse c t u sec60 s).pwr.supply = s.pwr.supply := by
  unfold timePulse
  repeat' (first
    | (with_reducible refine stays_ite (fun _ => ?_) (fun _ => ?_))
    | (with_reducible refine stays_trans (estimates_stays _ _) ?_)
    | (with_reducible refine stays_trans (foldl_stays (fun s a => ?_) _ _) ?_)
    | (with_reducible refine foldl_stays (fun s a => ?_) _ _)
    | (with_reducible exact stays_refl _))

@[simp] theorem localSecond_stays (n : Nat) (t : Rat) (s : State) :
    (localSecond n t s).md.mode = s.md.mode ∧ (localSecond n t s).pwr.supply = s.pwr.supply := by
  unfold localSecond
  repeat' (first
    | (with_reducible refine stays_ite (fun _ => ?_) (fun _ => ?_))
    | (with_reducible refine stays_trans (State_setTb_stays _ _ _) ?_)
    | (with_reducible refine stays_trans (estimates_stays _ _) ?_)
    | (with_reducible refine stays_trans (foldl_stays (fun s a => ?_) _ _) ?_)
    | (with_reducible refine foldl_stays (fun s a => ?_) _ _)
    | (with_reducible exact stays_refl _)
    | dsimp only
    | split)

@[simp] theorem secondFell_stays (was : State) (s : State) (n : Nat) :
    (secondFell was s n).md.mode = s.md.mode ∧ (secondFell was s n).pwr.supply = s.pwr.supply := by
  unfold secondFell
  repeat' (first
    | (with_reducible refine stays_ite (fun _ => ?_) (fun _ => ?_))
    | (with_reducible refine stays_trans (localSecond_stays _ _ _) ?_)
    | (with_reducible refine stays_trans (setOrigins_stays _ _) ?_)
    | (with_reducible refine stays_trans (foldl_stays (fun s a => ?_) _ _) ?_)
    | (with_reducible refine foldl_stays (fun s a => ?_) _ _)
    | (with_reducible exact stays_refl _)
    | dsimp only
    | split)

@[simp] theorem kindWritten_stays (i : Nat) (old : Nat) (s : State) :
    (kindWritten i old s).md.mode = s.md.mode ∧ (kindWritten i old s).pwr.supply = s.pwr.supply := by
  simp [kindWritten]

@[simp] theorem applyLeap_stays (k : Nat) (s : State) :
    (applyLeap k s).md.mode = s.md.mode ∧ (applyLeap k s).pwr.supply = s.pwr.supply := by
  simp [applyLeap]

@[simp] theorem fenceTb_stays (k : Nat) (s : State) :
    (fenceTb k s).md.mode = s.md.mode ∧ (fenceTb k s).pwr.supply = s.pwr.supply := by
  simp [fenceTb]

@[simp] theorem freezeRates_stays (s : State) :
    (freezeRates s).md.mode = s.md.mode ∧ (freezeRates s).pwr.supply = s.pwr.supply := by
  exact ⟨rfl, rfl⟩

@[simp] theorem sleepTimebases_stays (s : State) :
    (sleepTimebases s).md.mode = s.md.mode ∧ (sleepTimebases s).pwr.supply = s.pwr.supply := by
  unfold sleepTimebases
  repeat' (first
    | (with_reducible refine stays_ite (fun _ => ?_) (fun _ => ?_))
    | (with_reducible refine stays_trans (domGo_stays _ _ _) ?_)
    | (with_reducible refine stays_trans (State_setTb_stays _ _ _) ?_)
    | (with_reducible refine stays_trans (tbGo_stays _ _ _) ?_)
    | (with_reducible refine stays_trans (freezeRates_stays _) ?_)
    | (with_reducible refine stays_trans (foldl_stays (fun s a => ?_) _ _) ?_)
    | (with_reducible refine foldl_stays (fun s a => ?_) _ _)
    | (with_reducible exact stays_refl _))

@[simp] theorem wakeTimebases_stays (s : State) :
    (wakeTimebases s).md.mode = s.md.mode ∧ (wakeTimebases s).pwr.supply = s.pwr.supply := by
  unfold wakeTimebases
  repeat' (first
    | with_reducible exact ⟨rfl, rfl⟩
    | (with_reducible refine stays_ite (fun _ => ?_) (fun _ => ?_))
    | (with_reducible refine stays_trans (setFreqTerm_stays _ _ _) ?_)
    | (with_reducible refine stays_trans (State_setTb_stays _ _ _) ?_)
    | (with_reducible refine stays_trans (foldl_stays (fun s a => ?_) _ _) ?_)
    | (with_reducible refine foldl_stays (fun s a => ?_) _ _)
    | dsimp only
    | split)

@[simp] theorem State_setPort_stays (s : State) (n : Nat) (f : Port → Port) :
    (State.setPort s n f).md.mode = s.md.mode ∧ (State.setPort s n f).pwr.supply = s.pwr.supply := by
  exact ⟨rfl, rfl⟩

@[simp] theorem State_setInst_stays (s : State) (i : Nat) (f : PtpInst → PtpInst) :
    (State.setInst s i f).md.mode = s.md.mode ∧ (State.setInst s i f).pwr.supply = s.pwr.supply := by
  exact ⟨rfl, rfl⟩

@[simp] theorem send_stays (x : Tx) (s : State) :
    (send x s).md.mode = s.md.mode ∧ (send x s).pwr.supply = s.pwr.supply := by
  exact ⟨rfl, rfl⟩

@[simp] theorem setPortState_stays (i : Nat) (n : Nat) (st : PortState) (s : State) :
    (setPortState i n st s).md.mode = s.md.mode ∧ (setPortState i n st s).pwr.supply = s.pwr.supply := by
  simp [setPortState]

@[simp] theorem settleGm_stays (s : State) (i : Nat) :
    (settleGm s i).md.mode = s.md.mode ∧ (settleGm s i).pwr.supply = s.pwr.supply := by
  unfold settleGm
  try dsimp only
  (repeat' split) <;> first
    | with_reducible exact ⟨rfl, rfl⟩
    | simp

@[simp] theorem settleAdvertised_stays (s : State) (i : Nat) :
    (settleAdvertised s i).md.mode = s.md.mode ∧ (settleAdvertised s i).pwr.supply = s.pwr.supply := by
  unfold settleAdvertised
  repeat' (first
    | (with_reducible refine stays_ite (fun _ => ?_) (fun _ => ?_))
    | (with_reducible refine stays_trans (settleGm_stays _ _) ?_)
    | (with_reducible refine stays_trans (foldl_stays (fun s a => ?_) _ _) ?_)
    | (with_reducible refine foldl_stays (fun s a => ?_) _ _)
    | (with_reducible exact stays_refl _))

@[simp] theorem settleInst_stays (s : State) (i : Nat) :
    (settleInst s i).md.mode = s.md.mode ∧ (settleInst s i).pwr.supply = s.pwr.supply := by
  unfold settleInst
  repeat' (first
    | (with_reducible refine stays_ite (fun _ => ?_) (fun _ => ?_))
    | (with_reducible refine stays_trans (setPortState_stays _ _ _ _) ?_)
    | (with_reducible refine stays_trans (State_setInst_stays _ _ _) ?_)
    | (with_reducible refine stays_trans (State_setDom_stays _ _ _) ?_)
    | (with_reducible refine stays_trans (settleGm_stays _ _) ?_)
    | (with_reducible refine stays_trans (foldl_stays (fun s a => ?_) _ _) ?_)
    | (with_reducible refine foldl_stays (fun s a => ?_) _ _)
    | (with_reducible exact stays_refl _))

@[simp] theorem receiptTimeout_stays (i : Nat) (announce : Bool) (s : State) :
    (receiptTimeout i announce s).md.mode = s.md.mode ∧ (receiptTimeout i announce s).pwr.supply = s.pwr.supply := by
  unfold receiptTimeout
  repeat' (first
    | (with_reducible refine stays_ite (fun _ => ?_) (fun _ => ?_))
    | (with_reducible refine stays_trans (State_setDom_stays _ _ _) ?_)
    | (with_reducible refine stays_trans (State_setInst_stays _ _ _) ?_)
    | (with_reducible refine stays_trans (setPortState_stays _ _ _ _) ?_)
    | (with_reducible refine stays_trans (foldl_stays (fun s a => ?_) _ _) ?_)
    | (with_reducible refine foldl_stays (fun s a => ?_) _ _)
    | (with_reducible exact stays_refl _))

@[simp] theorem discardPtp_stays (n : Nat) (s : State) :
    (discardPtp n s).md.mode = s.md.mode ∧ (discardPtp n s).pwr.supply = s.pwr.supply := by
  unfold discardPtp
  repeat' (first
    | (with_reducible refine stays_ite (fun _ => ?_) (fun _ => ?_))
    | (with_reducible refine stays_trans (State_setPort_stays _ _ _) ?_)
    | (with_reducible refine stays_trans (foldl_stays (fun s a => ?_) _ _) ?_)
    | (with_reducible refine foldl_stays (fun s a => ?_) _ _)
    | (with_reducible exact stays_refl _))

@[simp] theorem syncComplete_stays (i : Nat) (n : Nat) (at_ : Nat) (rx : Rat) (origin : Rat) (corr : Rat) (ratio : Rat) (s : State) :
    (syncComplete i n at_ rx origin corr ratio s).md.mode = s.md.mode ∧ (syncComplete i n at_ rx origin corr ratio s).pwr.supply = s.pwr.supply := by
  unfold syncComplete
  repeat' (first
    | with_reducible exact ⟨rfl, rfl⟩
    | (with_reducible refine stays_ite (fun _ => ?_) (fun _ => ?_))
    | (with_reducible refine stays_trans (estimate_stays _ _ _ _) ?_))

@[simp] theorem noteGm_stays (i : Nat) (g : Option (Nat × Int)) (s : State) :
    (noteGm i g s).md.mode = s.md.mode ∧ (noteGm i g s).pwr.supply = s.pwr.supply := by
  unfold noteGm
  repeat' (first
    | (with_reducible refine stays_ite (fun _ => ?_) (fun _ => ?_))
    | (with_reducible refine stays_trans (State_setDom_stays _ _ _) ?_)
    | (with_reducible refine stays_trans (State_setInst_stays _ _ _) ?_)
    | (with_reducible refine stays_trans (raise_stays _ _) ?_)
    | (with_reducible refine stays_trans (foldl_stays (fun s a => ?_) _ _) ?_)
    | (with_reducible refine foldl_stays (fun s a => ?_) _ _)
    | (with_reducible exact stays_refl _)
    | dsimp only
    | split)

@[simp] theorem syncReceive_stays (n : Nat) (h : PtpHdr) (kind : SyncKind) (origin : Rat) (ratio : Rat) (i : Nat) (s : State) :
    (syncReceive n h kind origin ratio i s).md.mode = s.md.mode ∧ (syncReceive n h kind origin ratio i s).pwr.supply = s.pwr.supply := by
  unfold syncReceive
  repeat' (first
    | (with_reducible refine stays_ite (fun _ => ?_) (fun _ => ?_))
    | (with_reducible refine stays_trans (State_setDom_stays _ _ _) ?_)
    | (with_reducible refine stays_trans (State_setInst_stays _ _ _) ?_)
    | (with_reducible refine stays_trans (syncComplete_stays _ _ _ _ _ _ _ _) ?_)
    | (with_reducible refine stays_trans (noteGm_stays _ _ _) ?_)
    | (with_reducible refine stays_trans (foldl_stays (fun s a => ?_) _ _) ?_)
    | (with_reducible refine foldl_stays (fun s a => ?_) _ _)
    | (with_reducible exact stays_refl _)
    | split)

@[simp] theorem followUpReceive_stays (n : Nat) (h : PtpHdr) (origin : Rat) (ratio : Rat) (gm : Option (Nat × Int)) (i : Nat) (s : State) :
    (followUpReceive n h origin ratio gm i s).md.mode = s.md.mode ∧ (followUpReceive n h origin ratio gm i s).pwr.supply = s.pwr.supply := by
  unfold followUpReceive
  repeat' (first
    | (with_reducible refine stays_ite (fun _ => ?_) (fun _ => ?_))
    | (with_reducible refine stays_trans (noteGm_stays _ _ _) ?_)
    | (with_reducible refine stays_trans (syncComplete_stays _ _ _ _ _ _ _ _) ?_)
    | (with_reducible refine stays_trans (foldl_stays (fun s a => ?_) _ _) ?_)
    | (with_reducible refine foldl_stays (fun s a => ?_) _ _)
    | (with_reducible exact stays_refl _)
    | dsimp only
    | split)

@[simp] theorem takePriorities_stays (i : Nat) (s : State) :
    (takePriorities i s).md.mode = s.md.mode ∧ (takePriorities i s).pwr.supply = s.pwr.supply := by
  unfold takePriorities
  repeat' (first
    | (with_reducible refine stays_ite (fun _ => ?_) (fun _ => ?_))
    | (with_reducible refine stays_trans (State_setInst_stays _ _ _) ?_)
    | (with_reducible refine stays_trans (foldl_stays (fun s a => ?_) _ _) ?_)
    | (with_reducible refine foldl_stays (fun s a => ?_) _ _)
    | (with_reducible exact stays_refl _))

@[simp] theorem announceReceive_stays (n : Nat) (h : PtpHdr) (d : Dataset) (i : Nat) (s : State) :
    (announceReceive n h d i s).md.mode = s.md.mode ∧ (announceReceive n h d i s).pwr.supply = s.pwr.supply := by
  unfold announceReceive
  repeat' (first
    | (with_reducible refine stays_ite (fun _ => ?_) (fun _ => ?_))
    | (with_reducible refine stays_trans (settleInst_stays _ _) ?_)
    | (with_reducible refine stays_trans (takePriorities_stays _ _) ?_)
    | (with_reducible refine stays_trans (State_setInst_stays _ _ _) ?_)
    | (with_reducible refine stays_trans (announceUtc_stays _ _ _) ?_)
    | (with_reducible refine stays_trans (foldl_stays (fun s a => ?_) _ _) ?_)
    | (with_reducible refine foldl_stays (fun s a => ?_) _ _)
    | (with_reducible exact stays_refl _))

@[simp] theorem delayReqReceive_stays (n : Nat) (h : PtpHdr) (i : Nat) (s : State) :
    (delayReqReceive n h i s).md.mode = s.md.mode ∧ (delayReqReceive n h i s).pwr.supply = s.pwr.supply := by
  simp [delayReqReceive]

@[simp] theorem delayRespReceive_stays (n : Nat) (h : PtpHdr) (receive : Rat) (ident : Nat) (port : Nat) (i : Nat) (s : State) :
    (delayRespReceive n h receive ident port i s).md.mode = s.md.mode ∧ (delayRespReceive n h receive ident port i s).pwr.supply = s.pwr.supply := by
  unfold delayRespReceive
  repeat' (first
    | with_reducible exact ⟨rfl, rfl⟩
    | (with_reducible refine stays_ite (fun _ => ?_) (fun _ => ?_))
    | (with_reducible refine stays_trans (State_setInst_stays _ _ _) ?_)
    | (with_reducible refine stays_trans (foldl_stays (fun s a => ?_) _ _) ?_)
    | (with_reducible refine foldl_stays (fun s a => ?_) _ _)
    | dsimp only
    | split)

@[simp] theorem pdelayReqReceive_stays (n : Nat) (h : PtpHdr) (i : Nat) (s : State) :
    (pdelayReqReceive n h i s).md.mode = s.md.mode ∧ (pdelayReqReceive n h i s).pwr.supply = s.pwr.supply := by
  simp [pdelayReqReceive]

@[simp] theorem pdelayRespReceive_stays (n : Nat) (h : PtpHdr) (t2 : Rat) (t3 : Rat) (ident : Nat) (port : Nat) (i : Nat) (s : State) :
    (pdelayRespReceive n h t2 t3 ident port i s).md.mode = s.md.mode ∧ (pdelayRespReceive n h t2 t3 ident port i s).pwr.supply = s.pwr.supply := by
  unfold pdelayRespReceive
  repeat' (first
    | with_reducible exact ⟨rfl, rfl⟩
    | (with_reducible refine stays_ite (fun _ => ?_) (fun _ => ?_))
    | (with_reducible refine stays_trans (State_setPort_stays _ _ _) ?_)
    | (with_reducible refine stays_trans (foldl_stays (fun s a => ?_) _ _) ?_)
    | (with_reducible refine foldl_stays (fun s a => ?_) _ _)
    | dsimp only
    | split)

@[simp] theorem noteResidence_stays (i : Nat) (n : Nat) (h : PtpHdr) (kind : PtpKind) (twoStep : Bool) (residence : Rat) (s : State) :
    (noteResidence i n h kind twoStep residence s).md.mode = s.md.mode ∧ (noteResidence i n h kind twoStep residence s).pwr.supply = s.pwr.supply := by
  unfold noteResidence
  repeat' (first
    | (with_reducible refine stays_ite (fun _ => ?_) (fun _ => ?_))
    | (with_reducible refine stays_trans (State_setInst_stays _ _ _) ?_)
    | (with_reducible refine stays_trans (foldl_stays (fun s a => ?_) _ _) ?_)
    | (with_reducible refine foldl_stays (fun s a => ?_) _ _)
    | (with_reducible exact stays_refl _))

@[simp] theorem transparentForward_stays (n : Nat) (h : PtpHdr) (kind : PtpKind) (twoStep : Bool) (residence : Rat) (s : State) :
    (transparentForward n h kind twoStep residence s).md.mode = s.md.mode ∧ (transparentForward n h kind twoStep residence s).pwr.supply = s.pwr.supply := by
  unfold transparentForward
  repeat' (first
    | (with_reducible refine stays_ite (fun _ => ?_) (fun _ => ?_))
    | (with_reducible refine stays_trans (discardPtp_stays _ _) ?_)
    | (with_reducible refine stays_trans (send_stays _ _) ?_)
    | (with_reducible refine stays_trans (noteResidence_stays _ _ _ _ _ _ _) ?_)
    | (with_reducible refine stays_trans (foldl_stays (fun s a => ?_) _ _) ?_)
    | (with_reducible refine foldl_stays (fun s a => ?_) _ _)
    | (with_reducible exact stays_refl _)
    | dsimp only
    | split)

@[simp] theorem txNext_stays (n : Nat) (i : Nat) (j : Nat) (log : Int) (s : State) :
    (txNext n i j log s).md.mode = s.md.mode ∧ (txNext n i j log s).pwr.supply = s.pwr.supply := by
  unfold txNext
  repeat' (first
    | (with_reducible refine stays_ite (fun _ => ?_) (fun _ => ?_))
    | (with_reducible refine stays_trans (State_setPort_stays _ _ _) ?_)
    | (with_reducible refine stays_trans (foldl_stays (fun s a => ?_) _ _) ?_)
    | (with_reducible refine foldl_stays (fun s a => ?_) _ _)
    | (with_reducible exact stays_refl _))

@[simp] theorem announceTransmit_stays (n : Nat) (i : Nat) (s : State) :
    (announceTransmit n i s).md.mode = s.md.mode ∧ (announceTransmit n i s).pwr.supply = s.pwr.supply := by
  unfold announceTransmit originate
  dsimp only
  repeat' split
  all_goals first
    | exact ⟨rfl, rfl⟩
    | exact stays_trans (send_stays _ _) ⟨rfl, rfl⟩

@[simp] theorem syncTransmit_stays (n : Nat) (i : Nat) (s : State) :
    (syncTransmit n i s).md.mode = s.md.mode ∧ (syncTransmit n i s).pwr.supply = s.pwr.supply := by
  unfold syncTransmit originate
  dsimp only
  repeat' split
  all_goals first
    | exact ⟨rfl, rfl⟩
    | exact stays_trans (send_stays _ _) ⟨rfl, rfl⟩

@[simp] theorem delayReqTransmit_stays (n : Nat) (i : Nat) (s : State) :
    (delayReqTransmit n i s).md.mode = s.md.mode ∧ (delayReqTransmit n i s).pwr.supply = s.pwr.supply := by
  unfold delayReqTransmit
  repeat' (first
    | with_reducible exact ⟨rfl, rfl⟩
    | (with_reducible refine stays_ite (fun _ => ?_) (fun _ => ?_)))

@[simp] theorem pdelayReqTransmit_stays (n : Nat) (i : Nat) (s : State) :
    (pdelayReqTransmit n i s).md.mode = s.md.mode ∧ (pdelayReqTransmit n i s).pwr.supply = s.pwr.supply := by
  simp [pdelayReqTransmit]

@[simp] theorem linkChange_stays (n : Nat) (up : Bool) (partnerMaster : Bool) (s : State) :
    (linkChange n up partnerMaster s).md.mode = s.md.mode ∧ (linkChange n up partnerMaster s).pwr.supply = s.pwr.supply := by
  simp [linkChange]

@[simp] theorem realignCopies_stays (n : Nat) (mismatch : BitVec 4) (s : State) :
    (realignCopies n mismatch s).md.mode = s.md.mode ∧ (realignCopies n mismatch s).pwr.supply = s.pwr.supply := by
  exact ⟨rfl, rfl⟩

@[simp] theorem settleDomRank_stays (s : State) (i : Nat) :
    (settleDomRank s i).md.mode = s.md.mode ∧ (settleDomRank s i).pwr.supply = s.pwr.supply := by
  unfold settleDomRank
  repeat' (first
    | with_reducible exact ⟨rfl, rfl⟩
    | (with_reducible refine stays_ite (fun _ => ?_) (fun _ => ?_))
    | (with_reducible refine stays_trans (State_setDom_stays _ _ _) ?_)
    | (with_reducible refine stays_trans (raise_stays _ _) ?_)
    | (with_reducible refine stays_trans (foldl_stays (fun s a => ?_) _ _) ?_)
    | (with_reducible refine foldl_stays (fun s a => ?_) _ _)
    | dsimp only
    | split)

@[simp] theorem domainRankWait_stays (i : Nat) (s : State) :
    (domainRankWait i s).md.mode = s.md.mode ∧ (domainRankWait i s).pwr.supply = s.pwr.supply := by
  unfold domainRankWait
  repeat' (first
    | with_reducible exact ⟨rfl, rfl⟩
    | (with_reducible refine stays_ite (fun _ => ?_) (fun _ => ?_))
    | (with_reducible refine stays_trans (raise_stays _ _) ?_)
    | (with_reducible refine stays_trans (State_setDom_stays _ _ _) ?_)
    | (with_reducible refine stays_trans (foldl_stays (fun s a => ?_) _ _) ?_)
    | (with_reducible refine foldl_stays (fun s a => ?_) _ _)
    | dsimp only
    | split)

@[simp] theorem settleDom_stays (s : State) (i : Nat) :
    (settleDom s i).md.mode = s.md.mode ∧ (settleDom s i).pwr.supply = s.pwr.supply := by
  simp [settleDom]

@[simp] theorem kindChanged_stays (i : Nat) (old : Nat) (s : State) :
    (kindChanged i old s).md.mode = s.md.mode ∧ (kindChanged i old s).pwr.supply = s.pwr.supply := by
  simp [kindChanged]

@[simp] theorem layer2_stays (n : Nat) (dst : Nat) (src : Nat) (etherType : Nat) (payload : List Byte) (s : State) :
    (layer2 n dst src etherType payload s).md.mode = s.md.mode ∧ (layer2 n dst src etherType payload s).pwr.supply = s.pwr.supply := by
  unfold layer2
  repeat' (first
    | with_reducible exact ⟨rfl, rfl⟩
    | (with_reducible refine stays_ite (fun _ => ?_) (fun _ => ?_))
    | (with_reducible refine stays_trans (send_stays _ _) ?_)
    | (with_reducible refine stays_trans (foldl_stays (fun s a => ?_) _ _) ?_))

@[simp] theorem State_setCand_stays (s : State) (c : Nat) (f : Cand → Cand) :
    (State.setCand s c f).md.mode = s.md.mode ∧ (State.setCand s c f).pwr.supply = s.pwr.supply := by
  exact ⟨rfl, rfl⟩

@[simp] theorem State_setGnss_stays (s : State) (f : Gnss → Gnss) :
    (State.setGnss s f).md.mode = s.md.mode ∧ (State.setGnss s f).pwr.supply = s.pwr.supply := by
  exact ⟨rfl, rfl⟩

@[simp] theorem candGo_stays (c : Nat) (st : CandState) (s : State) :
    (candGo c st s).md.mode = s.md.mode ∧ (candGo c st s).pwr.supply = s.pwr.supply := by
  simp [candGo]

@[simp] theorem missEdge_stays (c : Nat) (s : State) :
    (missEdge c s).md.mode = s.md.mode ∧ (missEdge c s).pwr.supply = s.pwr.supply := by
  exact ⟨rfl, rfl⟩

@[simp] theorem candEdge_stays (c : Nat) (t : Rat) (s : State) :
    (candEdge c t s).md.mode = s.md.mode ∧ (candEdge c t s).pwr.supply = s.pwr.supply := by
  unfold candEdge
  repeat' (first
    | (with_reducible refine stays_ite (fun _ => ?_) (fun _ => ?_))
    | (with_reducible refine stays_trans (State_setCand_stays _ _ _) ?_)
    | (with_reducible refine stays_trans (foldl_stays (fun s a => ?_) _ _) ?_)
    | (with_reducible refine foldl_stays (fun s a => ?_) _ _)
    | (with_reducible exact stays_refl _))

@[simp] theorem extraEdge_stays (c : Nat) (s : State) :
    (extraEdge c s).md.mode = s.md.mode ∧ (extraEdge c s).pwr.supply = s.pwr.supply := by
  exact ⟨rfl, rfl⟩

@[simp] theorem judgePulse_stays (c : Nat) (t : Rat) (s : State) :
    (judgePulse c t s).md.mode = s.md.mode ∧ (judgePulse c t s).pwr.supply = s.pwr.supply := by
  unfold judgePulse
  repeat' (first
    | (with_reducible refine stays_ite (fun _ => ?_) (fun _ => ?_))
    | (with_reducible refine stays_trans (State_setGnss_stays _ _) ?_)
    | (with_reducible refine stays_trans (missEdge_stays _ _) ?_)
    | (with_reducible refine stays_trans (labelAligned_stays _ _ _ _ _) ?_)
    | (with_reducible refine stays_trans (candEdge_stays _ _ _) ?_)
    | (with_reducible refine stays_trans (timePulse_stays _ _ _ _ _) ?_)
    | (with_reducible refine stays_trans (foldl_stays (fun s a => ?_) _ _) ?_)
    | (with_reducible refine foldl_stays (fun s a => ?_) _ _)
    | (with_reducible exact stays_refl _))

@[simp] theorem judgeOpen_stays (c : Nat) (s : State) :
    (judgeOpen c s).md.mode = s.md.mode ∧ (judgeOpen c s).pwr.supply = s.pwr.supply := by
  unfold judgeOpen
  repeat' (first
    | (with_reducible refine stays_ite (fun _ => ?_) (fun _ => ?_))
    | (with_reducible refine stays_trans (judgePulse_stays _ _ _) ?_)
    | (with_reducible refine stays_trans (foldl_stays (fun s a => ?_) _ _) ?_)
    | (with_reducible refine foldl_stays (fun s a => ?_) _ _)
    | (with_reducible exact stays_refl _)
    | dsimp only
    | split)

@[simp] theorem labelledPulse_stays (c : Nat) (t : Rat) (s : State) :
    (labelledPulse c t s).md.mode = s.md.mode ∧ (labelledPulse c t s).pwr.supply = s.pwr.supply := by
  unfold labelledPulse
  repeat' (first
    | (with_reducible refine stays_ite (fun _ => ?_) (fun _ => ?_))
    | (with_reducible refine stays_trans (judgeOpen_stays _ _) ?_)
    | (with_reducible refine stays_trans (edgeToChannels_stays _ _ _) ?_)
    | (with_reducible refine stays_trans (State_setGnss_stays _ _) ?_)
    | (with_reducible refine stays_trans (judgePulse_stays _ _ _) ?_)
    | (with_reducible refine stays_trans (foldl_stays (fun s a => ?_) _ _) ?_)
    | (with_reducible refine foldl_stays (fun s a => ?_) _ _)
    | (with_reducible exact stays_refl _))

@[simp] theorem labelledMissing_stays (c : Nat) (s : State) :
    (labelledMissing c s).md.mode = s.md.mode ∧ (labelledMissing c s).pwr.supply = s.pwr.supply := by
  simp [labelledMissing]

@[simp] theorem gnssSentence_stays (chars : List Byte) (began : Nat) (s : State) :
    (gnssSentence chars began s).md.mode = s.md.mode ∧ (gnssSentence chars began s).pwr.supply = s.pwr.supply := by
  unfold gnssSentence
  repeat' (first
    | with_reducible exact ⟨rfl, rfl⟩
    | (with_reducible refine stays_ite (fun _ => ?_) (fun _ => ?_))
    | (with_reducible refine stays_trans (State_setGnss_stays _ _) ?_)
    | (with_reducible refine stays_trans (judgeOpen_stays _ _) ?_)
    | (with_reducible refine stays_trans (foldl_stays (fun s a => ?_) _ _) ?_)
    | (with_reducible refine foldl_stays (fun s a => ?_) _ _)
    | dsimp only
    | split)

@[simp] theorem msgLatestExpiry_stays (s : State) :
    (msgLatestExpiry s).md.mode = s.md.mode ∧ (msgLatestExpiry s).pwr.supply = s.pwr.supply := by
  unfold msgLatestExpiry
  repeat' (first
    | with_reducible exact ⟨rfl, rfl⟩
    | (with_reducible refine stays_ite (fun _ => ?_) (fun _ => ?_))
    | (with_reducible refine stays_trans (judgeOpen_stays _ _) ?_)
    | (with_reducible refine stays_trans (foldl_stays (fun s a => ?_) _ _) ?_)
    | (with_reducible refine foldl_stays (fun s a => ?_) _ _)
    | dsimp only
    | split)

@[simp] theorem gnssSourceMissing_stays (n : Nat) (s : State) :
    (gnssSourceMissing n s).md.mode = s.md.mode ∧ (gnssSourceMissing n s).pwr.supply = s.pwr.supply := by
  simp [gnssSourceMissing]

@[simp] theorem clkEdge_stays (c : Nat) (t : Rat) (s : State) :
    (clkEdge c t s).md.mode = s.md.mode ∧ (clkEdge c t s).pwr.supply = s.pwr.supply := by
  unfold clkEdge
  repeat' (first
    | (with_reducible refine stays_ite (fun _ => ?_) (fun _ => ?_))
    | (with_reducible refine stays_trans (State_setCand_stays _ _ _) ?_)
    | (with_reducible refine stays_trans (candEdge_stays _ _ _) ?_)
    | (with_reducible refine stays_trans (edgeToChannels_stays _ _ _) ?_)
    | (with_reducible refine stays_trans (foldl_stays (fun s a => ?_) _ _) ?_)
    | (with_reducible refine foldl_stays (fun s a => ?_) _ _)
    | (with_reducible exact stays_refl _))

@[simp] theorem pulseEdge_stays (c : Nat) (t : Rat) (s : State) :
    (pulseEdge c t s).md.mode = s.md.mode ∧ (pulseEdge c t s).pwr.supply = s.pwr.supply := by
  unfold pulseEdge
  repeat' (first
    | (with_reducible refine stays_ite (fun _ => ?_) (fun _ => ?_))
    | (with_reducible refine stays_trans (candEdge_stays _ _ _) ?_)
    | (with_reducible refine stays_trans (State_setCand_stays _ _ _) ?_)
    | (with_reducible refine stays_trans (edgeToChannels_stays _ _ _) ?_)
    | (with_reducible refine stays_trans (labelledPulse_stays _ _ _) ?_)
    | (with_reducible refine stays_trans (extraEdge_stays _ _) ?_)
    | (with_reducible refine stays_trans (foldl_stays (fun s a => ?_) _ _) ?_)
    | (with_reducible refine foldl_stays (fun s a => ?_) _ _)
    | (with_reducible exact stays_refl _)
    | dsimp only
    | split)

@[simp] theorem referenceEdge_stays (n : Nat) (pin : Rat) (s : State) :
    (referenceEdge n pin s).md.mode = s.md.mode ∧ (referenceEdge n pin s).pwr.supply = s.pwr.supply := by
  unfold referenceEdge
  repeat' (first
    | (with_reducible refine stays_ite (fun _ => ?_) (fun _ => ?_))
    | (with_reducible refine stays_trans (clkEdge_stays _ _ _) ?_)
    | (with_reducible refine stays_trans (pulseEdge_stays _ _ _) ?_)
    | (with_reducible refine stays_trans (foldl_stays (fun s a => ?_) _ _) ?_)
    | (with_reducible refine foldl_stays (fun s a => ?_) _ _)
    | (with_reducible exact stays_refl _)
    | dsimp only
    | split)

@[simp] theorem domainEdge_stays (i : Nat) (s : State) :
    (domainEdge i s).md.mode = s.md.mode ∧ (domainEdge i s).pwr.supply = s.pwr.supply := by
  unfold domainEdge
  repeat' (first
    | (with_reducible refine stays_ite (fun _ => ?_) (fun _ => ?_))
    | (with_reducible refine stays_trans (candEdge_stays _ _ _) ?_)
    | (with_reducible refine stays_trans (State_setCand_stays _ _ _) ?_)
    | (with_reducible refine stays_trans (edgeToChannels_stays _ _ _) ?_)
    | (with_reducible refine stays_trans (labelAligned_stays _ _ _ _ _) ?_)
    | (with_reducible refine stays_trans (State_setDom_stays _ _ _) ?_)
    | (with_reducible refine stays_trans (foldl_stays (fun s a => ?_) _ _) ?_)
    | (with_reducible refine foldl_stays (fun s a => ?_) _ _)
    | (with_reducible exact stays_refl _))

@[simp] theorem missingEdge_stays (c : Nat) (s : State) :
    (missingEdge c s).md.mode = s.md.mode ∧ (missingEdge c s).pwr.supply = s.pwr.supply := by
  unfold missingEdge
  try dsimp only
  (repeat' split) <;> first
    | with_reducible exact ⟨rfl, rfl⟩
    | simp

@[simp] theorem frequencyUpdate_stays (c : Nat) (s : State) :
    (frequencyUpdate c s).md.mode = s.md.mode ∧ (frequencyUpdate c s).pwr.supply = s.pwr.supply := by
  simp [frequencyUpdate]

@[simp] theorem startCand_stays (c : Nat) (s : State) :
    (startCand c s).md.mode = s.md.mode ∧ (startCand c s).pwr.supply = s.pwr.supply := by
  unfold startCand
  try dsimp only
  (repeat' split) <;> first
    | with_reducible exact ⟨rfl, rfl⟩
    | simp

@[simp] theorem enableWritten_stays (c : Nat) (s : State) :
    (enableWritten c s).md.mode = s.md.mode ∧ (enableWritten c s).pwr.supply = s.pwr.supply := by
  simp [enableWritten]

@[simp] theorem qualifyCand_stays (c : Nat) (s : State) :
    (qualifyCand c s).md.mode = s.md.mode ∧ (qualifyCand c s).pwr.supply = s.pwr.supply := by
  unfold qualifyCand
  repeat' (first
    | (with_reducible refine stays_ite (fun _ => ?_) (fun _ => ?_))
    | (with_reducible refine stays_trans (candGo_stays _ _ _) ?_)
    | (with_reducible refine stays_trans (State_setCand_stays _ _ _) ?_)
    | (with_reducible refine stays_trans (foldl_stays (fun s a => ?_) _ _) ?_)
    | (with_reducible refine foldl_stays (fun s a => ?_) _ _)
    | (with_reducible exact stays_refl _))

@[simp] theorem candDisqualified_stays (c : Nat) (s : State) :
    (candDisqualified c s).md.mode = s.md.mode ∧ (candDisqualified c s).pwr.supply = s.pwr.supply := by
  unfold candDisqualified
  repeat' (first
    | (with_reducible refine stays_ite (fun _ => ?_) (fun _ => ?_))
    | (with_reducible refine stays_trans (candGo_stays _ _ _) ?_)
    | (with_reducible refine stays_trans (State_setCand_stays _ _ _) ?_)
    | (with_reducible refine stays_trans (foldl_stays (fun s a => ?_) _ _) ?_)
    | (with_reducible refine foldl_stays (fun s a => ?_) _ _)
    | (with_reducible exact stays_refl _))

@[simp] theorem settleCand_stays (s : State) (c : Nat) :
    (settleCand s c).md.mode = s.md.mode ∧ (settleCand s c).pwr.supply = s.pwr.supply := by
  unfold settleCand
  try dsimp only
  (repeat' split) <;> first
    | with_reducible exact ⟨rfl, rfl⟩
    | simp

@[simp] theorem wtrReached_stays (c : Nat) (s : State) :
    (wtrReached c s).md.mode = s.md.mode ∧ (wtrReached c s).pwr.supply = s.pwr.supply := by
  unfold wtrReached
  try dsimp only
  (repeat' split) <;> first
    | with_reducible exact ⟨rfl, rfl⟩
    | simp

@[simp] theorem settleRank_stays (s : State) (c : Nat) :
    (settleRank s c).md.mode = s.md.mode ∧ (settleRank s c).pwr.supply = s.pwr.supply := by
  unfold settleRank
  repeat' (first
    | with_reducible exact ⟨rfl, rfl⟩
    | (with_reducible refine stays_ite (fun _ => ?_) (fun _ => ?_))
    | (with_reducible refine stays_trans (State_setCand_stays _ _ _) ?_)
    | (with_reducible refine stays_trans (raise_stays _ _) ?_)
    | (with_reducible refine stays_trans (foldl_stays (fun s a => ?_) _ _) ?_)
    | (with_reducible refine foldl_stays (fun s a => ?_) _ _)
    | dsimp only
    | split)

@[simp] theorem rankImprovement_stays (c : Nat) (s : State) :
    (rankImprovement c s).md.mode = s.md.mode ∧ (rankImprovement c s).pwr.supply = s.pwr.supply := by
  unfold rankImprovement
  repeat' (first
    | with_reducible exact ⟨rfl, rfl⟩
    | (with_reducible refine stays_ite (fun _ => ?_) (fun _ => ?_))
    | (with_reducible refine stays_trans (raise_stays _ _) ?_)
    | (with_reducible refine stays_trans (State_setCand_stays _ _ _) ?_)
    | (with_reducible refine stays_trans (foldl_stays (fun s a => ?_) _ _) ?_)
    | (with_reducible refine foldl_stays (fun s a => ?_) _ _)
    | dsimp only
    | split)

@[simp] theorem settleSel_stays (s : State) (n : Nat) :
    (settleSel s n).md.mode = s.md.mode ∧ (settleSel s n).pwr.supply = s.pwr.supply := by
  unfold settleSel
  repeat' (first
    | with_reducible exact ⟨rfl, rfl⟩
    | (with_reducible refine stays_ite (fun _ => ?_) (fun _ => ?_))
    | (with_reducible refine stays_trans (noteSelection_stays _ _ _ _) ?_))

@[simp] theorem settleSelected_stays (s : State) (c : Nat) :
    (settleSelected s c).md.mode = s.md.mode ∧ (settleSelected s c).pwr.supply = s.pwr.supply := by
  unfold settleSelected
  try dsimp only
  (repeat' split) <;> first
    | with_reducible exact ⟨rfl, rfl⟩
    | simp

@[simp] theorem evaluateSelectors_stays (s : State) :
    (evaluateSelectors s).md.mode = s.md.mode ∧ (evaluateSelectors s).pwr.supply = s.pwr.supply := by
  unfold evaluateSelectors
  repeat' (first
    | (with_reducible refine stays_ite (fun _ => ?_) (fun _ => ?_))
    | (with_reducible refine stays_trans (settleSelected_stays _ _) ?_)
    | (with_reducible refine stays_trans (settleSel_stays _ _) ?_)
    | (with_reducible refine stays_trans (foldl_stays (fun s a => ?_) _ _) ?_)
    | (with_reducible refine foldl_stays (fun s a => ?_) _ _)
    | (with_reducible exact stays_refl _))

@[simp] theorem fenceCand_stays (c : Nat) (s : State) :
    (fenceCand c s).md.mode = s.md.mode ∧ (fenceCand c s).pwr.supply = s.pwr.supply := by
  unfold fenceCand
  repeat' (first
    | (with_reducible refine stays_ite (fun _ => ?_) (fun _ => ?_))
    | (with_reducible refine stays_trans (settleSelected_stays _ _) ?_)
    | (with_reducible refine stays_trans (settleSel_stays _ _) ?_)
    | (with_reducible refine stays_trans (candGo_stays _ _ _) ?_)
    | (with_reducible refine stays_trans (foldl_stays (fun s a => ?_) _ _) ?_)
    | (with_reducible refine foldl_stays (fun s a => ?_) _ _)
    | (with_reducible exact stays_refl _))

@[simp] theorem flushJournal_stays (s : State) :
    (flushJournal s).md.mode = s.md.mode ∧ (flushJournal s).pwr.supply = s.pwr.supply := by
  exact ⟨rfl, rfl⟩

@[simp] theorem record_stays (r : JRec) (s : State) :
    (record r s).md.mode = s.md.mode ∧ (record r s).pwr.supply = s.pwr.supply := by
  have hj (j : Jr) : ({ s with jr := j } : State).md.mode = s.md.mode ∧ ({ s with jr := j } : State).pwr.supply = s.pwr.supply := ⟨rfl, rfl⟩
  refine stays_trans (raise_stays _ _) ?_
  exact stays_ite (fun _ => stays_trans (flushJournal_stays _) (hj _)) (fun _ => hj _)

@[simp] theorem journalFlush_stays (s : State) :
    (journalFlush s).md.mode = s.md.mode ∧ (journalFlush s).pwr.supply = s.pwr.supply := by
  simp [journalFlush]

@[simp] theorem settleVouch_stays (s : State) :
    (settleVouch s).md.mode = s.md.mode ∧ (settleVouch s).pwr.supply = s.pwr.supply := by
  simp [settleVouch]

@[simp] theorem settleLevels_stays (s : State) :
    (settleLevels s).md.mode = s.md.mode ∧ (settleLevels s).pwr.supply = s.pwr.supply := by
  exact ⟨rfl, rfl⟩

@[simp] theorem takeSettings_stays (s : State) :
    (takeSettings s).md.mode = s.md.mode ∧ (takeSettings s).pwr.supply = s.pwr.supply := by
  refine stays_trans (foldl_stays (fun s k => ?_) _ _) ⟨rfl, rfl⟩
  split
  · exact ⟨rfl, rfl⟩
  · exact copyUtc_stays k s

@[simp] theorem settleDeliveries_stays (s : State) :
    (settleDeliveries s).md.mode = s.md.mode ∧ (settleDeliveries s).pwr.supply = s.pwr.supply := by
  exact ⟨rfl, rfl⟩

@[simp] theorem settlePins_stays (s : State) :
    (settlePins s).md.mode = s.md.mode ∧ (settlePins s).pwr.supply = s.pwr.supply := by
  exact ⟨rfl, rfl⟩

@[simp] theorem writeTarn_stays (r : TarnRec) (s : State) :
    (writeTarn r s).md.mode = s.md.mode ∧ (writeTarn r s).pwr.supply = s.pwr.supply := by
  simp [writeTarn]

@[simp] theorem clearTarn_stays (s : State) :
    (clearTarn s).md.mode = s.md.mode ∧ (clearTarn s).pwr.supply = s.pwr.supply := by
  exact ⟨rfl, rfl⟩

@[simp] theorem steerStops_stays (c : Nat) (s : State) :
    (steerStops c s).md.mode = s.md.mode ∧ (steerStops c s).pwr.supply = s.pwr.supply := by
  simp [steerStops]

@[simp] theorem stopCore_stays (c : Nat) (st : CoreState) (s : State) :
    (stopCore c st s).md.mode = s.md.mode ∧ (stopCore c st s).pwr.supply = s.pwr.supply := by
  simp [stopCore]

@[simp] theorem fenceCore_stays (c : Nat) (s : State) :
    (fenceCore c s).md.mode = s.md.mode ∧ (fenceCore c s).pwr.supply = s.pwr.supply := by
  simp [fenceCore]

@[simp] theorem closeMasks_stays (s : State) :
    (closeMasks s).md.mode = s.md.mode ∧ (closeMasks s).pwr.supply = s.pwr.supply := by
  exact ⟨rfl, rfl⟩

@[simp] theorem fenceEffect_stays (u : FUnit) (s : State) :
    (fenceEffect u s).md.mode = s.md.mode ∧ (fenceEffect u s).pwr.supply = s.pwr.supply := by
  unfold fenceEffect
  repeat' (first
    | (with_reducible refine stays_ite (fun _ => ?_) (fun _ => ?_))
    | (with_reducible refine stays_trans (fenceCand_stays _ _) ?_)
    | (with_reducible refine stays_trans (fenceChannel_stays _ _) ?_)
    | (with_reducible refine stays_trans (fenceSyn_stays _ _) ?_)
    | (with_reducible refine stays_trans (fenceTb_stays _ _) ?_)
    | (with_reducible refine stays_trans (fenceTsi_stays _ _) ?_)
    | (with_reducible refine stays_trans (fenceTc_stays _ _) ?_)
    | (with_reducible refine stays_trans (fenceAxis_stays _ _) ?_)
    | (with_reducible refine stays_trans (fenceCalendar_stays _) ?_)
    | (with_reducible refine stays_trans (State_setTrg_stays _ _ _) ?_)
    | (with_reducible refine stays_trans (settle_stays _) ?_)
    | (with_reducible refine stays_trans (fenceCore_stays _ _) ?_)
    | (with_reducible refine stays_trans (foldl_stays (fun s a => ?_) _ _) ?_)
    | (with_reducible refine foldl_stays (fun s a => ?_) _ _)
    | (with_reducible exact stays_refl _)
    | dsimp only
    | split)

@[simp] theorem fenceUnit_stays (u : FUnit) (cls : Nat) (s : State) :
    (fenceUnit u cls s).md.mode = s.md.mode ∧ (fenceUnit u cls s).pwr.supply = s.pwr.supply := by
  unfold fenceUnit
  repeat' (first
    | (with_reducible refine stays_ite (fun _ => ?_) (fun _ => ?_))
    | (with_reducible refine stays_trans (fenceEffect_stays _ _) ?_)
    | (with_reducible refine stays_trans (foldl_stays (fun s a => ?_) _ _) ?_)
    | (with_reducible refine foldl_stays (fun s a => ?_) _ _)
    | (with_reducible exact stays_refl _))

@[simp] theorem holdWords_stays (s : State) :
    (holdWords s).md.mode = s.md.mode ∧ (holdWords s).pwr.supply = s.pwr.supply := by
  unfold holdWords
  repeat' (first
    | (with_reducible refine stays_ite (fun _ => ?_) (fun _ => ?_))
    | (with_reducible refine stays_trans (endPull_stays _ _) ?_)
    | (with_reducible refine stays_trans (foldl_stays (fun s a => ?_) _ _) ?_)
    | (with_reducible refine foldl_stays (fun s a => ?_) _ _)
    | (with_reducible exact stays_refl _))

@[simp] theorem leaveStandby_stays (s : State) :
    (leaveStandby s).md.mode = s.md.mode ∧ (leaveStandby s).pwr.supply = s.pwr.supply := by
  unfold leaveStandby
  repeat' (first
    | (with_reducible refine stays_ite (fun _ => ?_) (fun _ => ?_))
    | (with_reducible refine stays_trans (wakeCalendar_stays _) ?_)
    | (with_reducible refine stays_trans (wakeTcs_stays _) ?_)
    | (with_reducible refine stays_trans (tdcRestart_stays _) ?_)
    | (with_reducible refine stays_trans (foldl_stays (fun s a => ?_) _ _) ?_)
    | (with_reducible refine foldl_stays (fun s a => ?_) _ _)
    | (with_reducible exact stays_refl _))

@[simp] theorem writeSafeRecord_stays (s : State) :
    (writeSafeRecord s).md.mode = s.md.mode ∧ (writeSafeRecord s).pwr.supply = s.pwr.supply := by
  unfold writeSafeRecord
  repeat' (first
    | with_reducible exact ⟨rfl, rfl⟩
    | (with_reducible refine stays_ite (fun _ => ?_) (fun _ => ?_))
    | (with_reducible refine stays_trans (foldl_stays (fun s a => ?_) _ _) ?_)
    | (with_reducible refine foldl_stays (fun s a => ?_) _ _)
    | dsimp only
    | split)

@[simp] theorem engineStops_stays (s : State) :
    (engineStops s).md.mode = s.md.mode ∧ (engineStops s).pwr.supply = s.pwr.supply := by
  exact ⟨rfl, rfl⟩

@[simp] theorem eccReaction_stays (id : Nat) (syn : BitVec 32) (s : State) :
    (eccReaction id syn s).md.mode = s.md.mode ∧ (eccReaction id syn s).pwr.supply = s.pwr.supply := by
  unfold eccReaction
  repeat' (first
    | (with_reducible refine stays_ite (fun _ => ?_) (fun _ => ?_))
    | (with_reducible refine stays_trans (State_setHo_stays _ _ _) ?_)
    | (with_reducible refine stays_trans (foldl_stays (fun s a => ?_) _ _) ?_)
    | (with_reducible refine foldl_stays (fun s a => ?_) _ _)
    | (with_reducible exact stays_refl _)
    | dsimp only
    | split)

@[simp] theorem tallied_stays (f : Fc → Fc) (s : State) :
    (tallied f s).md.mode = s.md.mode ∧ (tallied f s).pwr.supply = s.pwr.supply := by
  unfold tallied
  repeat' (first
    | (with_reducible refine stays_ite (fun _ => ?_) (fun _ => ?_))
    | (with_reducible refine stays_trans (foldl_stays (fun s a => ?_) _ _) ?_)
    | (with_reducible refine foldl_stays (fun s a => ?_) _ _)
    | (with_reducible exact stays_refl _))

@[simp] theorem consequential_stays (id : Nat) (syn : BitVec 32) (cls : Nat) (s : State) :
    (consequential id syn cls s).md.mode = s.md.mode ∧ (consequential id syn cls s).pwr.supply = s.pwr.supply := by
  unfold consequential
  repeat' (first
    | (with_reducible refine stays_ite (fun _ => ?_) (fun _ => ?_))
    | (with_reducible refine stays_trans (tallied_stays _ _) ?_)
    | (with_reducible refine stays_trans (writeTarn_stays _ _) ?_)
    | (with_reducible refine stays_trans (foldl_stays (fun s a => ?_) _ _) ?_)
    | (with_reducible refine foldl_stays (fun s a => ?_) _ _)
    | (with_reducible exact stays_refl _))

@[simp] theorem injectedReport_stays (id : Nat) (s : State) :
    (injectedReport id s).md.mode = s.md.mode ∧ (injectedReport id s).pwr.supply = s.pwr.supply := by
  unfold injectedReport
  repeat' (first
    | (with_reducible refine stays_ite (fun _ => ?_) (fun _ => ?_))
    | (with_reducible refine stays_trans (tallied_stays _ _) ?_)
    | (with_reducible refine stays_trans (writeTarn_stays _ _) ?_)
    | (with_reducible refine stays_trans (foldl_stays (fun s a => ?_) _ _) ?_)
    | (with_reducible refine foldl_stays (fun s a => ?_) _ _)
    | (with_reducible exact stays_refl _))

@[simp] theorem startInjection_stays (id : Nat) (s : State) :
    (startInjection id s).md.mode = s.md.mode ∧ (startInjection id s).pwr.supply = s.pwr.supply := by
  exact ⟨rfl, rfl⟩

@[simp] theorem startSweep_stays (s : State) :
    (startSweep s).md.mode = s.md.mode ∧ (startSweep s).pwr.supply = s.pwr.supply := by
  exact ⟨rfl, rfl⟩

@[simp] theorem lowInput_stays (s : State) :
    (lowInput s).md.mode = s.md.mode ∧ (lowInput s).pwr.supply = s.pwr.supply := by
  simp [lowInput]

@[simp] theorem setPfail_stays (s : State) :
    (setPfail s).md.mode = s.md.mode ∧ (setPfail s).pwr.supply = s.pwr.supply := by
  simp [setPfail]

@[simp] theorem overVoltage_stays (mv : Nat) (s : State) :
    (overVoltage mv s).md.mode = s.md.mode ∧ (overVoltage mv s).pwr.supply = s.pwr.supply := by
  simp [overVoltage]

@[simp] theorem inputRestored_stays (mv : Nat) (s : State) :
    (inputRestored mv s).md.mode = s.md.mode ∧ (inputRestored mv s).pwr.supply = s.pwr.supply := by
  exact ⟨rfl, rfl⟩

@[simp] theorem holdupWritten_stays (s : State) :
    (holdupWritten s).md.mode = s.md.mode ∧ (holdupWritten s).pwr.supply = s.pwr.supply := by
  simp [holdupWritten]

@[simp] theorem clearPfail_stays (s : State) :
    (clearPfail s).md.mode = s.md.mode ∧ (clearPfail s).pwr.supply = s.pwr.supply := by
  simp [clearPfail]

@[simp] theorem holdupCopied_stays (s : State) :
    (holdupCopied s).md.mode = s.md.mode ∧ (holdupCopied s).pwr.supply = s.pwr.supply := by
  simp [holdupCopied]

@[simp] theorem loadConfig_stays (i : StartIn) (s : State) :
    (loadConfig i s).md.mode = s.md.mode ∧ (loadConfig i s).pwr.supply = s.pwr.supply := by
  simp [loadConfig]

@[simp] theorem loadStores_stays (i : StartIn) (s : State) :
    (loadStores i s).md.mode = s.md.mode ∧ (loadStores i s).pwr.supply = s.pwr.supply := by
  exact ⟨rfl, rfl⟩

@[simp] theorem startCandidate_stays (s : State) (c : Nat) :
    (startCandidate s c).md.mode = s.md.mode ∧ (startCandidate s c).pwr.supply = s.pwr.supply := by
  unfold startCandidate
  repeat' (first
    | (with_reducible refine stays_ite (fun _ => ?_) (fun _ => ?_))
    | (with_reducible refine stays_trans (startCand_stays _ _) ?_)
    | (with_reducible refine stays_trans (enableWritten_stays _ _) ?_)
    | (with_reducible refine stays_trans (foldl_stays (fun s a => ?_) _ _) ?_)
    | (with_reducible refine foldl_stays (fun s a => ?_) _ _)
    | (with_reducible exact stays_refl _))

@[simp] theorem startRanks_stays (s : State) :
    (startRanks s).md.mode = s.md.mode ∧ (startRanks s).pwr.supply = s.pwr.supply := by
  exact ⟨rfl, rfl⟩

@[simp] theorem startBlocks_stays (s : State) :
    (startBlocks s).md.mode = s.md.mode ∧ (startBlocks s).pwr.supply = s.pwr.supply := by
  unfold startBlocks
  repeat' (first
    | (with_reducible refine stays_ite (fun _ => ?_) (fun _ => ?_))
    | (with_reducible refine stays_trans (commitCore_stays _ _ _) ?_)
    | (with_reducible refine stays_trans (enableCore_stays _ _ _) ?_)
    | (with_reducible refine stays_trans (takePriorities_stays _ _) ?_)
    | (with_reducible refine stays_trans (startCandidate_stays _ _) ?_)
    | (with_reducible refine stays_trans (domGo_stays _ _ _) ?_)
    | (with_reducible refine stays_trans (copyUtc_stays _ _) ?_)
    | (with_reducible refine stays_trans (loadTcs_stays _) ?_)
    | (with_reducible refine stays_trans (loadAxes_stays _) ?_)
    | (with_reducible refine stays_trans (loadActions_stays _) ?_)
    | (with_reducible refine stays_trans (startRanks_stays _) ?_)
    | (with_reducible refine stays_trans (enableServo_stays _ _ _) ?_)
    | (with_reducible refine stays_trans (foldl_stays (fun s a => ?_) _ _) ?_)
    | (with_reducible refine foldl_stays (fun s a => ?_) _ _)
    | (with_reducible exact stays_refl _))

@[simp] theorem stepOne_stays (i : StartIn) (s : State) :
    (stepOne i s).md.mode = s.md.mode ∧ (stepOne i s).pwr.supply = s.pwr.supply := by
  unfold stepOne
  repeat' (first
    | (with_reducible refine stays_ite (fun _ => ?_) (fun _ => ?_))
    | (with_reducible refine stays_trans (startBlocks_stays _) ?_)
    | (with_reducible refine stays_trans (loadStores_stays _ _) ?_)
    | (with_reducible refine stays_trans (loadConfig_stays _ _) ?_)
    | (with_reducible refine stays_trans (foldl_stays (fun s a => ?_) _ _) ?_)
    | (with_reducible refine foldl_stays (fun s a => ?_) _ _)
    | (with_reducible exact stays_refl _))

@[simp] theorem startCores_stays (i : StartIn) (s : State) :
    (startCores i s).md.mode = s.md.mode ∧ (startCores i s).pwr.supply = s.pwr.supply := by
  exact ⟨rfl, rfl⟩

@[simp] theorem recordStart_stays (s : State) :
    (recordStart s).md.mode = s.md.mode ∧ (recordStart s).pwr.supply = s.pwr.supply := by
  simp [recordStart]

@[simp] theorem tablesAfter_stays (dt : Nat) (s : State) :
    (tablesAfter dt s).md.mode = s.md.mode ∧ (tablesAfter dt s).pwr.supply = s.pwr.supply := by
  simp [tablesAfter]

@[simp] theorem sealLimits_stays (s : State) :
    (sealLimits s).md.mode = s.md.mode ∧ (sealLimits s).pwr.supply = s.pwr.supply := by
  simp [sealLimits]

@[simp] theorem stopStart_stays (s : State) :
    (stopStart s).md.mode = s.md.mode ∧ (stopStart s).pwr.supply = s.pwr.supply := by
  unfold stopStart
  repeat' (first
    | (with_reducible refine stays_ite (fun _ => ?_) (fun _ => ?_))
    | (with_reducible refine stays_trans (setPfail_stays _) ?_)
    | (with_reducible refine stays_trans (foldl_stays (fun s a => ?_) _ _) ?_)
    | (with_reducible refine foldl_stays (fun s a => ?_) _ _)
    | (with_reducible exact stays_refl _))

@[simp] theorem setOvenReady_stays (s : State) :
    (setOvenReady s).md.mode = s.md.mode ∧ (setOvenReady s).pwr.supply = s.pwr.supply := by
  simp [setOvenReady]

@[simp] theorem refreshMeasurements_stays (m : Sensors) (s : State) :
    (refreshMeasurements m s).md.mode = s.md.mode ∧ (refreshMeasurements m s).pwr.supply = s.pwr.supply := by
  simp [refreshMeasurements]

@[simp] theorem acceptSleep_stays (arg : Nat) (s : State) :
    (acceptSleep arg s).md.mode = s.md.mode ∧ (acceptSleep arg s).pwr.supply = s.pwr.supply := by
  simp [acceptSleep]

@[simp] theorem beginWake_stays (cause : Nat) (port : Nat) (s : State) :
    (beginWake cause port s).md.mode = s.md.mode ∧ (beginWake cause port s).pwr.supply = s.pwr.supply := by
  exact ⟨rfl, rfl⟩

@[simp] theorem wakeSource_stays (bit : Nat) (port : Nat) (s : State) :
    (wakeSource bit port s).md.mode = s.md.mode ∧ (wakeSource bit port s).pwr.supply = s.pwr.supply := by
  simp [wakeSource]

@[simp] theorem wakePin_stays (held : Bool) (s : State) :
    (wakePin held s).md.mode = s.md.mode ∧ (wakePin held s).pwr.supply = s.pwr.supply := by
  simp [wakePin]

@[simp] theorem canWake_stays (ch : Nat) (ident : Nat) (s : State) :
    (canWake ch ident s).md.mode = s.md.mode ∧ (canWake ch ident s).pwr.supply = s.pwr.supply := by
  simp [canWake]

@[simp] theorem t1Wake_stays (port : Nat) (s : State) :
    (t1Wake port s).md.mode = s.md.mode ∧ (t1Wake port s).pwr.supply = s.pwr.supply := by
  simp [t1Wake]

@[simp] theorem timebaseAlarm_stays (s : State) :
    (timebaseAlarm s).md.mode = s.md.mode ∧ (timebaseAlarm s).pwr.supply = s.pwr.supply := by
  simp [timebaseAlarm]

@[simp] theorem deselectAll_stays (s : State) :
    (deselectAll s).md.mode = s.md.mode ∧ (deselectAll s).pwr.supply = s.pwr.supply := by
  unfold deselectAll
  repeat' (first
    | (with_reducible refine stays_ite (fun _ => ?_) (fun _ => ?_))
    | (with_reducible refine stays_trans (noteSelection_stays _ _ _ _) ?_)
    | (with_reducible refine stays_trans (foldl_stays (fun s a => ?_) _ _) ?_)
    | (with_reducible refine foldl_stays (fun s a => ?_) _ _)
    | (with_reducible exact stays_refl _)
    | dsimp only
    | split)

@[simp] theorem sleepPorts_stays (s : State) :
    (sleepPorts s).md.mode = s.md.mode ∧ (sleepPorts s).pwr.supply = s.pwr.supply := by
  unfold sleepPorts
  repeat' (first
    | (with_reducible refine stays_ite (fun _ => ?_) (fun _ => ?_))
    | (with_reducible refine stays_trans (linkChange_stays _ _ _ _) ?_)
    | (with_reducible refine stays_trans (State_setPort_stays _ _ _) ?_)
    | (with_reducible refine stays_trans (foldl_stays (fun s a => ?_) _ _) ?_)
    | (with_reducible refine foldl_stays (fun s a => ?_) _ _)
    | (with_reducible exact stays_refl _))

@[simp] theorem standbyStops_stays (s : State) :
    (standbyStops s).md.mode = s.md.mode ∧ (standbyStops s).pwr.supply = s.pwr.supply := by
  have h := stays_trans (sleepPorts_stays _) (stays_trans (sleepCalendar_stays _) (stays_trans (sleepTcs_stays _)
    (stays_trans (sleepTimebases_stays _) (stays_trans (foldl_stays (fun s n => followSelection_stays s n) (List.range 8) _)
      (deselectAll_stays { s with rf := { s.rf with stopped := true } })))))
  unfold standbyStops forEach
  dsimp only
  generalize sleepPorts _ = z at *
  exact h

@[simp] theorem codingChange_stays (s : State) :
    (codingChange s).md.mode = s.md.mode ∧ (codingChange s).pwr.supply = s.pwr.supply := by
  simp [codingChange]

@[simp] theorem beginStore_stays (erase : Bool) (s : State) :
    (beginStore erase s).md.mode = s.md.mode ∧ (beginStore erase s).pwr.supply = s.pwr.supply := by
  exact ⟨rfl, rfl⟩

@[simp] theorem storeComplete_stays (e : StoreEnd) (s : State) :
    (storeComplete e s).md.mode = s.md.mode ∧ (storeComplete e s).pwr.supply = s.pwr.supply := by
  unfold storeComplete
  repeat' (first
    | with_reducible exact ⟨rfl, rfl⟩
    | (with_reducible refine stays_ite (fun _ => ?_) (fun _ => ?_))
    | (with_reducible refine stays_trans (raise_stays _ _) ?_)
    | (with_reducible refine stays_trans (foldl_stays (fun s a => ?_) _ _) ?_)
    | (with_reducible refine foldl_stays (fun s a => ?_) _ _)
    | dsimp only
    | split)

@[simp] theorem setSlot_stays (f : FwSlot → FwSlot) (s : State) :
    (setSlot f s).md.mode = s.md.mode ∧ (setSlot f s).pwr.supply = s.pwr.supply := by
  exact ⟨rfl, rfl⟩

@[simp] theorem openFirmware_stays (s : State) :
    (openFirmware s).md.mode = s.md.mode ∧ (openFirmware s).pwr.supply = s.pwr.supply := by
  exact ⟨rfl, rfl⟩

@[simp] theorem dropFirmware_stays (s : State) :
    (dropFirmware s).md.mode = s.md.mode ∧ (dropFirmware s).pwr.supply = s.pwr.supply := by
  exact ⟨rfl, rfl⟩

@[simp] theorem refreshPass_stays (due : Nat) (failed : Nat) (spare : Nat) (erase : Nat) (s : State) :
    (refreshPass due failed spare erase s).md.mode = s.md.mode ∧ (refreshPass due failed spare erase s).pwr.supply = s.pwr.supply := by
  simp [refreshPass]

@[simp] theorem routeWritten_stays (n : Nat) (v : Int) (s : State) :
    (routeWritten n v s).md.mode = s.md.mode ∧ (routeWritten n v s).pwr.supply = s.pwr.supply := by
  simp [routeWritten]

@[simp] theorem enableOut_stays (n : Nat) (old : State) (v : Int) (s : State) :
    (enableOut n old v s).md.mode = s.md.mode ∧ (enableOut n old v s).pwr.supply = s.pwr.supply := by
  unfold enableOut
  repeat' (first
    | (with_reducible refine stays_ite (fun _ => ?_) (fun _ => ?_))
    | (with_reducible refine stays_trans (originNow_stays _ _) ?_)
    | (with_reducible refine stays_trans (foldl_stays (fun s a => ?_) _ _) ?_)
    | (with_reducible refine foldl_stays (fun s a => ?_) _ _)
    | (with_reducible exact stays_refl _))

@[simp] theorem coreWritten_stays (n : Nat) (old : State) (s : State) :
    (coreWritten n old s).md.mode = s.md.mode ∧ (coreWritten n old s).pwr.supply = s.pwr.supply := by
  unfold coreWritten
  repeat' (first
    | (with_reducible refine stays_ite (fun _ => ?_) (fun _ => ?_))
    | (with_reducible refine stays_trans (State_setOut_stays _ _ _) ?_)
    | (with_reducible refine stays_trans (foldl_stays (fun s a => ?_) _ _) ?_)
    | (with_reducible refine foldl_stays (fun s a => ?_) _ _)
    | (with_reducible exact stays_refl _))

@[simp] theorem emit_stays (r : Requester) (version : Nat) (opcode : Nat) (seq : Nat) (status : Nat) (flags : Nat) (address : Nat) (segment : Nat) (payload : List Byte) (s : State) :
    (emit r version opcode seq status flags address segment payload s).md.mode = s.md.mode ∧ (emit r version opcode seq status flags address segment payload s).pwr.supply = s.pwr.supply := by
  simp [emit]

@[simp] theorem respond_stays (r : Requester) (f : Frame) (version : Nat) (status : Nat) (payload : List Byte) (s : State) :
    (respond r f version status payload s).md.mode = s.md.mode ∧ (respond r f version status payload s).pwr.supply = s.pwr.supply := by
  simp [respond]

@[simp] theorem answer_stays (r : Requester) (f : Frame) (version : Nat) (status : Nat) (payload : List Byte) (s : State) :
    (answer r f version status payload s).md.mode = s.md.mode ∧ (answer r f version status payload s).pwr.supply = s.pwr.supply := by
  simp [answer]

@[simp] theorem journalWrite_stays (r : Requester) (f : Frame) (l : List (Elem × Int)) (old : State) (s : State) :
    (journalWrite r f l old s).md.mode = s.md.mode ∧ (journalWrite r f l old s).pwr.supply = s.pwr.supply := by
  unfold journalWrite
  refine foldl_stays (fun _ _ => ?_) _ _
  first
    | with_reducible exact ⟨rfl, rfl⟩
    | simp

@[simp] theorem waitRelay_stays (r : Requester) (f : Frame) (via : Nat) (s : State) :
    (waitRelay r f via s).md.mode = s.md.mode ∧ (waitRelay r f via s).pwr.supply = s.pwr.supply := by
  exact ⟨rfl, rfl⟩

@[simp] theorem endWrite_stays (r : Requester) (a : Nat) (s : State) :
    (endWrite r a s).md.mode = s.md.mode ∧ (endWrite r a s).pwr.supply = s.pwr.supply := by
  exact ⟨rfl, rfl⟩

@[simp] theorem interruptFirmware_stays (s : State) :
    (interruptFirmware s).md.mode = s.md.mode ∧ (interruptFirmware s).pwr.supply = s.pwr.supply := by
  exact ⟨rfl, rfl⟩

@[simp] theorem discardWrite_stays (r : Requester) (a : Nat) (s : State) :
    (discardWrite r a s).md.mode = s.md.mode ∧ (discardWrite r a s).pwr.supply = s.pwr.supply := by
  simp [discardWrite]

@[simp] theorem discardFrame_stays (s : State) :
    (discardFrame s).md.mode = s.md.mode ∧ (discardFrame s).pwr.supply = s.pwr.supply := by
  exact ⟨rfl, rfl⟩

@[simp] theorem endRelay_stays (status : Nat) (s : State) (x : Relay) :
    (endRelay status s x).md.mode = s.md.mode ∧ (endRelay status s x).pwr.supply = s.pwr.supply := by
  simp [endRelay]

@[simp] theorem relayTimeout_stays (s : State) :
    (relayTimeout s).md.mode = s.md.mode ∧ (relayTimeout s).pwr.supply = s.pwr.supply := by
  unfold relayTimeout
  refine foldl_stays (fun _ _ => ?_) _ _
  first
    | with_reducible exact ⟨rfl, rfl⟩
    | simp

@[simp] theorem settleRelays_stays (s : State) :
    (settleRelays s).md.mode = s.md.mode ∧ (settleRelays s).pwr.supply = s.pwr.supply := by
  unfold settleRelays
  refine foldl_stays (fun _ _ => ?_) _ _
  first
    | with_reducible exact ⟨rfl, rfl⟩
    | simp

@[simp] theorem transferTimeout_stays (s : State) :
    (transferTimeout s).md.mode = s.md.mode ∧ (transferTimeout s).pwr.supply = s.pwr.supply := by
  simp [transferTimeout]

@[simp] theorem leaseExpiry_stays (s : State) :
    (leaseExpiry s).md.mode = s.md.mode ∧ (leaseExpiry s).pwr.supply = s.pwr.supply := by
  exact ⟨rfl, rfl⟩

@[simp] theorem sendEvents_stays (k : Nat) (l : List DRec) (s : State) :
    (sendEvents k l s).md.mode = s.md.mode ∧ (sendEvents k l s).pwr.supply = s.pwr.supply := by
  unfold sendEvents
  try dsimp only
  (repeat' split) <;> first
    | with_reducible exact ⟨rfl, rfl⟩
    | simp

@[simp] theorem sendDelivery_stays (l : List DRec) (s : State) (k : Nat) :
    (sendDelivery l s k).md.mode = s.md.mode ∧ (sendDelivery l s k).pwr.supply = s.pwr.supply := by
  unfold sendDelivery
  repeat' (first
    | with_reducible exact ⟨rfl, rfl⟩
    | (with_reducible refine stays_ite (fun _ => ?_) (fun _ => ?_))
    | (with_reducible refine stays_trans (sendEvents_stays _ _ _) ?_)
    | (with_reducible refine stays_trans (foldl_stays (fun s a => ?_) _ _) ?_)
    | (with_reducible refine foldl_stays (fun s a => ?_) _ _)
    | dsimp only
    | split)

@[simp] theorem eventMessage_stays (s : State) :
    (eventMessage s).md.mode = s.md.mode ∧ (eventMessage s).pwr.supply = s.pwr.supply := by
  unfold eventMessage
  repeat' (first
    | with_reducible exact ⟨rfl, rfl⟩
    | (with_reducible refine stays_ite (fun _ => ?_) (fun _ => ?_))
    | (with_reducible refine stays_trans (sendDelivery_stays _ _ _) ?_)
    | (with_reducible refine stays_trans (foldl_stays (fun s a => ?_) _ _) ?_)
    | (with_reducible refine foldl_stays (fun s a => ?_) _ _)
    | dsimp only
    | split)

@[simp] theorem streamPacket_stays (s : State) :
    (streamPacket s).md.mode = s.md.mode ∧ (streamPacket s).pwr.supply = s.pwr.supply := by
  unfold streamPacket
  try dsimp only
  (repeat' split) <;> first
    | with_reducible exact ⟨rfl, rfl⟩
    | simp

@[simp] theorem settleStream_stays (s : State) :
    (settleStream s).md.mode = s.md.mode ∧ (settleStream s).pwr.supply = s.pwr.supply := by
  unfold settleStream
  repeat' (first
    | with_reducible exact ⟨rfl, rfl⟩
    | (with_reducible refine stays_ite (fun _ => ?_) (fun _ => ?_))
    | (with_reducible refine stays_trans (foldl_stays (fun s a => ?_) _ _) ?_)
    | (with_reducible refine foldl_stays (fun s a => ?_) _ _)
    | dsimp only
    | split)

@[simp] theorem answerSleep_stays (q : SleepSeq) (status : Nat) (kind : Nat) (s : State) :
    (answerSleep q status kind s).md.mode = s.md.mode ∧ (answerSleep q status kind s).pwr.supply = s.pwr.supply := by
  simp [answerSleep]

@[simp] theorem sleepDecision_stays (s : State) :
    (sleepDecision s).md.mode = s.md.mode ∧ (sleepDecision s).pwr.supply = s.pwr.supply := by
  unfold sleepDecision
  try dsimp only
  (repeat' split) <;> first
    | with_reducible exact ⟨rfl, rfl⟩
    | simp

@[simp] theorem arpReply_stays (port : Nat) (target : Nat) (mac : Nat) (ip : Nat) (s : State) :
    (arpReply port target mac ip s).md.mode = s.md.mode ∧ (arpReply port target mac ip s).pwr.supply = s.pwr.supply := by
  simp [arpReply]

@[simp] theorem icmpReply_stays (port : Nat) (target : Nat) (mac : Nat) (ip : Nat) (payload : List Byte) (s : State) :
    (icmpReply port target mac ip payload s).md.mode = s.md.mode ∧ (icmpReply port target mac ip payload s).pwr.supply = s.pwr.supply := by
  simp [icmpReply]

@[simp] theorem claimBy_stays (c : Nat) (fast : Bool) (s : State) :
    (claimBy c fast s).md.mode = s.md.mode ∧ (claimBy c fast s).pwr.supply = s.pwr.supply := by
  simp [claimBy]

@[simp] theorem coalesceTimeout_stays (k : Nat) (s : State) :
    (coalesceTimeout k s).md.mode = s.md.mode ∧ (coalesceTimeout k s).pwr.supply = s.pwr.supply := by
  simp [coalesceTimeout]

@[simp] theorem deliveryRetry_stays (s : State) :
    (deliveryRetry s).md.mode = s.md.mode ∧ (deliveryRetry s).pwr.supply = s.pwr.supply := by
  simp [deliveryRetry]

@[simp] theorem stretchExpiry_stays (k : Nat) (s : State) :
    (stretchExpiry k s).md.mode = s.md.mode ∧ (stretchExpiry k s).pwr.supply = s.pwr.supply := by
  exact ⟨rfl, rfl⟩

@[simp] theorem lockLoss_stays (c : Nat) (s : State) :
    (lockLoss c s).md.mode = s.md.mode ∧ (lockLoss c s).pwr.supply = s.pwr.supply := by
  simp [lockLoss]

@[simp] theorem pullEnd_stays (p : TaperPath) (s : State) :
    (pullEnd p s).md.mode = s.md.mode ∧ (pullEnd p s).pwr.supply = s.pwr.supply := by
  unfold pullEnd
  repeat' (first
    | with_reducible exact ⟨rfl, rfl⟩
    | (with_reducible refine stays_ite (fun _ => ?_) (fun _ => ?_))
    | (with_reducible refine stays_trans (State_setChan_stays _ _ _) ?_)
    | (with_reducible refine stays_trans (State_setTb_stays _ _ _) ?_)
    | (with_reducible refine stays_trans (State_setOut_stays _ _ _) ?_)
    | (with_reducible refine stays_trans (foldl_stays (fun s a => ?_) _ _) ?_)
    | (with_reducible refine foldl_stays (fun s a => ?_) _ _)
    | dsimp only
    | split)

@[simp] theorem ldaUpdate_stays (s : State) :
    (ldaUpdate s).md.mode = s.md.mode ∧ (ldaUpdate s).pwr.supply = s.pwr.supply := by
  simp [ldaUpdate]

@[simp] theorem coreStops_stays (c : Nat) (s : State) :
    (coreStops c s).md.mode = s.md.mode ∧ (coreStops c s).pwr.supply = s.pwr.supply := by
  simp [coreStops]

end Sys2Proof.Machine
end

