-- ==== Sys2Proof/Laws/Safe.lean ====
section
/-! SUPPORT. Which operations keep a module with power in SAFE (R371). -/

namespace Sys2Proof.Machine

variable {s t : State}

theorem InSafe.of_stays (h : t.md.mode = s.md.mode ∧ t.pwr.supply = s.pwr.supply) (hs : InSafe s) : InSafe t := by
  obtain ⟨h1, h3⟩ := h
  exact ⟨h1.trans hs.1, h3.trans hs.2⟩

theorem foldl_safe {α : Type} {f : State → α → State} (h : ∀ s a, InSafe s → InSafe (f s a)) (l : List α) (s : State)
    (hs : InSafe s) : InSafe (l.foldl f s) := by
  induction l generalizing s with
  | nil => exact hs
  | cons a l ih => exact ih _ (h s a hs)

/-! ## What follows a command -/

theorem finish_safe (hs : InSafe s) : InSafe (finish s) := by
  have hr := finish_rest s
  have h3 := congrArg (fun z : State => z.pwr.supply) hr
  have h1 := finish_mode_fixed s (by rw [hs.1]; exact Mode.noConfusion) (by rw [hs.1]; exact Mode.noConfusion) (by rw [hs.1]; exact Mode.noConfusion)
  exact hs.of_stays ⟨h1, h3⟩

theorem settle_safe (hs : InSafe s) : InSafe (settle s) := by
  have hr := settle_rest s
  have h3 := congrArg (fun z : State => z.pwr.supply) hr
  have h1 := settle_mode_fixed s (by rw [hs.1]; exact Mode.noConfusion) (by rw [hs.1]; exact Mode.noConfusion) (by rw [hs.1]; exact Mode.noConfusion)
  exact hs.of_stays ⟨h1, h3⟩

theorem settleMode_safe (hs : InSafe s) : InSafe (settleMode s) := by
  have hr := settleMode_rest s
  have h3 := congrArg (fun z : State => z.pwr.supply) hr
  refine InSafe.of_stays (s := s) ⟨?_, h3⟩ hs
  rw [settleMode_mode, modeNow_fixed] <;> simp [hs.1]

theorem nextCycle_safe (commit mode sel : Bool) (hs : InSafe s) : InSafe (nextCycle commit mode sel s) := by
  unfold nextCycle
  dsimp only
  have h1 : InSafe (if commit then commitNow s else s) := by
    split
    · exact hs.of_stays (commitNow_stays s)
    · exact hs
  generalize (if commit then commitNow s else s) = a at *
  have h2 : InSafe (if sel then evaluateSelectors a else a) := by
    split
    · exact h1.of_stays (evaluateSelectors_stays a)
    · exact h1
  generalize (if sel then evaluateSelectors a else a) = b at *
  refine settle_safe ?_
  split
  · exact settleMode_safe h2
  · exact h2

theorem passCycles_safe (n dt : Nat) (hs : InSafe s) : InSafe (passCycles n dt s) := by
  induction n generalizing dt s with
  | zero => exact hs.of_stays (advance_stays dt s)
  | succ n ih =>
    unfold passCycles
    split
    · exact ih _ (nextCycle_safe _ _ _ ((hs.of_stays (advance_stays 1 s)).of_stays (takeSettings_stays _)))
    · exact hs.of_stays (advance_stays dt s)

theorem elapse_safe (dt : Nat) (hs : InSafe s) : InSafe (elapse dt s) :=
  (passCycles_safe 4 dt hs).of_stays (noteTargets_stays true _)

theorem enterSafeMode_safe (r : Option TarnRec) (hs : InSafe s) : InSafe (enterSafeMode r s) := by
  unfold enterSafeMode
  rw [if_pos hs.1]
  exact hs

/-! ## Operations -/

theorem reactTo_safe (id : Nat) (syn : BitVec 32) (path : Bool) (cls : Nat) (r : TarnRec) {s : State} (hs : InSafe s) :
    InSafe (reactTo id syn path cls r s) := by
  unfold reactTo
  repeat' (first
    | (with_reducible assumption)
    | (with_reducible refine enterSafeMode_safe _ ?_)
    | (with_reducible refine InSafe.of_stays (fenceUnit_stays _ _ _ ) ?_)
    | (with_reducible refine foldl_safe (fun s a hs => ?_) _ _ ?_)
    | dsimp only
    | split
    | exact hs)

theorem independent_safe (id : Nat) (syn : BitVec 32) (path : Bool) (cls : Nat) {s : State} (hs : InSafe s) :
    InSafe (independent id syn path cls s) := by
  unfold independent
  repeat' (first
    | (with_reducible assumption)
    | (with_reducible refine InSafe.of_stays (raise_stays _ _ ) ?_)
    | (with_reducible refine InSafe.of_stays (writeTarn_stays _ _ ) ?_)
    | (with_reducible refine InSafe.of_stays (tallied_stays _ _ ) ?_)
    | (with_reducible refine reactTo_safe _ _ _ _ _ ?_))

theorem takeReport_safe (id : Nat) (syn : BitVec 32) (path : Bool) {s : State} (hs : InSafe s) :
    InSafe (takeReport id syn path s) := by
  unfold takeReport
  repeat' (first
    | (with_reducible assumption)
    | (with_reducible refine InSafe.of_stays (tallied_stays _ _ ) ?_)
    | (with_reducible refine InSafe.of_stays (eccReaction_stays _ _ _ ) ?_)
    | (with_reducible refine InSafe.of_stays (consequential_stays _ _ _ _ ) ?_)
    | (with_reducible refine independent_safe _ _ _ _ ?_)
    | (with_reducible refine InSafe.of_stays (engineStops_stays _ ) ?_)
    | (with_reducible refine foldl_safe (fun s a hs => ?_) _ _ ?_)
    | dsimp only
    | split)

theorem reportFree_safe (id : Nat) {s : State} (hs : InSafe s) :
    InSafe (reportFree id s) := by
  unfold reportFree
  repeat' (first
    | (with_reducible assumption)
    | (with_reducible refine takeReport_safe _ _ _ ?_)
    | (with_reducible refine foldl_safe (fun s a hs => ?_) _ _ ?_)
    | dsimp only
    | split
    | exact hs)

theorem noReport_safe (id : Nat) {s : State} (hs : InSafe s) : InSafe (noReport id s) := takeReport_safe _ _ _ hs

theorem selfFault_safe (recordPath : Bool) {s : State} (hs : InSafe s) :
    InSafe (selfFault recordPath s) := by
  unfold selfFault
  repeat' (first
    | (with_reducible assumption)
    | (with_reducible refine enterSafeMode_safe _ ?_)
    | (with_reducible refine InSafe.of_stays (raise_stays _ _ ) ?_)
    | (with_reducible refine InSafe.of_stays (writeTarn_stays _ _ ) ?_)
    | (with_reducible refine InSafe.of_stays (tallied_stays _ _ ) ?_)
    | (with_reducible refine foldl_safe (fun s a hs => ?_) _ _ ?_)
    | dsimp only
    | split
    | exact hs)

theorem realReport_safe (id : Nat) (o : Option (BitVec 32)) {s : State} (hs : InSafe s) :
    InSafe (realReport id o s) := by
  unfold realReport
  repeat' (first
    | (with_reducible assumption)
    | (with_reducible refine takeReport_safe _ _ _ ?_)
    | (with_reducible refine foldl_safe (fun s a hs => ?_) _ _ ?_)
    | dsimp only
    | split)

theorem injectionCheck_safe (id : Nat) (show_ : Bool) (i0 : Option (BitVec 32)) (i0b : Option (BitVec 32)) (i1 : Option (BitVec 32)) {s : State} (hs : InSafe s) :
    InSafe (injectionCheck id show_ i0 i0b i1 s) := by
  unfold injectionCheck
  repeat' (first
    | (with_reducible assumption)
    | (with_reducible refine takeReport_safe _ _ _ ?_)
    | (with_reducible refine noReport_safe _ ?_)
    | (with_reducible refine InSafe.of_stays (injectedReport_stays _ _ ) ?_)
    | (with_reducible refine realReport_safe _ _ ?_)
    | (with_reducible refine foldl_safe (fun s a hs => ?_) _ _ ?_)
    | dsimp only
    | split)

theorem completeInjection_safe (i0 : Option (BitVec 32)) (i0b : Option (BitVec 32)) (i1 : Option (BitVec 32)) {s : State} (hs : InSafe s) :
    InSafe (completeInjection i0 i0b i1 s) := by
  unfold completeInjection
  split
  · exact hs
  · next j _ =>
    dsimp only
    generalize (if armed s j.checker then injectionResult j.checker i0 i0b i1 else 2) = res
    have h := injectionCheck_safe j.checker true i0 i0b i1 (s := { s with fc := { s.fc with injecting := none, injectResult := res } }) hs
    refine InSafe.of_stays (raise_stays _ _) ?_
    split <;> exact h

theorem sweepStep_safe (i0 : Option (BitVec 32)) (i0b : Option (BitVec 32)) (i1 : Option (BitVec 32)) {s : State} (hs : InSafe s) :
    InSafe (sweepStep i0 i0b i1 s) := by
  unfold sweepStep
  repeat' split
  all_goals first | exact hs | exact completeInjection_safe _ _ _ hs

theorem startupInjection_safe (bad : List Nat) (id : Nat) {s : State} (hs : InSafe s) :
    InSafe (startupInjection bad s id) := by
  unfold startupInjection
  repeat' (first
    | (with_reducible assumption)
    | (with_reducible refine noReport_safe _ ?_)
    | (with_reducible refine foldl_safe (fun s a hs => ?_) _ _ ?_)
    | dsimp only
    | split)

theorem reportCodings_safe  {s : State} (hs : InSafe s) :
    InSafe (reportCodings s) := by
  unfold reportCodings
  repeat' (first
    | (with_reducible assumption)
    | (with_reducible refine reportFree_safe _ ?_)
    | (with_reducible refine foldl_safe (fun s a hs => ?_) _ _ ?_)
    | dsimp only
    | split)

theorem stepTwo_safe (i : StartIn) {s : State} (hs : InSafe s) :
    InSafe (stepTwo i s) := by
  unfold stepTwo
  repeat' (first
    | (with_reducible assumption)
    | (with_reducible refine startupInjection_safe _ _ ?_)
    | (with_reducible refine foldl_safe (fun s a hs => ?_) _ _ ?_)
    | dsimp only
    | split
    | exact hs)

theorem stepThree_safe (i : StartIn) {s : State} (hs : InSafe s) :
    InSafe (stepThree i s) := by
  unfold stepThree
  repeat' (first
    | (with_reducible assumption)
    | (with_reducible refine InSafe.of_stays (raiseIf_stays _ _ _ ) ?_)
    | (with_reducible refine reportFree_safe _ ?_)
    | (with_reducible refine InSafe.of_stays (startCores_stays _ _ ) ?_)
    | (with_reducible refine InSafe.of_stays (recordStart_stays _ ) ?_)
    | (with_reducible refine foldl_safe (fun s a hs => ?_) _ _ ?_)
    | dsimp only
    | split
    | exact hs)

theorem finishStart_safe (sealDur : Nat) (entryDur : Nat) {s : State} (hs : InSafe s) :
    InSafe (finishStart sealDur entryDur s) := by
  unfold finishStart
  rw [if_pos (.inr hs.1)]
  exact hs

theorem startHold_safe (sealDur : Nat) (entryDur : Nat) {s : State} (hs : InSafe s) :
    InSafe (startHold sealDur entryDur s) := by
  have h : InSafe { s with md := { s.md with
      phase := if s.md.mode = .safe then .ended else .hold, holdEnd := s.clk.count + s.cfg.sy.startupHold * 1000000000 } } := by
    exact hs
  unfold startHold
  dsimp only
  split
  · exact finishStart_safe _ _ h
  · exact h

theorem runSteps_safe (i : StartIn) (sealDur : Nat) (entryDur : Nat) {s : State} (hs : InSafe s) :
    InSafe (runSteps i sealDur entryDur s) := by
  have one : ∀ s, InSafe s → InSafe (settle (stepOne i (elapse i.load s))) := fun s h => settle_safe (InSafe.of_stays (stepOne_stays i _) (elapse_safe _ h))
  have two : ∀ s, InSafe s → InSafe (settle (stepTwo i (elapse i.bist s))) := fun s h => settle_safe (stepTwo_safe i (elapse_safe _ h))
  unfold runSteps
  dsimp only
  split
  · exact startHold_safe _ _ (settle_safe (stepThree_safe i (InSafe.of_stays (tablesAfter_stays _ _) (elapse_safe _ (two _ (one _ hs))))))
  · split
    · exact InSafe.of_stays (stopStart_stays _) (elapse_safe _ hs)
    · split
      · exact InSafe.of_stays (stopStart_stays _) (elapse_safe _ (one _ hs))
      · exact InSafe.of_stays (stopStart_stays _) (elapse_safe _ (two _ (one _ hs)))

theorem powerUp_safe (i : StartIn) (sealDur : Nat) (entryDur : Nat) {s : State} (hs : InSafe s) :
    InSafe (powerUp i sealDur entryDur s) := by
  have hp : s.powered = true := by simp [State.powered, hs.2]
  unfold powerUp
  rw [hp]
  split
  · contradiction
  · split
    · exact runSteps_safe _ _ _ hs
    · exact hs

theorem holdExpiry_safe (sealDur : Nat) (entryDur : Nat) {s : State} (hs : InSafe s) :
    InSafe (holdExpiry sealDur entryDur s) := by
  unfold holdExpiry
  repeat' (first
    | (with_reducible assumption)
    | (with_reducible refine finishStart_safe _ _ ?_)
    | (with_reducible refine foldl_safe (fun s a hs => ?_) _ _ ?_)
    | dsimp only
    | split)

theorem reportUnnamed_safe  {s : State} (hs : InSafe s) :
    InSafe (reportUnnamed s) := by
  unfold reportUnnamed
  repeat' (first
    | (with_reducible assumption)
    | (with_reducible refine reportFree_safe _ ?_)
    | (with_reducible refine foldl_safe (fun s a hs => ?_) _ _ ?_)
    | dsimp only
    | split
    | exact hs)

theorem ovenExcursion_safe  {s : State} (hs : InSafe s) :
    InSafe (ovenExcursion s) := by
  unfold ovenExcursion
  repeat' (first
    | (with_reducible assumption)
    | (with_reducible refine reportUnnamed_safe ?_)
    | (with_reducible refine InSafe.of_stays (raise_stays _ _ ) ?_)
    | (with_reducible refine foldl_safe (fun s a hs => ?_) _ _ ?_)
    | dsimp only
    | split)

theorem sleepCommit_safe  {s : State} (hs : InSafe s) :
    InSafe (sleepCommit s) := by
  have hc : InSafe (commitSleep s) := by
    unfold commitSleep
    dsimp only
    rw [if_neg (by rw [hs.1]; decide)]
    exact hs
  unfold sleepCommit
  repeat' split
  all_goals first | exact hs | exact hc

theorem wakeComplete_safe  {s : State} (hs : InSafe s) :
    InSafe (wakeComplete s) := by
  unfold wakeComplete
  rw [if_pos (Or.inl (by rw [hs.1]; exact Mode.noConfusion))]
  exact hs

theorem completeBy_safe (c : Nat) (word : BitVec 32) {s : State} (hs : InSafe s) :
    InSafe (completeBy c word s) := by
  unfold completeBy
  repeat' (first
    | (with_reducible assumption)
    | (with_reducible refine reportFree_safe _ ?_)
    | (with_reducible refine foldl_safe (fun s a hs => ?_) _ _ ?_)
    | dsimp only
    | split
    | exact hs)

theorem calibration_safe (n : Nat) (ok : Bool) (syndrome : BitVec 32) {s : State} (hs : InSafe s) :
    InSafe (calibration n ok syndrome s) := by
  unfold calibration
  repeat' (first
    | (with_reducible assumption)
    | (with_reducible refine InSafe.of_stays (tdcCalibrated_stays _ _ ) ?_)
    | (with_reducible refine takeReport_safe _ _ _ ?_)
    | (with_reducible refine foldl_safe (fun s a hs => ?_) _ _ ?_)
    | dsimp only
    | split)

theorem copyRealign_safe (n : Nat) (mismatch : BitVec 4) {s : State} (hs : InSafe s) :
    InSafe (copyRealign n mismatch s) := by
  unfold copyRealign
  repeat' (first
    | (with_reducible assumption)
    | (with_reducible refine InSafe.of_stays (realignCopies_stays _ _ _ ) ?_)
    | (with_reducible refine takeReport_safe _ _ _ ?_)
    | (with_reducible refine foldl_safe (fun s a hs => ?_) _ _ ?_)
    | dsimp only
    | split)

theorem grossGate_safe (offset : Rat) (syndrome : BitVec 32) {s : State} (hs : InSafe s) :
    InSafe (grossGate offset syndrome s) := by
  unfold grossGate
  repeat' (first
    | (with_reducible assumption)
    | (with_reducible refine takeReport_safe _ _ _ ?_)
    | (with_reducible refine foldl_safe (fun s a hs => ?_) _ _ ?_)
    | dsimp only
    | split
    | exact hs)

theorem fineGate_safe (offset : Rat) (syndrome : BitVec 32) {s : State} (hs : InSafe s) :
    InSafe (fineGate offset syndrome s) := by
  unfold fineGate
  repeat' (first
    | (with_reducible assumption)
    | (with_reducible refine takeReport_safe _ _ _ ?_)
    | (with_reducible refine foldl_safe (fun s a hs => ?_) _ _ ?_)
    | dsimp only
    | split
    | exact hs)

theorem consensusTest_safe  {s : State} (hs : InSafe s) :
    InSafe (consensusTest s) := by
  unfold consensusTest
  repeat' (first
    | (with_reducible assumption)
    | (with_reducible refine takeReport_safe _ _ _ ?_)
    | (with_reducible refine foldl_safe (fun s a hs => ?_) _ _ ?_)
    | dsimp only
    | split
    | exact hs)

theorem coreWrites_safe (c : Nat) (w : SramWrite) (syndrome : BitVec 32) {s : State} (hs : InSafe s) :
    InSafe (coreWrites c w syndrome s) := by
  unfold coreWrites
  repeat' (first
    | (with_reducible assumption)
    | (with_reducible refine takeReport_safe _ _ _ ?_)
    | (with_reducible refine foldl_safe (fun s a hs => ?_) _ _ ?_)
    | dsimp only
    | split
    | exact hs)

theorem watchdogTimeout_safe (c : Nat) {s : State} (hs : InSafe s) :
    InSafe (watchdogTimeout c s) := by
  unfold watchdogTimeout
  repeat' (first
    | (with_reducible assumption)
    | (with_reducible refine reportFree_safe _ ?_)
    | (with_reducible refine foldl_safe (fun s a hs => ?_) _ _ ?_)
    | dsimp only
    | split)

theorem activityLoss_safe  {s : State} (hs : InSafe s) :
    InSafe (activityLoss s) := by
  unfold activityLoss
  repeat' (first
    | (with_reducible assumption)
    | (with_reducible refine reportFree_safe _ ?_)
    | (with_reducible refine InSafe.of_stays (engineStops_stays _ ) ?_)
    | (with_reducible refine enterSafeMode_safe _ ?_)
    | (with_reducible refine foldl_safe (fun s a hs => ?_) _ _ ?_)
    | dsimp only
    | split)

/-! ## References, PTP -/

theorem withSeconds_safe {f : State → State} (hf : InSafe (f s)) : InSafe (withSeconds f s) :=
  foldl_safe (fun t n h => h.of_stays (secondFell_stays s t n)) _ _ hf

theorem ptpReceive_safe (n : Nat) (h : PtpHdr) {f : Nat → State → State} (hf : ∀ i, InSafe (f i s)) (hs : InSafe s) :
    InSafe (ptpReceive n h f s) := by
  unfold ptpReceive
  repeat' split
  · exact hs.of_stays (discardPtp_stays _ _)
  · exact hs
  · exact hs.of_stays (discardPtp_stays _ _)
  · exact hf _

/-! ## Requests -/

theorem subscribeEvents_safe (r : Requester) (lease : Nat) (mask : BitVec 256) (hs : InSafe s) :
    InSafe (subscribeEvents r lease mask s).2.2 := by
  unfold subscribeEvents
  dsimp only
  split
  · exact hs
  · split
    · exact hs
    · split <;> exact hs

theorem subscribeStream_safe (r : Requester) (lease : Nat) (hs : InSafe s) : InSafe (subscribeStream r lease s).2.2 := by
  have kept (t : Ts) : InSafe { s with ts := t } := hs
  unfold subscribeStream
  dsimp only
  repeat' first | exact hs | exact kept _ | split

theorem subscribe_safe (r : Requester) (f : Frame) (hs : InSafe s) : InSafe (subscribe r f s).2.2 := by
  unfold subscribe
  generalize eventAddress = q
  extract_lets data lease
  clear_value lease
  generalize BitVec.ofNat 256 (bytesNat (data.drop 2)) = mask
  clear_value data
  split
  · exact subscribeEvents_safe _ _ _ hs
  · exact subscribeStream_safe _ _ hs

theorem readSegment_safe (r : Requester) (f : Frame) (o : Obj) (e : Elem) (hs : InSafe s) : InSafe (readSegment r f o e s).2.2 := by
  unfold readSegment serveSegment
  dsimp only
  repeat' split
  all_goals exact hs

/-- In SAFE a request changes nothing of the mode, the start-up and the supply: what could is refused (R414). -/
theorem dispatch_safe (tweak : Elem → Elem) (r : Requester) (f : Frame) (hs : InSafe s) : InSafe (dispatch tweak r f s).2.2 := by
  unfold dispatch
  split
  · exact hs
  · split
    · exact hs
    · next o _ e0 _ =>
      dsimp only
      split
      · next hst =>
        have hch : changes f.opcode = false := by
          cases hc : changes f.opcode with
          | false => rfl
          | true =>
            have hm : (s.md.mode == Mode.safe) = true := by rw [hs.1]; rfl
            simp [admitStatus, hc, hm, refuseIf, orElse] at hst
        unfold perform
        split
        · exact hs
        · next h => rw [h] at hch; simp [changes] at hch
        · exact readSegment_safe _ _ _ _ hs
        · next h => rw [h] at hch; simp [changes] at hch
        · next h => rw [h] at hch; simp [changes] at hch
        · exact subscribe_safe _ _ hs
      · exact hs

theorem execute_safe (tweak : Elem → Elem) (r : Requester) (f : Frame) (hs : InSafe s) : InSafe (execute tweak r f s).2 := by
  have h := dispatch_safe tweak r f (s := { s with dop := { s.dop with requests := s.dop.requests + 1 } }) hs
  unfold execute
  dsimp only
  split
  · exact InSafe.of_stays (answer_stays _ _ _ _ _ _) hs
  · generalize dispatch tweak r f { s with dop := { s.dop with requests := s.dop.requests + 1 } } = d at *
    split
    · exact h
    · exact InSafe.of_stays (answer_stays _ _ _ _ _ _) h

theorem receive_safe (tweak : Elem → Elem) (r : Requester) (f : Frame) (hs : InSafe s) : InSafe (receive tweak r f s).2 := by
  unfold receive
  dsimp only
  repeat' split
  · exact hs
  · exact hs.of_stays (discardFrame_stays s)
  · exact InSafe.of_stays (raise_stays _ _) hs
  · exact InSafe.of_stays (respond_stays _ _ _ _ _ _) hs
  · exact execute_safe _ _ _ hs
  · exact execute_safe _ _ _ hs

theorem serve_safe (r : Requester) (f : Frame) (hs : InSafe s) : InSafe (serve r f s) := receive_safe _ _ _ hs
theorem serveWrite_safe (r : Requester) (a n : Nat) (v : Int) (hs : InSafe s) : InSafe (serveWrite r a n v s) := serve_safe _ _ hs
theorem serveCommand_safe (r : Requester) (a n : Nat) (v : Int) (hs : InSafe s) : InSafe (serveCommand r a n v s) := serve_safe _ _ hs

theorem serveBlob_safe (r : Requester) (a : Nat) (image : List Byte) (hs : InSafe s) : InSafe (serveBlob r a image s) := by
  have h : ∀ (l : List (Nat × List Byte)) (q : Nat × State), InSafe q.2 → InSafe (l.foldl (fun (a' : Nat × State) p =>
      if a'.1 = 0 then
        let q := { r with seq := r.seq + p.1 }
        receive id q (mkFrame q 4 a (some p.1) p.2) a'.2
      else a') q).2 := by
    intro l
    induction l with
    | nil => exact fun q h => h
    | cons p l ih =>
      intro q hq
      rw [List.foldl_cons]
      refine ih _ ?_
      dsimp only
      by_cases h0 : q.1 = 0
      · rw [if_pos h0]; exact receive_safe _ _ _ hq
      · rw [if_neg h0]; exact hq
  exact h _ _ hs

theorem serveSealNow_safe (r : Requester) (n a b : Nat) (hs : InSafe s) : InSafe (serveSealNow r n a b s) := receive_safe _ _ _ hs

/-! ## A command -/

/-- A command whose effect keeps SAFE keeps it with the time that passes before it and what follows it. -/
theorem timed_safe {dt : Nat} {f : State → State} (hf : ∀ u, InSafe u → InSafe (f u)) (h : timed dt f s = .next t) (hs : InSafe s) :
    InSafe t := by
  cases h
  exact finish_safe (hf _ (elapse_safe dt hs))

end Sys2Proof.Machine
end

