-- ==== Sys2Proof/Laws/Shown.lean ====
section
/-! SUPPORT. What the mode, the vouching and the pins are read from, and which settling operations leave all of it alone (R57, R75 to
R79). -/

namespace Sys2Proof.Machine

/-- What the mode, the vouching and the pins of R57 are read from. -/
def shown (s : State) : Cfg × Md × List Tb × List Ho × Fc × List Chan × Pwr × Clk × List CoreState × Bool :=
  (s.cfg, s.md, s.tb, s.ln.ho, s.fc, s.dp, s.pwr, s.clk, s.cores, s.ou.vouchClosed)

theorem foldl_shown {α : Type} {f : State → α → State} (h : ∀ s a, shown (f s a) = shown s) (l : List α) (s : State) :
    shown (l.foldl f s) = shown s := by
  induction l generalizing s with
  | nil => rfl
  | cons a l ih => rw [List.foldl_cons, ih, h]

theorem raiseIf_shown (b : Bool) (n : Nat) (s : State) : shown (raiseIf b n s) = shown s := by cases b <;> rfl

theorem settleOuts_shown (s : State) : shown (settleOuts s) = shown s := by
  unfold settleOuts
  refine foldl_shown (fun s n => ?_) _ _
  have h (z : State) (f : Out → Out) : shown (z.setOut n f) = shown z := rfl
  have hw (z : State) : shown (settleWave z n) = shown z := by
    unfold settleWave startOut stopOut
    dsimp only
    repeat' split
    all_goals rfl
  unfold settleOut
  dsimp only
  rw [raiseIf_shown, h, hw, h]

theorem cancelCommit_shown (s : State) : shown (cancelCommit s) = shown s := by
  unfold cancelCommit
  split <;> rfl

theorem settleCommit_shown (s : State) : shown (settleCommit s) = shown s := by
  unfold settleCommit
  repeat' split
  all_goals first | rfl | exact cancelCommit_shown s

theorem settleLevels_shown (s : State) : shown (settleLevels s) = shown s := by
  unfold settleLevels
  refine foldl_shown (fun s n => ?_) _ _
  rfl

theorem settleDeliveries_shown (s : State) : shown (settleDeliveries s) = shown s := by simp only [settleDeliveries, shown]
theorem settlePins_shown (s : State) : shown (settlePins s) = shown s := rfl

/-- What a completed frame or an answered request leaves: all of it, and the pins. -/
def lit (s : State) : Pins × Cfg × Md × List Tb × List Ho × Fc × List Chan × Pwr × Clk × List CoreState × Bool := (s.pins, shown s)

theorem foldl_lit {α : Type} {f : State → α → State} (h : ∀ s a, lit (f s a) = lit s) (l : List α) (s : State) :
    lit (l.foldl f s) = lit s := by
  induction l generalizing s with
  | nil => rfl
  | cons a l ih => rw [List.foldl_cons, ih, h]

theorem raiseIf_lit (b : Bool) (n : Nat) (s : State) : lit (raiseIf b n s) = lit s := by cases b <;> rfl

theorem completeFrame_lit (k : Nat) (a f t : Rat) (s : State) : lit (completeFrame k a f t s) = lit s := by
  unfold completeFrame
  dsimp only
  rw [raiseIf_lit]
  split <;> rfl

theorem noteTargets_lit (back : Bool) (s : State) : lit (noteTargets back s) = lit s := by
  unfold noteTargets
  refine foldl_lit (fun s k => ?_) _ _
  unfold noteTarget completeFrames
  dsimp only
  rw [foldl_lit (fun s q => completeFrame_lit k _ _ _ s)]
  rfl

theorem endRelay_lit (st : Nat) (s : State) (x : Relay) : lit (endRelay st s x) = lit s := by
  unfold endRelay
  split
  · unfold answer respond emit
    split <;> rfl
  · rfl

theorem endRelay_relays (st : Nat) (s : State) (x : Relay) : (endRelay st s x).dop.relays = s.dop.relays := by
  unfold endRelay
  split
  · unfold answer respond emit
    split <;> rfl
  · rfl

theorem settleRelays_lit (s : State) : lit (settleRelays s) = lit s := by
  unfold settleRelays
  dsimp only
  rw [foldl_lit (endRelay_lit stFenced)]
  rfl

theorem settleRelays_relays (s : State) : (settleRelays s).dop.relays = s.dop.relays.filter fun x => !(s.core x.core == .fenced) := by
  have h : ∀ (l : List Relay) (s : State), (l.foldl (endRelay stFenced) s).dop.relays = s.dop.relays := by
    intro l
    induction l with
    | nil => exact fun s => rfl
    | cons a l ih => intro s; rw [List.foldl_cons, ih, endRelay_relays]
  unfold settleRelays
  dsimp only
  rw [h]

/-! ## What holds after settling -/

/-- The mode that fits is read from the timebases and from what the mode registers keep of the mode. -/
theorem modeFits_congr {s t : State} (h1 : t.cfg = s.cfg) (h2 : t.tb = s.tb) (h3 : t.clk = s.clk)
    (h4 : t.md.mode = s.md.mode ∧ t.md.prevMode = s.md.prevMode ∧ t.md.modeEntry = s.md.modeEntry ∧ t.md.holdWaits = s.md.holdWaits)
    (hs : modeFits s) : modeFits t := by
  obtain ⟨a, b, c, d⟩ := h4
  have hp : t.tbs t.ptb = s.tbs s.ptb := by simp only [State.tbs, State.ptb, h1, h2]
  have hh : heldTime t = heldTime s := by simp only [heldTime, hp]
  have hn : modeNow t = modeNow s := by unfold modeNow; rw [hp, hh, a, d]
  have hm : moved t = moved s := by unfold moved; rw [h3, b, c]
  intro h
  rw [hn, a]
  exact hs (hm ▸ h)

theorem modeFits_of {s t : State} (h : shown t = shown s) (hs : modeFits s) : modeFits t := by
  simp only [shown, Prod.mk.injEq] at h
  obtain ⟨cfg, md, tb, -, -, -, -, clk, -⟩ := h
  exact modeFits_congr cfg tb clk (by rw [md]; exact ⟨rfl, rfl, rfl, rfl⟩) hs

theorem vouchingFits_of {s t : State} (h : shown t = shown s) (hs : vouchingFits s) : vouchingFits t := by
  simp only [shown, Prod.mk.injEq] at h
  obtain ⟨cfg, md, tb, ho, -, -, -, -, -, vouch⟩ := h
  simpa only [vouchingFits, vouchNow, holdoverVouches, State.tbs, State.ptb, State.hov, cfg, md, tb, ho, vouch] using hs

theorem pinsFit_of {s t : State} (h : lit t = lit s) (hs : pinsFit s) : pinsFit t := by
  simp only [lit, shown, Prod.mk.injEq] at h
  obtain ⟨h0, h1, h2, h3, h4, h5, h6, h7, h8, h9, h10⟩ := h
  have hp : t.tbs t.ptb = s.tbs s.ptb := by simp only [State.tbs, State.ptb, h1, h3]
  have hf (u : FUnit) : t.isFenced u = s.isFenced u := by simp only [State.isFenced, h5]
  have hb : beaconHigh t = beaconHigh s := by
    unfold beaconHigh beaconRuns beaconPart
    rw [hp, h0, h2, h8]
  have hh : holdPin t = holdPin s := by simp only [holdPin, h2]
  have hc (n : Nat) : t.chan n = s.chan n := by simp only [State.chan, h6]
  unfold pinsFit at *
  simp only [hf, hb, hh, hc, h0, h2, h7]
  exact hs

theorem cutBeacon_parts (s : State) : ∃ p : Pins, cutBeacon s = { s with pins := p } := by
  unfold cutBeacon
  dsimp only
  split
  · exact ⟨s.pins, rfl⟩
  · exact ⟨_, rfl⟩

/-- Vouching and its gate follow the condition; of the mode registers nothing else changes. -/
theorem settleVouch_parts (s : State) : ∃ (p : Pins) (e : Ev), settleVouch s =
    { s with md := { s.md with vouching := vouchNow s }, ou := { s.ou with vouchClosed := !vouchNow s }, pins := p, ev := e } := by
  unfold settleVouch
  dsimp only
  split
  · next h => exact ⟨s.pins, s.ev, by rw [h]⟩
  · obtain ⟨p, h⟩ := cutBeacon_parts { s with ou := { s.ou with vouchClosed := !vouchNow s } }
    rw [h]
    exact ⟨_, _, rfl⟩

theorem settleVouch_fits (s : State) : vouchingFits (settleVouch s) ∧ (modeFits s → modeFits (settleVouch s)) := by
  obtain ⟨p, e, h⟩ := settleVouch_parts s
  rw [h]
  exact ⟨⟨rfl, rfl⟩, modeFits_congr rfl rfl rfl ⟨rfl, rfl, rfl, rfl⟩⟩

theorem gated_fits (s : State) (h : modeFits s) : vouchingFits (gated settleVouch s) ∧ modeFits (gated settleVouch s) := by
  obtain ⟨h1, h2⟩ := settleVouch_fits s
  unfold gated
  dsimp only
  split
  · exact ⟨h1, modeFits_congr rfl rfl rfl ⟨rfl, rfl, rfl, rfl⟩ (h2 h)⟩
  · exact ⟨h1, h2 h⟩

theorem gated_parts (f : State → State) (s : State) :
    (gated f s).tb = (f s).tb ∧ (gated f s).cfg = (f s).cfg ∧ (gated f s).md = (f s).md := by
  unfold gated
  dsimp only
  split <;> exact ⟨rfl, rfl, rfl⟩

/-- What a transition leaves of what the mode is read from (R80, R81). -/
theorem enterMode_parts (m : Mode) (s : State) (h : s.md.mode ≠ m) :
    (enterMode m s).tb = s.tb ∧ (enterMode m s).cfg = s.cfg ∧ (enterMode m s).md.holdWaits = false := by
  have key (z : State) : (settleVouch z).tb = z.tb ∧ (settleVouch z).cfg = z.cfg ∧ (settleVouch z).md.holdWaits = z.md.holdWaits := by
    obtain ⟨p, e, h⟩ := settleVouch_parts z
    rw [h]
    exact ⟨rfl, rfl, rfl⟩
  unfold enterMode
  rw [if_neg h]
  obtain ⟨a, b, c⟩ := gated_parts (fun s => settleVouch (raise 0 { s with md :=
    { s.md with
      mode := m, prevMode := if moved s then s.md.prevMode else s.md.mode.code, modeEntry := s.clk.count, holdWaits := false } })) s
  rw [a, b, c]
  exact key _

theorem settleMode_fits (s : State) : vouchingFits (settleMode s) ∧ modeFits (settleMode s) := by
  refine gated_fits _ ?_
  by_cases hm : moved s = true
  · rw [if_pos hm]
    intro h
    rw [hm] at h
    cases h
  · rw [if_neg hm]
    by_cases he : s.md.mode = modeNow s
    · have h : enterMode (modeNow s) s = s := by
        unfold enterMode
        rw [if_pos he]
      rw [h]
      exact fun _ => he.symm
    · obtain ⟨h1, h2, h4⟩ := enterMode_parts (modeNow s) s he
      have h3 := enterMode_mode (modeNow s) s
      generalize enterMode (modeNow s) s = z at *
      intro _
      have ht : z.tbs z.ptb = s.tbs s.ptb := by simp only [State.tbs, State.ptb, h1, h2]
      rw [h3]
      unfold modeNow at h3 he ⊢
      dsimp only at h3 he ⊢
      rw [ht, h3, h4]
      generalize s.tbs s.ptb = q at *
      by_cases hq : q.state = .tracking
      · cases hmm : s.md.mode <;> simp only [hq, if_true]
      · cases hmm : s.md.mode <;> simp only [hmm, hq, if_false] at he ⊢
        by_cases hw : s.md.holdWaits = true ∧ heldTime s = true
        · simp only [hw]
          rfl
        · exact absurd (if_neg hw).symm he

theorem settlePins_fit (s : State) (h : s.clk.running = true) : pinsFit (settlePins s) := by
  refine ⟨rfl, rfl, ?_, rfl, rfl⟩
  show (beaconHigh s && s.clk.running && !s.isFenced (.conn 4)) = _
  rw [h, Bool.and_true]
  rfl

/-- The pins fit after settling, where the engine clock runs. -/
theorem settleEngine_fit (s : State) (h : s.clk.running = true) : pinsFit (settleEngine s) := by
  unfold settleEngine
  refine settlePins_fit _ ?_
  have hr : (settleDeliveries (settleLevels (settleCommit (settleOuts (settleMode
      (settleTime (settleChannels (settleRefs s)))))))).rest = s.rest := by
    simp only [settleDeliveries_rest, settleLevels_rest, settleCommit_rest, settleOuts_rest, settleMode_rest, settleTime_rest,
      settleChannels_rest, settleRefs_rest]
  generalize settleDeliveries _ = z at *
  have h2 := congrArg (fun z : State => z.clk) hr
  have hc : z.clk = s.clk := h2
  rw [hc]
  exact h

end Sys2Proof.Machine
end

