-- ==== Sys2Proof/Laws/Sleep.lean ====
section
/-! SUPPORT. What the sleep commit, the wake, the entry to FREERUN and the entry to SAFE leave alone (R80, R85, R89, R91, R367). -/

namespace Sys2Proof.Machine

/-- What going to sleep, waking and entering a mode leave alone in each of their parts. -/
def State.wide (s : State) : Cfg × Md × Nv × Clk × Fc × Jr × List CoreState × Bool × Bool :=
  (s.cfg, s.md, s.nv, s.clk, s.fc, s.jr, s.cores, s.rf.stopped, s.sc.stopped)

/-- The same but for the configuration, in which the sleep commit ends the single gates (R299). -/
def State.still (s : State) : Md × Nv × Clk × Fc × Jr × List CoreState × Bool × Bool := s.wide.2

theorem wide_trans {s t u : State} (h1 : u.wide = t.wide) (h2 : t.wide = s.wide) : u.wide = s.wide := h1.trans h2
theorem wide_refl (s : State) : s.wide = s.wide := rfl
theorem wide_ite {c : Prop} [Decidable c] {s a b : State} (h1 : c → a.wide = s.wide) (h2 : ¬ c → b.wide = s.wide) :
    (if c then a else b).wide = s.wide := by
  split
  · exact h1 ‹_›
  · exact h2 ‹_›
theorem foldl_wide {α : Type} {f : State → α → State} (h : ∀ s a, (f s a).wide = s.wide) (l : List α) (s : State) :
    (l.foldl f s).wide = s.wide := by
  induction l generalizing s with
  | nil => rfl
  | cons a l ih => rw [List.foldl_cons, ih, h]

@[simp] theorem raise_wide (n : Nat) (s : State) :
    (raise n s).wide = s.wide := by
  rfl

@[simp] theorem raiseIf_wide (b : Bool) (n : Nat) (s : State) :
    (raiseIf b n s).wide = s.wide := by
  unfold raiseIf
  repeat' (first
    | (with_reducible refine wide_ite (fun _ => ?_) (fun _ => ?_))
    | (with_reducible refine wide_trans (raise_wide _ _) ?_)
    | (with_reducible refine wide_trans (foldl_wide (fun s a => ?_) _ _) ?_)
    | (with_reducible refine foldl_wide (fun s a => ?_) _ _)
    | (with_reducible exact wide_refl _))

@[simp] theorem State_setAct_wide (s : State) (a : Nat) (f : Act → Act) :
    (State.setAct s a f).wide = s.wide := by
  rfl

@[simp] theorem statusEvent_wide (a : Nat) (s : State) :
    (statusEvent a s).wide = s.wide := by
  rfl

@[simp] theorem endAction_wide (a : Nat) (st : ActState) (s : State) :
    (endAction a st s).wide = s.wide := by
  rfl

@[simp] theorem skipAction_wide (a : Nat) (d : Int) (lam : Rat) (s : State) :
    (skipAction a d lam s).wide = s.wide := by
  unfold skipAction
  repeat' (first
    | (with_reducible refine wide_ite (fun _ => ?_) (fun _ => ?_))
    | (with_reducible refine wide_trans (raise_wide _ _) ?_)
    | (with_reducible refine wide_trans (State_setAct_wide _ _ _) ?_)
    | (with_reducible refine wide_trans (endAction_wide _ _ _) ?_)
    | (with_reducible refine wide_trans (foldl_wide (fun s a => ?_) _ _) ?_)
    | (with_reducible refine foldl_wide (fun s a => ?_) _ _)
    | (with_reducible exact wide_refl _))

@[simp] theorem applyPolicy_wide (a : Nat) (ns : Nat) (afterLate : Bool) (s : State) :
    (applyPolicy a ns afterLate s).wide = s.wide := by
  unfold applyPolicy
  repeat' (first
    | (with_reducible refine wide_ite (fun _ => ?_) (fun _ => ?_))
    | (with_reducible refine wide_trans (endAction_wide _ _ _) ?_)
    | (with_reducible refine wide_trans (State_setAct_wide _ _ _) ?_)
    | (with_reducible refine wide_trans (skipAction_wide _ _ _ _) ?_)
    | (with_reducible refine wide_trans (foldl_wide (fun s a => ?_) _ _) ?_)
    | (with_reducible refine foldl_wide (fun s a => ?_) _ _)
    | (with_reducible exact wide_refl _))

@[simp] theorem noteSign_wide (a : Nat) (s : State) :
    (noteSign a s).wide = s.wide := by
  rfl

@[simp] theorem fireNext_wide (a : Nat) (s : State) :
    (fireNext a s).wide = s.wide := by
  unfold fireNext
  repeat' (first
    | (with_reducible refine wide_ite (fun _ => ?_) (fun _ => ?_))
    | (with_reducible refine wide_trans (State_setAct_wide _ _ _) ?_)
    | (with_reducible refine wide_trans (foldl_wide (fun s a => ?_) _ _) ?_)
    | (with_reducible refine foldl_wide (fun s a => ?_) _ _)
    | (with_reducible exact wide_refl _))

@[simp] theorem reevaluate_wide (a : Nat) (s : State) :
    (reevaluate a s).wide = s.wide := by
  simp [reevaluate]

@[simp] theorem suspendAxis_wide (axis : Nat) (s : State) :
    (suspendAxis axis s).wide = s.wide := by
  unfold suspendAxis
  repeat' (first
    | (with_reducible refine wide_ite (fun _ => ?_) (fun _ => ?_))
    | (with_reducible refine wide_trans (statusEvent_wide _ _) ?_)
    | (with_reducible refine wide_trans (State_setAct_wide _ _ _) ?_)
    | (with_reducible refine wide_trans (foldl_wide (fun s a => ?_) _ _) ?_)
    | (with_reducible refine foldl_wide (fun s a => ?_) _ _)
    | (with_reducible exact wide_refl _))

@[simp] theorem resumeAxis_wide (axis : Nat) (s : State) :
    (resumeAxis axis s).wide = s.wide := by
  unfold resumeAxis
  repeat' (first
    | (with_reducible refine wide_ite (fun _ => ?_) (fun _ => ?_))
    | (with_reducible refine wide_trans (reevaluate_wide _ _) ?_)
    | (with_reducible refine wide_trans (foldl_wide (fun s a => ?_) _ _) ?_)
    | (with_reducible refine foldl_wide (fun s a => ?_) _ _)
    | (with_reducible exact wide_refl _))

@[simp] theorem setAxisState_wide (a : Nat) (st : AxisState) (s : State) :
    (setAxisState a st s).wide = s.wide := by
  unfold setAxisState
  repeat' (first
    | (with_reducible refine wide_ite (fun _ => ?_) (fun _ => ?_))
    | (with_reducible refine wide_trans (raise_wide _ _) ?_)
    | (with_reducible refine wide_trans (suspendAxis_wide _ _) ?_)
    | (with_reducible refine wide_trans (resumeAxis_wide _ _) ?_)
    | (with_reducible refine wide_trans (foldl_wide (fun s a => ?_) _ _) ?_)
    | (with_reducible refine foldl_wide (fun s a => ?_) _ _)
    | (with_reducible exact wide_refl _)
    | (with_reducible refine wide_trans (foldl_wide (fun s a => ?_) _ _) ?_)
    | dsimp only
    | split
    | exact rfl)

@[simp] theorem State_setTc_wide (s : State) (k : Nat) (f : Tc → Tc) :
    (State.setTc s k f).wide = s.wide := by
  rfl

@[simp] theorem publish_wide (k : Nat) (t : Rat) (interrupted : Bool) (s : State) :
    (publish k t interrupted s).wide = s.wide := by
  rfl

@[simp] theorem nextGate_wide (k : Nat) (t : Rat) (s : State) :
    (nextGate k t s).wide = s.wide := by
  rfl

@[simp] theorem cutGate_wide (k : Nat) (s : State) :
    (cutGate k s).wide = s.wide := by
  unfold cutGate
  repeat' (first
    | (with_reducible refine wide_ite (fun _ => ?_) (fun _ => ?_))
    | (with_reducible refine wide_trans (publish_wide _ _ _ _) ?_)
    | (with_reducible refine wide_trans (foldl_wide (fun s a => ?_) _ _) ?_)
    | (with_reducible refine foldl_wide (fun s a => ?_) _ _)
    | (with_reducible exact wide_refl _))

@[simp] theorem State_setAxis_wide (s : State) (a : Nat) (f : Axis → Axis) :
    (State.setAxis s a f).wide = s.wide := by
  rfl

@[simp] theorem wakeAxes_wide (s : State) :
    (wakeAxes s).wide = s.wide := by
  unfold wakeAxes
  refine foldl_wide (fun s a => ?_) _ _
  dsimp only
  split
  · rfl
  · split
    · rw [setAxisState_wide]; rfl
    · split
      · rfl
      · rw [setAxisState_wide]; rfl

@[simp] theorem armLoaded_wide (s : State) :
    (armLoaded s).wide = s.wide := by
  have hn (a : Nat) (z : State) : (noteSign a z).wide = z.wide := rfl
  unfold armLoaded
  refine foldl_wide (fun s a => ?_) _ _
  unfold armAction
  dsimp only
  repeat' split
  · rfl
  · rfl
  · rfl
  · dsimp only
    rw [hn, applyPolicy_wide]; rfl

@[simp] theorem State_setChan_wide (s : State) (n : Nat) (f : Chan → Chan) :
    (State.setChan s n f).wide = s.wide := by
  rfl

@[simp] theorem State_setHo_wide (s : State) (n : Nat) (f : Ho → Ho) :
    (State.setHo s n f).wide = s.wide := by
  rfl

@[simp] theorem setConditions_wide (n : Nat) (b : BitVec 8) (s : State) :
    (setConditions n b s).wide = s.wide := by
  simp [setConditions]

@[simp] theorem refreshBound_wide (n : Nat) (s : State) :
    (refreshBound n s).wide = s.wide := by
  simp [refreshBound]

@[simp] theorem beginEpisode_wide (n : Nat) (v : StartVals) (gap : Rat) (s : State) :
    (beginEpisode n v gap s).wide = s.wide := by
  simp [beginEpisode]

@[simp] theorem endEpisode_wide (n : Nat) (s : State) :
    (endEpisode n s).wide = s.wide := by
  rfl

@[simp] theorem dropSamples_wide (c : Nat) (s : State) :
    (dropSamples c s).wide = s.wide := by
  rfl

@[simp] theorem chanFlag_wide (n : Nat) (b : Nat) (s : State) :
    (chanFlag n b s).wide = s.wide := by
  rfl

@[simp] theorem chanGo_wide (n : Nat) (st : ChanState) (s : State) :
    (chanGo n st s).wide = s.wide := by
  rfl

@[simp] theorem endPull_wide (n : Nat) (s : State) :
    (endPull n s).wide = s.wide := by
  unfold endPull
  repeat' (first
    | (with_reducible refine wide_ite (fun _ => ?_) (fun _ => ?_))
    | (with_reducible refine wide_trans (State_setChan_wide _ _ _) ?_)
    | (with_reducible refine wide_trans (chanFlag_wide _ _ _) ?_)
    | (with_reducible refine wide_trans (foldl_wide (fun s a => ?_) _ _) ?_)
    | (with_reducible refine foldl_wide (fun s a => ?_) _ _)
    | (with_reducible exact wide_refl _))

@[simp] theorem refer_wide (n : Nat) (c : Nat) (s : State) :
    (refer n c s).wide = s.wide := by
  unfold refer
  repeat' (first
    | (with_reducible refine wide_ite (fun _ => ?_) (fun _ => ?_))
    | (with_reducible refine wide_trans (State_setChan_wide _ _ _) ?_)
    | (with_reducible refine wide_trans (chanFlag_wide _ _ _) ?_)
    | (with_reducible refine wide_trans (foldl_wide (fun s a => ?_) _ _) ?_)
    | (with_reducible refine foldl_wide (fun s a => ?_) _ _)
    | (with_reducible exact wide_refl _))

@[simp] theorem toAcquire_wide (n : Nat) (c : Nat) (s : State) :
    (toAcquire n c s).wide = s.wide := by
  simp [toAcquire]

@[simp] theorem toRelock_wide (n : Nat) (c : Nat) (s : State) :
    (toRelock n c s).wide = s.wide := by
  simp [toRelock]

@[simp] theorem switchTo_wide (n : Nat) (c : Nat) (s : State) :
    (switchTo n c s).wide = s.wide := by
  simp [switchTo]

@[simp] theorem toIdle_wide (n : Nat) (s : State) :
    (toIdle n s).wide = s.wide := by
  simp [toIdle]

@[simp] theorem toHoldover_wide (n : Nat) (s : State) :
    (toHoldover n s).wide = s.wide := by
  simp [toHoldover]

@[simp] theorem followSelection_wide (s : State) (n : Nat) :
    (followSelection s n).wide = s.wide := by
  unfold followSelection
  repeat' (first
    | (with_reducible refine wide_ite (fun _ => ?_) (fun _ => ?_))
    | (with_reducible refine wide_trans (toAcquire_wide _ _ _) ?_)
    | (with_reducible refine wide_trans (toIdle_wide _ _) ?_)
    | (with_reducible refine wide_trans (toRelock_wide _ _ _) ?_)
    | (with_reducible refine wide_trans (toHoldover_wide _ _) ?_)
    | (with_reducible refine wide_trans (switchTo_wide _ _ _) ?_)
    | (with_reducible refine wide_trans (foldl_wide (fun s a => ?_) _ _) ?_)
    | (with_reducible refine foldl_wide (fun s a => ?_) _ _)
    | (with_reducible exact wide_refl _)
    | (with_reducible refine wide_trans (foldl_wide (fun s a => ?_) _ _) ?_)
    | dsimp only
    | split)

@[simp] theorem noteSelection_wide (n : Nat) (old : Option Nat) (new : Option Nat) (s : State) :
    (noteSelection n old new s).wide = s.wide := by
  unfold noteSelection
  repeat' (first
    | (with_reducible refine wide_ite (fun _ => ?_) (fun _ => ?_))
    | (with_reducible refine wide_trans (raise_wide _ _) ?_)
    | (with_reducible refine wide_trans (chanFlag_wide _ _ _) ?_)
    | (with_reducible refine wide_trans (foldl_wide (fun s a => ?_) _ _) ?_)
    | (with_reducible refine foldl_wide (fun s a => ?_) _ _)
    | (with_reducible exact wide_refl _)
    | (with_reducible refine wide_trans (foldl_wide (fun s a => ?_) _ _) ?_)
    | dsimp only
    | split)

@[simp] theorem State_setTb_wide (s : State) (k : Nat) (f : Tb → Tb) :
    (State.setTb s k f).wide = s.wide := by
  rfl

@[simp] theorem State_setDom_wide (s : State) (i : Nat) (f : Dom → Dom) :
    (State.setDom s i f).wide = s.wide := by
  rfl

@[simp] theorem domGo_wide (i : Nat) (st : DomState) (s : State) :
    (domGo i st s).wide = s.wide := by
  rfl

@[simp] theorem restamp_wide (k : Nat) (s : State) :
    (restamp k s).wide = s.wide := by
  rfl

@[simp] theorem tbGo_wide (k : Nat) (st : TbState) (s : State) :
    (tbGo k st s).wide = s.wide := by
  rfl

@[simp] theorem setFreqTerm_wide (k : Nat) (v : Rat) (s : State) :
    (setFreqTerm k v s).wide = s.wide := by
  rfl

@[simp] theorem freezeRates_wide (s : State) :
    (freezeRates s).wide = s.wide := by
  rfl

@[simp] theorem sleepTimebases_wide (s : State) :
    (sleepTimebases s).wide = s.wide := by
  unfold sleepTimebases
  dsimp only
  rw [freezeRates_wide, foldl_wide, foldl_wide]
  · intro s i
    split
    · exact domGo_wide _ _ _
    · rfl
  · intro s k
    split
    · rw [tbGo_wide]; rfl
    · rfl

@[simp] theorem wakeTimebases_wide (s : State) :
    (wakeTimebases s).wide = s.wide := by
  unfold wakeTimebases
  repeat' (first
    | (with_reducible refine wide_ite (fun _ => ?_) (fun _ => ?_))
    | (with_reducible refine wide_trans (setFreqTerm_wide _ _ _) ?_)
    | (with_reducible refine wide_trans (State_setTb_wide _ _ _) ?_)
    | (with_reducible refine wide_trans (foldl_wide (fun s a => ?_) _ _) ?_)
    | (with_reducible refine foldl_wide (fun s a => ?_) _ _)
    | (with_reducible exact wide_refl _)
    | (with_reducible refine wide_trans (foldl_wide (fun s a => ?_) _ _) ?_)
    | dsimp only
    | split)

@[simp] theorem State_setPort_wide (s : State) (n : Nat) (f : Port → Port) :
    (State.setPort s n f).wide = s.wide := by
  rfl

@[simp] theorem linkChange_wide (n : Nat) (up : Bool) (partnerMaster : Bool) (s : State) :
    (linkChange n up partnerMaster s).wide = s.wide := by
  unfold linkChange
  repeat' (first
    | (with_reducible refine wide_ite (fun _ => ?_) (fun _ => ?_))
    | (with_reducible refine wide_trans (raise_wide _ _) ?_)
    | (with_reducible refine wide_trans (State_setPort_wide _ _ _) ?_)
    | (with_reducible refine wide_trans (foldl_wide (fun s a => ?_) _ _) ?_)
    | (with_reducible refine foldl_wide (fun s a => ?_) _ _)
    | (with_reducible exact wide_refl _)
    | (with_reducible refine wide_trans (foldl_wide (fun s a => ?_) _ _) ?_)
    | dsimp only
    | split
    | exact rfl)

@[simp] theorem State_setCand_wide (s : State) (c : Nat) (f : Cand → Cand) :
    (State.setCand s c f).wide = s.wide := by
  rfl

@[simp] theorem State_setGnss_wide (s : State) (f : Gnss → Gnss) :
    (State.setGnss s f).wide = s.wide := by
  rfl

@[simp] theorem candGo_wide (c : Nat) (st : CandState) (s : State) :
    (candGo c st s).wide = s.wide := by
  unfold candGo
  repeat' (first
    | (with_reducible refine wide_ite (fun _ => ?_) (fun _ => ?_))
    | (with_reducible refine wide_trans (raise_wide _ _) ?_)
    | (with_reducible refine wide_trans (State_setCand_wide _ _ _) ?_)
    | (with_reducible refine wide_trans (dropSamples_wide _ _) ?_)
    | (with_reducible refine wide_trans (foldl_wide (fun s a => ?_) _ _) ?_)
    | (with_reducible refine foldl_wide (fun s a => ?_) _ _)
    | (with_reducible exact wide_refl _))

@[simp] theorem startCand_wide (c : Nat) (s : State) :
    (startCand c s).wide = s.wide := by
  unfold startCand
  repeat' (first
    | (with_reducible refine wide_ite (fun _ => ?_) (fun _ => ?_))
    | (with_reducible refine wide_trans (candGo_wide _ _ _) ?_)
    | (with_reducible refine wide_trans (State_setCand_wide _ _ _) ?_)
    | (with_reducible refine wide_trans (State_setGnss_wide _ _) ?_)
    | (with_reducible refine wide_trans (foldl_wide (fun s a => ?_) _ _) ?_)
    | (with_reducible refine foldl_wide (fun s a => ?_) _ _)
    | (with_reducible exact wide_refl _)
    | (with_reducible refine wide_trans (foldl_wide (fun s a => ?_) _ _) ?_)
    | dsimp only
    | split)

@[simp] theorem deselectAll_wide (s : State) :
    (deselectAll s).wide = s.wide := by
  unfold deselectAll
  repeat' (first
    | (with_reducible refine wide_ite (fun _ => ?_) (fun _ => ?_))
    | (with_reducible refine wide_trans (noteSelection_wide _ _ _ _) ?_)
    | (with_reducible refine wide_trans (foldl_wide (fun s a => ?_) _ _) ?_)
    | (with_reducible refine foldl_wide (fun s a => ?_) _ _)
    | (with_reducible exact wide_refl _)
    | (with_reducible refine wide_trans (foldl_wide (fun s a => ?_) _ _) ?_)
    | dsimp only
    | split
    | exact rfl)

@[simp] theorem sleepPorts_wide (s : State) :
    (sleepPorts s).wide = s.wide := by
  unfold sleepPorts
  refine foldl_wide (fun s n => ?_) _ _
  rw [← linkChange_wide n false false s]
  generalize linkChange n false false s = z
  rfl

theorem follow_wide (s : State) : (forEach 8 followSelection s).wide = s.wide := foldl_wide (fun s n => followSelection_wide s n) _ _

/-- The DCO words are held and the pulls end (R155, R191). -/
theorem holdWords_wide (s : State) : (holdWords s).wide = s.wide := by
  unfold holdWords
  exact foldl_wide (fun s n => endPull_wide n s) _ _

theorem wakeCalendar_wide (s : State) : (wakeCalendar s).wide = { s with sc := { s.sc with stopped := false } }.wide := by
  unfold wakeCalendar
  dsimp only
  split
  · exact wakeAxes_wide _
  · rw [foldl_wide (fun s n => reevaluate_wide n s)]
    exact wakeAxes_wide _

/-! ## The sleep commit (R89) -/

theorem sleepTcs_still (s : State) : (sleepTcs s).still = s.still := by
  have hc (k : Nat) (z : State) : (cutGate k z).still = z.still := congrArg Prod.snd (cutGate_wide k z)
  have key (l : List Nat) (z : State) : (l.foldl (fun (s : State) k =>
      if (s.tcs k).gate.isNone then s
      else
        let s1 := cutGate k s
        if (s.cfg.tcs k).run = 2 then stopTc k 2 s1 else s1.setTc k fun x => { x.discard with resume := true }) z).still = z.still := by
    induction l generalizing z with
    | nil => rfl
    | cons a l ih =>
      rw [List.foldl_cons, ih]
      dsimp only
      split
      · rfl
      · split
        · exact (show (stopTc a 2 (cutGate a z)).still = (cutGate a z).still from rfl).trans (hc a z)
        · exact (show ((cutGate a z).setTc a _).still = (cutGate a z).still from rfl).trans (hc a z)
  unfold sleepTcs
  exact key _ s

/-- What the stops of the sleep commit leave. -/
theorem standbyStops_still (s : State) : (standbyStops s).still =
    State.still { s with rf := { s.rf with stopped := true }, sc := { s.sc with stopped := true },
                         cores := s.cores.map fun x => if x = .running then .halted else x } := by
  have h1 := deselectAll_wide { s with rf := { s.rf with stopped := true } }
  have h2 := (follow_wide _).trans h1
  have h3 := (sleepTcs_still _).trans (congrArg Prod.snd ((sleepTimebases_wide _).trans h2))
  have hc (z : State) : (sleepCalendar z).wide = State.wide { z with sc := { z.sc with stopped := true } } := rfl
  unfold standbyStops
  dsimp only
  generalize hz : sleepTcs (sleepTimebases (forEach 8 followSelection (deselectAll { s with rf := { s.rf with stopped := true } }))) = z at *
  have h4 := congrArg Prod.snd ((sleepPorts_wide (sleepCalendar z)).trans (hc z))
  generalize sleepPorts (sleepCalendar z) = w at *
  simp only [State.still, State.wide, Prod.mk.injEq] at *
  obtain ⟨md, nv, clk, fc, jr, cores, rf, -⟩ := h3
  obtain ⟨md', nv', clk', fc', jr', cores', rf', sc⟩ := h4
  exact ⟨md'.trans md, nv'.trans nv, clk'.trans clk, fc'.trans fc, jr'.trans jr, by rw [cores', cores], rf'.trans rf, sc⟩

theorem enterMode_cfg (m : Mode) (s : State) : (enterMode m s).cfg = s.cfg := by
  by_cases h : s.md.mode = m
  · unfold enterMode
    rw [if_pos h]
  · exact (enterMode_parts m s h).2.1

/-- Of the mode registers a transition changes the mode, the instant and the vouching alone. -/
theorem enterMode_md_keeps (m : Mode) (s : State) :
    (enterMode m s).md.wakeLatched = s.md.wakeLatched ∧ (enterMode m s).md.sleptFrom = s.md.sleptFrom
      ∧ (enterMode m s).md.sleep = s.md.sleep ∧ (enterMode m s).md.waking = s.md.waking
      ∧ (enterMode m s).md.phase = s.md.phase := by
  have k {α : Type} (g : State → α) := congrArg g (enterMode_rest m s)
  exact ⟨k fun z => z.md.wakeLatched, k fun z => z.md.sleptFrom, k fun z => z.md.sleep, k fun z => z.md.waking, k fun z => z.md.phase⟩

/-- A transition leaves the cores, the store, the clock, the fault collector, the journal and the configuration. -/
theorem enterMode_keeps (m : Mode) (s : State) :
    (enterMode m s).cores = s.cores ∧ (enterMode m s).nv = s.nv ∧ (enterMode m s).clk = s.clk ∧ (enterMode m s).fc = s.fc
      ∧ (enterMode m s).jr = s.jr ∧ (enterMode m s).cfg = s.cfg ∧ (enterMode m s).rf.stopped = s.rf.stopped := by
  have k {α : Type} (g : State → α) := congrArg g (enterMode_rest m s)
  exact ⟨k State.cores, k State.nv, k State.clk, k State.fc, k State.jr, enterMode_cfg m s, k fun z => z.rf.stopped⟩

/-- What a sleep commit leaves that no latched wake follows at once (R89). -/
theorem commitSleep_done (s : State) (hw : s.md.wakeLatched = none)
    (hm : s.md.mode = .freerun ∨ s.md.mode = .tracking ∨ s.md.mode = .holdover) :
    let t := finish (commitSleep s)
    t.md.mode = .standby ∧ t.md.sleptFrom = s.md.mode ∧ t.md.sleep = none
      ∧ t.cores = s.cores.map (fun x => if x = .running then .halted else x) ∧ t.rf.stopped = true ∧ t.sc.stopped = true
      ∧ t.nv = s.nv ∧ t.clk = s.clk ∧ t.fc = s.fc ∧ t.jr = s.jr := by
  obtain ⟨wk0, slept0, sleep0, -⟩ := enterMode_md_keeps .standby { s with md := { s.md with sleep := none, sleptFrom := s.md.mode } }
  obtain ⟨cores0, nv0, clk0, fc0, jr0, -⟩ := enterMode_keeps .standby { s with md := { s.md with sleep := none, sleptFrom := s.md.mode } }
  have hmode := enterMode_mode .standby { s with md := { s.md with sleep := none, sleptFrom := s.md.mode } }
  have hs := standbyStops_still (enterMode .standby { s with md := { s.md with sleep := none, sleptFrom := s.md.mode } })
  generalize hz : enterMode .standby { s with md := { s.md with sleep := none, sleptFrom := s.md.mode } } = z at *
  have hc : commitSleep s = standbyStops z := by
    have hl : (standbyStops z).md.wakeLatched = none := by
      have hq := hs
      simp only [State.still, State.wide, Prod.mk.injEq] at hq
      rw [hq.1, wk0]; exact hw
    unfold commitSleep
    rw [if_pos hm, hz]
    dsimp only
    rw [hl]
  rw [hc]
  generalize standbyStops z = w at *
  simp only [State.still, State.wide, Prod.mk.injEq] at hs
  obtain ⟨md, nv, clk, fc, jr, cores, rf, sc⟩ := hs
  have hmw : w.md.mode = .standby := by rw [md]; exact hmode
  dsimp only
  have hmode' := finish_mode_fixed w (by simp [hmw]) (by simp [hmw]) (by simp [hmw])
  exact ⟨hmode'.trans hmw, by rw [finish_md_sleptFrom, md, slept0], by rw [finish_md_sleep, md, sleep0], by rw [finish_cores, cores, cores0],
    by rw [finish_rf_stopped, rf], by rw [finish_sc_stopped, sc], by rw [finish_nv, nv, nv0], by rw [finish_clk, clk, clk0],
    by rw [finish_fc, fc, fc0], by rw [finish_jr, jr, jr0]⟩

/-! ## The wake (R91) -/

/-- What a completed wake leaves before its command settles (R91). -/
theorem wakeComplete_done (s : State) (h1 : s.md.mode = .standby) (h2 : s.md.waking ≠ none) :
    ∃ u, wakeComplete s = raise 8 u ∧ u.md.waking = none ∧ u.rf.stopped = false ∧ u.sc.stopped = false
      ∧ u.md.mode = (if (s.md.sleptFrom = .tracking ∨ s.md.sleptFrom = .holdover) ∧ s.isFenced (.tb s.ptb) = false then .holdover
          else .freerun)
      ∧ u.cfg = s.cfg ∧ u.clk = s.clk ∧ u.jr = s.jr := by
  obtain ⟨w, hw⟩ : ∃ w, s.md.waking = some w := Option.ne_none_iff_exists'.1 h2
  have hg : ¬ (s.md.mode ≠ .standby ∨ s.md.waking.isNone = true) := by simp [h1, hw]
  have hheld : ((s.md.sleptFrom == .tracking || s.md.sleptFrom == .holdover) && !s.isFenced (.tb s.ptb)) = true ↔
      (s.md.sleptFrom = .tracking ∨ s.md.sleptFrom = .holdover) ∧ s.isFenced (.tb s.ptb) = false := by simp
  generalize hm : (if ((s.md.sleptFrom == .tracking || s.md.sleptFrom == .holdover) && !s.isFenced (.tb s.ptb)) = true then Mode.holdover
    else Mode.freerun) = m
  have hm' : (if (s.md.sleptFrom = .tracking ∨ s.md.sleptFrom = .holdover) ∧ s.isFenced (.tb s.ptb) = false then Mode.holdover
      else Mode.freerun) = m := by
    rw [← hm]; simp only [hheld]
  obtain ⟨-, -, -, waking0, -⟩ := enterMode_md_keeps m { s with md := { s.md with waking := none }, rf := { s.rf with stopped := false } }
  obtain ⟨-, -, clk0, -, jr0, cfg0, rf0⟩ :=
    enterMode_keeps m { s with md := { s.md with waking := none }, rf := { s.rf with stopped := false } }
  have hmode := enterMode_mode m { s with md := { s.md with waking := none }, rf := { s.rf with stopped := false } }
  generalize hz : enterMode m { s with md := { s.md with waking := none }, rf := { s.rf with stopped := false } } = z at *
  have hc := wakeCalendar_wide (wakeTcs (tdcRestart (wakeTimebases ((List.range 24).foldl (fun s c =>
    if (candCfg s.cfg c).enable = 1 ∧ (s.cand c).state ≠ .fenced then startCand c s else s) z))))
  have hb : ((List.range 24).foldl (fun s c =>
      if (candCfg s.cfg c).enable = 1 ∧ (s.cand c).state ≠ .fenced then startCand c s else s) z).wide = z.wide :=
    foldl_wide (fun s c => by split; exact startCand_wide c s; rfl) _ _
  have ht := (wakeTimebases_wide _).trans hb
  have hu : wakeComplete s = raise 8 (wakeCalendar (wakeTcs (tdcRestart (wakeTimebases ((List.range 24).foldl (fun s c =>
      if (candCfg s.cfg c).enable = 1 ∧ (s.cand c).state ≠ .fenced then startCand c s else s) z))))) := by
    simp only [wakeComplete, if_neg hg, hm, hz]
  refine ⟨_, hu, ?_⟩
  generalize wakeTimebases ((List.range 24).foldl (fun s c =>
    if (candCfg s.cfg c).enable = 1 ∧ (s.cand c).state ≠ .fenced then startCand c s else s) z) = y at *
  generalize wakeCalendar (wakeTcs (tdcRestart y)) = u at *
  have hcy : State.wide { wakeTcs (tdcRestart y) with sc := { (wakeTcs (tdcRestart y)).sc with stopped := false } }
      = State.wide { y with sc := { y.sc with stopped := false } } := rfl
  rw [hcy] at hc
  simp only [State.wide, Prod.mk.injEq] at hc ht
  obtain ⟨cfg, md, -, clk, -, jr, -, rf, sc⟩ := hc
  obtain ⟨cfg', md', -, clk', -, jr', -, rf', -⟩ := ht
  exact ⟨by rw [md, md', waking0], by rw [rf, rf', rf0], sc, by rw [md, md', hmode, hm'], by rw [cfg, cfg', cfg0], by rw [clk, clk', clk0],
    by rw [jr, jr', jr0]⟩

/-! ## The entry to FREERUN and to SAFE -/

/-- The start-up sequence is done where FREERUN is entered (R80). -/
theorem enterFreerun_phase (s : State) : (enterFreerun s).md.phase = .done := by
  have hk := (enterMode_md_keeps .freerun { s with md :=
    { s.md with phase := .done, startDuration := (readInt (((s.clk.count : Rat) - s.md.startedAt) / 1000)).toNat } }).2.2.2.2
  unfold enterFreerun
  generalize enterMode .freerun { s with md :=
    { s.md with phase := .done, startDuration := (readInt (((s.clk.count : Rat) - s.md.startedAt) / 1000)).toNat } } = z at *
  have hw := armLoaded_wide z
  simp only [State.wide, Prod.mk.injEq] at hw
  rw [hw.2.1, hk]

/-- What leaving STANDBY for SAFE leaves (R92): the mode stands, and no core that ran stops. -/
theorem leaveStandby_md (s : State) : (leaveStandby s).md = s.md := by
  have h := wakeCalendar_wide (wakeTcs (tdcRestart { s with
    rf := { s.rf with stopped := false },
    cores := (indexed s.cores).map fun (c, x) => if c != 1 && x == .halted then .running else x }))
  simp only [State.wide, Prod.mk.injEq] at h
  exact h.2.1

theorem stopCore_md (c : Nat) (st : CoreState) (s : State) : (stopCore c st s).md = s.md := by
  unfold stopCore steerStops
  split
  · rfl
  · split <;> rfl

/-- A STEER core that runs is halted. -/
theorem stopCore_steer (s : State) (h : s.runs 1 = true) : (stopCore 1 .halted s).runs 1 = false := by
  have hf : s.core 1 = .running := by simpa using h
  have hn : s.core 1 ≠ .fenced := by rw [hf]; exact CoreState.noConfusion
  have hl : 1 < s.cores.length := by
    rcases Nat.lt_or_ge 1 s.cores.length with hl | hl
    · exact hl
    · simp [State.core, hl] at hf
  have hu : (stopCore 1 .halted s).core 1 = .halted := by
    unfold stopCore steerStops
    rw [if_neg hn, if_pos rfl]
    exact nth_upd_eq s.cores (fun _ => CoreState.halted) .off hl
  show ((stopCore 1 .halted s).core 1 == .running) = false
  rw [hu]; rfl

/-- The STEER core does not run, the mode is SAFE and no hold stands where SAFE has been entered (R85, R367). -/
theorem enterSafeMode_done (cause : Option TarnRec) (s : State) (h : s.md.mode ≠ .safe) :
    (enterSafeMode cause s).md.mode = .safe ∧ (enterSafeMode cause s).runs 1 = false ∧ (enterSafeMode cause s).md.phase ≠ .hold := by
  unfold enterSafeMode
  rw [if_neg h]
  dsimp only
  have hmode := enterMode_mode .safe { holdWords s with nvc := { s.nvc with safePending := some (cause, s.fc.firstEvent) } }
  generalize enterMode .safe { holdWords s with nvc := { s.nvc with safePending := some (cause, s.fc.firstEvent) } } = z at *
  have hmode2 : (if s.md.mode = .standby then leaveStandby z else z).md.mode = .safe := by
    split
    · rw [leaveStandby_md]; exact hmode
    · exact hmode
  generalize (if s.md.mode = .standby then leaveStandby z else z) = y at *
  refine ⟨?_, ?_, ?_⟩
  · split
    · rw [stopCore_md]; exact hmode2
    · exact hmode2
  · by_cases hr : y.runs 1 = true
    · rw [if_pos hr]
      exact stopCore_steer y hr
    · rw [if_neg hr]
      simpa using hr
  · generalize (if y.runs 1 = true then stopCore 1 .halted y else y) = w
    show (if w.md.phase = .done then Phase.done else Phase.ended) ≠ Phase.hold
    split <;> decide

end Sys2Proof.Machine
end

