-- ==== Sys2Proof/Laws/State.lean ====
section
/-! SUPPORT. The shared updates of the state, field by field: what each leaves. The setters of one element (`State.setCand` and its like)
are abbreviations, which simp reads through. -/

namespace Sys2Proof.Machine

/-! A raised source changes the event controller alone (R385). -/

@[simp] theorem raise_pending (n : Nat) (s : State) : (raise n s).pending = s.pending := rfl
@[simp] theorem raise_nv (n : Nat) (s : State) : (raise n s).nv = s.nv := rfl
@[simp] theorem raise_nvc (n : Nat) (s : State) : (raise n s).nvc = s.nvc := rfl
@[simp] theorem raise_pwr (n : Nat) (s : State) : (raise n s).pwr = s.pwr := rfl
@[simp] theorem raise_clk (n : Nat) (s : State) : (raise n s).clk = s.clk := rfl
@[simp] theorem raise_cores (n : Nat) (s : State) : (raise n s).cores = s.cores := rfl
@[simp] theorem raise_fc (n : Nat) (s : State) : (raise n s).fc = s.fc := rfl
@[simp] theorem raise_rf (n : Nat) (s : State) : (raise n s).rf = s.rf := rfl
@[simp] theorem raise_dp (n : Nat) (s : State) : (raise n s).dp = s.dp := rfl
@[simp] theorem raise_ln (n : Nat) (s : State) : (raise n s).ln = s.ln := rfl
@[simp] theorem raise_sn (n : Nat) (s : State) : (raise n s).sn = s.sn := rfl
@[simp] theorem raise_ou (n : Nat) (s : State) : (raise n s).ou = s.ou := rfl
@[simp] theorem raise_tb (n : Nat) (s : State) : (raise n s).tb = s.tb := rfl
@[simp] theorem raise_dom (n : Nat) (s : State) : (raise n s).dom = s.dom := rfl
@[simp] theorem raise_pt (n : Nat) (s : State) : (raise n s).pt = s.pt := rfl
@[simp] theorem raise_ts (n : Nat) (s : State) : (raise n s).ts = s.ts := rfl
@[simp] theorem raise_tc (n : Nat) (s : State) : (raise n s).tc = s.tc := rfl
@[simp] theorem raise_ax (n : Nat) (s : State) : (raise n s).ax = s.ax := rfl
@[simp] theorem raise_sc (n : Nat) (s : State) : (raise n s).sc = s.sc := rfl
@[simp] theorem raise_dop (n : Nat) (s : State) : (raise n s).dop = s.dop := rfl
@[simp] theorem raise_jr (n : Nat) (s : State) : (raise n s).jr = s.jr := rfl
@[simp] theorem raise_sram (n : Nat) (s : State) : (raise n s).sram = s.sram := rfl
@[simp] theorem raise_pins (n : Nat) (s : State) : (raise n s).pins = s.pins := rfl
@[simp] theorem raise_tx (n : Nat) (s : State) : (raise n s).tx = s.tx := rfl
@[simp] theorem raise_free (n : Nat) (s : State) : (raise n s).free = s.free := rfl

/-! A level changes the event controller alone (R384). -/

@[simp] theorem level_pending (n : Nat) (b : Bool) (s : State) : (level n b s).pending = s.pending := rfl
@[simp] theorem level_cfg (n : Nat) (b : Bool) (s : State) : (level n b s).cfg = s.cfg := rfl
@[simp] theorem level_nv (n : Nat) (b : Bool) (s : State) : (level n b s).nv = s.nv := rfl
@[simp] theorem level_nvc (n : Nat) (b : Bool) (s : State) : (level n b s).nvc = s.nvc := rfl
@[simp] theorem level_pwr (n : Nat) (b : Bool) (s : State) : (level n b s).pwr = s.pwr := rfl
@[simp] theorem level_clk (n : Nat) (b : Bool) (s : State) : (level n b s).clk = s.clk := rfl
@[simp] theorem level_cores (n : Nat) (b : Bool) (s : State) : (level n b s).cores = s.cores := rfl
@[simp] theorem level_fc (n : Nat) (b : Bool) (s : State) : (level n b s).fc = s.fc := rfl
@[simp] theorem level_rf (n : Nat) (b : Bool) (s : State) : (level n b s).rf = s.rf := rfl
@[simp] theorem level_dp (n : Nat) (b : Bool) (s : State) : (level n b s).dp = s.dp := rfl
@[simp] theorem level_ln (n : Nat) (b : Bool) (s : State) : (level n b s).ln = s.ln := rfl
@[simp] theorem level_sn (n : Nat) (b : Bool) (s : State) : (level n b s).sn = s.sn := rfl
@[simp] theorem level_ou (n : Nat) (b : Bool) (s : State) : (level n b s).ou = s.ou := rfl
@[simp] theorem level_tb (n : Nat) (b : Bool) (s : State) : (level n b s).tb = s.tb := rfl
@[simp] theorem level_dom (n : Nat) (b : Bool) (s : State) : (level n b s).dom = s.dom := rfl
@[simp] theorem level_pt (n : Nat) (b : Bool) (s : State) : (level n b s).pt = s.pt := rfl
@[simp] theorem level_ts (n : Nat) (b : Bool) (s : State) : (level n b s).ts = s.ts := rfl
@[simp] theorem level_tc (n : Nat) (b : Bool) (s : State) : (level n b s).tc = s.tc := rfl
@[simp] theorem level_ax (n : Nat) (b : Bool) (s : State) : (level n b s).ax = s.ax := rfl
@[simp] theorem level_sc (n : Nat) (b : Bool) (s : State) : (level n b s).sc = s.sc := rfl
@[simp] theorem level_dop (n : Nat) (b : Bool) (s : State) : (level n b s).dop = s.dop := rfl
@[simp] theorem level_jr (n : Nat) (b : Bool) (s : State) : (level n b s).jr = s.jr := rfl
@[simp] theorem level_sram (n : Nat) (b : Bool) (s : State) : (level n b s).sram = s.sram := rfl
@[simp] theorem level_pins (n : Nat) (b : Bool) (s : State) : (level n b s).pins = s.pins := rfl
@[simp] theorem level_tx (n : Nat) (b : Bool) (s : State) : (level n b s).tx = s.tx := rfl
@[simp] theorem level_free (n : Nat) (b : Bool) (s : State) : (level n b s).free = s.free := rfl

/-! A frame sent changes the frames sent alone. -/

@[simp] theorem send_pending (x : Tx) (s : State) : (send x s).pending = s.pending := rfl
@[simp] theorem send_cfg (x : Tx) (s : State) : (send x s).cfg = s.cfg := rfl
@[simp] theorem send_nv (x : Tx) (s : State) : (send x s).nv = s.nv := rfl
@[simp] theorem send_nvc (x : Tx) (s : State) : (send x s).nvc = s.nvc := rfl
@[simp] theorem send_pwr (x : Tx) (s : State) : (send x s).pwr = s.pwr := rfl
@[simp] theorem send_clk (x : Tx) (s : State) : (send x s).clk = s.clk := rfl
@[simp] theorem send_md (x : Tx) (s : State) : (send x s).md = s.md := rfl
@[simp] theorem send_cores (x : Tx) (s : State) : (send x s).cores = s.cores := rfl
@[simp] theorem send_fc (x : Tx) (s : State) : (send x s).fc = s.fc := rfl
@[simp] theorem send_ev (x : Tx) (s : State) : (send x s).ev = s.ev := rfl
@[simp] theorem send_rf (x : Tx) (s : State) : (send x s).rf = s.rf := rfl
@[simp] theorem send_dp (x : Tx) (s : State) : (send x s).dp = s.dp := rfl
@[simp] theorem send_ln (x : Tx) (s : State) : (send x s).ln = s.ln := rfl
@[simp] theorem send_sn (x : Tx) (s : State) : (send x s).sn = s.sn := rfl
@[simp] theorem send_ou (x : Tx) (s : State) : (send x s).ou = s.ou := rfl
@[simp] theorem send_tb (x : Tx) (s : State) : (send x s).tb = s.tb := rfl
@[simp] theorem send_dom (x : Tx) (s : State) : (send x s).dom = s.dom := rfl
@[simp] theorem send_pt (x : Tx) (s : State) : (send x s).pt = s.pt := rfl
@[simp] theorem send_ts (x : Tx) (s : State) : (send x s).ts = s.ts := rfl
@[simp] theorem send_tc (x : Tx) (s : State) : (send x s).tc = s.tc := rfl
@[simp] theorem send_ax (x : Tx) (s : State) : (send x s).ax = s.ax := rfl
@[simp] theorem send_sc (x : Tx) (s : State) : (send x s).sc = s.sc := rfl
@[simp] theorem send_dop (x : Tx) (s : State) : (send x s).dop = s.dop := rfl
@[simp] theorem send_jr (x : Tx) (s : State) : (send x s).jr = s.jr := rfl
@[simp] theorem send_sram (x : Tx) (s : State) : (send x s).sram = s.sram := rfl
@[simp] theorem send_pins (x : Tx) (s : State) : (send x s).pins = s.pins := rfl
@[simp] theorem send_free (x : Tx) (s : State) : (send x s).free = s.free := rfl

/-! Writing the journal through changes the store and the journal alone (R432). -/

@[simp] theorem flushJournal_pending (s : State) : (flushJournal s).pending = s.pending := rfl
@[simp] theorem flushJournal_cfg (s : State) : (flushJournal s).cfg = s.cfg := rfl
@[simp] theorem flushJournal_nvc (s : State) : (flushJournal s).nvc = s.nvc := rfl
@[simp] theorem flushJournal_pwr (s : State) : (flushJournal s).pwr = s.pwr := rfl
@[simp] theorem flushJournal_clk (s : State) : (flushJournal s).clk = s.clk := rfl
@[simp] theorem flushJournal_md (s : State) : (flushJournal s).md = s.md := rfl
@[simp] theorem flushJournal_cores (s : State) : (flushJournal s).cores = s.cores := rfl
@[simp] theorem flushJournal_fc (s : State) : (flushJournal s).fc = s.fc := rfl
@[simp] theorem flushJournal_ev (s : State) : (flushJournal s).ev = s.ev := rfl
@[simp] theorem flushJournal_rf (s : State) : (flushJournal s).rf = s.rf := rfl
@[simp] theorem flushJournal_dp (s : State) : (flushJournal s).dp = s.dp := rfl
@[simp] theorem flushJournal_ln (s : State) : (flushJournal s).ln = s.ln := rfl
@[simp] theorem flushJournal_sn (s : State) : (flushJournal s).sn = s.sn := rfl
@[simp] theorem flushJournal_ou (s : State) : (flushJournal s).ou = s.ou := rfl
@[simp] theorem flushJournal_tb (s : State) : (flushJournal s).tb = s.tb := rfl
@[simp] theorem flushJournal_dom (s : State) : (flushJournal s).dom = s.dom := rfl
@[simp] theorem flushJournal_pt (s : State) : (flushJournal s).pt = s.pt := rfl
@[simp] theorem flushJournal_ts (s : State) : (flushJournal s).ts = s.ts := rfl
@[simp] theorem flushJournal_tc (s : State) : (flushJournal s).tc = s.tc := rfl
@[simp] theorem flushJournal_ax (s : State) : (flushJournal s).ax = s.ax := rfl
@[simp] theorem flushJournal_sc (s : State) : (flushJournal s).sc = s.sc := rfl
@[simp] theorem flushJournal_dop (s : State) : (flushJournal s).dop = s.dop := rfl
@[simp] theorem flushJournal_sram (s : State) : (flushJournal s).sram = s.sram := rfl
@[simp] theorem flushJournal_pins (s : State) : (flushJournal s).pins = s.pins := rfl
@[simp] theorem flushJournal_tx (s : State) : (flushJournal s).tx = s.tx := rfl
@[simp] theorem flushJournal_free (s : State) : (flushJournal s).free = s.free := rfl

/-! CLEAR changes the fault collector alone (R366). -/

@[simp] theorem clearTarn_pending (s : State) : (clearTarn s).pending = s.pending := rfl
@[simp] theorem clearTarn_cfg (s : State) : (clearTarn s).cfg = s.cfg := rfl
@[simp] theorem clearTarn_nv (s : State) : (clearTarn s).nv = s.nv := rfl
@[simp] theorem clearTarn_nvc (s : State) : (clearTarn s).nvc = s.nvc := rfl
@[simp] theorem clearTarn_pwr (s : State) : (clearTarn s).pwr = s.pwr := rfl
@[simp] theorem clearTarn_clk (s : State) : (clearTarn s).clk = s.clk := rfl
@[simp] theorem clearTarn_md (s : State) : (clearTarn s).md = s.md := rfl
@[simp] theorem clearTarn_cores (s : State) : (clearTarn s).cores = s.cores := rfl
@[simp] theorem clearTarn_ev (s : State) : (clearTarn s).ev = s.ev := rfl
@[simp] theorem clearTarn_rf (s : State) : (clearTarn s).rf = s.rf := rfl
@[simp] theorem clearTarn_dp (s : State) : (clearTarn s).dp = s.dp := rfl
@[simp] theorem clearTarn_ln (s : State) : (clearTarn s).ln = s.ln := rfl
@[simp] theorem clearTarn_sn (s : State) : (clearTarn s).sn = s.sn := rfl
@[simp] theorem clearTarn_ou (s : State) : (clearTarn s).ou = s.ou := rfl
@[simp] theorem clearTarn_tb (s : State) : (clearTarn s).tb = s.tb := rfl
@[simp] theorem clearTarn_dom (s : State) : (clearTarn s).dom = s.dom := rfl
@[simp] theorem clearTarn_pt (s : State) : (clearTarn s).pt = s.pt := rfl
@[simp] theorem clearTarn_ts (s : State) : (clearTarn s).ts = s.ts := rfl
@[simp] theorem clearTarn_tc (s : State) : (clearTarn s).tc = s.tc := rfl
@[simp] theorem clearTarn_ax (s : State) : (clearTarn s).ax = s.ax := rfl
@[simp] theorem clearTarn_sc (s : State) : (clearTarn s).sc = s.sc := rfl
@[simp] theorem clearTarn_dop (s : State) : (clearTarn s).dop = s.dop := rfl
@[simp] theorem clearTarn_jr (s : State) : (clearTarn s).jr = s.jr := rfl
@[simp] theorem clearTarn_sram (s : State) : (clearTarn s).sram = s.sram := rfl
@[simp] theorem clearTarn_pins (s : State) : (clearTarn s).pins = s.pins := rfl
@[simp] theorem clearTarn_tx (s : State) : (clearTarn s).tx = s.tx := rfl
@[simp] theorem clearTarn_free (s : State) : (clearTarn s).free = s.free := rfl

/-! Counting a request changes the object protocol's counters alone (R438). -/

@[simp] theorem counted_pending (s : State) : (counted s).pending = s.pending := rfl
@[simp] theorem counted_cfg (s : State) : (counted s).cfg = s.cfg := rfl
@[simp] theorem counted_nv (s : State) : (counted s).nv = s.nv := rfl
@[simp] theorem counted_nvc (s : State) : (counted s).nvc = s.nvc := rfl
@[simp] theorem counted_pwr (s : State) : (counted s).pwr = s.pwr := rfl
@[simp] theorem counted_clk (s : State) : (counted s).clk = s.clk := rfl
@[simp] theorem counted_md (s : State) : (counted s).md = s.md := rfl
@[simp] theorem counted_cores (s : State) : (counted s).cores = s.cores := rfl
@[simp] theorem counted_fc (s : State) : (counted s).fc = s.fc := rfl
@[simp] theorem counted_ev (s : State) : (counted s).ev = s.ev := rfl
@[simp] theorem counted_rf (s : State) : (counted s).rf = s.rf := rfl
@[simp] theorem counted_dp (s : State) : (counted s).dp = s.dp := rfl
@[simp] theorem counted_ln (s : State) : (counted s).ln = s.ln := rfl
@[simp] theorem counted_sn (s : State) : (counted s).sn = s.sn := rfl
@[simp] theorem counted_ou (s : State) : (counted s).ou = s.ou := rfl
@[simp] theorem counted_tb (s : State) : (counted s).tb = s.tb := rfl
@[simp] theorem counted_dom (s : State) : (counted s).dom = s.dom := rfl
@[simp] theorem counted_pt (s : State) : (counted s).pt = s.pt := rfl
@[simp] theorem counted_ts (s : State) : (counted s).ts = s.ts := rfl
@[simp] theorem counted_tc (s : State) : (counted s).tc = s.tc := rfl
@[simp] theorem counted_ax (s : State) : (counted s).ax = s.ax := rfl
@[simp] theorem counted_sc (s : State) : (counted s).sc = s.sc := rfl
@[simp] theorem counted_jr (s : State) : (counted s).jr = s.jr := rfl
@[simp] theorem counted_sram (s : State) : (counted s).sram = s.sram := rfl
@[simp] theorem counted_pins (s : State) : (counted s).pins = s.pins := rfl
@[simp] theorem counted_tx (s : State) : (counted s).tx = s.tx := rfl
@[simp] theorem counted_free (s : State) : (counted s).free = s.free := rfl

end Sys2Proof.Machine
end

