-- ==== Sys2Proof/Tests/Slice0.lean ====
section
/-! SUPPORT. Tests of one command each on small states, ill-formed terms, and a state that meets the hypotheses of each statement. -/

set_option Elab.async false

namespace Sys2Proof.Machine

/-! ## Small states -/

/-- A module that has started and runs in FREERUN, five seconds after its clock started, with both CAN channels served. -/
def up : State :=
  { State.reset with
    pwr := { Pwr.reset with supply := .on, vin := 48000, holdupEst := 500, tBase := 40000, tOcxo := 70000 },
    clk := { Clk.reset with count := 5000000000, running := true },
    md := { Md.reset with mode := .freerun, phase := .done, sealed := true, limitsOk := true, levels := [2, 2, 2] },
    cores := [.running, .running, .running] }

/-- A host on CAN channel 0. -/
def can0 : Requester := { Requester.blank with iface := 0x40 }

/-- A start in which everything passes. -/
def startOk : StartIn :=
  { rail := 1000, load := 1000000, bist := 1000000, boot := 1000000, stopped := none,
    vsel := [(true, true), (true, true), (true, true)], copyA := true, copyB := true, limits := true, model := true, holdupA := true, holdupB := true, slot0 := true, slot1 := true,
    bistFails := [], coreFails := [], holdup := 500, sensors := ⟨48000, 500, 24000, 20000, 40000, 70000⟩ }

/-- A module in the hold of its start-up, at its end. -/
def inHold : State := { up with md := { up.md with mode := .startup, phase := .hold, sealed := false } }

/-- A module in STANDBY, every wake source enabled. -/
def asleep : State :=
  { up with
    md := { up.md with mode := .standby }, cores := [.halted, .halted, .halted],
    cfg := { up.cfg with sy := { up.cfg.sy with wakeEnable := 0x0F#8, wakeT1Ports := 0xFFF#16, wakeCanChannels := 3#8 } } }

/-- A module whose OCXO the consensus of three references contradicts. -/
def suspectOcxo : State :=
  { up with
    cfg := { up.cfg with refs := (indexed up.cfg.refs).map fun p =>
      if p.1 < 2 then { p.2 with enable := 1, monitorEnable := 0xFF#8 } else p.2 },
    rf := { up.rf with cand := (indexed up.rf.cand).map fun p =>
      if p.1 < 2 then { p.2 with state := .qualified, y10 := some 3000000 } else p.2 } }

/-- A module with source `n` routed by a byte. -/
def routed (n : Nat) (r : BitVec 8) : State :=
  { up with cfg := { up.cfg with ev := { up.cfg.ev with routes := upd up.cfg.ev.routes n fun _ => r } } }

/-- Source 16 waits for the STEER core in a class. -/
def pendingOn (fast : Bool) : State :=
  { routed 16 (if fast then 0xC1#8 else 0x81#8) with ev := up.ev.setSrc 16 fun x => { x with state := .pending, counter := 3 } }

/-- Source 16 is ACTIVE on the STEER core in a class. -/
def activeOn (fast : Bool) : State :=
  { pendingOn fast with
    ev := { up.ev.setSrc 16 fun x => { x with state := .active } with
      cores := upd up.ev.cores 1 fun k => if fast then { k with fast := some 16 } else { k with normal := some 16 } } }

/-- Source 255 goes to a target. -/
def toTarget (k : Nat) : State := routed 255 (0x80#8 ||| BitVec.ofNat 8 k)

/-- A delivery of source 255 to the host is due, and a host subscribes. -/
def hostDue : State :=
  { toTarget 3 with
    ev := { up.ev.setSrc 255 fun x => { x with state := .held, heldCount := 1 } with
      targets := upd up.ev.targets 0 fun t => { t with arrivals := 1, firstAt := some 0, fastSeen := true } },
    dop := { up.dop with subs := [{ req := can0, mask := 0, ends := 10000000000, seq := 0 }] } }

/-- A delivery of source 255 to ALERT_A in a mode is due. -/
def lineDue (m : Nat) : State :=
  { toTarget 4 with
    ev := { up.ev.setSrc 255 fun x => { x with state := .held, heldCount := 1 } with
      targets := upd up.ev.targets 1 fun t => { t with arrivals := 1, firstAt := some 0, fastSeen := true, alertMode := m } } }

/-- Candidate `c` in a state, its activity fault clear. -/
def monitored (c : Nat) (st : CandState) : State :=
  { up with rf := { up.rf with cand := upd up.rf.cand c fun x => { x with state := st } } }

/-- `monitored` with its configuration as a CLK (0) or a PULSE (1) input of a rate, enabled. -/
def refUp (c cls mhz : Nat) : State :=
  { monitored c .qualified with cfg := { up.cfg with refs := upd up.cfg.refs c fun r =>
      { r with enable := 1, cls := cls, nominal := mhz } } }

/-- A GNSS reference on input 12 whose pulse fell 4.2 s after the clock started. -/
def gnssUp : State :=
  let s := refUp 12 1 1000
  { s with
    cfg := { s.cfg with lrefs := upd s.cfg.lrefs 0 fun l => { l with enable := 1, kind := 0, source := 12 } },
    rf := { s.rf with
      cand := upd s.rf.cand 16 fun x => { x with state := .qualifying },
      gnss := { s.rf.gnss with pulseAt := some 4200000000, judged := false } } }

/-- Reference LREF7 carries domain 0, of kind PTP, whose last Announce carried a clockClass. -/
def ptpRef (k : Option Nat) : State :=
  { up with
    cfg := { up.cfg with
      lrefs := upd up.cfg.lrefs 7 fun l => { l with enable := 1, kind := 1, source := 0 },
      dom := upd up.cfg.dom 0 fun d => { d with kind := 1 } },
    pt := { up.pt with inst := upd up.pt.inst 0 fun x => { x with annClass := k } } }

/-- The bytes of a text. -/
def ascii (x : String) : List Byte := x.toList.map fun c => BitVec.ofNat 8 c.toNat

/-- A ZDA sentence of 2026-01-02 00:00:01 with its checksum. -/
def zda : List Byte := ascii "$GPZDA,000001.00,02,01,2026,00,00*62"

/-- The same sentence with a wrong checksum. -/
def badZda : List Byte := ascii "$GPZDA,000001.00,02,01,2026,00,00*00"

/-- A ZDA sentence of more than 82 characters. -/
def longZda : List Byte := ascii "$GPZDA," ++ List.replicate 90 48#8 ++ ascii "*00"

/-- What a sentence reads as. -/
def sentenceOf (l : List Byte) : Sentence := (readSentence l).getD { fields := [], sumOk := false, length := 0 }

/-- Domain 7 supplies its estimate and has passed the whole seconds 1 to 5. -/
def domainUp : State :=
  { up with
    dom := upd up.dom 7 fun d => { d with state := .qualified, est := [(4900000000, 0)], edgeSec := some 0 },
    tb := up.tb.map fun t => { t with now := 5000000000 } }

/-- Channel 0 has just recorded a second in which it was locked to a QUALIFIED candidate 3 and learning was allowed. -/
def learning : State :=
  { up with
    md := { up.md with ovenReady := true },
    cfg := { up.cfg with ln := { up.cfg.ln with modelEnable := 1, learnChannel := 0, learnRank := 14 } },
    rf := { up.rf with cand := upd up.rf.cand 3 fun x => { x with state := .selected, rank := 1 },
                       sel := upd up.rf.sel 0 fun x => { x with selected := some 3 } },
    ln := { up.ln with secLearn := true, ho := upd up.ln.ho 0 fun h =>
      { h with hist := [{ HistRec.reset with cand := some 3, ok := true, locked := true }] } } }

/-- Every synthesis core in a state with a retune. -/
def coreIn (st : SynState) (q : Option Retune) : State :=
  { up with sn := { up.sn with core := up.sn.core.map fun x => { x with state := st, retune := q } } }

/-- Output 31 may be enabled: 50 MHz CMOS from a plan of 5,000 MHz. -/
def outReady : State :=
  { up with
    cfg := { up.cfg with ou := up.cfg.ou.map fun c => { c with format := 3 } },
    sn := { up.sn with core := up.sn.core.map fun x => { x with plan := 5000000000000 } },
    ou := { up.ou with out := up.ou.out.map fun o => { o with active := { o.active with divInt := 100, divFrac := 0, postDiv := 1 } } } }

/-- Every output enabled and time-carrying with a window from 9 MHz to 11 MHz. -/
def gateUp : State :=
  { up with cfg := { up.cfg with
      ou := up.cfg.ou.map fun c => { c with enable := 1 },
      lim := { up.cfg.lim with out := up.cfg.lim.out.map fun l =>
        { l with fmin := 9000000000000, fmax := 11000000000000, slewLimit := 1000, timeCarrying := 1 } } } }

/-- Every timebase and domain in a state. -/
def domainTb (t : TbState) (d : DomState) : State :=
  { up with tb := up.tb.map fun x => { x with state := t }, dom := up.dom.map fun x => { x with state := d } }

/-- Every domain a PTP instance of profile 0 with domain number 0, and every port linked and enabled, in role BMCA. -/
def ptpOn (s : State) : State :=
  { s with
    cfg := { s.cfg with
      sy := { s.cfg.sy with freerunPermit := 0xFF#8 },
      dom := s.cfg.dom.map fun d => { d with kind := 1, profile := 0, ptpDomain := 0 },
      pt := s.cfg.pt.map fun p => { p with enable := 1, roles := List.replicate 8 1 } },
    pt := { s.pt with port := s.pt.port.map fun p => { p with link := true } } }

/-- The header of a message for domain number 0 of an IEEE 1588 profile. -/
def hdr0 : PtpHdr := { domain := 0, gptp := false, seqId := 7, corr := 0, sender := 5, senderPort := 1 }

/-- Every instance of a profile. -/
def profiled (p : Nat) (s : State) : State :=
  { s with cfg := { s.cfg with dom := s.cfg.dom.map fun d => { d with profile := p } } }

/-- Every port of every instance in a state. -/
def portIn (st : PortState) (s : State) : State :=
  { s with pt := { s.pt with port := s.pt.port.map fun p => { p with states := List.replicate 8 st } } }

/-- Every port a SLAVE of instances of a profile. -/
def slaveUp (p : Nat) : State := portIn .slave (profiled p (ptpOn up))

/-- What a MASTER port of instance 7 announces. -/
def masterData : Dataset := (advDataset (elapse 0 (portIn .master (ptpOn up))) 7).getD Dataset.unreceived

/-- What it announces in a profile. -/
def ownData (p : Nat) : Dataset := (advDataset (elapse 0 (portIn .master (profiled p (ptpOn up)))) 7).getD Dataset.unreceived

/-- Every timestamp input enabled for both edges, on timebase 0. -/
def tsiUp : State :=
  { up with cfg := { up.cfg with ts := up.cfg.ts.map fun c => { c with enable := 1, edges := 3#8 } } }

/-- `tsiUp` with a stream open on port 0, whose oldest record has waited for more than 1 ms. -/
def streaming : State :=
  { tsiUp with
    pt := { up.pt with port := up.pt.port.map fun p => { p with link := true } },
    ts := { tsiUp.ts with stream := some Stream.reset, ring := [(0, 0#96)] } }

/-- `streaming` with a record in the FIFO of input 63. -/
def waitingRecord : State := streaming.setTsi 63 fun x => { x with fifo := [⟨5000000000, 5#96⟩] }

/-- Every interval channel in a gate that ends now, in a mode, on inputs 62 and 63. -/
def gateOpen (mode run : Nat) : State :=
  { tsiUp with
    cfg := { tsiUp.cfg with tc := tsiUp.cfg.tc.map fun c => { c with mode := mode, run := run, startInput := 62, stopInput := 63, gate := 1000 } },
    tc := tsiUp.tc.map fun x => { x with gate := some 4000000000, status := 1 } }

/-- `gateOpen` with an edge waiting and a stop held. -/
def edgeWaits : State :=
  { gateOpen 0 1 with tc := (gateOpen 0 1).tc.map fun x => { x with waiting := [(4999999000, true)] } }

/-- Every axis of a kind in a state. -/
def axes (kind : Nat) (st : AxisState) : State :=
  { up with
    cfg := { up.cfg with ax := up.cfg.ax.map fun c => { c with kind := kind, lines := 1024, indexTol := 2 } },
    ax := up.ax.map fun x => { x with state := st, edges := 3, fresh := false } }

/-- A pulse of 1 µs on trigger 47 at 6 s of timebase 0. -/
def pulse47 : CfgAct := { CfgAct.reset with kind := 1, axis := 0, output := 47, target := 6000000000#64, width := 1000 }

/-- The first 70 actions, each that pulse, in a state. -/
def actions (st : ActState) : State :=
  { up with
    cfg := { up.cfg with act := List.replicate 70 pulse47 },
    sc := { up.sc with act := List.replicate 70 { Act.reset with status := st } } }

/-- A servo slot that may be enabled, on a frame that has waited too long for its strobe. -/
def servoUp (enable : Nat) : State :=
  { actions .idle with
    cfg := { (actions .idle).cfg with
      ts := tsiUp.cfg.ts,
      servo := up.cfg.servo.map fun c => { c with enable := enable, leadInit := 5, leadMin := 1, leadMax := 9 } },
    sc := { (actions .idle).sc with servo := up.sc.servo.map fun v => { v with live := [SvFrame.reset] } } }

/-- The bytes of a firmware image of 64 bytes, without its CRC. -/
def imageHead : List Byte := natBytes 2 1 ++ natBytes 2 0x9600 ++ natBytes 4 7 ++ natBytes 2 0 ++ natBytes 4 64 ++ List.replicate 46 0#8

/-- A firmware image that passes its check. -/
def goodImage : List Byte := imageHead ++ natBytes 4 (crc32 (imageHead ++ [0#8, 0#8, 0#8, 0#8]))

/-- The object `NV.021` and its element 1, `NOMINAL_RATE`. -/
def nv21 : Obj := (objNv 21).getD { els := [] }

/-- Element n of that object. -/
def nv21El (n : Nat) : Elem := (nv21.find n).getD (command 0 .u8 fun _ s => (0, s))

/-- A frame of CAN channel 0 to element n of `NV.021`. -/
def nvFrame (opcode n : Nat) (segment : Option Nat) (payload : List Byte) : Frame := mkFrame can0 opcode (addrWord 0x50 21 n) segment payload

/-- `up` with the first block of a read and of a write of `NV.021` from element 1 on. -/
def midTransfer : State :=
  { up with
    dop := { up.dop with
      rx := [{ iface := 0x40, source := 0, sport := 0, address := addrWord 0x50 21 1, lastSeg := 0, atNs := 0, data := List.replicate 60 0#8 }],
      wx := [{ iface := 0x40, source := 0, sport := 0, address := addrWord 0x50 21 1, lastSeg := 0, atNs := 0, data := natBytes 4 500000 }] } }

/-- A host on port 0. -/
def eth0 : Requester := { Requester.blank with iface := 0, source := 9, sport := 7, mac := 5 }

/-- `up` with port 0 linked and serving DOP. -/
def linked : State :=
  { up with
    pt := { up.pt with port := up.pt.port.map fun p => { p with link := true } },
    dop := { up.dop with active := { up.dop.active with dopPorts := 0x3FFF#16 } } }

/-- A store that has begun. -/
def storing (erase : Bool) : State := { up with nvc := { up.nvc with storeOp := some (erase, up.cfg), storeState := 1 } }

/-- Where every action is as at reset, `CALENDAR` takes the image of no bytes. -/
theorem calendar_free (s : State) (n : Nat) (hf : s.isFenced .calendar = false) (ha : s.sc.act = List.replicate n Act.reset) :
    calendarStatus s [] = 0 := by
  have hs (a : Nat) : s.action a = Act.reset := by
    show s.sc.act.getD a Act.reset = Act.reset
    rw [ha, List.getD_eq_getElem?_getD, List.getElem?_replicate]
    split <;> rfl
  have he : (actionsWhere s fun _ _ x => x.status == .armed || x.status == .suspended).isEmpty = true := by
    rw [List.isEmpty_iff]
    refine List.filter_eq_nil_iff.2 fun a _ => ?_
    show ¬ ((s.action a).status == .armed || (s.action a).status == .suspended) = true
    rw [hs a]
    decide
  unfold calendarStatus
  rw [hf, he]
  rfl

/-! ## Well-formedness -/

/-- A requester on an interface that does not exist. -/
def badReq : Requester := { can0 with iface := 14 }

/-- A PTP header whose fields fit. -/
def hdrMax : PtpHdr := { domain := 255, gptp := true, seqId := 65535, corr := 0, sender := 2 ^ 64 - 1, senderPort := 65535 }

/-- A request with an OPCODE. -/
def reqFrame (opcode : Nat) : Frame := mkFrame can0 opcode (addrWord 0x01 0 0) none []

/-- Each field of a requester beyond its range is refused. -/
theorem test_ill_requester : ([
    { can0 with iface := 14 },
    { can0 with iface := 0x42 },
    { can0 with source := 2 ^ 32 },
    { can0 with sport := 2 ^ 16 },
    { can0 with mac := 2 ^ 48 },
    { can0 with version := 256 },
    { can0 with seq := 2 ^ 16 }] : List Requester).all (fun x => !x.wf) = true ∧ Requester.wf (can0) = true := by decide +kernel

/-- Each field of a frame beyond its width is refused. -/
theorem test_ill_frame : ([
    { reqFrame 1 with magic := 2 ^ 16 },
    { reqFrame 1 with opcode := 256 },
    { reqFrame 1 with status := 256 },
    { reqFrame 1 with reserved := 64 },
    { reqFrame 1 with address := 2 ^ 32 },
    { reqFrame 1 with length := 2 ^ 16 },
    { reqFrame 1 with segment := 2 ^ 16 },
    { reqFrame 1 with crc := 2 ^ 32 }] : List Frame).all (fun x => !x.wf) = true ∧ Frame.wf (reqFrame 1) = true := by decide +kernel

/-- Each measurement beyond its element is refused. -/
theorem test_ill_sensors : ([
    { startOk.sensors with vin := 2 ^ 32 },
    { startOk.sensors with iin := 2 ^ 32 },
    { startOk.sensors with pin := 2 ^ 32 },
    { startOk.sensors with load := 2 ^ 32 },
    { startOk.sensors with tBase := 2 ^ 31 },
    { startOk.sensors with tBase := -(2 ^ 31) - 1 },
    { startOk.sensors with tOcxo := 2 ^ 31 },
    { startOk.sensors with tOcxo := -(2 ^ 31) - 1 }] : List Sensors).all (fun x => !x.wf) = true ∧ Sensors.wf (startOk.sensors) = true := by decide +kernel

/-- What a start finds is refused where a part of it does not fit. -/
theorem test_ill_start : ([
    { startOk with vsel := [(true, true), (true, true)] },
    { startOk with coreFails := [3] },
    { startOk with bistFails := [2 ^ 16] },
    { startOk with holdup := 2 ^ 16 },
    { startOk with sensors := { startOk.sensors with vin := 2 ^ 32 } },
    { startOk with stopped := some 3000000 }] : List StartIn).all (fun x => !x.wf) = true ∧ StartIn.wf (startOk) = true := by decide +kernel

/-- Each header field beyond its width is refused. -/
theorem test_ill_ptp_header : ([
    { hdrMax with domain := 256 },
    { hdrMax with seqId := 2 ^ 16 },
    { hdrMax with sender := 2 ^ 64 },
    { hdrMax with senderPort := 2 ^ 16 }] : List PtpHdr).all (fun x => !x.wf) = true ∧ PtpHdr.wf (hdrMax) = true := by decide +kernel

/-- Each Announce field beyond its width is refused. -/
theorem test_ill_dataset : ([
    { Dataset.unreceived with gmIdentity := 2 ^ 64 },
    { Dataset.unreceived with gmClass := 256 },
    { Dataset.unreceived with accuracy := 256 },
    { Dataset.unreceived with variance := 2 ^ 16 },
    { Dataset.unreceived with priority1 := 256 },
    { Dataset.unreceived with priority2 := 256 },
    { Dataset.unreceived with steps := 2 ^ 16 },
    { Dataset.unreceived with timeSource := 256 },
    { Dataset.unreceived with utcOffset := 2 ^ 15 },
    { Dataset.unreceived with utcOffset := -(2 ^ 15) - 1 }] : List Dataset).all (fun x => !x.wf) = true ∧ Dataset.wf (Dataset.unreceived) = true := by decide +kernel

/-- A TIME80 value beyond its fields is refused. -/
theorem test_ill_time : ([
    { Time80.mk 1 2 with sec := 2 ^ 48 },
    { Time80.mk 1 2 with ns := 2 ^ 32 }] : List Time80).all (fun x => !x.wf) = true ∧ Time80.wf (Time80.mk 1 2) = true := by decide +kernel

/-- Commands with one part that does not fit, each refused. -/
theorem test_ill_commands_1 : ([
    .powerUp { startOk with holdup := 2 ^ 16 } 0 0,
    .sealNow 0 badReq 0 0 0,
    .sealNow 0 can0 (2 ^ 8) 0 0,
    .measurementRefresh 0 { startOk.sensors with vin := 2 ^ 32 },
    .sleep 0 badReq 0,
    .sleep 0 can0 (2 ^ 8),
    .canWakeFrame 0 0 (2 ^ 29),
    .enterSafe 0 badReq 0,
    .enterSafe 0 can0 (2 ^ 8),
    .principalTbWrite 0 badReq 0,
    .principalTbWrite 0 can0 (2 ^ 8),
    .checkerError 0 (2 ^ 16) 0,
    .pathFault 0 (2 ^ 16) true,
    .mpuViolation 0 0 ⟨2 ^ 22, 0⟩ 0,
    .clear 0 badReq 0,
    .clear 0 can0 (2 ^ 8),
    .inject 0 badReq 0,
    .inject 0 can0 (2 ^ 8),
    .sweep 0 badReq 0,
    .sweep 0 can0 (2 ^ 8),
    .alertAck 0 badReq 0 0,
    .alertAck 0 can0 0 (2 ^ 8),
    .alertModeWrite 0 badReq 0 0,
    .alertModeWrite 0 can0 0 (2 ^ 8)] : List Instr).all (fun c => !c.wf) = true := by decide +kernel

/-- Commands with one part that does not fit, each refused. -/
theorem test_ill_commands_2 : ([
    .routeWrite 0 badReq 0 0,
    .routeWrite 0 can0 0 (2 ^ 8),
    .referenceEdge 0 0 1,
    .referenceEdge 0 0 (-1),
    .referenceEnable 0 badReq 0 0,
    .referenceEnable 0 can0 0 (2 ^ 8),
    .stickyClear 0 badReq 0 0,
    .stickyClear 0 can0 (2 ^ 32) 0,
    .stickyClear 0 can0 0 (2 ^ 8),
    .channelEnable 0 badReq 0 0,
    .channelEnable 0 can0 0 (2 ^ 8),
    .firstAlignment 0 0 1,
    .firstAlignment 0 0 (-1),
    .modelStore 0 badReq 0,
    .modelStore 0 can0 (2 ^ 8),
    .modelWrite 0 badReq [],
    .steeringWrite 0 badReq 0 0,
    .steeringWrite 0 can0 0 (-(2 ^ 63) - 1),
    .steeringWrite 0 can0 0 (2 ^ 63),
    .coreEnable 0 badReq 0 0,
    .coreEnable 0 can0 0 (2 ^ 8),
    .coreLock 0 0 (2 ^ 16) 0,
    .coreLock 0 0 0 (2 ^ 16),
    .cardsWrite 0 badReq []] : List Instr).all (fun c => !c.wf) = true := by decide +kernel

/-- Commands with one part that does not fit, each refused. -/
theorem test_ill_commands_3 : ([
    .commit 0 badReq 0,
    .commit 0 can0 (2 ^ 8),
    .outputEnable 0 badReq 0 0,
    .outputEnable 0 can0 0 (2 ^ 8),
    .formatWrite 0 badReq 0 0,
    .formatWrite 0 can0 0 (2 ^ 8),
    .chimneyFrequencyTest 0 0 (-1) 0,
    .chimneyFrequencyTest 0 0 0 (-1),
    .syncReceive 0 0 { hdrMax with domain := 256 } (.oneStep none) 0 0,
    .syncReceive 0 0 hdrMax (.oneStep (some (2 ^ 16, 0))) 0 0,
    .followUpReceive 0 0 { hdrMax with domain := 256 } 0 0 none,
    .followUpReceive 0 0 hdrMax 0 0 (some (2 ^ 16, 0)),
    .restep 0 badReq 0 0,
    .restep 0 can0 0 (2 ^ 8),
    .clearDisc 0 badReq 0 0,
    .clearDisc 0 can0 0 (2 ^ 8),
    .localLabel 0 badReq 0 ⟨0, 0⟩,
    .localLabel 0 can0 0 ⟨2 ^ 48, 0⟩,
    .utcWrite 0 badReq 0 1 0 ⟨0, 0⟩,
    .utcWrite 0 can0 0 1 0 ⟨2 ^ 48, 0⟩,
    .utcWrite 0 can0 0 0 0 ⟨0, 0⟩,
    .domainKindWrite 0 badReq 0 0,
    .domainKindWrite 0 can0 0 (2 ^ 8),
    .announceReceive 0 0 { hdrMax with domain := 256 } Dataset.unreceived] : List Instr).all (fun c => !c.wf) = true := by decide +kernel

/-- Commands with one part that does not fit, each refused. -/
theorem test_ill_commands_4 : ([
    .announceReceive 0 0 hdrMax { Dataset.unreceived with gmClass := 256 },
    .delayReqReceive 0 0 { hdrMax with domain := 256 },
    .delayRespReceive 0 0 { hdrMax with domain := 256 } 0 0 0,
    .delayRespReceive 0 0 hdrMax 0 (2 ^ 64) 0,
    .delayRespReceive 0 0 hdrMax 0 0 (2 ^ 16),
    .pdelayReqReceive 0 0 { hdrMax with domain := 256 },
    .pdelayRespReceive 0 0 { hdrMax with domain := 256 } 0 0 0 0,
    .pdelayRespReceive 0 0 hdrMax 0 0 (2 ^ 64) 0,
    .pdelayRespReceive 0 0 hdrMax 0 0 0 (2 ^ 16),
    .transparentForward 0 0 { hdrMax with domain := 256 } .sync true 0,
    .transparentForward 0 0 hdrMax .sync true (-1),
    .roleWrite 0 badReq 0 0 0,
    .roleWrite 0 can0 0 0 (2 ^ 8),
    .tsiEdge 0 0 ⟨true, true⟩ 1,
    .tsiEdge 0 0 ⟨true, true⟩ (-1),
    .ringFlush 0 badReq 0,
    .ringFlush 0 can0 (2 ^ 8),
    .tsiEnable 0 badReq 0 0,
    .tsiEnable 0 can0 0 (2 ^ 8),
    .tcRun 0 badReq 0 0,
    .tcRun 0 can0 0 (2 ^ 8),
    .axisCountEdge 0 0 false false true true,
    .axisKindWrite 0 badReq 0 0,
    .axisKindWrite 0 can0 0 (2 ^ 8)] : List Instr).all (fun c => !c.wf) = true := by decide +kernel

/-- Commands with one part that does not fit, each refused. -/
theorem test_ill_commands_5 : ([
    .preset 0 badReq 0 0,
    .preset 0 can0 0 (2 ^ 64),
    .arm 0 badReq 0,
    .disarm 0 badReq 0,
    .disarmAll 0 badReq 0,
    .disarmAll 0 can0 (2 ^ 8),
    .actionKindWrite 0 badReq 0 0,
    .actionKindWrite 0 can0 0 (2 ^ 8),
    .calendarWrite 0 badReq [],
    .servoEnable 0 badReq 0 0,
    .servoEnable 0 can0 0 (2 ^ 8),
    .read 0 badReq (reqFrame 1),
    .read 0 can0 { reqFrame 1 with magic := 2 ^ 16 },
    .read 0 can0 (reqFrame 5),
    .write 0 badReq (reqFrame 2),
    .write 0 can0 { reqFrame 2 with magic := 2 ^ 16 },
    .write 0 can0 (reqFrame 5),
    .readBlock 0 badReq (reqFrame 3),
    .readBlock 0 can0 { reqFrame 3 with magic := 2 ^ 16 },
    .readBlock 0 can0 (reqFrame 5),
    .writeBlock 0 badReq (reqFrame 4),
    .writeBlock 0 can0 { reqFrame 4 with magic := 2 ^ 16 },
    .writeBlock 0 can0 (reqFrame 5),
    .subscribe 0 badReq (reqFrame 6)] : List Instr).all (fun c => !c.wf) = true := by decide +kernel

/-- Commands with one part that does not fit, each refused. -/
theorem test_ill_commands_6 : ([
    .subscribe 0 can0 { reqFrame 6 with magic := 2 ^ 16 },
    .subscribe 0 can0 (reqFrame 5),
    .store 0 badReq 0,
    .store 0 can0 (2 ^ 8),
    .eraseConfig 0 badReq 0,
    .eraseConfig 0 can0 (2 ^ 8),
    .firmwareWrite 0 badReq [],
    .activate 0 badReq 0,
    .activate 0 can0 (2 ^ 8),
    .nvRefresh 0 (2 ^ 32) 0 0 0,
    .nvRefresh 0 0 0 (2 ^ 16) 0,
    .nvRefresh 0 0 0 0 (2 ^ 32),
    .arpRequest 0 0 (2 ^ 32) 0 0,
    .arpRequest 0 0 0 (2 ^ 48) 0,
    .arpRequest 0 0 0 0 (2 ^ 32),
    .icmpEcho 0 0 (2 ^ 32) 0 0 [],
    .icmpEcho 0 0 0 (2 ^ 48) 0 [],
    .icmpEcho 0 0 0 0 (2 ^ 32) [],
    .layer2Forwarding 0 0 (2 ^ 48) 0 0 [],
    .layer2Forwarding 0 0 0 (2 ^ 48) 0 [],
    .layer2Forwarding 0 0 0 0 (2 ^ 16) []] : List Instr).all (fun c => !c.wf) = true := by decide +kernel

/-- Commands whose parts fit, each accepted. -/
theorem test_well_formed_1 : ([
    .powerUp startOk 0 0,
    .sealNow 0 can0 0 0 0,
    .measurementRefresh 0 startOk.sensors,
    .sleep 0 can0 0,
    .canWakeFrame 0 0 0,
    .enterSafe 0 can0 0,
    .principalTbWrite 0 can0 0,
    .checkerError 0 0 0,
    .pathFault 0 0 true,
    .mpuViolation 0 0 ⟨0, 0⟩ 0,
    .clear 0 can0 0,
    .inject 0 can0 0,
    .sweep 0 can0 0,
    .alertAck 0 can0 0 0,
    .alertModeWrite 0 can0 0 0,
    .routeWrite 0 can0 0 0,
    .referenceEdge 0 0 0,
    .referenceEnable 0 can0 0 0,
    .stickyClear 0 can0 0 0,
    .channelEnable 0 can0 0 0,
    .firstAlignment 0 0 0,
    .modelStore 0 can0 0,
    .modelWrite 0 can0 [],
    .steeringWrite 0 can0 0 0,
    .coreEnable 0 can0 0 0,
    .coreLock 0 0 0 0,
    .cardsWrite 0 can0 [],
    .commit 0 can0 0,
    .outputEnable 0 can0 0 0,
    .formatWrite 0 can0 0 0,
    .chimneyFrequencyTest 0 0 0 0,
    .syncReceive 0 0 hdrMax (.oneStep none) 0 0,
    .followUpReceive 0 0 hdrMax 0 0 none,
    .restep 0 can0 0 0,
    .clearDisc 0 can0 0 0,
    .localLabel 0 can0 0 ⟨0, 0⟩,
    .utcWrite 0 can0 0 1 0 ⟨0, 0⟩,
    .domainKindWrite 0 can0 0 0,
    .announceReceive 0 0 hdrMax Dataset.unreceived,
    .delayReqReceive 0 0 hdrMax] : List Instr).all (fun c => c.wf) = true := by decide +kernel

/-- Commands whose parts fit, each accepted. -/
theorem test_well_formed_2 : ([
    .delayRespReceive 0 0 hdrMax 0 0 0,
    .pdelayReqReceive 0 0 hdrMax,
    .pdelayRespReceive 0 0 hdrMax 0 0 0 0,
    .transparentForward 0 0 hdrMax .sync true 0,
    .roleWrite 0 can0 0 0 0,
    .tsiEdge 0 0 ⟨true, true⟩ 0,
    .ringFlush 0 can0 0,
    .tsiEnable 0 can0 0 0,
    .tcRun 0 can0 0 0,
    .axisCountEdge 0 0 true true true true,
    .axisKindWrite 0 can0 0 0,
    .preset 0 can0 0 0,
    .arm 0 can0 0,
    .disarm 0 can0 0,
    .disarmAll 0 can0 0,
    .actionKindWrite 0 can0 0 0,
    .calendarWrite 0 can0 [],
    .servoEnable 0 can0 0 0,
    .read 0 can0 (reqFrame 1),
    .write 0 can0 (reqFrame 2),
    .readBlock 0 can0 (reqFrame 3),
    .writeBlock 0 can0 (reqFrame 4),
    .subscribe 0 can0 (reqFrame 6),
    .store 0 can0 0,
    .eraseConfig 0 can0 0,
    .firmwareWrite 0 can0 [],
    .activate 0 can0 0,
    .nvRefresh 0 0 0 0 0,
    .arpRequest 0 0 0 0 0,
    .icmpEcho 0 0 0 0 0 [],
    .layer2Forwarding 0 0 0 0 0 []] : List Instr).all (fun c => c.wf) = true := by decide +kernel

/-! ## Worked examples of the spec -/

/-- The address words of R14's example: `DP.004.2` and `SY.002.5`. -/
theorem test_address_words : addrWord 0x11 4 2 = 0x11004020 ∧ addrWord 0x01 2 5 = 0x01002050 := by decide

/-- The address of R430's example: 0x1406_4020 is `OU.100.2`. -/
theorem test_address_fields : areaOf 0x14064020 = 0x14 ∧ objectOf 0x14064020 = 100 ∧ elementOf 0x14064020 = 2 := by decide

/-- The header of R419's example: segment 0 of a calendar image over Ethernet. -/
theorem test_segment_header :
    (frameBytes { Requester.blank with iface := 0, seq := 0x0100 }
      (mkFrame { Requester.blank with iface := 0, seq := 0x0100 } 4 (addrWord 0x41 2048 0) (some 0) (List.replicate 1024 0#8))).take 16
      = [0x44#8, 0x56#8, 0x01#8, 0x04#8, 0x01#8, 0x00#8, 0x00#8, 0x40#8, 0x41#8, 0x80#8, 0x00#8, 0x00#8, 0x04#8, 0x00#8, 0x00#8, 0x00#8] := by
  decide +kernel

/-- The check value of the CRC-32 of IEEE 802.3, over the digits 1 to 9. -/
theorem test_crc32 : crc32 (ascii "123456789") = 0xCBF43926 := by decide +kernel

/-- `NOMINAL_FREQ` of R213's example: `OUT2` and `OUT3` on a plan of 5,000,000,000,000 mHz. -/
theorem test_nominal_frequency :
    nominalMicroHz 5000000000000 ⟨66, 2863311531, 1, 0, 0, 0, 0⟩ = 74999999999913
      ∧ nominalMicroHz 5000000000000 ⟨5000000, 0, 1000, 0, 0, 0, 0⟩ = 1000000 := by decide +kernel

/-- The phase step of the same example: 200 ps over 512. -/
theorem test_phase_step : phaseStepPs 5000000000000 = 390625 / 1000000 := by decide +kernel

/-- Channel 0 in LOCKED with a window of 2 ns and an error, `LDA_MON` showing it. -/
def lda (ps : Rat) : State :=
  { up with
    cfg := { up.cfg with ldaSelect := 0, dp := upd up.cfg.dp 0 fun c => { c with lockWindow := 2000 } },
    dp := upd up.dp 0 fun c => { c with state := .locked, phaseErr := some ps } }

/-- The duty cycles of R150's example, in units of 0.01 %. -/
theorem test_lda_duty : ldaDutyNow (lda 0) = 9000 ∧ ldaDutyNow (lda 2000) = 8000 ∧ ldaDutyNow (lda (-3000)) = 7500 ∧ ldaDutyNow (lda 16000) = 1000 := by
  decide +kernel

/-- The outcomes of R374's example, cases A to C. -/
theorem test_injection_cases :
    expectedSyndrome 0x0202 = 3 ∧ injectionResult 0x0202 (some 3) none none = 1 ∧ injectionResult 0x0202 (some 1) none none = 4
      ∧ injectionResult 0x0202 (some 3) none (some 1) = 3 := by decide +kernel

/-- The episode of R179's example at `t` s, with a V_T of `v` · R_T². -/
def bounded (t v : Nat) : State × Ho :=
  ({ up with clk := { up.clk with count := t * 1000000000 },
             ln := { up.ln with model := { up.ln.model with rT := 8000, rA := 40, learnTime := 604800 } } },
   { Ho.reset with e0 := 2, uy := 1500, vT := 8000 * 8000 * (v : Rat), conditions := 0 })

/-- The bounds of R179's example at 8 h, at 24 h, and at 24 h with the load extrapolated from 8 h on. -/
theorem test_holdover_bound :
    boundOf (bounded 28800 (3600 * 28800)).1 (bounded 28800 (3600 * 28800)).2 = 146
      ∧ boundOf (bounded 86400 (3600 * 86400)).1 (bounded 86400 (3600 * 86400)).2 = 446
      ∧ boundOf (bounded 86400 3421440000).1 (bounded 86400 3421440000).2 = 773 := by decide +kernel

/-- R427: the regions fill the 32 MiB store, and a firmware slot takes the longest image of R429. -/
theorem test_nv_regions : (nvRegions.map Prod.snd).foldl (· + ·) 0 = 32 * 1024 ∧ regionBytes "firmware slot 1" = 8388608 := by decide +kernel

/-- R388: bit 11 of LEVEL0 is `LEVEL_NOW` of source 11, and sources that are not level sources read 0. -/
theorem test_level_word :
    ((Ev.reset.setSrc 11 fun x => { x with level := true }).setSrc 12 fun x => { x with level := true }).levelWord 0 = 0x1800
      ∧ (Ev.reset.setSrc 16 fun x => { x with level := true }).levelWord 0 = 0 := by decide +kernel

/-- The levels that R43's codings select: 3.3 V, 1.8 V, 5 V-tolerant, invalid. -/
theorem test_coding_levels : [(true, true), (true, false), (false, true), (false, false)].map levelOf = [2, 1, 3, 0] := by decide

/-- A step runs the command at the front of the queue and leaves the rest: `LOW_INPUT` sets its flag. -/
theorem test_step_front :
    (match step { up with pending := [.lowInput 7, .ovenReady 1] } with
      | .next t => t.pwr.lowInput && t.pending == [.ovenReady 1] && t.clk.count == 5000000007
      | _ => false) = true := by decide +kernel

/-- An empty queue idles. -/
theorem test_step_idle : (match step up with | .next t => t == up | _ => false) = true := by decide +kernel

/-- No word spells a command. -/
theorem test_no_words (n w : Nat) : decodeTableWord n w = none ∧ up.withFetchWord n w = up := ⟨rfl, rfl⟩


/-! ## Witnesses of the hypotheses -/

/-- A state with a command at the front of its queue. -/
theorem test_meets_StepRunsFrontCommand_front : ∃ (c : Instr) (rest : List Instr) (s : State), s.pending = c :: rest :=
  ⟨.lowInput 0, [], { up with pending := [.lowInput 0] }, rfl⟩

/-- A state with an empty queue. -/
theorem test_meets_StepRunsFrontCommand_empty : ∃ s : State, s.pending = [] := ⟨State.reset, rfl⟩

/-- A consistent state with a command at the front of its queue. -/
theorem test_meets_StepKeepsConsistent : ∃ s t : State, Consistent s ∧ step s = .next t :=
  ⟨{ State.reset with pending := [.lowInput 0] }, _,
    ⟨fun h => absurd h.1 (by decide +kernel), fun _ => rfl, fun x hx => by cases hx⟩, rfl⟩

/-- A module in SAFE that a command reaches. -/
theorem test_meets_SafeStands : ∃ (c : Instr) (s t : State), InSafe s ∧ exec c s = .next t :=
  ⟨.lowInput 0, { up with md := { up.md with mode := .safe } }, _, ⟨rfl, rfl⟩, rfl⟩

/-- A module in SAFE that loses its power. -/
theorem test_meets_SafeStands_loss : ∃ (dt : Nat) (s t : State), InSafe s ∧ exec (.orderlyStop dt) s = .next t ∧ (elapse dt s).pwr.pfail = true :=
  ⟨0, { up with md := { up.md with mode := .safe }, pwr := { up.pwr with pfail := true } }, _, ⟨rfl, rfl⟩, rfl, rfl⟩

/-- An event that runs. -/
theorem test_meets_EventsLeaveQueueAndSram : ∃ (c : Instr) (s t : State), isRequest c = false ∧ exec c s = .next t :=
  ⟨.lowInput 0, up, _, rfl, rfl⟩

/-- A start from no power. -/
theorem test_meets_EventsLeaveQueueAndSram_start : ∃ (c : Instr) (s t : State), isRequest c = false ∧ exec c s = .next t :=
  ⟨.powerUp startOk 0 0, State.reset, _, rfl, rfl⟩

/-- A permitted write of the MGT core. -/
theorem test_meets_EventsLeaveQueueAndSram_write : ∃ (addr : Nat) (t : State), mayWrite 0 addr = true ∧ exec (.mpuViolation 0 0 ⟨addr, 5⟩ 0) up = .next t :=
  ⟨0x10000, _, by decide +kernel, rfl⟩

/-- A module whose engine clock runs. -/
theorem test_meets_TimePassesAlone_runs : ∃ s : State, s.clk.running = true := ⟨up, rfl⟩

/-- A module whose engine clock stands. -/
theorem test_meets_TimePassesAlone_stands : ∃ s : State, s.clk.running = false := ⟨State.reset, rfl⟩

/-- A write of COALESCE_COUNT waits for the next cycle. -/
theorem test_meets_TimePassesAlone_waits : ∃ s : State, s.clk.running = true ∧ nextCycleDue s = true :=
  ⟨{ up with cfg := { up.cfg with ev := { up.cfg.ev with targets := upd up.cfg.ev.targets 0 fun t => { t with count := 3 } } } }, by decide +kernel⟩

/-- A module in which nothing waits for the next cycle. -/
theorem test_meets_TimePassesAlone_plain : ∃ s : State, nextCycleDue s = false := ⟨up, by decide +kernel⟩

/-- A channel of a module that runs. -/
theorem test_meets_SelectionOrder : ∃ (n : Nat) (s : State), n < 8 ∧ s.md.bootRom = false := ⟨7, up, by decide, rfl⟩

/-- A DOMAIN reference of a PTP domain with a clockClass. -/
theorem test_meets_ClassRanks_known : ∃ (c k : Nat) (s : State), 16 ≤ c ∧ c < 24 ∧ (s.cfg.lref (c - 16)).kind = 1 ∧
    (s.cfg.domi (s.cfg.lref (c - 16)).source).kind = 1 ∧ (s.cfg.domi (s.cfg.lref (c - 16)).source).profile ≠ 3 ∧
    (s.inst (s.cfg.lref (c - 16)).source).annClass = some k :=
  ⟨23, 6, ptpRef (some 6), by decide +kernel⟩

/-- A DOMAIN reference of a PTP domain before its first Announce. -/
theorem test_meets_ClassRanks_none : ∃ (c : Nat) (s : State), 16 ≤ c ∧ c < 24 ∧ (s.cfg.lref (c - 16)).kind = 1 ∧
    (s.cfg.domi (s.cfg.lref (c - 16)).source).kind = 1 ∧ (s.cfg.domi (s.cfg.lref (c - 16)).source).profile ≠ 3 ∧
    (s.inst (s.cfg.lref (c - 16)).source).annClass = none :=
  ⟨23, ptpRef (none), by decide +kernel⟩

/-- The last cell of the map. -/
theorem test_meets_CoverageMap_cell : ∃ (i j : Nat) (t p : Rat), i ≤ 11 ∧ j ≤ 5 ∧ cellOf t p = 6 * i + j :=
  ⟨11, 5, 70000, 26000, by decide +kernel⟩

/-- A module out of its boot ROM. -/
theorem test_meets_CoverageMap_reads : ∃ s : State, s.md.bootRom = false := ⟨up, rfl⟩

/-- The hypotheses of TarnCleared, clear, meet. -/
theorem test_meets_TarnCleared_clear : ∃ (dt : Nat) (r : Requester) (arg : Nat) (s : State),
    Heard r (commandFrame r (addrWord 0x03 3 0) .u8 arg) (elapse dt s) ∧ arg < 256 ∧ (elapse dt s).md.mode ≠ .safe :=
  ⟨0, can0, 255, up, by decide +kernel⟩

/-- The hypotheses of SleepRefusals, refused, meet. -/
theorem test_meets_SleepRefusals_refused : ∃ (dt : Nat) (r : Requester) (arg : Nat) (s : State),
    Heard r (commandFrame r (addrWord 0x01 12 0) .u8 arg) (elapse dt s) ∧ arg < 256 ∧ (elapse dt s).md.mode = .startup ∨ (elapse dt s).md.mode = .safe ∨ (elapse dt s).pwr.pfail = true ∨ (elapse dt s).cfg.sy.wakeEnable &&& 0x0F#8 = 0#8 :=
  ⟨0, can0, 255, { up with pwr := { up.pwr with pfail := true } }, by decide +kernel⟩

/-- The hypotheses of SupplyFlagsAndMeasurements, lowInput, meet. -/
theorem test_meets_SupplyFlagsAndMeasurements_lowInput : ∃ (dt : Nat) (s : State),
    (elapse dt s).powered = true ∧ (elapse dt s).pwr.lowInput = false :=
  ⟨0, up, by decide +kernel⟩

/-- The hypotheses of SupplyFlagsAndMeasurements, overVoltage, meet. -/
theorem test_meets_SupplyFlagsAndMeasurements_overVoltage : ∃ (dt : Nat) (mv : Nat) (s : State),
    75000 < mv ∧ mv ≤ 80000 ∧ (elapse dt s).powered = true ∧ (elapse dt s).pwr.overVoltage = false :=
  ⟨0, 75001, up, by decide +kernel⟩

/-- The hypotheses of SupplyFlagsAndMeasurements, overVoltage_disconnects, meet. -/
theorem test_meets_SupplyFlagsAndMeasurements_overVoltage_disconnects : ∃ (dt : Nat) (mv : Nat) (s : State),
    80000 < mv ∧ (elapse dt s).powered = true ∧ (elapse dt s).pwr.overVoltage = false ∧ (elapse dt s).pwr.pfail = false ∧ booted (elapse dt s) = true :=
  ⟨0, 80001, up, by decide +kernel⟩

/-- The hypotheses of SupplyFlagsAndMeasurements, pfailSet, meet. -/
theorem test_meets_SupplyFlagsAndMeasurements_pfailSet : ∃ (dt : Nat) (s : State),
    (elapse dt s).powered = true ∧ (elapse dt s).pwr.pfail = false ∧ booted (elapse dt s) = true :=
  ⟨0, up, by decide +kernel⟩

/-- The hypotheses of SupplyFlagsAndMeasurements, pfailSet_hold, meet. -/
theorem test_meets_SupplyFlagsAndMeasurements_pfailSet_hold : ∃ (dt : Nat) (s : State),
    (elapse dt s).powered = true ∧ (elapse dt s).pwr.pfail = false ∧ (elapse dt s).md.phase = .hold :=
  ⟨0, inHold, by decide +kernel⟩

/-- The hypotheses of SupplyFlagsAndMeasurements, measurementRefresh, meet. -/
theorem test_meets_SupplyFlagsAndMeasurements_measurementRefresh : ∃ (dt : Nat) (m : Sensors) (s : State),
    (elapse dt s).powered = true :=
  ⟨0, ⟨48000, 500, 24000, 20000, 40000, 70000⟩, up, by decide +kernel⟩

/-- The hypotheses of HoldupStoreAndPowerLoss, holdupWriteComplete, meet. -/
theorem test_meets_HoldupStoreAndPowerLoss_holdupWriteComplete : ∃ (dt : Nat) (s : State),
    (elapse dt s).pwr.pfail = true ∧ (elapse dt s).pwr.writeDone = false ∧ mgtServes (elapse dt s) = true :=
  ⟨0, { up with pwr := { up.pwr with pfail := true } }, by decide +kernel⟩

/-- The hypotheses of HoldupStoreAndPowerLoss, pfailClear, meet. -/
theorem test_meets_HoldupStoreAndPowerLoss_pfailClear : ∃ (dt : Nat) (s : State),
    (elapse dt s).pwr.pfail = true ∧ (elapse dt s).pwr.writeDone = true :=
  ⟨0, { up with pwr := { up.pwr with pfail := true, writeDone := true } }, by decide +kernel⟩

/-- The hypotheses of HoldupStoreAndPowerLoss, holdupRecordCopy, meet. -/
theorem test_meets_HoldupStoreAndPowerLoss_holdupRecordCopy : ∃ (dt : Nat) (s : State),
    (elapse dt s).pwr.pfail = false ∧ (elapse dt s).pwr.copyPending ≠ none ∧ mgtServes (elapse dt s) = true :=
  ⟨0, { up with pwr := { up.pwr with copyPending := some 0 } }, by decide +kernel⟩

/-- The hypotheses of HoldupStoreAndPowerLoss, orderlyStop, meet. -/
theorem test_meets_HoldupStoreAndPowerLoss_orderlyStop : ∃ (dt : Nat) (s : State),
    (elapse dt s).powered = true ∧ (elapse dt s).pwr.pfail = true ∧ (elapse dt s).nvc.storeOp = none :=
  ⟨0, { up with pwr := { up.pwr with pfail := true } }, by decide +kernel⟩

/-- The hypotheses of HoldupStoreAndPowerLoss, orderlyStop_storing, meet. -/
theorem test_meets_HoldupStoreAndPowerLoss_orderlyStop_storing : ∃ (dt : Nat) (s : State),
    (elapse dt s).powered = true ∧ (elapse dt s).pwr.pfail = true ∧ (elapse dt s).nvc.storeOp ≠ none :=
  ⟨0, { up with pwr := { up.pwr with pfail := true }, nvc := { up.nvc with storeOp := some (false, up.cfg) } }, by decide +kernel⟩

/-- The hypotheses of StartupSequence, powerUp, meet. -/
theorem test_meets_StartupSequence_powerUp : ∃ (i : StartIn) (sealDur entryDur : Nat) (s : State),
    s.powered = false :=
  ⟨startOk, 0, 0, State.reset, by decide +kernel⟩

/-- The hypotheses of StartupSequence, powerUp_again, meet. -/
theorem test_meets_StartupSequence_powerUp_again : ∃ (i : StartIn) (sealDur entryDur : Nat) (s : State),
    s.powered = true ∧ s.md.phase = .waiting ∧ s.pwr.pfail = false :=
  ⟨startOk, 0, 0, { up with md := { up.md with phase := .waiting } }, by decide +kernel⟩

/-- The hypotheses of StartupSequence, steps, meet. -/
theorem test_meets_StartupSequence_steps : ∃ (i : StartIn) (sealDur entryDur : Nat) (s : State),
    i.stopped = none :=
  ⟨startOk, 0, 0, up, by decide +kernel⟩

/-- The hypotheses of StartupSequence, steps_cut, meet. -/
theorem test_meets_StartupSequence_steps_cut : ∃ (i : StartIn) (sealDur entryDur n : Nat) (s : State),
    i.stopped = some n ∧ n < i.load :=
  ⟨{ startOk with stopped := some 0, load := 1 }, 0, 0, 0, up, by decide +kernel⟩

/-- The hypotheses of StartupSequence, startupHoldExpiry, meet. -/
theorem test_meets_StartupSequence_startupHoldExpiry : ∃ (dt sealDur entryDur : Nat) (s : State),
    (elapse dt s).md.phase = .hold ∧ (elapse dt s).md.sealed = false ∧ (elapse dt s).md.holdEnd ≤ (elapse dt s).clk.count ∧ (elapse dt s).md.mode ≠ .safe :=
  ⟨0, 0, 0, inHold, by decide +kernel⟩

/-- The hypotheses of StartupSequence, sealNow, meet. -/
theorem test_meets_StartupSequence_sealNow : ∃ (dt sealDur entryDur : Nat) (r : Requester) (arg : Nat) (s : State),
    Heard r (commandFrame r (addrWord 0x01 12 1) .u8 arg) (elapse dt s) ∧ arg < 256 ∧ (elapse dt s).md.phase = .hold ∧ (elapse dt s).md.sealed = false ∧ (elapse dt s).md.mode ≠ .safe :=
  ⟨0, 0, 0, can0, 1, inHold, by decide +kernel⟩

/-- The hypotheses of StartupSequence, limitsFromNv, meet. -/
theorem test_meets_StartupSequence_limitsFromNv : ∃ (s : State) (k : CfgCopy),
    s.md.limitsOk = true ∧ newestCopy s.nv = some k :=
  ⟨up, up.nv.copyA, by decide +kernel⟩

/-- The hypotheses of StartupSequence, limitsFailClosed, meet. -/
theorem test_meets_StartupSequence_limitsFailClosed : ∃ (s : State),
    (s.md.limitsOk = false ∨ newestCopy s.nv = none) :=
  ⟨{ up with md := { up.md with limitsOk := false } }, by decide +kernel⟩

/-- The hypotheses of CodingAndOven, codingChange, meet. -/
theorem test_meets_CodingAndOven_codingChange : ∃ (dt : Nat) (conn : Fin 3) (s : State),
    (elapse dt s).powered = true :=
  ⟨0, 0, up, by decide +kernel⟩

/-- The hypotheses of CodingAndOven, ovenReady, meet. -/
theorem test_meets_CodingAndOven_ovenReady : ∃ (dt : Nat) (s : State),
    (elapse dt s).clk.running = true ∧ (elapse dt s).md.ovenReady = false :=
  ⟨0, up, by decide +kernel⟩

/-- The hypotheses of CodingAndOven, ovenExcursion, meet. -/
theorem test_meets_CodingAndOven_ovenExcursion : ∃ (dt : Nat) (s : State),
    (elapse dt s).clk.running = true ∧ (elapse dt s).md.ovenReady = true :=
  ⟨0, { up with md := { up.md with ovenReady := true } }, by decide +kernel⟩

/-- The hypotheses of SleepSequence, sleep, meet. -/
theorem test_meets_SleepSequence_sleep : ∃ (dt : Nat) (r : Requester) (arg : Nat) (s : State),
    Heard r (commandFrame r (addrWord 0x01 12 0) .u8 arg) (elapse dt s) ∧ arg < 256 ∧ (elapse dt s).md.mode ≠ .startup ∧ (elapse dt s).md.mode ≠ .safe ∧ (elapse dt s).pwr.pfail = false ∧ (elapse dt s).cfg.sy.wakeEnable &&& 0x0F#8 ≠ 0#8 ∧ (elapse dt s).md.sleep = none :=
  ⟨0, can0, 0, { up with cfg := { up.cfg with sy := { up.cfg.sy with wakeEnable := 1#8 } } }, by decide +kernel⟩

/-- The hypotheses of SleepSequence, sleepDecision_wake, meet. -/
theorem test_meets_SleepSequence_sleepDecision_wake : ∃ (dt : Nat) (q : SleepSeq) (s : State),
    (elapse dt s).md.sleep = some q ∧ q.decided = none ∧ (elapse dt s).md.mode ≠ .safe ∧ dopUp (elapse dt s) = true ∧ wakeStands (elapse dt s) = true :=
  ⟨0, SleepSeq.reset, { up with md := { up.md with sleep := some SleepSeq.reset, wakeLatched := some (1, 0) } }, by decide +kernel⟩

/-- The hypotheses of SleepSequence, sleepDecision_sleep, meet. -/
theorem test_meets_SleepSequence_sleepDecision_sleep : ∃ (dt : Nat) (q : SleepSeq) (s : State),
    (elapse dt s).md.sleep = some q ∧ q.decided = none ∧ (elapse dt s).md.mode ≠ .safe ∧ dopUp (elapse dt s) = true ∧ wakeStands (elapse dt s) = false :=
  ⟨0, SleepSeq.reset, { up with md := { up.md with sleep := some SleepSeq.reset } }, by decide +kernel⟩

/-- The hypotheses of SleepSequence, sleepCommit, meet. -/
theorem test_meets_SleepSequence_sleepCommit : ∃ (dt d : Nat) (q : SleepSeq) (s : State),
    (elapse dt s).md.sleep = some q ∧ q.decided = some d ∧ d + 2000000 ≤ (elapse dt s).clk.count ∧ (elapse dt s).md.wakeLatched = none ∧ (elapse dt s).md.mode = .freerun ∨ (elapse dt s).md.mode = .tracking ∨ (elapse dt s).md.mode = .holdover ∧ moved (elapse dt s) = false :=
  ⟨0, 0, { SleepSeq.reset with decided := some 0 }, { up with md := { up.md with sleep := some { SleepSeq.reset with decided := some 0 } } }, by decide +kernel⟩

/-- The hypotheses of WakeSequence, wakePin, meet. -/
theorem test_meets_WakeSequence_wakePin : ∃ (dt : Nat) (held : Bool) (s : State),
    bit8 (elapse dt s).cfg.sy.wakeEnable 0 = true ∧ (elapse dt s).clk.running = true ∧ (elapse dt s).md.mode = .standby ∧ (elapse dt s).md.waking = none :=
  ⟨0, false, asleep, by decide +kernel⟩

/-- The hypotheses of WakeSequence, canWakeFrame, meet. -/
theorem test_meets_WakeSequence_canWakeFrame : ∃ (dt : Nat) (ch : Fin 2) (ident : Nat) (s : State),
    ident = (elapse dt s).cfg.sy.wakeCanId ∧ bit8 (elapse dt s).cfg.sy.wakeCanChannels ch = true ∧ bit8 (elapse dt s).cfg.sy.wakeEnable 1 = true ∧ (elapse dt s).clk.running = true ∧ (elapse dt s).md.mode = .standby ∧ (elapse dt s).md.waking = none :=
  ⟨0, 0, up.cfg.sy.wakeCanId, asleep, by decide +kernel⟩

/-- The hypotheses of WakeSequence, t1Wake, meet. -/
theorem test_meets_WakeSequence_t1Wake : ∃ (dt : Nat) (port : Fin 12) (s : State),
    (elapse dt s).cfg.sy.wakeT1Ports.getLsbD port = true ∧ bit8 (elapse dt s).cfg.sy.wakeEnable 2 = true ∧ (elapse dt s).clk.running = true ∧ (elapse dt s).md.mode = .standby ∧ (elapse dt s).md.waking = none :=
  ⟨0, 11, asleep, by decide +kernel⟩

/-- The hypotheses of WakeSequence, timebaseAlarm, meet. -/
theorem test_meets_WakeSequence_timebaseAlarm : ∃ (dt : Nat) (s : State),
    bit8 (elapse dt s).cfg.sy.wakeEnable 3 = true ∧ (Time80.toNs (elapse dt s).cfg.sy.alarmTime : Rat) ≤ ((elapse dt s).tbs (elapse dt s).cfg.sy.alarmTb).now ∧ (elapse dt s).clk.running = true ∧ (elapse dt s).md.mode = .standby ∧ (elapse dt s).md.waking = none :=
  ⟨0, asleep, by decide +kernel⟩

/-- The hypotheses of WakeSequence, wakePin_latched, meet. -/
theorem test_meets_WakeSequence_wakePin_latched : ∃ (dt : Nat) (held : Bool) (s : State),
    bit8 (elapse dt s).cfg.sy.wakeEnable 0 = true ∧ (elapse dt s).clk.running = true ∧ (elapse dt s).md.mode ≠ .standby ∧ (elapse dt s).md.sleep ≠ none ∧ (elapse dt s).md.wakeLatched = none :=
  ⟨0, true, { asleep with md := { asleep.md with mode := .freerun, sleep := some SleepSeq.reset } }, by decide +kernel⟩

/-- The hypotheses of WakeSequence, wake, meet. -/
theorem test_meets_WakeSequence_wake : ∃ (dt : Nat) (s : State),
    (elapse dt s).md.mode = .standby ∧ (elapse dt s).md.waking ≠ none :=
  ⟨0, { asleep with md := { asleep.md with waking := some 0 } }, by decide +kernel⟩

/-- The hypotheses of EnterSafeAndPrincipalTimebase, enterSafe, meet. -/
theorem test_meets_EnterSafeAndPrincipalTimebase_enterSafe : ∃ (dt : Nat) (r : Requester) (arg : Nat) (s : State),
    Heard r (commandFrame r (addrWord 0x01 12 2) .u8 arg) (elapse dt s) ∧ arg < 256 ∧ (elapse dt s).md.mode ≠ .safe :=
  ⟨0, can0, 0, up, by decide +kernel⟩

/-- The hypotheses of EnterSafeAndPrincipalTimebase, principalTbWrite, meet. -/
theorem test_meets_EnterSafeAndPrincipalTimebase_principalTbWrite : ∃ (dt : Nat) (r : Requester) (v : Nat) (s : State),
    Heard r (writeFrame r (addrWord 0x01 10 0) .u8 v) (elapse dt s) ∧ v < 4 ∧ (elapse dt s).md.mode ≠ .safe ∧ (elapse dt s).md.mode ≠ .tracking ∧ (elapse dt s).md.mode ≠ .holdover :=
  ⟨0, can0, 3, up, by decide +kernel⟩

/-- The hypotheses of EnterSafeAndPrincipalTimebase, principalWritten, meet. -/
theorem test_meets_EnterSafeAndPrincipalTimebase_principalWritten : ∃ (s : State),
    s.md.mode = .freerun ∧ heldTime s = true ∧ moved s = false :=
  ⟨{ up with tb := upd up.tb 0 fun t => { t with tracked := true, state := .holdover } }, by decide +kernel⟩

/-- The hypotheses of CheckerReports, checkerError_none, meet. -/
theorem test_meets_CheckerReports_checkerError_none : ∃ (dt id : Nat) (syn : BitVec 32) (s : State),
    isChecker id = false :=
  ⟨0, 0, 0, up, by decide +kernel⟩

/-- The hypotheses of CheckerReports, checkerError_c0, meet. -/
theorem test_meets_CheckerReports_checkerError_c0 : ∃ (dt id : Nat) (syn : BitVec 32) (s : State),
    isChecker id = true ∧ typeOf id ≠ 0x0E ∧ typeOf id ≠ 0x0F ∧ id ≠ 0x0D00 ∧ (elapse dt s).clk.running = true ∧ armed (elapse dt s) id = true ∧ classOf id syn false = 0 ∧ suppressed (elapse dt s) id = false ∧ (elapse dt s).fc.masks.any (fun m => m.applies id syn 0) = false :=
  ⟨0, 0x1200, 1, up, by decide +kernel⟩

/-- The hypotheses of CheckerReports, checkerError_suppressed, meet. -/
theorem test_meets_CheckerReports_checkerError_suppressed : ∃ (dt id : Nat) (syn : BitVec 32) (s : State),
    isChecker id = true ∧ typeOf id ≠ 0x0E ∧ typeOf id ≠ 0x0F ∧ id ≠ 0x0D00 ∧ (elapse dt s).clk.running = true ∧ armed (elapse dt s) id = true ∧ classOf id syn false = 0 ∧ suppressed (elapse dt s) id = true :=
  ⟨0, 0x1200, 1, { up with fc := { up.fc with c0Last := [(0x1200, 4999000000)] } }, by decide +kernel⟩

/-- The hypotheses of CheckerReports, checkerError_fences, meet. -/
theorem test_meets_CheckerReports_checkerError_fences : ∃ (dt id : Nat) (syn : BitVec 32) (c : Nat) (u : FUnit) (s : State),
    isChecker id = true ∧ typeOf id ≠ 0x0E ∧ typeOf id ≠ 0x0F ∧ id ≠ 0x0D00 ∧ (elapse dt s).clk.running = true ∧ armed (elapse dt s) id = true ∧ classOf id syn false = c ∧ (c = 1 ∨ c = 2) ∧ unitOf id syn false = some u ∧ (elapse dt s).fc.masks.any (fun m => m.applies id syn c) = false :=
  ⟨0, 0x0200, 1, 2, .dp 0, up, by decide +kernel⟩

/-- The hypotheses of CheckerReports, checkerError_safe, meet. -/
theorem test_meets_CheckerReports_checkerError_safe : ∃ (dt id : Nat) (syn : BitVec 32) (s : State),
    isChecker id = true ∧ typeOf id ≠ 0x0E ∧ typeOf id ≠ 0x0F ∧ id ≠ 0x0D00 ∧ (elapse dt s).clk.running = true ∧ armed (elapse dt s) id = true ∧ classOf id syn false = 3 ∧ (elapse dt s).fc.masks.any (fun m => m.applies id syn 3) = false :=
  ⟨0, 0x0D01, 1, up, by decide +kernel⟩

/-- The hypotheses of CheckerReports, checkerError_consequential, meet. -/
theorem test_meets_CheckerReports_checkerError_consequential : ∃ (dt id : Nat) (syn : BitVec 32) (s : State),
    isChecker id = true ∧ typeOf id ≠ 0x0E ∧ typeOf id ≠ 0x0F ∧ id ≠ 0x0D00 ∧ (elapse dt s).clk.running = true ∧ armed (elapse dt s) id = true ∧ classOf id syn false ≠ 0 ∧ (elapse dt s).fc.masks.any (fun m => m.applies id syn (classOf id syn false)) = true :=
  ⟨0, 0x0200, 1, { up with fc := { up.fc with masks := [{ FMask.reset with cls := 2, deps := [0x0200] }] } }, by decide +kernel⟩

/-- The hypotheses of CollectorRecordsAndFences, fenceUnit, meet. -/
theorem test_meets_CollectorRecordsAndFences_fenceUnit : ∃ (u : FUnit) (c : Nat) (s : State),
    s.isFenced u = false :=
  ⟨.dp 0, 2, up, by decide +kernel⟩

/-- The hypotheses of CollectorRecordsAndFences, fenceUnit_again, meet. -/
theorem test_meets_CollectorRecordsAndFences_fenceUnit_again : ∃ (u : FUnit) (c : Nat) (s : State),
    s.isFenced u = true :=
  ⟨.dp 0, 2, { up with fc := { up.fc with fenced := [.dp 0] } }, by decide +kernel⟩

/-- The hypotheses of CollectorRecordsAndFences, fencedCore, meet. -/
theorem test_meets_CollectorRecordsAndFences_fencedCore : ∃ (c : Nat) (s : State),
    s.core c ≠ .fenced ∧ c ≠ 1 :=
  ⟨2, up, by decide +kernel⟩

/-- The hypotheses of CollectorRecordsAndFences, safeEntry, meet. -/
theorem test_meets_CollectorRecordsAndFences_safeEntry : ∃ (cause : Option TarnRec) (s : State),
    s.md.mode ≠ .safe :=
  ⟨none, up, by decide +kernel⟩

/-- The hypotheses of CollectorRecordsAndFences, safeEntry_whole, meet. -/
theorem test_meets_CollectorRecordsAndFences_safeEntry_whole : ∃ (cause : Option TarnRec) (s : State),
    s.md.mode ≠ .safe ∧ s.md.mode ≠ .standby :=
  ⟨none, up, by decide +kernel⟩

/-- The hypotheses of CollectorRecordsAndFences, safeEntry_again, meet. -/
theorem test_meets_CollectorRecordsAndFences_safeEntry_again : ∃ (cause : Option TarnRec) (s : State),
    s.md.mode = .safe :=
  ⟨none, { up with md := { up.md with mode := .safe } }, by decide +kernel⟩

/-- The hypotheses of PathFaultsAndSelfFaults, pathFault_none, meet. -/
theorem test_meets_PathFaultsAndSelfFaults_pathFault_none : ∃ (dt id : Nat) (high : Bool) (s : State),
    hasPath id = false :=
  ⟨0, 0x1700, true, up, by decide +kernel⟩

/-- The hypotheses of PathFaultsAndSelfFaults, pathFault_safe, meet. -/
theorem test_meets_PathFaultsAndSelfFaults_pathFault_safe : ∃ (dt id : Nat) (high : Bool) (s : State),
    hasPath id = true ∧ typeOf id ≠ 0x0E ∧ typeOf id ≠ 0x0F ∧ (elapse dt s).clk.running = true ∧ armed (elapse dt s) id = true ∧ classOf id (pathSyndrome high) true = 3 :=
  ⟨0, 0x1000, true, up, by decide +kernel⟩

/-- The hypotheses of PathFaultsAndSelfFaults, pathFault_fences, meet. -/
theorem test_meets_PathFaultsAndSelfFaults_pathFault_fences : ∃ (dt id c : Nat) (high : Bool) (u : FUnit) (s : State),
    hasPath id = true ∧ typeOf id ≠ 0x0E ∧ typeOf id ≠ 0x0F ∧ (elapse dt s).clk.running = true ∧ armed (elapse dt s) id = true ∧ classOf id (pathSyndrome high) true = c ∧ (c = 1 ∨ c = 2) ∧ unitOf id (pathSyndrome high) true = some u :=
  ⟨0, 0x0200, 2, false, .dp 0, up, by decide +kernel⟩

/-- The hypotheses of PathFaultsAndSelfFaults, collectorSelfFault, meet. -/
theorem test_meets_PathFaultsAndSelfFaults_collectorSelfFault : ∃ (dt : Nat) (s : State),
    (elapse dt s).clk.running = true ∧ armed (elapse dt s) 0x1F00 = true :=
  ⟨0, up, by decide +kernel⟩

/-- The hypotheses of PathFaultsAndSelfFaults, collectorSelfFault_noRecord, meet. -/
theorem test_meets_PathFaultsAndSelfFaults_collectorSelfFault_noRecord : ∃ (dt : Nat) (s : State),
    (elapse dt s).clk.running = true ∧ armed (elapse dt s) 0x1F00 = true :=
  ⟨0, up, by decide +kernel⟩

/-- The hypotheses of PathFaultsAndSelfFaults, ocxoActivityLoss, meet. -/
theorem test_meets_PathFaultsAndSelfFaults_ocxoActivityLoss : ∃ (dt : Nat) (s : State),
    (elapse dt s).clk.running = true ∧ armed (elapse dt s) 0x0D00 = true ∧ (elapse dt s).fc.masks.any (fun m => m.applies 0x0D00 (BitVec.ofNat 32 (Config.freeNat (elapse dt s).free)) 3) = false :=
  ⟨0, up, by decide +kernel⟩

/-- The hypotheses of PathFaultsAndSelfFaults, ocxoActivityLoss_unarmed, meet. -/
theorem test_meets_PathFaultsAndSelfFaults_ocxoActivityLoss_unarmed : ∃ (dt : Nat) (s : State),
    (elapse dt s).clk.running = true ∧ armed { (elapse dt s) with free := (elapse dt s).free + 1 } 0x0D00 = false :=
  ⟨0, { up with fc := { up.fc with unarmed := [0x0D00] } }, by decide +kernel⟩

/-- The hypotheses of PathFaultsAndSelfFaults, safeRecordWrite, meet. -/
theorem test_meets_PathFaultsAndSelfFaults_safeRecordWrite : ∃ (dt : Nat) (r f : Option TarnRec) (s : State),
    (elapse dt s).nvc.safePending = some (r, f) :=
  ⟨0, none, none, { up with nvc := { up.nvc with safePending := some (none, none) } }, by decide +kernel⟩

/-- The hypotheses of ProcessorsAndOcxoSupervision, coreStop, meet. -/
theorem test_meets_ProcessorsAndOcxoSupervision_coreStop : ∃ (dt : Nat) (core : Fin 3) (s : State),
    (elapse dt s).runs core = true ∧ core ≠ 1 :=
  ⟨0, 2, up, by decide +kernel⟩

/-- The hypotheses of ProcessorsAndOcxoSupervision, coreStop_steer, meet. -/
theorem test_meets_ProcessorsAndOcxoSupervision_coreStop_steer : ∃ (dt : Nat) (s : State),
    (elapse dt s).runs 1 = true :=
  ⟨0, up, by decide +kernel⟩

/-- The hypotheses of ProcessorsAndOcxoSupervision, watchdogTimeout, meet. -/
theorem test_meets_ProcessorsAndOcxoSupervision_watchdogTimeout : ∃ (dt : Nat) (core : Fin 3) (c0 : Nat) (s : State),
    (elapse dt s).core core = .stopped ∧ nth (elapse dt s).stoppedAt core none = some c0 ∧ c0 + 100000000 ≤ (elapse dt s).clk.count :=
  ⟨0, 0, 0, { up with cores := [.stopped, .running, .running], stoppedAt := [some 0, none, none] }, by decide +kernel⟩

/-- The hypotheses of ProcessorsAndOcxoSupervision, watchdogTimeout_early, meet. -/
theorem test_meets_ProcessorsAndOcxoSupervision_watchdogTimeout_early : ∃ (dt : Nat) (core : Fin 3) (c0 : Nat) (s : State),
    nth (elapse dt s).stoppedAt core none = some c0 ∧ (elapse dt s).clk.count < c0 + 100000000 :=
  ⟨0, 0, 5000000000, { up with cores := [.stopped, .running, .running], stoppedAt := [some 5000000000, none, none] }, by decide +kernel⟩

/-- The hypotheses of ProcessorsAndOcxoSupervision, mpuViolation, meet. -/
theorem test_meets_ProcessorsAndOcxoSupervision_mpuViolation : ∃ (dt : Nat) (core : Fin 3) (w : SramWrite) (syn : BitVec 32) (s : State),
    (elapse dt s).runs core = true ∧ mayWrite core w.addr = false :=
  ⟨0, 2, ⟨0x200000, 7⟩, 0, up, by decide +kernel⟩

/-- The hypotheses of ProcessorsAndOcxoSupervision, mpuViolation_permitted, meet. -/
theorem test_meets_ProcessorsAndOcxoSupervision_mpuViolation_permitted : ∃ (dt : Nat) (core : Fin 3) (w : SramWrite) (syn : BitVec 32) (s : State),
    (elapse dt s).runs core = true ∧ mayWrite core w.addr = true :=
  ⟨0, 2, ⟨0x300000, 7⟩, 0, up, by decide +kernel⟩

/-- The hypotheses of ProcessorsAndOcxoSupervision, mayWrite, meet. -/
theorem test_meets_ProcessorsAndOcxoSupervision_mayWrite : ∃ (c : Fin 3) (addr : Nat),
    addr < 0x400000 :=
  ⟨2, 0x380000, by decide +kernel⟩

/-- The hypotheses of ProcessorsAndOcxoSupervision, grossFrequencyGate, meet. -/
theorem test_meets_ProcessorsAndOcxoSupervision_grossFrequencyGate : ∃ (dt : Nat) (offset : Rat) (syn : BitVec 32) (s : State),
    (elapse dt s).clk.running = true ∧ absR offset ≤ 200 :=
  ⟨0, -200, 0, up, by decide +kernel⟩

/-- The hypotheses of ProcessorsAndOcxoSupervision, grossFrequencyGate_second, meet. -/
theorem test_meets_ProcessorsAndOcxoSupervision_grossFrequencyGate_second : ∃ (dt : Nat) (offset : Rat) (syn : BitVec 32) (s : State),
    (elapse dt s).clk.running = true ∧ 200 < absR offset ∧ 1 ≤ (elapse dt s).md.grossBad :=
  ⟨0, -201, 0, { up with md := { up.md with grossBad := 1 } }, by decide +kernel⟩

/-- The hypotheses of ProcessorsAndOcxoSupervision, grossFrequencyGate_first, meet. -/
theorem test_meets_ProcessorsAndOcxoSupervision_grossFrequencyGate_first : ∃ (dt : Nat) (offset : Rat) (syn : BitVec 32) (s : State),
    (elapse dt s).clk.running = true ∧ 200 < absR offset ∧ (elapse dt s).md.grossBad = 0 :=
  ⟨0, -201, 0, up, by decide +kernel⟩

/-- The hypotheses of ProcessorsAndOcxoSupervision, fineFrequencyGate_before, meet. -/
theorem test_meets_ProcessorsAndOcxoSupervision_fineFrequencyGate_before : ∃ (dt : Nat) (offset : Rat) (syn : BitVec 32) (s : State),
    (elapse dt s).clk.running = true ∧ (elapse dt s).md.ovenReady = true ∧ 10 < absR (fineOffset (elapse dt s) offset) ∧ (elapse dt s).md.fineBad < 2 :=
  ⟨0, 1000, 0, { up with md := { up.md with ovenReady := true, fineBad := 1 }, nv := { up.nv with factory := { up.nv.factory with auxCurve := 0 } } }, by decide +kernel⟩

/-- The hypotheses of ProcessorsAndOcxoSupervision, fineFrequencyGate, meet. -/
theorem test_meets_ProcessorsAndOcxoSupervision_fineFrequencyGate : ∃ (dt : Nat) (offset : Rat) (syn : BitVec 32) (s : State),
    (elapse dt s).clk.running = true ∧ (elapse dt s).md.ovenReady = true ∧ absR (fineOffset (elapse dt s) offset) ≤ 10 :=
  ⟨0, 10, 0, { up with md := { up.md with ovenReady := true }, nv := { up.nv with factory := { up.nv.factory with auxCurve := 0 } } }, by decide +kernel⟩

/-- The hypotheses of ProcessorsAndOcxoSupervision, fineFrequencyGate_third, meet. -/
theorem test_meets_ProcessorsAndOcxoSupervision_fineFrequencyGate_third : ∃ (dt : Nat) (offset : Rat) (syn : BitVec 32) (s : State),
    (elapse dt s).clk.running = true ∧ (elapse dt s).md.ovenReady = true ∧ 10 < absR (fineOffset (elapse dt s) offset) ∧ 2 ≤ (elapse dt s).md.fineBad :=
  ⟨0, 1000, 0, { up with md := { up.md with ovenReady := true, fineBad := 2 }, nv := { up.nv with factory := { up.nv.factory with auxCurve := 0 } } }, by decide +kernel⟩

/-- The hypotheses of ProcessorsAndOcxoSupervision, ocxoConsensusTest, meet. -/
theorem test_meets_ProcessorsAndOcxoSupervision_ocxoConsensusTest : ∃ (dt : Nat) (s : State),
    (elapse dt s).clk.running = true ∧ (elapse dt s).rf.stopped = false ∧ (consensus (elapse dt s)).1 = false ∨ (elapse dt s).md.ocxoSuspect = true :=
  ⟨0, up, by decide +kernel⟩

/-- The hypotheses of ProcessorsAndOcxoSupervision, ocxoConsensusTest_reports, meet. -/
theorem test_meets_ProcessorsAndOcxoSupervision_ocxoConsensusTest_reports : ∃ (dt : Nat) (s : State),
    (elapse dt s).clk.running = true ∧ (elapse dt s).rf.stopped = false ∧ (consensus (elapse dt s)).1 = true ∧ (elapse dt s).md.ocxoSuspect = false :=
  ⟨0, suspectOcxo, by decide +kernel⟩

/-- The hypotheses of InjectionAndRelays, inject, meet. -/
theorem test_meets_InjectionAndRelays_inject : ∃ (dt : Nat) (r : Requester) (arg : Nat) (s : State),
    Heard r (commandFrame r (addrWord 0x03 20 1) .u8 arg) (elapse dt s) ∧ arg < 256 ∧ (elapse dt s).md.mode ≠ .safe ∧ (elapse dt s).runs 2 = true ∧ injectStatus (elapse dt s) (some (elapse dt s).cfg.fc.injectChecker) = 0 :=
  ⟨0, can0, 0, { up with cfg := { up.cfg with fc := { up.cfg.fc with injectChecker := 0x0200 } } }, by decide +kernel⟩

/-- The hypotheses of InjectionAndRelays, sweep, meet. -/
theorem test_meets_InjectionAndRelays_sweep : ∃ (dt : Nat) (r : Requester) (arg : Nat) (s : State),
    Heard r (commandFrame r (addrWord 0x03 20 4) .u8 arg) (elapse dt s) ∧ arg < 256 ∧ (elapse dt s).md.mode ≠ .safe ∧ (elapse dt s).runs 2 = true ∧ injectStatus (elapse dt s) none = 0 :=
  ⟨0, can0, 0, up, by decide +kernel⟩

/-- The hypotheses of InjectionAndRelays, injectStatus, meet. -/
theorem test_meets_InjectionAndRelays_injectStatus : ∃ (s : State) (id : Nat),
    s.md.mode ≠ .safe ∧ s.md.mode ≠ .startup ∧ s.isFenced (.core 2) = false ∧ (ownerUnit id).all (fun u => !s.isFenced u) = true ∧ isChecker id = true ∧ typeOf id ≠ 0x17 ∧ typeOf id ≠ 0x1E ∧ typeOf id ≠ 0x1F ∧ s.fc.injecting = none ∧ s.fc.sweepLeft = [] ∧ s.fc.masks = [] :=
  ⟨up, 0x0200, by decide +kernel⟩

/-- The hypotheses of InjectionAndRelays, injectionCheck, meet. -/
theorem test_meets_InjectionAndRelays_injectionCheck : ∃ (dt : Nat) (id : Nat) (s : State),
    (elapse dt s).fc.injecting = some { checker := id, sweep := false } ∧ armed (elapse dt s) id = true :=
  ⟨0, 0x0200, { up with fc := { up.fc with injecting := some { checker := 0x0200, sweep := false } } }, by decide +kernel⟩

/-- The hypotheses of InjectionAndRelays, injectionCheck_silent, meet. -/
theorem test_meets_InjectionAndRelays_injectionCheck_silent : ∃ (dt : Nat) (id : Nat) (i0b i1 : Option (BitVec 32)) (s : State),
    (elapse dt s).fc.injecting = some { checker := id, sweep := false } :=
  ⟨0, 0x0200, none, none, { up with fc := { up.fc with injecting := some { checker := 0x0200, sweep := false } } }, by decide +kernel⟩

/-- The hypotheses of InjectionAndRelays, injectionCheck_any, meet. -/
theorem test_meets_InjectionAndRelays_injectionCheck_any : ∃ (dt id : Nat) (i0 i0b i1 : Option (BitVec 32)) (s : State),
    (elapse dt s).fc.injecting = some { checker := id, sweep := false } ∧ armed (elapse dt s) id = true :=
  ⟨0, 0x0200, none, none, some 9, { up with fc := { up.fc with injecting := some { checker := 0x0200, sweep := false } } }, by decide +kernel⟩

/-- The hypotheses of InjectionAndRelays, sweepCounts, meet. -/
theorem test_meets_InjectionAndRelays_sweepCounts : ∃ (i0 i0b i1 : Option (BitVec 32)) (id : Nat) (s : State),
    (s.fc.injecting = some { checker := id, sweep := true }) ∧ armed s id = true :=
  ⟨none, none, none, 0x0200, { up with fc := { up.fc with injecting := some { checker := 0x0200, sweep := true } } }, by decide +kernel⟩

/-- The hypotheses of InjectionAndRelays, sweepStep_ends, meet. -/
theorem test_meets_InjectionAndRelays_sweepStep_ends : ∃ (dt : Nat) (i0 i0b i1 : Option (BitVec 32)) (s : State),
    (elapse dt s).md.mode ≠ .safe ∧ (elapse dt s).runs 2 = true ∧ (elapse dt s).fc.masks = [] ∧ (elapse dt s).fc.injecting = none ∧ (elapse dt s).fc.sweepAt ≤ (elapse dt s).clk.count ∧ (elapse dt s).fc.sweepLeft ≠ [] ∧ skipFenced (elapse dt s) (elapse dt s).fc.sweepLeft = [] :=
  ⟨0, some 7, none, none, { up with fc := { up.fc with sweepLeft := [0x0200], fenced := [.dp 0] } }, by decide +kernel⟩

/-- The hypotheses of InjectionAndRelays, sweepStep, meet. -/
theorem test_meets_InjectionAndRelays_sweepStep : ∃ (dt : Nat) (i0 i0b i1 : Option (BitVec 32)) (id : Nat) (rest : List Nat) (s : State),
    (elapse dt s).md.mode ≠ .safe ∧ (elapse dt s).runs 2 = true ∧ (elapse dt s).fc.masks = [] ∧ (elapse dt s).fc.injecting = none ∧ (elapse dt s).fc.sweepAt ≤ (elapse dt s).clk.count ∧ (elapse dt s).fc.sweepLeft ≠ [] ∧ skipFenced (elapse dt s) (elapse dt s).fc.sweepLeft = id :: rest :=
  ⟨0, some 7, none, none, 0x0100, [0x0200], { up with fc := { up.fc with sweepLeft := [0x0100, 0x0200] } }, by decide +kernel⟩

/-- The hypotheses of InjectionAndRelays, sweepStep_safe, meet. -/
theorem test_meets_InjectionAndRelays_sweepStep_safe : ∃ (dt : Nat) (i0 i0b i1 : Option (BitVec 32)) (s : State),
    (elapse dt s).md.mode = .safe ∧ (elapse dt s).fc.sweepLeft ≠ [] :=
  ⟨0, none, none, none, { up with md := { up.md with mode := .safe }, fc := { up.fc with sweepLeft := [0x0100] } }, by decide +kernel⟩

/-- The hypotheses of InjectionAndRelays, relayTimeout, meet. -/
theorem test_meets_InjectionAndRelays_relayTimeout : ∃ (dt : Nat) (s : State),
    dopUp (elapse dt s) = true :=
  ⟨0, up, by decide +kernel⟩

/-- The hypotheses of ClaimsAndCompletions, claimNormal, meet. -/
theorem test_meets_ClaimsAndCompletions_claimNormal : ∃ (dt : Nat) (core : Fin 3) (n : Nat) (s : State),
    (elapse dt s).runs core = true ∧ (nth (elapse dt s).ev.cores core EvCore.reset).normal = none ∧ lowestPending (elapse dt s).cfg.ev (elapse dt s).ev core false = some n :=
  ⟨0, 1, 16, pendingOn false, by decide +kernel⟩

/-- The hypotheses of ClaimsAndCompletions, claimNormal_nested, meet. -/
theorem test_meets_ClaimsAndCompletions_claimNormal_nested : ∃ (dt : Nat) (core : Fin 3) (n : Nat) (s : State),
    (elapse dt s).runs core = true ∧ (nth (elapse dt s).ev.cores core EvCore.reset).normal = some n :=
  ⟨0, 1, 16, activeOn false, by decide +kernel⟩

/-- The hypotheses of ClaimsAndCompletions, claimNormal_empty, meet. -/
theorem test_meets_ClaimsAndCompletions_claimNormal_empty : ∃ (dt : Nat) (core : Fin 3) (s : State),
    (elapse dt s).runs core = true ∧ (nth (elapse dt s).ev.cores core EvCore.reset).normal = none ∧ lowestPending (elapse dt s).cfg.ev (elapse dt s).ev core false = none :=
  ⟨0, 2, up, by decide +kernel⟩

/-- The hypotheses of ClaimsAndCompletions, claimFast, meet. -/
theorem test_meets_ClaimsAndCompletions_claimFast : ∃ (dt : Nat) (core : Fin 3) (n : Nat) (s : State),
    (elapse dt s).runs core = true ∧ (nth (elapse dt s).ev.cores core EvCore.reset).fast = none ∧ lowestPending (elapse dt s).cfg.ev (elapse dt s).ev core true = some n :=
  ⟨0, 1, 16, pendingOn true, by decide +kernel⟩

/-- The hypotheses of ClaimsAndCompletions, claimFast_nested, meet. -/
theorem test_meets_ClaimsAndCompletions_claimFast_nested : ∃ (dt : Nat) (core : Fin 3) (n : Nat) (s : State),
    (elapse dt s).runs core = true ∧ (nth (elapse dt s).ev.cores core EvCore.reset).fast = some n :=
  ⟨0, 1, 16, activeOn true, by decide +kernel⟩

/-- The hypotheses of ClaimsAndCompletions, claimFast_empty, meet. -/
theorem test_meets_ClaimsAndCompletions_claimFast_empty : ∃ (dt : Nat) (core : Fin 3) (s : State),
    (elapse dt s).runs core = true ∧ (nth (elapse dt s).ev.cores core EvCore.reset).fast = none ∧ lowestPending (elapse dt s).cfg.ev (elapse dt s).ev core true = none :=
  ⟨0, 2, up, by decide +kernel⟩

/-- The hypotheses of ClaimsAndCompletions, complete, meet. -/
theorem test_meets_ClaimsAndCompletions_complete : ∃ (dt : Nat) (core : Fin 3) (word : BitVec 32) (s : State),
    (elapse dt s).runs core = true ∧ (nth (elapse dt s).ev.cores core EvCore.reset).accepts (word.toNat % 256) = true :=
  ⟨0, 1, 0x100#32 + 16#32, activeOn true, by decide +kernel⟩

/-- The hypotheses of ClaimsAndCompletions, complete_ignored, meet. -/
theorem test_meets_ClaimsAndCompletions_complete_ignored : ∃ (dt : Nat) (core : Fin 3) (word : BitVec 32) (s : State),
    (elapse dt s).runs core = true ∧ (nth (elapse dt s).ev.cores core EvCore.reset).accepts (word.toNat % 256) = false ∧ (nth (elapse dt s).ev.cores core EvCore.reset).strict = false :=
  ⟨0, 1, 255, { up with ev := { up.ev with cores := up.ev.cores.map fun k => { k with strict := false } } }, by decide +kernel⟩

/-- The hypotheses of ClaimsAndCompletions, complete_strict, meet. -/
theorem test_meets_ClaimsAndCompletions_complete_strict : ∃ (dt : Nat) (core : Fin 3) (word : BitVec 32) (s : State),
    (elapse dt s).runs core = true ∧ (nth (elapse dt s).ev.cores core EvCore.reset).accepts (word.toNat % 256) = false ∧ (nth (elapse dt s).ev.cores core EvCore.reset).strict = true :=
  ⟨0, 1, 0, { up with ev := { up.ev with cores := up.ev.cores.map fun k => { k with strict := true } } }, by decide +kernel⟩

/-- The hypotheses of each clause of ArrivalsByKind meet. -/
theorem test_meets_ArrivalsByKind :
    (250 < up.ev.src.length ∧ kindOf 250 = 3)
      ∧ ((pendingOn true).cfg.ev.route 16).getLsbD 7 = true ∧ kindOf 16 ≠ 3 ∧ routeTarget ((pendingOn true).cfg.ev.route 16) ≤ 2
      ∧ (toTarget 5).cfg.ev.route 255 = 0x85#8 ∧ kindOf 255 ≠ 3 ∧ 3 ≤ routeTarget ((toTarget 5).cfg.ev.route 255) := by decide +kernel

/-- The hypothesis of KindsOfSources meets at the ends of its range. -/
theorem test_meets_KindsOfSources : (0 < 256 ∧ kindOf 0 = 0) ∧ (255 < 256 ∧ kindOf 255 = 1) := by decide +kernel

/-- The hypotheses of DeliveriesToHostAndLines, coalesceTimeout, meet. -/
theorem test_meets_DeliveriesToHostAndLines_coalesceTimeout : ∃ (dt : Nat) (s : State),
    (elapse dt s).clk.running = true ∧ (nth (elapse dt s).ev.targets 0 EvTarget.reset).due (elapse dt s).clk.count = true ∧ hostTakes (elapse dt s) = true ∧ (elapse dt s).ev.queued + (heldFor (elapse dt s).cfg.ev (elapse dt s).ev 0).length ≤ 1024 :=
  ⟨0, hostDue, by decide +kernel⟩

/-- The hypotheses of DeliveriesToHostAndLines, coalesceTimeout_deferred, meet. -/
theorem test_meets_DeliveriesToHostAndLines_coalesceTimeout_deferred : ∃ (dt : Nat) (s : State),
    (elapse dt s).clk.running = true ∧ (nth (elapse dt s).ev.targets 0 EvTarget.reset).due (elapse dt s).clk.count = true ∧ (hostTakes (elapse dt s) = false ∨ 1024 < (elapse dt s).ev.queued + (heldFor (elapse dt s).cfg.ev (elapse dt s).ev 0).length) ∧ (elapse dt s).ev.deferring = false :=
  ⟨0, { hostDue with dop := { hostDue.dop with subs := [] } }, by decide +kernel⟩

/-- The hypotheses of DeliveriesToHostAndLines, coalesceTimeout_latch, meet. -/
theorem test_meets_DeliveriesToHostAndLines_coalesceTimeout_latch : ∃ (dt : Nat) (k : Fin 2) (s : State),
    (elapse dt s).clk.running = true ∧ (nth (elapse dt s).ev.targets (k + 1) EvTarget.reset).due (elapse dt s).clk.count = true ∧ (nth (elapse dt s).ev.targets (k + 1) EvTarget.reset).alertMode = 0 :=
  ⟨0, 0, lineDue 0, by decide +kernel⟩

/-- The hypotheses of DeliveriesToHostAndLines, coalesceTimeout_follow, meet. -/
theorem test_meets_DeliveriesToHostAndLines_coalesceTimeout_follow : ∃ (dt : Nat) (k : Fin 2) (s : State),
    (elapse dt s).clk.running = true ∧ (nth (elapse dt s).ev.targets (k + 1) EvTarget.reset).due (elapse dt s).clk.count = true ∧ (nth (elapse dt s).ev.targets (k + 1) EvTarget.reset).alertMode = 1 :=
  ⟨0, 0, lineDue 1, by decide +kernel⟩

/-- The hypotheses of DeliveriesToHostAndLines, deliveryRetry, meet. -/
theorem test_meets_DeliveriesToHostAndLines_deliveryRetry : ∃ (dt : Nat) (s : State),
    (elapse dt s).ev.deferring = true ∧ (elapse dt s).clk.running = true ∧ (nth (elapse dt s).ev.targets 0 EvTarget.reset).due (elapse dt s).clk.count = true ∧ hostTakes (elapse dt s) = true ∧ (elapse dt s).ev.queued + (heldFor (elapse dt s).cfg.ev (elapse dt s).ev 0).length ≤ 1024 :=
  ⟨0, { hostDue with ev := { hostDue.ev with deferring := true } }, by decide +kernel⟩

/-- The hypotheses of DeliveriesToHostAndLines, alertStretchExpiry, meet. -/
theorem test_meets_DeliveriesToHostAndLines_alertStretchExpiry : ∃ (dt : Nat) (line : Fin 2) (x : Nat) (s : State),
    (nth (elapse dt s).ev.targets (line + 1) EvTarget.reset).stretchEnd = some x ∧ x ≤ (elapse dt s).clk.count :=
  ⟨0, 1, 5, { up with ev := { up.ev with targets := up.ev.targets.map fun t => { t with stretchEnd := some 5 } } }, by decide +kernel⟩

/-- The hypotheses of DeliveriesToHostAndLines, eventMessage, meet. -/
theorem test_meets_DeliveriesToHostAndLines_eventMessage : ∃ (dt : Nat) (l : List DRec) (rest : List (List DRec)) (s : State),
    (elapse dt s).ev.queue = l :: rest ∧ dopUp (elapse dt s) = true :=
  ⟨0, [], [], { up with ev := { up.ev with queue := [[]] } }, by decide +kernel⟩

/-- The hypotheses of AlertAndRouteSettings, alertAck, meet. -/
theorem test_meets_AlertAndRouteSettings_alertAck : ∃ (dt : Nat) (r : Requester) (line : Fin 2) (arg : Nat) (s : State),
    Heard r (commandFrame r (addrWord 0x04 (21 + line) 6) .u8 arg) (elapse dt s) ∧ arg < 256 ∧ (elapse dt s).md.mode ≠ .safe ∧ (elapse dt s).md.bootRom = false ∧ (nth (elapse dt s).cfg.ev.targets (line + 1) CfgTarget.reset).alertMode = 0 :=
  ⟨0, can0, 1, 0, up, by decide +kernel⟩

/-- The hypotheses of AlertAndRouteSettings, alertModeWrite, meet. -/
theorem test_meets_AlertAndRouteSettings_alertModeWrite : ∃ (dt : Nat) (r : Requester) (line : Fin 2) (v : Nat) (s : State),
    Heard r (writeFrame r (addrWord 0x04 (21 + line) 5) .u8 v) (elapse dt s) ∧ v < 2 ∧ (elapse dt s).md.mode ≠ .safe ∧ (elapse dt s).md.bootRom = false :=
  ⟨0, can0, 1, 1, up, by decide +kernel⟩

/-- The hypotheses of AlertAndRouteSettings, settingsInForce, meet. -/
theorem test_meets_AlertAndRouteSettings_settingsInForce : ∃ (s : State),
    (nth s.ev.targets 1 EvTarget.reset).alertMode = (nth s.cfg.ev.targets 1 CfgTarget.reset).alertMode ∧ (nth s.ev.targets 2 EvTarget.reset).alertMode = (nth s.cfg.ev.targets 2 CfgTarget.reset).alertMode ∧ s.ev.targets.length = 3 :=
  ⟨up, by decide +kernel⟩

/-- The hypotheses of AlertAndRouteSettings, routeWrite_on, meet. -/
theorem test_meets_AlertAndRouteSettings_routeWrite_on : ∃ (dt : Nat) (r : Requester) (src : Fin 256) (v : Nat) (s : State),
    Heard r (writeFrame r (addrWord 0x04 0 src) .u8 v) (elapse dt s) ∧ (elapse dt s).md.mode ≠ .safe ∧ (elapse dt s).md.bootRom = false ∧ v % 8 ≤ 5 ∧ 128 ≤ v ∧ v < 256 ∧ ((elapse dt s).ev.source src).state = .idle :=
  ⟨0, can0, 255, 0x85, up, by decide +kernel⟩

/-- The hypotheses of AlertAndRouteSettings, routeWrite_off, meet. -/
theorem test_meets_AlertAndRouteSettings_routeWrite_off : ∃ (dt : Nat) (r : Requester) (src : Fin 256) (v : Nat) (s : State),
    Heard r (writeFrame r (addrWord 0x04 0 src) .u8 v) (elapse dt s) ∧ (elapse dt s).md.mode ≠ .safe ∧ (elapse dt s).md.bootRom = false ∧ v % 8 ≤ 5 ∧ v < 128 ∧ ((elapse dt s).ev.source src).state = .idle ∨ ((elapse dt s).ev.source src).state = .pending :=
  ⟨0, can0, 16, 0x05, pendingOn false, by decide +kernel⟩

/-- The hypotheses of AlertAndRouteSettings, routeWrite_held, meet. -/
theorem test_meets_AlertAndRouteSettings_routeWrite_held : ∃ (dt : Nat) (r : Requester) (src : Fin 256) (v : Nat) (s : State),
    Heard r (writeFrame r (addrWord 0x04 0 src) .u8 v) (elapse dt s) ∧ (elapse dt s).md.mode ≠ .safe ∧ (elapse dt s).md.bootRom = false ∧ v % 8 ≤ 5 ∧ v < 128 ∧ ((elapse dt s).ev.source src).state = .held :=
  ⟨0, can0, 255, 0x05, { toTarget 5 with ev := (toTarget 5).ev.setSrc 255 fun x => { x with state := .held } }, by decide +kernel⟩

/-- The hypotheses of ReferenceEdges, referenceEdge_divided, meet. -/
theorem test_meets_ReferenceEdges_referenceEdge_divided : ∃ (dt : Nat) (n : Fin 16) (frac : Rat) (s : State),
    candLive (elapse dt s) n = true ∧ (8 ≤ (n : Nat) ∧ (n : Nat) < 12 → (elapse dt s).isFenced (.conn 2) = false) ∧ candKind (elapse dt s).cfg n = .clk ∧ ((elapse dt s).cand n).state ≠ .selected ∧ ((elapse dt s).cand n).edgeDiv + 1 < watchDivider (nominalMhz (elapse dt s).cfg n) :=
  ⟨3, 5, 1/2, refUp 5 0 100000000000, by decide +kernel⟩

/-- The hypotheses of ReferenceEdges, referenceEdge_watched, meet. -/
theorem test_meets_ReferenceEdges_referenceEdge_watched : ∃ (dt : Nat) (n : Fin 16) (frac : Rat) (s : State),
    candLive (elapse dt s) n = true ∧ (8 ≤ (n : Nat) ∧ (n : Nat) < 12 → (elapse dt s).isFenced (.conn 2) = false) ∧ candKind (elapse dt s).cfg n = .clk ∧ ((elapse dt s).cand n).state ≠ .selected ∧ watchDivider (nominalMhz (elapse dt s).cfg n) ≤ ((elapse dt s).cand n).edgeDiv + 1 :=
  ⟨3, 5, 1/2, refUp 5 0 10000000000, by decide +kernel⟩

/-- The hypotheses of ReferenceEdges, referenceEdge_pulse, meet. -/
theorem test_meets_ReferenceEdges_referenceEdge_pulse : ∃ (dt : Nat) (n : Fin 16) (frac : Rat) (s : State),
    candLive (elapse dt s) n = true ∧ (8 ≤ (n : Nat) ∧ (n : Nat) < 12 → (elapse dt s).isFenced (.conn 2) = false) ∧ candKind (elapse dt s).cfg n = .pulse ∧ ((elapse dt s).cand n).state ≠ .selected ∧ gnssCand (elapse dt s) = none ∧ pulseOnTime (elapse dt s) n (((elapse dt s).clk.count : Rat) + frac - delayNs (elapse dt s).cfg n) = true :=
  ⟨0, 9, 0, { refUp 9 1 1000 with cfg := { (refUp 9 1 1000).cfg with lrefs := [] } }, by decide +kernel⟩

/-- The hypotheses of ReferenceEdges, referenceEdge_extra, meet. -/
theorem test_meets_ReferenceEdges_referenceEdge_extra : ∃ (dt : Nat) (n : Fin 16) (frac : Rat) (s : State),
    candLive (elapse dt s) n = true ∧ (8 ≤ (n : Nat) ∧ (n : Nat) < 12 → (elapse dt s).isFenced (.conn 2) = false) ∧ candKind (elapse dt s).cfg n = .pulse ∧ gnssCand (elapse dt s) = none ∧ pulseOnTime (elapse dt s) n (((elapse dt s).clk.count : Rat) + frac - delayNs (elapse dt s).cfg n) = false :=
  ⟨0, 9, 0, { refUp 9 1 1000 with rf := { (refUp 9 1 1000).rf with cand := upd (refUp 9 1 1000).rf.cand 9 fun x => { x with anchor := some 4500000000 } } }, by decide +kernel⟩

/-- The hypotheses of ReferenceEdges, referenceEdge_selected, meet. -/
theorem test_meets_ReferenceEdges_referenceEdge_selected : ∃ (dt : Nat) (n : Fin 16) (frac : Rat) (s : State),
    candLive (elapse dt s) n = true ∧ (8 ≤ (n : Nat) ∧ (n : Nat) < 12 → (elapse dt s).isFenced (.conn 2) = false) ∧ candKind (elapse dt s).cfg n = .clk ∧ ((elapse dt s).cand n).state = .selected ∧ watchDivider (nominalMhz (elapse dt s).cfg n) ≤ ((elapse dt s).cand n).edgeDiv + 1 :=
  ⟨3, 5, 1/2, { refUp 5 0 10000000000 with rf := { up.rf with cand := upd up.rf.cand 5 fun x => { x with state := .selected } } }, by decide +kernel⟩

/-- The hypotheses of ReferenceEdges, referenceEdge_gnss, meet. -/
theorem test_meets_ReferenceEdges_referenceEdge_gnss : ∃ (dt : Nat) (n : Fin 16) (frac : Rat) (l : Nat) (s : State),
    candLive (elapse dt s) n = true ∧ (8 ≤ (n : Nat) ∧ (n : Nat) < 12 → (elapse dt s).isFenced (.conn 2) = false) ∧ candKind (elapse dt s).cfg n = .pulse ∧ ((elapse dt s).cand n).state ≠ .selected ∧ gnssOf (elapse dt s) n = some l ∧ pulseOnTime (elapse dt s) n (((elapse dt s).clk.count : Rat) + frac - delayNs (elapse dt s).cfg n) = true :=
  ⟨0, 12, 0, 16, gnssUp, by decide +kernel⟩

/-- The hypotheses of ReferenceEdges, missingEdge_clk, meet. -/
theorem test_meets_ReferenceEdges_missingEdge_clk : ∃ (dt : Nat) (cand : Fin 24) (l : Rat) (s : State),
    candLive (elapse dt s) cand = true ∧ candKind (elapse dt s).cfg cand = .clk ∧ ((elapse dt s).cand cand).lastWatch = some l ∧ l + watchPeriod (elapse dt s).cfg cand * 3 / 2 ≤ ((elapse dt s).clk.count : Rat) :=
  ⟨0, 5, 0, { refUp 5 0 10000000000 with rf := { (refUp 5 0 10000000000).rf with cand := upd (refUp 5 0 10000000000).rf.cand 5 fun x => { x with lastWatch := some 0 } } }, by decide +kernel⟩

/-- The hypotheses of ReferenceEdges, missingEdge_pulse, meet. -/
theorem test_meets_ReferenceEdges_missingEdge_pulse : ∃ (dt : Nat) (cand : Fin 24) (l : Rat) (s : State),
    candLive (elapse dt s) cand = true ∧ candKind (elapse dt s).cfg cand = .pulse ∧ ((elapse dt s).cand cand).lastWatch = some l ∧ l + nominalPeriod (elapse dt s).cfg cand + ((elapse dt s).cfg.ref cand).pulseWindow + max 0 (delayNs (elapse dt s).cfg cand) ≤ ((elapse dt s).clk.count : Rat) :=
  ⟨0, 9, 0, { refUp 9 1 1000 with rf := { (refUp 9 1 1000).rf with cand := upd (refUp 9 1 1000).rf.cand 9 fun x => { x with lastWatch := some 0 } } }, by decide +kernel⟩

/-- The hypotheses of ReferenceEdges, missingEdge_domain, meet. -/
theorem test_meets_ReferenceEdges_missingEdge_domain : ∃ (dt : Nat) (cand : Fin 24) (l : Rat) (s : State),
    candLive (elapse dt s) cand = true ∧ candKind (elapse dt s).cfg cand = .domain ∧ ((elapse dt s).cand cand).lastWatch = some l ∧ (l + 1) * 1000000000 + 1000000 < ((elapse dt s).tbs (((elapse dt s).cfg.lref ((cand : Nat) - 16)).source / 2)).now :=
  ⟨0, 17, 0, { monitored 17 .qualified with rf := { (monitored 17 .qualified).rf with cand := upd (monitored 17 .qualified).rf.cand 17 fun x => { x with lastWatch := some 0 } }, cfg := { up.cfg with lrefs := upd up.cfg.lrefs 1 fun l => { l with kind := 1 } }, tb := upd up.tb 0 fun t => { t with now := 5000000000 } }, by decide +kernel⟩

/-- The hypotheses of ReferenceEdges, onTime, meet. -/
theorem test_meets_ReferenceEdges_onTime : ∃ (thr : Nat) (period : Option Rat) (t : Rat) (x : Cand),
    x.actCount < thr :=
  ⟨3, none, 0, Cand.reset, by decide +kernel⟩

/-- The hypotheses of ReferenceEdges, atThreshold, meet. -/
theorem test_meets_ReferenceEdges_atThreshold : ∃ (thr : Nat) (x : Cand),
    thr ≤ x.actCount ∧ x.actFault = false :=
  ⟨3, { Cand.reset with actCount := 4 }, by decide +kernel⟩

/-- The hypotheses of GnssPort, gnssSentence_overlong, meet. -/
theorem test_meets_GnssPort_gnssSentence_overlong : ∃ (dt : Nat) (chars : List Byte) (began : Nat) (x : Sentence) (rmc : Bool) (s : State),
    readSentence chars = some x ∧ sentenceType (fieldAt x.fields 0) = some rmc ∧ (elapse dt s).runs 0 = true ∧ bit8 (elapse dt s).cfg.gnss.sentences (if rmc then 1 else 0) = true ∧ 82 < x.length :=
  ⟨0, longZda, 0, sentenceOf longZda, false, up, by decide +kernel⟩

/-- The hypotheses of GnssPort, gnssSentence_checksum, meet. -/
theorem test_meets_GnssPort_gnssSentence_checksum : ∃ (dt : Nat) (chars : List Byte) (began : Nat) (x : Sentence) (rmc : Bool) (s : State),
    readSentence chars = some x ∧ sentenceType (fieldAt x.fields 0) = some rmc ∧ (elapse dt s).runs 0 = true ∧ bit8 (elapse dt s).cfg.gnss.sentences (if rmc then 1 else 0) = true ∧ x.length ≤ 82 ∧ x.sumOk = false :=
  ⟨0, badZda, 0, sentenceOf badZda, false, up, by decide +kernel⟩

/-- The hypotheses of GnssPort, gnssSentence_late, meet. -/
theorem test_meets_GnssPort_gnssSentence_late : ∃ (dt : Nat) (chars : List Byte) (began : Nat) (x : Sentence) (rmc : Bool) (s : State),
    readSentence chars = some x ∧ sentenceType (fieldAt x.fields 0) = some rmc ∧ (elapse dt s).runs 0 = true ∧ bit8 (elapse dt s).cfg.gnss.sentences (if rmc then 1 else 0) = true ∧ x.length ≤ 82 ∧ x.sumOk = true ∧ (∀ p, (elapse dt s).rf.gnss.pulseAt = some p → (((elapse dt s).clk.count - began : Nat) : Rat) < p ∨ p + ((elapse dt s).cfg.gnss.msgLatest : Rat) * 1000000 < ((elapse dt s).clk.count : Rat)) :=
  ⟨0, zda, 0, sentenceOf zda, false, up, by decide +kernel, by decide +kernel, by decide +kernel, by decide +kernel, by decide +kernel, by decide +kernel, fun p h => by
    have hn : (elapse 0 up).rf.gnss.pulseAt = none := by decide +kernel
    rw [hn] at h
    cases h⟩

/-- The hypotheses of GnssPort, gnssSentence_accepted, meet. -/
theorem test_meets_GnssPort_gnssSentence_accepted : ∃ (dt : Nat) (chars : List Byte) (began : Nat) (x : Sentence) (rmc : Bool) (p : Rat) (c : Nat) (s : State),
    readSentence chars = some x ∧ sentenceType (fieldAt x.fields 0) = some rmc ∧ (elapse dt s).runs 0 = true ∧ bit8 (elapse dt s).cfg.gnss.sentences (if rmc then 1 else 0) = true ∧ x.length ≤ 82 ∧ x.sumOk = true ∧ (elapse dt s).rf.gnss.pulseAt = some p ∧ p ≤ (((elapse dt s).clk.count - began : Nat) : Rat) ∧ ((elapse dt s).clk.count : Rat) ≤ p + ((elapse dt s).cfg.gnss.msgLatest : Rat) * 1000000 ∧ ¬ ((elapse dt s).cfg.gnss.label = 0 ∧ (elapse dt s).rf.gnss.judged = true) ∧ gnssCand (elapse dt s) = some c :=
  ⟨0, zda, 500000000, sentenceOf zda, false, 4200000000, 16, gnssUp, by decide +kernel⟩

/-- The hypotheses of GnssPort, msgLatestExpiry, meet. -/
theorem test_meets_GnssPort_msgLatestExpiry : ∃ (dt : Nat) (p : Rat) (c : Nat) (s : State),
    (elapse dt s).rf.gnss.pulseAt = some p ∧ gnssCand (elapse dt s) = some c ∧ (elapse dt s).cfg.gnss.label = 0 ∧ candLive (elapse dt s) c = true ∧ p + ((elapse dt s).cfg.gnss.msgLatest : Rat) * 1000000 ≤ ((elapse dt s).clk.count : Rat) ∧ (elapse dt s).rf.gnss.judged = false :=
  ⟨1000000000, 4200000000, 16, gnssUp, by decide +kernel⟩

/-- The hypotheses of GnssPort, gnssSourceMissingPulse, meet. -/
theorem test_meets_GnssPort_gnssSourceMissingPulse : ∃ (dt : Nat) (n : Fin 8) (s : State),
    gnssCand (elapse dt s) = some (16 + (n : Nat)) ∧ candLive (elapse dt s) (16 + n) = true ∧ (candLive (elapse dt s) ((elapse dt s).cfg.lref n).source = false ∨ candKind (elapse dt s).cfg ((elapse dt s).cfg.lref n).source ≠ .pulse) ∧ (elapse dt s).rf.gnss.countBase + 1000000000 ≤ (elapse dt s).clk.count :=
  ⟨0, 0, { gnssUp with rf := { gnssUp.rf with cand := upd gnssUp.rf.cand 12 fun x => { x with state := .fenced } } }, by decide +kernel⟩

/-- The hypotheses of GnssPort, judgePulse_unlabelled, meet. -/
theorem test_meets_GnssPort_judgePulse_unlabelled : ∃ (c : Nat) (t : Rat) (s : State),
    (s.runs 0 = false ∨ s.rf.gnss.sents = []) :=
  ⟨16, 0, up, by decide +kernel⟩

/-- The hypotheses of CandidateStates, waitToRestoreExpiry, meet. -/
theorem test_meets_CandidateStates_waitToRestoreExpiry : ∃ (dt : Nat) (cand : Fin 24) (t : Nat) (s : State),
    ((elapse dt s).cand cand).state = .qualifying ∧ ((elapse dt s).cand cand).wtrSince = some t ∧ candClean (candCfg (elapse dt s).cfg cand) ((elapse dt s).cand cand) = true ∧ t + (candCfg (elapse dt s).cfg cand).wtr * 1000000000 ≤ (elapse dt s).clk.count ∧ (elapse dt s).rf.stopped = false :=
  ⟨0, 5, 0, { monitored 5 .qualifying with rf := { up.rf with cand := upd up.rf.cand 5 fun x => { x with state := .qualifying, wtrSince := some 0, y1 := some 0 } }, cfg := { up.cfg with refs := upd up.cfg.refs 5 fun r => { r with wtr := 5 } } }, by decide +kernel⟩

/-- The hypotheses of CandidateStates, rankImprovementExpiry, meet. -/
theorem test_meets_CandidateStates_rankImprovementExpiry : ∃ (dt : Nat) (cand : Fin 24) (k : Nat) (t : Nat) (s : State),
    ((elapse dt s).cand cand).improve = some (k, t) ∧ t + (candCfg (elapse dt s).cfg cand).wtr * 1000000000 ≤ (elapse dt s).clk.count ∧ (elapse dt s).rf.stopped = false :=
  ⟨0, 5, 3, 0, { monitored 5 .qualified with rf := { up.rf with cand := upd up.rf.cand 5 fun x => { x with state := .qualified, improve := some (3, 0) } }, cfg := { up.cfg with refs := upd up.cfg.refs 5 fun r => { r with wtr := 5 } } }, by decide +kernel⟩

/-- The hypotheses of CandidateStates, frequencyWindowUpdate, meet. -/
theorem test_meets_CandidateStates_frequencyWindowUpdate : ∃ (dt : Nat) (cand : Fin 24) (s : State),
    candLive (elapse dt s) cand = true :=
  ⟨0, 5, refUp 5 0 10000000000, by decide +kernel⟩

/-- The hypotheses of CandidateStates, windows, meet. -/
theorem test_meets_CandidateStates_windows : ∃ (c : CandCfg) (x : Cand) (p t t0 : Rat) (n0 : Nat) (rest : List (Rat × Nat)),
    x.winLast = some t ∧ (x.marks = (t0, n0) :: rest) ∧ 1000000000 - p / 2 ≤ t - t0 ∧ t0 < t :=
  ⟨candCfg up.cfg 5, { Cand.reset with winLast := some 2000000000, marks := [(0, 1)] }, 1000, 2000000000, 0, 1, [], by decide +kernel⟩

/-- The hypotheses of CandidateStates, referenceEnable_ref, meet. -/
theorem test_meets_CandidateStates_referenceEnable_ref : ∃ (dt : Nat) (r : Requester) (n : Fin 16) (v : Nat) (s : State),
    Heard r (writeFrame r (addrWord 0x10 (n) 0) .u8 v) (elapse dt s) ∧ (elapse dt s).md.mode ≠ .safe ∧ (elapse dt s).md.bootRom = false ∧ v < 2 ∧ (elapse dt s).isFenced (.cand (n)) = false ∧ n < (elapse dt s).cfg.refs.length ∧ (v = 0 ∨ refValid n { (elapse dt s).cfg.ref n with enable := v } = true) :=
  ⟨0, can0, 15, 1, { up with cfg := { up.cfg with refs := upd up.cfg.refs 15 fun r => { r with enable := 0 } } }, by decide +kernel⟩

/-- The hypotheses of CandidateStates, referenceEnable_lref, meet. -/
theorem test_meets_CandidateStates_referenceEnable_lref : ∃ (dt : Nat) (r : Requester) (n : Fin 8) (v : Nat) (s : State),
    Heard r (writeFrame r (addrWord 0x10 (16 + n) 0) .u8 v) (elapse dt s) ∧ (elapse dt s).md.mode ≠ .safe ∧ (elapse dt s).md.bootRom = false ∧ v < 2 ∧ (elapse dt s).isFenced (.cand (16 + n)) = false ∧ n < (elapse dt s).cfg.lrefs.length ∧ (v = 0 ∨ lrefValid n { (elapse dt s).cfg with lrefs := upd (elapse dt s).cfg.lrefs n fun x => { x with enable := v } } = true) :=
  ⟨0, can0, 7, 0, up, by decide +kernel⟩

/-- The hypotheses of CandidateStates, enableWritten_on, meet. -/
theorem test_meets_CandidateStates_enableWritten_on : ∃ (c : Nat) (s : State),
    (candCfg s.cfg c).enable = 1 ∧ (s.cand c).state = .absent :=
  ⟨5, { refUp 5 0 10000000000 with rf := up.rf }, by decide +kernel⟩

/-- The hypotheses of CandidateStates, startCand, meet. -/
theorem test_meets_CandidateStates_startCand : ∃ (c : Nat) (s : State),
    (s.cand c).state = .absent ∧ (candKind s.cfg c = .clk ∨ candKind s.cfg c = .pulse) :=
  ⟨5, up, by decide +kernel⟩

/-- The hypotheses of CandidateStates, enableWritten_off, meet. -/
theorem test_meets_CandidateStates_enableWritten_off : ∃ (c : Nat) (s : State),
    (candCfg s.cfg c).enable = 0 ∧ (s.cand c).state = .monitoring ∨ (s.cand c).state = .qualifying :=
  ⟨5, { monitored 5 .monitoring with cfg := { up.cfg with refs := upd up.cfg.refs 5 fun r => { r with enable := 0 } } }, by decide +kernel⟩

/-- The hypotheses of CandidateStates, stickyClear_cand, meet. -/
theorem test_meets_CandidateStates_stickyClear_cand : ∃ (dt : Nat) (r : Requester) (n : Fin 24) (v : Nat) (s : State),
    Heard r (writeFrame r (addrWord 16 (40 + n) 2) .u8 v) (elapse dt s) ∧ (elapse dt s).md.mode ≠ .safe ∧ (elapse dt s).md.bootRom = false ∧ v < 256 :=
  ⟨0, can0, 23, 255, up, by decide +kernel⟩

/-- The hypotheses of CandidateStates, stickyClear_chan, meet. -/
theorem test_meets_CandidateStates_stickyClear_chan : ∃ (dt : Nat) (r : Requester) (n : Fin 8) (v : Nat) (s : State),
    Heard r (writeFrame r (addrWord 17 (10 + n) 11) .u8 v) (elapse dt s) ∧ (elapse dt s).md.mode ≠ .safe ∧ (elapse dt s).md.bootRom = false ∧ v < 256 :=
  ⟨0, can0, 7, 255, up, by decide +kernel⟩

/-- The hypotheses of CandidateStates, stickyClear_tsi, meet. -/
theorem test_meets_CandidateStates_stickyClear_tsi : ∃ (dt : Nat) (r : Requester) (n : Fin 64) (v : Nat) (s : State),
    Heard r (writeFrame r (addrWord 48 (100 + n) 5) .u8 v) (elapse dt s) ∧ (elapse dt s).md.mode ≠ .safe ∧ (elapse dt s).md.bootRom = false ∧ v < 256 :=
  ⟨0, can0, 63, 255, up, by decide +kernel⟩

/-- The hypotheses of CandidateStates, stickyClear_out, meet. -/
theorem test_meets_CandidateStates_stickyClear_out : ∃ (dt : Nat) (r : Requester) (n : Fin 32) (v : Nat) (s : State),
    Heard r (writeFrame r (addrWord 20 (40 + n) 6) .u8 v) (elapse dt s) ∧ (elapse dt s).md.mode ≠ .safe ∧ (elapse dt s).md.bootRom = false ∧ v < 256 :=
  ⟨0, can0, 31, 255, up, by decide +kernel⟩

/-- The hypotheses of CandidateStates, stickyClear_axis, meet. -/
theorem test_meets_CandidateStates_stickyClear_axis : ∃ (dt : Nat) (r : Requester) (n : Fin 8) (v : Nat) (s : State),
    Heard r (writeFrame r (addrWord 64 (10 + n) 10) .u8 v) (elapse dt s) ∧ (elapse dt s).md.mode ≠ .safe ∧ (elapse dt s).md.bootRom = false ∧ v < 256 :=
  ⟨0, can0, 7, 255, up, by decide +kernel⟩

/-- The hypotheses of CandidateStates, stickyClear_source, meet. -/
theorem test_meets_CandidateStates_stickyClear_source : ∃ (dt : Nat) (r : Requester) (n : Fin 256) (v : Nat) (s : State),
    Heard r (writeFrame r (addrWord 4 7 n) .u8 v) (elapse dt s) ∧ (elapse dt s).md.mode ≠ .safe ∧ (elapse dt s).md.bootRom = false ∧ v < 256 :=
  ⟨0, can0, 255, 255, up, by decide +kernel⟩

/-- The hypotheses of CandidateStates, domainEdge, meet. -/
theorem test_meets_CandidateStates_domainEdge : ∃ (dt : Nat) (i : Fin 8) (q : Int) (s : State),
    ((elapse dt s).domi i).supplies = true ∧ ((elapse dt s).domi i).est ≠ [] ∧ ((elapse dt s).domi i).edgeSec = some q ∧ q < (masterNow (elapse dt s) i).floor / 1000000000 :=
  ⟨0, 7, 0, domainUp, by decide +kernel⟩

/-- The hypotheses of LockAndAlignment, lockCriterion_locked, meet. -/
theorem test_meets_LockAndAlignment_lockCriterion_locked : ∃ (dt : Nat) (n : Fin 8) (k : Nat) (s : State),
    ((elapse dt s).chan n).cand = some k ∧ ((elapse dt s).cfg.chan n).lockCount ≤ ((elapse dt s).chan n).lockRun ∧ ((elapse dt s).chan n).crit = false ∧ ((elapse dt s).chan n).state = .locked :=
  ⟨0, 7, 5, { up with dp := upd up.dp 7 fun c => { c with state := .locked, cand := some 5, lockRun := 2000000, pos := 0 } }, by decide +kernel⟩

/-- The hypotheses of LockAndAlignment, lockCriterion_last, meet. -/
theorem test_meets_LockAndAlignment_lockCriterion_last : ∃ (dt : Nat) (n : Fin 8) (k : Nat) (s : State),
    ((elapse dt s).chan n).cand = some k ∧ ((elapse dt s).cfg.chan n).lockCount ≤ ((elapse dt s).chan n).lockRun ∧ ((elapse dt s).chan n).crit = false ∧ ((elapse dt s).chan n).state = .acquire ∨ ((elapse dt s).chan n).state = .narrowing ∧ (scheduleOf (elapse dt s) n k).length ≤ ((elapse dt s).chan n).pos + 1 :=
  ⟨0, 7, 5, { up with dp := upd up.dp 7 fun c => { c with state := .narrowing, cand := some 5, lockRun := 2000000, pos := 7 } }, by decide +kernel⟩

/-- The hypotheses of LockAndAlignment, lockCriterion_next, meet. -/
theorem test_meets_LockAndAlignment_lockCriterion_next : ∃ (dt : Nat) (n : Fin 8) (k : Nat) (s : State),
    ((elapse dt s).chan n).cand = some k ∧ ((elapse dt s).cfg.chan n).lockCount ≤ ((elapse dt s).chan n).lockRun ∧ ((elapse dt s).chan n).crit = false ∧ ((elapse dt s).chan n).state = .acquire ∨ ((elapse dt s).chan n).state = .narrowing ∧ ((elapse dt s).chan n).pos + 1 < (scheduleOf (elapse dt s) n k).length :=
  ⟨0, 7, 5, { { up with dp := upd up.dp 7 fun c => { c with state := .acquire, cand := some 5, lockRun := 2000000, pos := 0 } } with cfg := { up.cfg with dp := up.cfg.dp.map fun c => { c with bwSteps := 2, bw := [20, 10] }, refs := up.cfg.refs.map fun r => { r with nominal := 1000000000 } } }, by decide +kernel⟩

/-- The hypotheses of LockAndAlignment, channelEnable, meet. -/
theorem test_meets_LockAndAlignment_channelEnable : ∃ (dt : Nat) (r : Requester) (n : Fin 8) (v : Nat) (s : State),
    Heard r (writeFrame r (addrWord 0x11 n 0) .u8 v) (elapse dt s) ∧ v < 2 ∧ (elapse dt s).md.mode ≠ .safe ∧ (elapse dt s).md.bootRom = false ∧ (elapse dt s).isFenced (.dp n) = false ∧ n < (elapse dt s).cfg.dp.length ∧ scheduleOk ((elapse dt s).cfg.chan n) = true :=
  ⟨0, can0, 7, 1, up, by decide +kernel⟩

/-- The hypotheses of LockAndAlignment, firstAlignment, meet. -/
theorem test_meets_LockAndAlignment_firstAlignment : ∃ (dt : Nat) (n : Fin 8) (frac : Rat) (c : Nat) (s : State),
    ((elapse dt s).chan n).cand = some c ∧ ((elapse dt s).chan n).aligning = 1 ∧ tracks ((elapse dt s).chan n) = true ∧ ((elapse dt s).chan n).frozen = none :=
  ⟨0, 7, 1/2, 5, { up with dp := upd up.dp 7 fun c => { c with state := .acquire, cand := some 5, aligning := 1 } }, by decide +kernel⟩

/-- The hypotheses of LockAndAlignment, realign, meet. -/
theorem test_meets_LockAndAlignment_realign : ∃ (n : Nat) (t : Rat) (s : State),
    (∀ c, (s.chan n).cand = some c → candKind s.cfg c = .clk ∨ candKind s.cfg c = .pulse) :=
  ⟨7, 0, up, by decide +kernel⟩

/-- The hypotheses of LockAndAlignment, channelSecond, meet. -/
theorem test_meets_LockAndAlignment_channelSecond : ∃ (dt : Nat) (n : Fin 8) (s : State),
    1000000000 ≤ ((elapse dt s).chan n).phase :=
  ⟨0, 7, { up with dp := up.dp.map fun c => { c with phase := 1000000001 } }, by decide +kernel⟩

/-- The hypotheses of LockAndAlignment, ldaMonUpdate, meet. -/
theorem test_meets_LockAndAlignment_ldaMonUpdate : ∃ (dt : Nat) (s : State),
    (elapse dt s).clk.running = true :=
  ⟨0, up, by decide +kernel⟩

/-- The hypotheses of LockAndAlignment, taperPullEnd_channel, meet. -/
theorem test_meets_LockAndAlignment_taperPullEnd_channel : ∃ (dt : Nat) (n : Fin 8) (s : State),
    (elapse dt s).clk.running = true ∧ ((elapse dt s).chan n).frozen = none ∧ legsTime ((elapse dt s).chan n).taper.legs ≤ 1 / 1000000000 :=
  ⟨0, 7, up, by decide +kernel⟩

/-- The hypotheses of LockAndAlignment, taperPullEnd_timebase, meet. -/
theorem test_meets_LockAndAlignment_taperPullEnd_timebase : ∃ (dt : Nat) (n : Fin 4) (s : State),
    (elapse dt s).clk.running = true ∧ ((elapse dt s).tbs n).frozenC = none ∧ legsTime ((elapse dt s).tbs n).taper.legs ≤ 1 / 1000000000 :=
  ⟨0, 3, up, by decide +kernel⟩

/-- The hypotheses of LockAndAlignment, taperPullEnd_output, meet. -/
theorem test_meets_LockAndAlignment_taperPullEnd_output : ∃ (dt : Nat) (n : Fin 32) (s : State),
    (elapse dt s).clk.running = true ∧ legsTime ((elapse dt s).out n).move.legs ≤ 1 / 1000000000 :=
  ⟨0, 31, up, by decide +kernel⟩

/-- The hypotheses of LockAndAlignment, advance_ends, meet. -/
theorem test_meets_LockAndAlignment_advance_ends : ∃ (t : Taper) (sec : Rat),
    legsTime t.legs ≤ sec :=
  ⟨Taper.reset, 1, by decide +kernel⟩

/-- The hypotheses of LanternSecond, lanternEvaluation, meet. -/
theorem test_meets_LanternSecond_lanternEvaluation : ∃ (dt : Nat) (s : State),
    (elapse dt s).clk.running = true :=
  ⟨0, up, by decide +kernel⟩

/-- The hypotheses of LanternSecond, lanternSecond, meet. -/
theorem test_meets_LanternSecond_lanternSecond : ∃ (n : Nat) (s : State),
    n < s.ln.ho.length ∧ n < s.dp.length ∧ (s.chan n).state = .holdover ∨ (s.chan n).state = .fenced :=
  ⟨7, { up with dp := up.dp.map fun c => { c with state := .fenced } }, by decide +kernel⟩

/-- The hypotheses of LanternSecond, fCell, meet. -/
theorem test_meets_LanternSecond_fCell : ∃ (cfg : CfgLn) (m : Model) (t p a : Rat),
    cfg.modelEnable = 1 ∧ populated cfg m (cellOf t p) = true ∧ cellOf t p < 72 :=
  ⟨up.cfg.ln, { Model.reset with cells := Model.reset.cells.map fun c => { c with n := 100000 } }, 25000, 20000, 0, by decide +kernel⟩

/-- The hypotheses of LearningAndModel, learningSample, meet. -/
theorem test_meets_LearningAndModel_learningSample : ∃ (dt : Nat) (n : Nat) (r : HistRec) (c : Nat) (s : State),
    (elapse dt s).runs 1 = true ∧ (elapse dt s).cfg.ln.learnChannel = n ∧ n < 8 ∧ ((elapse dt s).hov n).hist.head? = some r ∧ r.cand = some c ∧ (elapse dt s).ln.secLearn = true ∧ r.ok = true ∧ r.locked = true ∧ mayLearn (elapse dt s) = true :=
  ⟨0, 0, { HistRec.reset with cand := some 3, ok := true, locked := true }, 3, learning, by decide +kernel⟩

/-- The hypotheses of LearningAndModel, learningSample_none, meet. -/
theorem test_meets_LearningAndModel_learningSample_none : ∃ (dt : Nat) (n : Nat) (s : State),
    (elapse dt s).runs 1 = true ∧ (elapse dt s).cfg.ln.learnChannel = n ∧ (elapse dt s).ln.secLearn = false ∨ ((elapse dt s).hov n).hist = [] :=
  ⟨0, 0, { up with cfg := { up.cfg with ln := { up.cfg.ln with learnChannel := 0 } } }, by decide +kernel⟩

/-- The hypotheses of LearningAndModel, modelCommit, meet. -/
theorem test_meets_LearningAndModel_modelCommit : ∃ (dt : Nat) (s : State),
    (elapse dt s).runs 1 = true :=
  ⟨0, up, by decide +kernel⟩

/-- The hypotheses of LearningAndModel, modelSave, meet. -/
theorem test_meets_LearningAndModel_modelSave : ∃ (dt : Nat) (s : State),
    (elapse dt s).runs 0 = true ∧ (elapse dt s).runs 1 = true ∧ (elapse dt s).pwr.pfail = false :=
  ⟨0, up, by decide +kernel⟩

/-- The hypotheses of LearningAndModel, modelSave_pfail, meet. -/
theorem test_meets_LearningAndModel_modelSave_pfail : ∃ (dt : Nat) (s : State),
    (elapse dt s).pwr.pfail = true :=
  ⟨0, { up with pwr := { up.pwr with pfail := true } }, by decide +kernel⟩

/-- The hypotheses of LearningAndModel, modelStore, meet. -/
theorem test_meets_LearningAndModel_modelStore : ∃ (dt : Nat) (r : Requester) (arg : Nat) (s : State),
    Heard r (commandFrame r (addrWord 0x12 2 1) .u8 arg) (elapse dt s) ∧ arg < 256 ∧ (elapse dt s).md.mode ≠ .safe ∧ (elapse dt s).md.bootRom = false ∧ (elapse dt s).runs 1 = true ∧ (elapse dt s).pwr.pfail = false :=
  ⟨0, can0, 0, up, by decide +kernel⟩

/-- The hypotheses of LearningAndModel, steeringWrite, meet. -/
theorem test_meets_LearningAndModel_steeringWrite : ∃ (dt : Nat) (r : Requester) (n : Fin 8) (v : Int) (s : State),
    Heard r (writeFrame r (addrWord 0x12 (10 + n) 0) .freq64 v) (elapse dt s) ∧ -65536000000000 ≤ v ∧ v ≤ 65536000000000 ∧ (elapse dt s).md.mode ≠ .safe ∧ (elapse dt s).md.bootRom = false ∧ (elapse dt s).runs 1 = true :=
  ⟨0, can0, 7, -5, up, by decide +kernel⟩

/-- The hypotheses of CoresRetuneAndLock, coreEnable_on, meet. -/
theorem test_meets_CoresRetuneAndLock_coreEnable_on : ∃ (dt : Nat) (r : Requester) (c : Fin 4) (s : State),
    Heard r (writeFrame r (addrWord 0x13 c 0) .u8 (1 : Nat)) (elapse dt s) ∧ (elapse dt s).md.mode ≠ .safe ∧ (elapse dt s).md.bootRom = false ∧ ((elapse dt s).syn c).state = .disabled :=
  ⟨0, can0, 3, up, by decide +kernel⟩

/-- The hypotheses of CoresRetuneAndLock, coreEnable_off, meet. -/
theorem test_meets_CoresRetuneAndLock_coreEnable_off : ∃ (dt : Nat) (r : Requester) (c : Fin 4) (s : State),
    Heard r (writeFrame r (addrWord 0x13 c 0) .u8 (0 : Nat)) (elapse dt s) ∧ (elapse dt s).md.mode ≠ .safe ∧ (elapse dt s).md.bootRom = false ∧ ((elapse dt s).syn c).state = .locked :=
  ⟨0, can0, 3, coreIn .locked none, by decide +kernel⟩

/-- The hypotheses of CoresRetuneAndLock, beginRetune, meet. -/
theorem test_meets_CoresRetuneAndLock_beginRetune : ∃ (c : Nat) (s : State),
    (s.syn c).state ≠ .tuning :=
  ⟨3, up, by decide +kernel⟩

/-- The hypotheses of CoresRetuneAndLock, coreLock_search, meet. -/
theorem test_meets_CoresRetuneAndLock_coreLock_search : ∃ (dt : Nat) (c : Fin 4) (band fine t0 : Nat) (q : Retune) (s : State),
    ((elapse dt s).syn c).retune = some q ∧ q.s0 = some t0 ∧ q.card = none ∧ q.cardFailed = false ∧ ((elapse dt s).cfg.syn c).cardAuto = 0 :=
  ⟨0, 3, 1, 2, 0, { Retune.reset with s0 := some 0 }, { coreIn .tuning (some { Retune.reset with s0 := some 0 }) with cfg := { up.cfg with sn := up.cfg.sn.map fun k => { k with cardAuto := 0 } } }, by decide +kernel⟩

/-- The hypotheses of CoresRetuneAndLock, coreLock_afterCard, meet. -/
theorem test_meets_CoresRetuneAndLock_coreLock_afterCard : ∃ (dt : Nat) (c : Fin 4) (band fine t0 : Nat) (q : Retune) (s : State),
    ((elapse dt s).syn c).retune = some q ∧ q.s0 = some t0 ∧ q.card = none ∧ q.cardFailed = true ∧ ((elapse dt s).cfg.syn c).cardAuto = 0 :=
  ⟨0, 3, 1, 2, 0, { Retune.reset with s0 := some 0, cardFailed := true }, { coreIn .tuning (some { Retune.reset with s0 := some 0, cardFailed := true }) with cfg := { up.cfg with sn := up.cfg.sn.map fun k => { k with cardAuto := 0 } } }, by decide +kernel⟩

/-- The hypotheses of CoresRetuneAndLock, coreLock_stored, meet. -/
theorem test_meets_CoresRetuneAndLock_coreLock_stored : ∃ (dt : Nat) (c : Fin 4) (band fine t0 : Nat) (q : Retune) (s : State),
    ((elapse dt s).syn c).retune = some q ∧ q.s0 = some t0 ∧ q.card = none ∧ q.cardFailed = false ∧ ((elapse dt s).cfg.syn c).cardAuto = 1 :=
  ⟨0, 3, 1, 2, 0, { Retune.reset with s0 := some 0 }, { coreIn .tuning (some { Retune.reset with s0 := some 0 }) with cfg := { up.cfg with sn := up.cfg.sn.map fun k => { k with cardAuto := 1 } } }, by decide +kernel⟩

/-- The hypotheses of CoresRetuneAndLock, coreLock_card, meet. -/
theorem test_meets_CoresRetuneAndLock_coreLock_card : ∃ (dt : Nat) (c : Fin 4) (band fine t0 : Nat) (q : Retune) (k : Card) (s : State),
    ((elapse dt s).syn c).retune = some q ∧ q.s0 = some t0 ∧ q.card = some k :=
  ⟨0, 3, 1, 2, 0, { Retune.reset with s0 := some 0, card := some Card.reset }, Card.reset, coreIn .tuning (some { Retune.reset with s0 := some 0, card := some Card.reset }), by decide +kernel⟩

/-- The hypotheses of CoresRetuneAndLock, coreLockLoss, meet. -/
theorem test_meets_CoresRetuneAndLock_coreLockLoss : ∃ (dt : Nat) (c : Fin 4) (s : State),
    ((elapse dt s).syn c).state = .locked :=
  ⟨0, 3, coreIn .locked none, by decide +kernel⟩

/-- The hypotheses of CoresRetuneAndLock, retuneOutputsStopped, meet. -/
theorem test_meets_CoresRetuneAndLock_retuneOutputsStopped : ∃ (dt : Nat) (c : Fin 4) (q : Retune) (s : State),
    ((elapse dt s).syn c).retune = some q ∧ q.s0 = none ∧ outsParked (elapse dt s) c = true :=
  ⟨0, 3, Retune.reset, coreIn .tuning (some Retune.reset), by decide +kernel⟩

/-- The hypotheses of CoresRetuneAndLock, cardTimeout, meet. -/
theorem test_meets_CoresRetuneAndLock_cardTimeout : ∃ (dt : Nat) (c : Fin 4) (q : Retune) (t0 : Nat) (k : Card) (s : State),
    ((elapse dt s).syn c).retune = some q ∧ q.s0 = some t0 ∧ q.card = some k ∧ t0 + 60000 ≤ (elapse dt s).clk.count :=
  ⟨0, 3, { Retune.reset with s0 := some 0, card := some Card.reset }, 0, Card.reset, coreIn .tuning (some { Retune.reset with s0 := some 0, card := some Card.reset }), by decide +kernel⟩

/-- The hypotheses of CoresRetuneAndLock, cardStore, meet. -/
theorem test_meets_CoresRetuneAndLock_cardStore : ∃ (dt : Nat) (s : State),
    (elapse dt s).nvc.cardsDirty ≠ none ∧ (elapse dt s).pwr.pfail = false ∧ (elapse dt s).runs 0 = true :=
  ⟨0, { up with nvc := { up.nvc with cardsDirty := some 0 } }, by decide +kernel⟩

/-- The hypotheses of CommitsAndOutputs, commit_0, meet. -/
theorem test_meets_CommitsAndOutputs_commit_0 : ∃ (dt : Nat) (r : Requester) (s : State),
    Heard r (commandFrame r (addrWord 0x13 20 0) .u8 (0 : Nat)) (elapse dt s) ∧ (elapse dt s).md.mode ≠ .safe ∧ (elapse dt s).md.bootRom = false ∧ shadowOk (elapse dt s) = true ∧ (elapse dt s).sn.armed = none :=
  ⟨0, can0, up, by decide +kernel⟩

/-- The hypotheses of CommitsAndOutputs, commit_1, meet. -/
theorem test_meets_CommitsAndOutputs_commit_1 : ∃ (dt : Nat) (r : Requester) (s : State),
    Heard r (commandFrame r (addrWord 0x13 20 0) .u8 (1 : Nat)) (elapse dt s) ∧ (elapse dt s).md.mode ≠ .safe ∧ (elapse dt s).md.bootRom = false ∧ shadowOk (elapse dt s) = true ∧ (elapse dt s).sn.armed = none ∧ (elapse dt s).isFenced (.tb (elapse dt s).cfg.commitTb) = false :=
  ⟨0, can0, up, by decide +kernel⟩

/-- The hypotheses of CommitsAndOutputs, commit_2, meet. -/
theorem test_meets_CommitsAndOutputs_commit_2 : ∃ (dt : Nat) (r : Requester) (s : State),
    Heard r (commandFrame r (addrWord 0x13 20 0) .u8 (2 : Nat)) (elapse dt s) ∧ (elapse dt s).md.mode ≠ .safe ∧ (elapse dt s).md.bootRom = false ∧ shadowOk (elapse dt s) = true ∧ (elapse dt s).sn.armed = none ∧ ((elapse dt s).out (elapse dt s).cfg.commitEdgeOut).state = .running :=
  ⟨0, can0, { up with ou := { up.ou with out := up.ou.out.map fun o => { o with state := .running } } }, by decide +kernel⟩

/-- The hypotheses of CommitsAndOutputs, commit_3, meet. -/
theorem test_meets_CommitsAndOutputs_commit_3 : ∃ (dt : Nat) (r : Requester) (s : State),
    Heard r (commandFrame r (addrWord 0x13 20 0) .u8 (3 : Nat)) (elapse dt s) ∧ (elapse dt s).md.mode ≠ .safe ∧ (elapse dt s).md.bootRom = false ∧ (elapse dt s).sn.armed ≠ none :=
  ⟨0, can0, { up with sn := { up.sn with armed := some (1, 0, 0) } }, by decide +kernel⟩

/-- The hypotheses of CommitsAndOutputs, commitInstant_second, meet. -/
theorem test_meets_CommitsAndOutputs_commitInstant_second : ∃ (dt : Nat) (k : Nat) (sec : Int) (s : State),
    (elapse dt s).sn.armed = some (1, k, sec) ∧ tbSecond (elapse dt s) k ≠ sec :=
  ⟨0, 0, 7, { up with sn := { up.sn with armed := some (1, 0, 7) } }, by decide +kernel⟩

/-- The hypotheses of CommitsAndOutputs, commitInstant_edge, meet. -/
theorem test_meets_CommitsAndOutputs_commitInstant_edge : ∃ (dt : Nat) (k : Nat) (sec : Int) (s : State),
    (elapse dt s).sn.armed = some (2, k, sec) ∧ driven ((elapse dt s).out k).state = true :=
  ⟨0, 5, 0, { up with ou := { up.ou with out := up.ou.out.map fun o => { o with state := .running } }, sn := { up.sn with armed := some (2, 5, 0) } }, by decide +kernel⟩

/-- The hypotheses of CommitsAndOutputs, outputEnable_on, meet. -/
theorem test_meets_CommitsAndOutputs_outputEnable_on : ∃ (dt : Nat) (r : Requester) (n : Fin 32) (v : Nat) (s : State),
    Heard r (writeFrame r (addrWord 0x14 n 0) .u8 v) (elapse dt s) ∧ (elapse dt s).md.mode ≠ .safe ∧ (elapse dt s).md.bootRom = false ∧ (elapse dt s).isFenced (.out n) = false ∧ n < (elapse dt s).cfg.ou.length ∧ v = 1 ∧ enableOk (elapse dt s) n ((elapse dt s).cfg.out n).core ((elapse dt s).cfg.out n).format = true :=
  ⟨0, can0, 31, 1, outReady, by decide +kernel⟩

/-- The hypotheses of CommitsAndOutputs, outputEnable_off, meet. -/
theorem test_meets_CommitsAndOutputs_outputEnable_off : ∃ (dt : Nat) (r : Requester) (n : Fin 32) (v : Nat) (s : State),
    Heard r (writeFrame r (addrWord 0x14 n 0) .u8 v) (elapse dt s) ∧ (elapse dt s).md.mode ≠ .safe ∧ (elapse dt s).md.bootRom = false ∧ (elapse dt s).isFenced (.out n) = false ∧ n < (elapse dt s).cfg.ou.length ∧ v = 0 :=
  ⟨0, can0, 31, 0, up, by decide +kernel⟩

/-- The hypotheses of CommitsAndOutputs, formatWrite, meet. -/
theorem test_meets_CommitsAndOutputs_formatWrite : ∃ (dt : Nat) (r : Requester) (n : Fin 32) (v : Nat) (s : State),
    Heard r (writeFrame r (addrWord 0x14 n 2) .u8 v) (elapse dt s) ∧ (elapse dt s).md.mode ≠ .safe ∧ (elapse dt s).md.bootRom = false ∧ (elapse dt s).isFenced (.out n) = false ∧ n < (elapse dt s).cfg.ou.length ∧ v < 5 ∧ ((elapse dt s).cfg.out n).enable = 0 :=
  ⟨0, can0, 31, 4, up, by decide +kernel⟩

/-- The hypotheses of CommitCopiesEveryShadow meet. -/
theorem test_meets_CommitCopiesEveryShadow : up.sn.core.length = 4 ∧ up.ou.out.length = 32 ∧ (up.sn.cut.any fun x => x.1 == up.clk.count) = false := by decide +kernel

/-- A write in the cycle of the commit. -/
theorem test_meets_CommitCopiesEveryShadow_cut : ∃ (s : State) (sn : List CfgSn) (ou : List CfgOu), s.sn.cut = some (s.clk.count, sn, ou) :=
  ⟨{ up with sn := { up.sn with cut := some (up.clk.count, [], []) } }, [], [], rfl⟩

/-- The hypotheses of ChimneyGates, chimneyFrequencyTest_pass, meet. -/
theorem test_meets_ChimneyGates_chimneyFrequencyTest_pass : ∃ (dt : Nat) (n : Fin 32) (fast fine : Rat) (s : State),
    ((elapse dt s).cfg.out n).enable = 1 ∧ frequencyPasses (elapse dt s) n fast fine = true :=
  ⟨0, 31, 10000000000000, 10000000000000, gateUp, by decide +kernel⟩

/-- The hypotheses of ChimneyGates, chimneyFrequencyTest_fail, meet. -/
theorem test_meets_ChimneyGates_chimneyFrequencyTest_fail : ∃ (dt : Nat) (n : Fin 32) (fast fine : Rat) (s : State),
    ((elapse dt s).cfg.out n).enable = 1 ∧ frequencyPasses (elapse dt s) n fast fine = false :=
  ⟨0, 31, 1, 1, gateUp, by decide +kernel⟩

/-- The hypotheses of ChimneyGates, chimneySlewTest_pass, meet. -/
theorem test_meets_ChimneyGates_chimneySlewTest_pass : ∃ (dt : Nat) (n : Fin 32) (short long : Rat) (s : State),
    ((elapse dt s).cfg.out n).enable = 1 ∧ outTime (elapse dt s) n = true ∧ slewPasses (elapse dt s) n short long = true :=
  ⟨0, 31, 0, 0, gateUp, by decide +kernel⟩

/-- The hypotheses of ChimneyGates, chimneySlewTest_fail, meet. -/
theorem test_meets_ChimneyGates_chimneySlewTest_fail : ∃ (dt : Nat) (n : Fin 32) (short long : Rat) (s : State),
    ((elapse dt s).cfg.out n).enable = 1 ∧ outTime (elapse dt s) n = true ∧ slewPasses (elapse dt s) n short long = false :=
  ⟨0, 31, 100000, 100000, gateUp, by decide +kernel⟩

/-- The hypotheses of ChimneyGates, heartbeatRefresh, meet. -/
theorem test_meets_ChimneyGates_heartbeatRefresh : ∃ (dt : Nat) (s : State),
    (elapse dt s).runs 0 = true :=
  ⟨0, up, by decide +kernel⟩

/-- The hypotheses of ChimneyGates, heartbeatLapse, meet. -/
theorem test_meets_ChimneyGates_heartbeatLapse : ∃ (dt : Nat) (s : State),
    (elapse dt s).md.sealed = true ∧ (elapse dt s).ou.heartbeatClosed = false ∧ (elapse dt s).ou.heartbeatAt + (elapse dt s).cfg.lim.heartbeatInterval * 1000000 ≤ (elapse dt s).clk.count :=
  ⟨0, { up with ou := { up.ou with heartbeatClosed := false, heartbeatAt := 0 } }, by decide +kernel⟩

/-- The hypotheses of TimebaseCommands, restep, meet. -/
theorem test_meets_TimebaseCommands_restep : ∃ (dt : Nat) (r : Requester) (tb : Fin 4) (arg : Nat) (s : State),
    Heard r (commandFrame r (addrWord 0x20 (50 + tb) 0) .u8 arg) (elapse dt s) ∧ (elapse dt s).md.mode ≠ .safe ∧ (elapse dt s).md.bootRom = false ∧ arg < 2 ∧ ((elapse dt s).tbs tb).state = .tracking ∨ ((elapse dt s).tbs tb).state = .holdover ∧ ((elapse dt s).domi (2 * tb + arg)).measures = true ∧ ((elapse dt s).tbs tb).restep = none :=
  ⟨0, can0, 3, 1, domainTb .tracking .qualified, by decide +kernel⟩

/-- The hypotheses of TimebaseCommands, clearDisc, meet. -/
theorem test_meets_TimebaseCommands_clearDisc : ∃ (dt : Nat) (r : Requester) (tb : Fin 4) (arg : Nat) (s : State),
    Heard r (commandFrame r (addrWord 0x20 (50 + tb) 1) .u8 arg) (elapse dt s) ∧ (elapse dt s).md.mode ≠ .safe ∧ (elapse dt s).md.bootRom = false ∧ arg < 2 ∧ (elapse dt s).isFenced (.tb tb) = false ∧ ((elapse dt s).domi (2 * tb + arg)).state = .discontinuous :=
  ⟨0, can0, 3, 1, domainTb .tracking .discontinuous, by decide +kernel⟩

/-- The hypotheses of TimebaseCommands, localLabel, meet. -/
theorem test_meets_TimebaseCommands_localLabel : ∃ (dt : Nat) (r : Requester) (tb : Fin 4) (t : Time80) (s : State),
    Heard r (commandFrame r (addrWord 0x20 (50 + tb) 2) .time80 (Time80.code t)) (elapse dt s) ∧ (elapse dt s).md.mode ≠ .safe ∧ (elapse dt s).md.bootRom = false ∧ t.ns = 0 ∧ t.sec < 2 ^ 48 ∧ (elapse dt s).isFenced (.tb tb) = false ∧ ((elapse dt s).cfg.domi (2 * tb)).kind = 3 ∨ ((elapse dt s).cfg.domi (2 * tb + 1)).kind = 3 :=
  ⟨0, can0, 3, ⟨7, 0⟩, { up with cfg := { up.cfg with dom := up.cfg.dom.map fun d => { d with kind := 3 } } }, by decide +kernel⟩

/-- The hypotheses of TimebaseCommands, leapSecondApply_insert, meet. -/
theorem test_meets_TimebaseCommands_leapSecondApply_insert : ∃ (dt : Nat) (tb : Fin 4) (s : State),
    ((elapse dt s).tbs tb).utc.leap = 1 ∧ (Time80.toNs ((elapse dt s).tbs tb).utc.leapAt : Rat) ≤ ((elapse dt s).tbs tb).now :=
  ⟨0, 3, { up with tb := up.tb.map fun t => { t with utc := { t.utc with leap := 1 } } }, by decide +kernel⟩

/-- The hypotheses of TimebaseCommands, leapSecondApply_remove, meet. -/
theorem test_meets_TimebaseCommands_leapSecondApply_remove : ∃ (dt : Nat) (tb : Fin 4) (s : State),
    ((elapse dt s).tbs tb).utc.leap = 2 ∧ (Time80.toNs ((elapse dt s).tbs tb).utc.leapAt : Rat) ≤ ((elapse dt s).tbs tb).now :=
  ⟨0, 3, { up with tb := up.tb.map fun t => { t with utc := { t.utc with leap := 2 } } }, by decide +kernel⟩

/-- The hypotheses of TimebaseCommands, utcWrite_0, meet. -/
theorem test_meets_TimebaseCommands_utcWrite_0 : ∃ (dt : Nat) (r : Requester) (tb : Fin 4) (v : Int) (t : Time80) (s : State),
    Heard r (writeFrame r (addrWord 0x20 (20 + tb) 0) .u8 v) (elapse dt s) ∧ (elapse dt s).md.mode ≠ .safe ∧ (elapse dt s).md.bootRom = false ∧ (elapse dt s).isFenced (.tb tb) = false ∧ 0 ≤ v ∧ v ≤ 1 :=
  ⟨0, can0, 3, 1, ⟨0, 0⟩, up, by decide +kernel⟩

/-- The hypotheses of TimebaseCommands, utcWrite_1, meet. -/
theorem test_meets_TimebaseCommands_utcWrite_1 : ∃ (dt : Nat) (r : Requester) (tb : Fin 4) (v : Int) (t : Time80) (s : State),
    Heard r (writeFrame r (addrWord 0x20 (20 + tb) 1) .i16 v) (elapse dt s) ∧ (elapse dt s).md.mode ≠ .safe ∧ (elapse dt s).md.bootRom = false ∧ (elapse dt s).isFenced (.tb tb) = false ∧ ((elapse dt s).cfg.utcs tb).mode = 0 ∧ -32768 ≤ v ∧ v ≤ 32767 :=
  ⟨0, can0, 3, -37, ⟨0, 0⟩, up, by decide +kernel⟩

/-- The hypotheses of TimebaseCommands, utcWrite_2, meet. -/
theorem test_meets_TimebaseCommands_utcWrite_2 : ∃ (dt : Nat) (r : Requester) (tb : Fin 4) (v : Int) (t : Time80) (s : State),
    Heard r (writeFrame r (addrWord 0x20 (20 + tb) 2) .u8 v) (elapse dt s) ∧ (elapse dt s).md.mode ≠ .safe ∧ (elapse dt s).md.bootRom = false ∧ (elapse dt s).isFenced (.tb tb) = false ∧ ((elapse dt s).cfg.utcs tb).mode = 0 ∧ 0 ≤ v ∧ v ≤ 1 :=
  ⟨0, can0, 3, 1, ⟨0, 0⟩, up, by decide +kernel⟩

/-- The hypotheses of TimebaseCommands, utcWrite_3, meet. -/
theorem test_meets_TimebaseCommands_utcWrite_3 : ∃ (dt : Nat) (r : Requester) (tb : Fin 4) (v : Int) (t : Time80) (s : State),
    Heard r (writeFrame r (addrWord 0x20 (20 + tb) 3) .u8 v) (elapse dt s) ∧ (elapse dt s).md.mode ≠ .safe ∧ (elapse dt s).md.bootRom = false ∧ (elapse dt s).isFenced (.tb tb) = false ∧ ((elapse dt s).cfg.utcs tb).mode = 0 ∧ 0 ≤ v ∧ v ≤ 2 :=
  ⟨0, can0, 3, 2, ⟨0, 0⟩, up, by decide +kernel⟩

/-- The hypotheses of TimebaseCommands, utcWrite_4, meet. -/
theorem test_meets_TimebaseCommands_utcWrite_4 : ∃ (dt : Nat) (r : Requester) (tb : Fin 4) (v : Int) (t : Time80) (s : State),
    Heard r (writeFrame r (addrWord 0x20 (20 + tb) 4) .time80 (Time80.code t)) (elapse dt s) ∧ (elapse dt s).md.mode ≠ .safe ∧ (elapse dt s).md.bootRom = false ∧ (elapse dt s).isFenced (.tb tb) = false ∧ ((elapse dt s).cfg.utcs tb).mode = 0 ∧ t.sec < 2 ^ 48 ∧ t.ns < 2 ^ 32 :=
  ⟨0, can0, 3, 0, ⟨7, 0⟩, up, by decide +kernel⟩

/-- The hypotheses of TimebaseCommands, copyUtc, meet. -/
theorem test_meets_TimebaseCommands_copyUtc : ∃ (k : Nat) (s : State),
    k < s.tb.length :=
  ⟨3, up, by decide +kernel⟩

/-- The hypotheses of TimebaseCommands, domainKindWrite, meet. -/
theorem test_meets_TimebaseCommands_domainKindWrite : ∃ (dt : Nat) (r : Requester) (i : Fin 8) (v : Nat) (s : State),
    Heard r (writeFrame r (addrWord 0x20 (10 + i) 0) .u8 v) (elapse dt s) ∧ (elapse dt s).md.mode ≠ .safe ∧ (elapse dt s).md.bootRom = false ∧ v < 4 ∧ i < (elapse dt s).cfg.dom.length ∧ (v ≠ 1 ∨ ptpDomainUnique i { (elapse dt s).cfg with dom := upd (elapse dt s).cfg.dom i fun d => { d with kind := v } } = true) :=
  ⟨0, can0, 7, 3, up, by decide +kernel⟩

/-- The hypotheses of TimebaseCommands, kindChanged, meet. -/
theorem test_meets_TimebaseCommands_kindChanged : ∃ (i old : Nat) (s : State),
    (s.cfg.domi i).kind ≠ old ∧ i < s.dom.length ∧ (s.domi i).state ≠ .noSource :=
  ⟨7, 2, up, by decide +kernel⟩

/-- The hypotheses of DomainTimers, receiptTimeout_sync, meet. -/
theorem test_meets_DomainTimers_receiptTimeout_sync : ∃ (dt : Nat) (i : Fin 8) (t : Nat) (s : State),
    instActive (elapse dt s) i = true ∧ ((elapse dt s).domi i).syncDue = some t ∧ t ≤ (elapse dt s).clk.count ∧ (elapse dt s).runs 1 = true :=
  ⟨0, 7, 0, ptpOn { up with dom := up.dom.map fun d => { d with syncDue := some 0 } }, by decide +kernel⟩

/-- The hypotheses of DomainTimers, receiptTimeout_overdue, meet. -/
theorem test_meets_DomainTimers_receiptTimeout_overdue : ∃ (dt : Nat) (i : Fin 8) (s : State),
    instActive (elapse dt s) i = true ∧ (elapse dt s).runs 0 = true ∧ (((elapse dt s).domi i).annDue.all fun t => decide ((elapse dt s).clk.count < t)) = true :=
  ⟨0, 7, ptpOn up, by decide +kernel⟩

/-- The hypotheses of DomainTimers, receiptTimeout_announce, meet. -/
theorem test_meets_DomainTimers_receiptTimeout_announce : ∃ (dt : Nat) (i : Fin 8) (t : Nat) (s : State),
    instActive (elapse dt s) i = true ∧ (elapse dt s).runs 0 = true ∧ ((elapse dt s).domi i).annDue = some t ∧ t ≤ (elapse dt s).clk.count ∧ (profileOf (elapse dt s) i ≠ 2 ∨ ((elapse dt s).inst i).prio1 ≠ 255) :=
  ⟨0, 7, 0, ptpOn { up with dom := up.dom.map fun d => { d with annDue := some 0 } }, by decide +kernel⟩

/-- The hypotheses of DomainTimers, domainRankWait, meet. -/
theorem test_meets_DomainTimers_domainRankWait : ∃ (dt : Nat) (i : Fin 8) (k t : Nat) (s : State),
    ((elapse dt s).domi i).rankWait = some (k, t) ∧ t + ((elapse dt s).cfg.domi i).qualTime * 1000000000 ≤ (elapse dt s).clk.count :=
  ⟨600000000000, 7, 3, 0, { up with dom := up.dom.map fun d => { d with rankWait := some (3, 0) } }, by decide +kernel⟩

/-- The hypotheses of SyncsAndFollowUps, syncReceive_oneStep, meet. -/
theorem test_meets_SyncsAndFollowUps_syncReceive_oneStep : ∃ (dt : Nat) (port : Fin 14) (h : PtpHdr) (origin ratio : Rat) (g : Option (Nat × Int)) (i : Nat) (s : State),
    ptpAlive (elapse dt s) port = true ∧ instOf (elapse dt s) h = some i ∧ (elapse dt s).portState port i = .slave :=
  ⟨0, 13, hdr0, 0, 0, none, 0, slaveUp 0, by decide +kernel⟩

/-- The hypotheses of SyncsAndFollowUps, syncReceive_twoStep, meet. -/
theorem test_meets_SyncsAndFollowUps_syncReceive_twoStep : ∃ (dt : Nat) (port : Fin 14) (h : PtpHdr) (origin ratio : Rat) (i : Nat) (s : State),
    ptpAlive (elapse dt s) port = true ∧ instOf (elapse dt s) h = some i ∧ (elapse dt s).portState port i = .slave :=
  ⟨0, 13, hdr0, 0, 0, 0, slaveUp 0, by decide +kernel⟩

/-- The hypotheses of SyncsAndFollowUps, syncReceive_discarded, meet. -/
theorem test_meets_SyncsAndFollowUps_syncReceive_discarded : ∃ (dt : Nat) (port : Fin 14) (h : PtpHdr) (kind : SyncKind) (origin ratio : Rat) (s : State),
    ptpAlive (elapse dt s) port = true ∧ instOf (elapse dt s) h = none :=
  ⟨0, 13, { hdr0 with domain := 9 }, (.oneStep none), 0, 0, slaveUp 0, by decide +kernel⟩

/-- The hypotheses of SyncsAndFollowUps, syncReceive_fenced, meet. -/
theorem test_meets_SyncsAndFollowUps_syncReceive_fenced : ∃ (dt : Nat) (port : Fin 14) (h : PtpHdr) (kind : SyncKind) (origin ratio : Rat) (s : State),
    portUp (elapse dt s) port = true ∧ (elapse dt s).isFenced (.port port) = true :=
  ⟨0, 13, hdr0, (.oneStep none), 0, 0, { slaveUp 0 with fc := { up.fc with fenced := [.port 13] } }, by decide +kernel⟩

/-- The hypotheses of SyncsAndFollowUps, followUpReceive, meet. -/
theorem test_meets_SyncsAndFollowUps_followUpReceive : ∃ (dt : Nat) (port : Fin 14) (h : PtpHdr) (origin ratio : Rat) (g : Option (Nat × Int)) (w : SyncWait) (i : Nat) (s : State),
    ptpAlive (elapse dt s) port = true ∧ instOf (elapse dt s) h = some i ∧ (elapse dt s).portState port i = .slave ∧ ((elapse dt s).inst i).wait = some w ∧ w.port = port ∧ w.seqId = h.seqId :=
  ⟨0, 13, hdr0, 0, 0, none, ⟨13, 7, 0, 0, 0⟩, 0, { slaveUp 0 with pt := { (slaveUp 0).pt with inst := (slaveUp 0).pt.inst.map fun x => { x with wait := some ⟨13, 7, 0, 0, 0⟩ } } }, by decide +kernel⟩

/-- The hypotheses of SyncsAndFollowUps, noteGm, meet. -/
theorem test_meets_SyncsAndFollowUps_noteGm : ∃ (i v : Nat) (ph : Int) (s : State),
    2 ≤ profileOf s i :=
  ⟨0, 1, 2, slaveUp 2, by decide +kernel⟩

/-- The hypotheses of SyncsAndFollowUps, noteGm_none, meet. -/
theorem test_meets_SyncsAndFollowUps_noteGm_none : ∃ (i : Nat) (g : Option (Nat × Int)) (s : State),
    (profileOf s i < 2 ∨ g = none) :=
  ⟨0, none, up, by decide +kernel⟩

/-- The hypotheses of OtherPtpReceptions, announceReceive, meet. -/
theorem test_meets_OtherPtpReceptions_announceReceive : ∃ (dt : Nat) (port : Fin 14) (h : PtpHdr) (d : Dataset) (i : Nat) (s : State),
    ptpAlive (elapse dt s) port = true ∧ instOf (elapse dt s) h = some i ∧ hearsMasters (elapse dt s) i port = true ∧ h.sender ≠ (elapse dt s).nv.factory.clockIdentity ∧ d.steps < 255 :=
  ⟨0, 13, hdr0, Dataset.unreceived, 0, ptpOn up, by decide +kernel⟩

/-- The hypotheses of OtherPtpReceptions, delayReqReceive, meet. -/
theorem test_meets_OtherPtpReceptions_delayReqReceive : ∃ (dt : Nat) (port : Fin 14) (h : PtpHdr) (i : Nat) (s : State),
    ptpAlive (elapse dt s) port = true ∧ instOf (elapse dt s) h = some i ∧ profileOf (elapse dt s) i = 0 ∧ (elapse dt s).portState port i = .master :=
  ⟨0, 13, hdr0, 0, portIn .master (ptpOn up), by decide +kernel⟩

/-- The hypotheses of OtherPtpReceptions, delayRespReceive, meet. -/
theorem test_meets_OtherPtpReceptions_delayRespReceive : ∃ (dt : Nat) (port : Fin 14) (h : PtpHdr) (receive : Rat) (toIdentity toPort : Nat) (t1 t2 t3 : Rat) (i : Nat) (s : State),
    ptpAlive (elapse dt s) port = true ∧ instOf (elapse dt s) h = some i ∧ profileOf (elapse dt s) i = 0 ∧ (elapse dt s).portState port i = .slave ∧ ((elapse dt s).inst i).delayReq = some ((port : Nat), h.seqId, t3) ∧ ((elapse dt s).inst i).t1t2 = some (t1, t2) ∧ toIdentity = (elapse dt s).nv.factory.clockIdentity ∧ toPort = port + 1 :=
  ⟨0, 13, hdr0, 0, up.nv.factory.clockIdentity, 14, 0, 0, 0, 0, { slaveUp 0 with pt := { (slaveUp 0).pt with inst := (slaveUp 0).pt.inst.map fun x => { x with t1t2 := some (0, 0), delayReq := some (13, 7, 0) } } }, by decide +kernel⟩

/-- The hypotheses of OtherPtpReceptions, pdelayReqReceive, meet. -/
theorem test_meets_OtherPtpReceptions_pdelayReqReceive : ∃ (dt : Nat) (port : Fin 14) (h : PtpHdr) (i : Nat) (s : State),
    ptpAlive (elapse dt s) port = true ∧ instOf (elapse dt s) h = some i ∧ profileOf (elapse dt s) i ≠ 0 ∧ (elapse dt s).portState port i ≠ .disabled :=
  ⟨0, 13, { hdr0 with gptp := true }, 0, slaveUp 2, by decide +kernel⟩

/-- The hypotheses of OtherPtpReceptions, pdelayRespReceive_first, meet. -/
theorem test_meets_OtherPtpReceptions_pdelayRespReceive_first : ∃ (dt : Nat) (port : Fin 14) (h : PtpHdr) (t2 t3 : Rat) (toIdentity toPort : Nat) (t1 : Rat) (i : Nat) (s : State),
    ptpAlive (elapse dt s) port = true ∧ instOf (elapse dt s) h = some i ∧ ((elapse dt s).port port).pdelay = some (i, h.seqId, t1) ∧ toIdentity = (elapse dt s).nv.factory.clockIdentity ∧ toPort = port + 1 ∧ nth ((elapse dt s).port port).pdelayPrev i none = none :=
  ⟨0, 13, { hdr0 with gptp := true }, 0, 0, up.nv.factory.clockIdentity, 14, 0, 0, { slaveUp 2 with pt := { (slaveUp 0).pt with port := (slaveUp 0).pt.port.map fun p => { p with pdelay := some (0, 7, 0), pdelayPrev := [] } } }, by decide +kernel⟩

/-- The hypotheses of OtherPtpReceptions, pdelayRespReceive_again, meet. -/
theorem test_meets_OtherPtpReceptions_pdelayRespReceive_again : ∃ (dt : Nat) (port : Fin 14) (h : PtpHdr) (t2 t3 : Rat) (toIdentity toPort : Nat) (t1 : Rat) (a b : Rat) (i : Nat) (s : State),
    ptpAlive (elapse dt s) port = true ∧ instOf (elapse dt s) h = some i ∧ ((elapse dt s).port port).pdelay = some (i, h.seqId, t1) ∧ toIdentity = (elapse dt s).nv.factory.clockIdentity ∧ toPort = port + 1 ∧ (nth ((elapse dt s).port port).pdelayPrev i none = some (a, b)) ∧ b ≠ copyOf (elapse dt s) port (i / 2) :=
  ⟨0, 13, { hdr0 with gptp := true }, 0, 0, up.nv.factory.clockIdentity, 14, 0, 0, 7, 0, { slaveUp 2 with pt := { (slaveUp 0).pt with port := (slaveUp 0).pt.port.map fun p => { p with pdelay := some (0, 7, 0), pdelayPrev := [some (0, 7)] } } }, by decide +kernel⟩

/-- The hypotheses of OtherPtpReceptions, transparentForward, meet. -/
theorem test_meets_OtherPtpReceptions_transparentForward : ∃ (dt : Nat) (port : Fin 14) (h : PtpHdr) (kind : PtpKind) (twoStep : Bool) (residence : Rat) (i : Nat) (s : State),
    portUp (elapse dt s) port = true ∧ (elapse dt s).isFenced (.port port) = false ∧ (elapse dt s).md.mode ≠ .safe ∧ (elapse dt s).md.mode ≠ .standby ∧ instOf (elapse dt s) h = some i ∧ (elapse dt s).portState port i = .transparent ∧ (profileOf (elapse dt s) i ≠ 1 ∨ (kind ≠ .pdelayReq ∧ kind ≠ .pdelayResp ∧ kind ≠ .pdelayRespFollowUp)) :=
  ⟨0, 13, hdr0, .sync, false, 1, 0, portIn .transparent (ptpOn up), by decide +kernel⟩

/-- The hypotheses of OtherPtpReceptions, sync_residence, meet. -/
theorem test_meets_OtherPtpReceptions_sync_residence : ∃ (i n : Nat) (h : PtpHdr) (residence : Rat) (s : State),
    (s.inst i).residences = [] ∧ i < s.pt.inst.length :=
  ⟨7, 13, hdr0, 5, up, by decide +kernel⟩

/-- The hypotheses of PtpTransmissions, announceTransmit, meet. -/
theorem test_meets_PtpTransmissions_announceTransmit : ∃ (dt : Nat) (port : Fin 14) (i : Fin 8) (d : Dataset) (s : State),
    instActive (elapse dt s) i = true ∧ ptpUp (elapse dt s) port = true ∧ (elapse dt s).portState port i = .master ∧ (elapse dt s).md.mode ≠ .standby ∧ advDataset (elapse dt s) i = some d ∧ originationStopped (elapse dt s) = false ∧ profileOf (elapse dt s) i ≠ 3 ∧ txDueNow (elapse dt s) port i 0 = true ∧ advDataset (takePriorities i (elapse dt s)) i = some d :=
  ⟨0, 13, 7, masterData, portIn .master (ptpOn up), by decide +kernel⟩

/-- The hypotheses of PtpTransmissions, announceTransmit_withheld, meet. -/
theorem test_meets_PtpTransmissions_announceTransmit_withheld : ∃ (dt : Nat) (port : Fin 14) (i : Fin 8) (d : Dataset) (s : State),
    instActive (elapse dt s) i = true ∧ ptpUp (elapse dt s) port = true ∧ (elapse dt s).portState port i = .master ∧ (elapse dt s).md.mode ≠ .standby ∧ advDataset (elapse dt s) i = some d ∧ originationStopped (elapse dt s) = true ∧ profileOf (elapse dt s) i ≠ 3 ∧ txDueNow (elapse dt s) port i 0 = true ∧ advDataset (takePriorities i (elapse dt s)) i = some d :=
  ⟨0, 13, 7, masterData, { portIn .master (ptpOn up) with ou := { up.ou with heartbeatClosed := true } }, by decide +kernel⟩

/-- The hypotheses of PtpTransmissions, syncTransmit, meet. -/
theorem test_meets_PtpTransmissions_syncTransmit : ∃ (dt : Nat) (port : Fin 14) (i : Fin 8) (d : Dataset) (s : State),
    instActive (elapse dt s) i = true ∧ ptpUp (elapse dt s) port = true ∧ (elapse dt s).portState port i = .master ∧ (elapse dt s).md.mode ≠ .standby ∧ advDataset (elapse dt s) i = some d ∧ originationStopped (elapse dt s) = false ∧ txDueNow (elapse dt s) port i 1 = true :=
  ⟨0, 13, 7, masterData, portIn .master (ptpOn up), by decide +kernel⟩

/-- The hypotheses of PtpTransmissions, syncTransmit_withheld, meet. -/
theorem test_meets_PtpTransmissions_syncTransmit_withheld : ∃ (dt : Nat) (port : Fin 14) (i : Fin 8) (d : Dataset) (s : State),
    instActive (elapse dt s) i = true ∧ ptpUp (elapse dt s) port = true ∧ (elapse dt s).portState port i = .master ∧ (elapse dt s).md.mode ≠ .standby ∧ advDataset (elapse dt s) i = some d ∧ originationStopped (elapse dt s) = true ∧ txDueNow (elapse dt s) port i 1 = true :=
  ⟨0, 13, 7, masterData, { portIn .master (ptpOn up) with ou := { up.ou with heartbeatClosed := true } }, by decide +kernel⟩

/-- The hypotheses of PtpTransmissions, followUpOf, meet. -/
theorem test_meets_PtpTransmissions_followUpOf : ∃ (i : Nat) (tx : Rat) (s : State),
    (profileOf s i ≠ 2 ∨ (s.inst i).parent = none) :=
  ⟨7, 5, up, by decide +kernel⟩

/-- The hypotheses of PtpTransmissions, followUpOf_relay, meet. -/
theorem test_meets_PtpTransmissions_followUpOf_relay : ∃ (i g : Nat) (tx o c a rx : Rat) (s : State),
    profileOf s i = 2 ∧ (s.inst i).parent ≠ none ∧ (s.inst i).relay = some (o, c) ∧ (s.inst i).t1t2 = some (a, rx) ∧ (s.domi i).gmInd = some g :=
  ⟨7, 4, 5, 0, 0, 0, 0, let z := slaveUp 2; { z with dom := z.dom.map fun d => { d with gmInd := some 4 }, pt := { z.pt with inst := z.pt.inst.map fun x => { x with parent := some (0, Dataset.unreceived), relay := some (0, 0), t1t2 := some (0, 0) } } }, by decide +kernel⟩

/-- The hypotheses of PtpTransmissions, txNext, meet. -/
theorem test_meets_PtpTransmissions_txNext : ∃ (n i j : Nat) (log : Int) (s : State),
    n < s.pt.port.length :=
  ⟨13, 7, 3, 0, up, by decide +kernel⟩

/-- The hypotheses of PtpTransmissions, delayReqTransmit, meet. -/
theorem test_meets_PtpTransmissions_delayReqTransmit : ∃ (dt : Nat) (port : Fin 14) (i : Fin 8) (s : State),
    instActive (elapse dt s) i = true ∧ profileOf (elapse dt s) i = 0 ∧ (elapse dt s).portState port i = .slave ∧ ptpAlive (elapse dt s) port = true ∧ txDueNow (elapse dt s) port i 2 = true :=
  ⟨0, 13, 7, slaveUp 0, by decide +kernel⟩

/-- The hypotheses of PtpTransmissions, pdelayReqTransmit, meet. -/
theorem test_meets_PtpTransmissions_pdelayReqTransmit : ∃ (dt : Nat) (port : Fin 14) (i : Fin 8) (s : State),
    instActive (elapse dt s) i = true ∧ profileOf (elapse dt s) i ≠ 0 ∧ (elapse dt s).portState port i ≠ .disabled ∧ ptpAlive (elapse dt s) port = true ∧ ((elapse dt s).cfg.port port).pdelayMode = 0 ∧ txDueNow (elapse dt s) port i 3 = true :=
  ⟨0, 13, 7, slaveUp 2, by decide +kernel⟩

/-- The hypotheses of PortsAndSwitch, linkChange_up, meet. -/
theorem test_meets_PortsAndSwitch_linkChange_up : ∃ (dt : Nat) (port : Fin 14) (partnerMaster : Bool) (s : State),
    ((elapse dt s).cfg.port port).enable = 1 ∧ (((elapse dt s).cfg.port port).phyRole == 1) = !partnerMaster ∧ portsBooted (elapse dt s) = true ∧ ((elapse dt s).port port).asleep = false ∧ ((elapse dt s).port port).link = false :=
  ⟨0, 13, false, { up with cfg := { up.cfg with pt := up.cfg.pt.map fun p => { p with enable := 1, phyRole := 1 } } }, by decide +kernel⟩

/-- The hypotheses of PortsAndSwitch, linkChange_down, meet. -/
theorem test_meets_PortsAndSwitch_linkChange_down : ∃ (dt : Nat) (port : Fin 14) (partnerMaster : Bool) (s : State),
    ((elapse dt s).port port).link = true :=
  ⟨0, 13, false, ptpOn up, by decide +kernel⟩

/-- The hypotheses of PortsAndSwitch, roleWrite, meet. -/
theorem test_meets_PortsAndSwitch_roleWrite : ∃ (dt : Nat) (r : Requester) (port : Fin 14) (i : Fin 8) (v : Nat) (s : State),
    Heard r (writeFrame r (addrWord 0x21 port (8 + i)) .u8 v) (elapse dt s) ∧ (elapse dt s).md.mode ≠ .safe ∧ (elapse dt s).md.bootRom = false ∧ (elapse dt s).isFenced (.port port) = false ∧ v ≤ 4 ∧ roleListed (profileOf (elapse dt s) i) v = true ∧ (v = 3 → profileOf (elapse dt s) i ≠ 3) :=
  ⟨0, can0, 13, 7, 2, up, by decide +kernel⟩

/-- The hypotheses of PortsAndSwitch, phyCopyRealign_agree, meet. -/
theorem test_meets_PortsAndSwitch_phyCopyRealign_agree : ∃ (dt : Nat) (port : Fin 14) (s : State),
    (elapse dt s).clk.running = true ∧ ((elapse dt s).port port).asleep = false :=
  ⟨0, 13, up, by decide +kernel⟩

/-- The hypotheses of PortsAndSwitch, phyCopyRealign_mismatch, meet. -/
theorem test_meets_PortsAndSwitch_phyCopyRealign_mismatch : ∃ (dt : Nat) (port : Fin 14) (mismatch : BitVec 4) (s : State),
    (elapse dt s).clk.running = true ∧ ((elapse dt s).port port).asleep = false ∧ mismatch ≠ 0#4 :=
  ⟨0, 13, 5#4, up, by decide +kernel⟩

/-- The hypotheses of PortsAndSwitch, realignCopies, meet. -/
theorem test_meets_PortsAndSwitch_realignCopies : ∃ (n k : Nat) (mismatch : BitVec 4) (s : State),
    k < 4 ∧ n < s.pt.port.length :=
  ⟨13, 3, 5#4, up, by decide +kernel⟩

/-- The hypotheses of PortsAndSwitch, layer2Forwarding_learned, meet. -/
theorem test_meets_PortsAndSwitch_layer2Forwarding_learned : ∃ (dt : Nat) (port : Fin 14) (dst src etherType : Nat) (payload : List Byte) (a m : Nat) (s : State),
    portUp (elapse dt s) port = true ∧ (elapse dt s).md.mode ≠ .standby ∧ etherType ≠ 0x88F7 ∧ (elapse dt s).pt.learned.find? (fun p => p.1 == dst) = some (a, m) :=
  ⟨0, 13, 5, 6, 0x0800, [], 5, 2, { ptpOn up with pt := { (ptpOn up).pt with learned := [(5, 2)] } }, by decide +kernel⟩

/-- The hypotheses of PortsAndSwitch, layer2Forwarding_flooded, meet. -/
theorem test_meets_PortsAndSwitch_layer2Forwarding_flooded : ∃ (dt : Nat) (port : Fin 14) (dst src etherType : Nat) (payload : List Byte) (s : State),
    portUp (elapse dt s) port = true ∧ (elapse dt s).md.mode ≠ .standby ∧ etherType ≠ 0x88F7 ∧ (elapse dt s).pt.learned.find? (fun p => p.1 == dst) = none :=
  ⟨0, 13, 5, 6, 0x0800, [], ptpOn up, by decide +kernel⟩

/-- The hypotheses of PortsAndSwitch, layer2Forwarding_discarded, meet. -/
theorem test_meets_PortsAndSwitch_layer2Forwarding_discarded : ∃ (dt : Nat) (port : Fin 14) (dst src etherType : Nat) (payload : List Byte) (s : State),
    portUp (elapse dt s) port = true ∧ (elapse dt s).md.mode ≠ .standby ∧ etherType = 0x88F7 ∧ (elapse dt s).isFenced (.port port) = true ∨ (ptpAlive (elapse dt s) port = true ∧ ptpForeign (elapse dt s) payload = true) :=
  ⟨0, 13, 5, 6, 0x88F7, [], ptpOn up, by decide +kernel⟩

/-- The hypotheses of PortsAndSwitch, layer2Forwarding_ptp, meet. -/
theorem test_meets_PortsAndSwitch_layer2Forwarding_ptp : ∃ (dt : Nat) (port : Fin 14) (dst src etherType : Nat) (payload : List Byte) (s : State),
    etherType = 0x88F7 ∧ (elapse dt s).isFenced (.port port) = false ∧ (ptpAlive (elapse dt s) port = false ∨ ptpForeign (elapse dt s) payload = false) :=
  ⟨0, 13, 5, 6, 0x88F7, [], up, by decide +kernel⟩

/-- The hypotheses of CapturedEdges, tsiEdge_first, meet. -/
theorem test_meets_CapturedEdges_tsiEdge_first : ∃ (dt : Nat) (n : Fin 64) (falling : Bool) (frac : Rat) (short : Bool) (s : State),
    tdcRuns (elapse dt s) n = true ∧ bit8 ((elapse dt s).cfg.tsi n).edges (b2n falling) = true ∧ ((elapse dt s).tsi n).lastEdge = none ∧ short = false :=
  ⟨0, 63, true, 0, false, tsiUp, by decide +kernel⟩

/-- The hypotheses of CapturedEdges, tsiEdge_apart, meet. -/
theorem test_meets_CapturedEdges_tsiEdge_apart : ∃ (dt : Nat) (n : Fin 64) (falling : Bool) (frac : Rat) (short : Bool) (l : Rat) (s : State),
    tdcRuns (elapse dt s) n = true ∧ bit8 ((elapse dt s).cfg.tsi n).edges (b2n falling) = true ∧ ((elapse dt s).tsi n).lastEdge = some l ∧ short = false ∧ ¬ ((elapse dt s).clk.count : Rat) + frac < l + 2 :=
  ⟨0, 63, true, 0, false, 0, tsiUp.setTsi 63 fun x => { x with lastEdge := some 0 }, by decide +kernel⟩

/-- The hypotheses of CapturedEdges, tsiEdge_close, meet. -/
theorem test_meets_CapturedEdges_tsiEdge_close : ∃ (dt : Nat) (n : Fin 64) (falling : Bool) (frac : Rat) (short : Bool) (l : Rat) (s : State),
    tdcRuns (elapse dt s) n = true ∧ bit8 ((elapse dt s).cfg.tsi n).edges (b2n falling) = true ∧ ((elapse dt s).tsi n).lastEdge = some l ∧ ((elapse dt s).clk.count : Rat) + frac < l + 2 :=
  ⟨0, 63, true, 0, false, 5000000000, tsiUp.setTsi 63 fun x => { x with lastEdge := some 5000000000 }, by decide +kernel⟩

/-- The hypotheses of CapturedEdges, tsiEdge_short, meet. -/
theorem test_meets_CapturedEdges_tsiEdge_short : ∃ (dt : Nat) (n : Fin 64) (falling : Bool) (frac : Rat) (short : Bool) (s : State),
    tdcRuns (elapse dt s) n = true ∧ bit8 ((elapse dt s).cfg.tsi n).edges (b2n falling) = true ∧ short = true :=
  ⟨0, 63, true, 0, true, tsiUp, by decide +kernel⟩

/-- The hypotheses of CapturedEdges, captureFilters_notToRing, meet. -/
theorem test_meets_CapturedEdges_captureFilters_notToRing : ∃ (n : Nat) (falling : Bool) (t : Rat) (s : State),
    (s.cfg.tsi n).toRing ≠ 1 :=
  ⟨63, true, 0, { up with cfg := { up.cfg with ts := up.cfg.ts.map fun c => { c with toRing := 0 } } }, by decide +kernel⟩

/-- The hypotheses of CapturedEdges, captureFilters_outside, meet. -/
theorem test_meets_CapturedEdges_captureFilters_outside : ∃ (n : Nat) (falling : Bool) (t : Rat) (s : State),
    (s.cfg.tsi n).toRing = 1 ∧ (s.cfg.tsi n).gating = 1 ∧ (s.window n).covers t.floor = false :=
  ⟨63, true, 0, { up with cfg := { up.cfg with ts := up.cfg.ts.map fun c => { c with gating := 1 } } }, by decide +kernel⟩

/-- The hypotheses of CapturedEdges, captureFilters_kept, meet. -/
theorem test_meets_CapturedEdges_captureFilters_kept : ∃ (n : Nat) (falling : Bool) (t : Rat) (s : State),
    (s.cfg.tsi n).toRing = 1 ∧ ¬ ((s.cfg.tsi n).gating = 1 ∧ (s.window n).covers t.floor = false) ∧ (s.tsi n).dec = 0 :=
  ⟨63, true, 0, up, by decide +kernel⟩

/-- The hypotheses of CapturedEdges, captureFilters_left, meet. -/
theorem test_meets_CapturedEdges_captureFilters_left : ∃ (n : Nat) (falling : Bool) (t : Rat) (s : State),
    (s.cfg.tsi n).toRing = 1 ∧ ¬ ((s.cfg.tsi n).gating = 1 ∧ (s.window n).covers t.floor = false) ∧ (s.tsi n).dec ≠ 0 :=
  ⟨63, true, 0, up.setTsi 63 fun x => { x with dec := 3 }, by decide +kernel⟩

/-- The hypotheses of CapturedEdges, recordStamp_noStream, meet. -/
theorem test_meets_CapturedEdges_recordStamp_noStream : ∃ (n : Nat) (falling : Bool) (t : Rat) (s : State),
    s.ts.stream = none :=
  ⟨63, true, 0, up, by decide +kernel⟩

/-- The hypotheses of CapturedEdges, recordStamp_room, meet. -/
theorem test_meets_CapturedEdges_recordStamp_room : ∃ (n : Nat) (falling : Bool) (t : Rat) (s : State),
    s.ts.stream.isNone = false ∧ (s.tsi n).fifo.length < 16 :=
  ⟨63, true, 0, streaming, by decide +kernel⟩

/-- The hypotheses of CapturedEdges, recordStamp_full, meet. -/
theorem test_meets_CapturedEdges_recordStamp_full : ∃ (n : Nat) (falling : Bool) (t : Rat) (s : State),
    s.ts.stream.isNone = false ∧ 16 ≤ (s.tsi n).fifo.length :=
  ⟨63, true, 0, streaming.setTsi 63 fun x => { x with fifo := List.replicate 16 ⟨0, 0#96⟩ }, by decide +kernel⟩

/-- The hypotheses of CapturedEdges, tdcCalibration_ok, meet. -/
theorem test_meets_CapturedEdges_tdcCalibration_ok : ∃ (dt : Nat) (n : Fin 64) (syndrome : BitVec 32) (s : State),
    calibrates (elapse dt s) n = true :=
  ⟨0, 63, 0, tsiUp, by decide +kernel⟩

/-- The hypotheses of CapturedEdges, tdcCalibration_bad, meet. -/
theorem test_meets_CapturedEdges_tdcCalibration_bad : ∃ (dt : Nat) (n : Fin 64) (syndrome : BitVec 32) (s : State),
    calibrates (elapse dt s) n = true :=
  ⟨0, 63, 1, tsiUp, by decide +kernel⟩

/-- The hypotheses of CapturedEdges, tsiEnable_0, meet. -/
theorem test_meets_CapturedEdges_tsiEnable_0 : ∃ (dt : Nat) (r : Requester) (n : Fin 64) (s : State),
    Heard r (writeFrame r (addrWord 48 (n) 0) .u8 0) (elapse dt s) ∧ (elapse dt s).md.mode ≠ .safe ∧ (elapse dt s).md.bootRom = false ∧ (elapse dt s).isFenced (.tsi n) = false :=
  ⟨0, can0, 63, tsiUp, by decide +kernel⟩

/-- The hypotheses of CapturedEdges, tsiEnable_1, meet. -/
theorem test_meets_CapturedEdges_tsiEnable_1 : ∃ (dt : Nat) (r : Requester) (n : Fin 64) (s : State),
    Heard r (writeFrame r (addrWord 48 (n) 0) .u8 1) (elapse dt s) ∧ (elapse dt s).md.mode ≠ .safe ∧ (elapse dt s).md.bootRom = false ∧ (elapse dt s).isFenced (.tsi n) = false :=
  ⟨0, can0, 63, tsiUp, by decide +kernel⟩

/-- The hypotheses of CaptureRing, ringSlot, meet. -/
theorem test_meets_CaptureRing_ringSlot : ∃ (dt : Nat) (n : Nat) (rest : List Nat) (x : FifoRec) (more : List FifoRec) (s : State),
    (elapse dt s).clk.running = true ∧ (elapse dt s).ts.stream.isNone = false ∧ (elapse dt s).ts.ring.length + 64 < 16384 ∧ (if (elapse dt s).ts.round.isEmpty then newRound (elapse dt s).ts else (elapse dt s).ts.round) = n :: rest ∧ ((elapse dt s).ts.input n).fifo = x :: more :=
  ⟨0, 63, [], ⟨5000000000, 5#96⟩, [], waitingRecord, by decide +kernel⟩

/-- The hypotheses of CaptureRing, ringSlot_none, meet. -/
theorem test_meets_CaptureRing_ringSlot_none : ∃ (dt : Nat) (s : State),
    (elapse dt s).clk.running = true ∧ (elapse dt s).ts.stream = none ∨ 16384 ≤ (elapse dt s).ts.ring.length + 64 :=
  ⟨0, up, by decide +kernel⟩

/-- The hypotheses of CaptureRing, staleRecord_none, meet. -/
theorem test_meets_CaptureRing_staleRecord_none : ∃ (dt : Nat) (n : Fin 64) (s : State),
    (((elapse dt s).tsi n).fifo.filter fun r => decide (r.stamp + 1000000000 ≤ ((elapse dt s).clk.count : Rat))) = [] :=
  ⟨0, 63, streaming, by decide +kernel⟩

/-- The hypotheses of CaptureRing, staleRecord_old, meet. -/
theorem test_meets_CaptureRing_staleRecord_old : ∃ (dt : Nat) (n : Fin 64) (s : State),
    (((elapse dt s).tsi n).fifo.filter fun r => decide (r.stamp + 1000000000 ≤ ((elapse dt s).clk.count : Rat))).isEmpty = false :=
  ⟨0, 63, streaming.setTsi 63 fun x => { x with fifo := [⟨0, 5#96⟩] }, by decide +kernel⟩

/-- The hypotheses of CaptureRing, anchorPeriodic, meet. -/
theorem test_meets_CaptureRing_anchorPeriodic : ∃ (dt : Nat) (tb : Fin 4) (s : State),
    nth (elapse dt s).ts.tbSec tb 0 ≠ ((elapse dt s).tbs tb).now.floor / 1000000000 ∧ (elapse dt s).ts.stream.isNone = false :=
  ⟨0, 3, { streaming with tb := up.tb.map fun t => { t with now := 5000000000 } }, by decide +kernel⟩

/-- The hypotheses of CaptureRing, ringFlush, meet. -/
theorem test_meets_CaptureRing_ringFlush : ∃ (dt : Nat) (r : Requester) (arg : Nat) (s : State),
    Heard r (commandFrame r (addrWord 0x30 200 6) .u8 arg) (elapse dt s) ∧ (elapse dt s).md.mode ≠ .safe ∧ (elapse dt s).md.bootRom = false ∧ arg < 256 ∧ (elapse dt s).ts.stream.isNone = false :=
  ⟨0, can0, 1, streaming, by decide +kernel⟩

/-- The hypotheses of CaptureRing, streamPacket, meet. -/
theorem test_meets_CaptureRing_streamPacket : ∃ (dt : Nat) (x : Stream) (s : State),
    (elapse dt s).ts.stream = some x ∧ packetDue (elapse dt s).clk.count (elapse dt s).ts.ring = true ∧ ((elapse dt s).port x.iface).link = true :=
  ⟨0, Stream.reset, streaming, by decide +kernel⟩

/-- The hypotheses of CaptureRing, streamPacket_none, meet. -/
theorem test_meets_CaptureRing_streamPacket_none : ∃ (dt : Nat) (s : State),
    (elapse dt s).ts.stream = none ∨ packetDue (elapse dt s).clk.count (elapse dt s).ts.ring = false :=
  ⟨0, up, by decide +kernel⟩

/-- The hypotheses of IntervalChannels, tcRun_1, meet. -/
theorem test_meets_IntervalChannels_tcRun_1 : ∃ (dt : Nat) (r : Requester) (k : Fin 16) (s : State),
    Heard r (writeFrame r (addrWord 49 (k) 0) .u8 1) (elapse dt s) ∧ (elapse dt s).md.mode ≠ .safe ∧ (elapse dt s).md.bootRom = false ∧ (elapse dt s).isFenced (.tc k) = false ∧ k.val < (elapse dt s).cfg.tc.length ∧ (∀ n ∈ tcInputs ((elapse dt s).cfg.tcs k), ((elapse dt s).cfg.tsi n).enable = 1 ∧ (elapse dt s).isFenced (.tsi n) = false) :=
  ⟨0, can0, 15, gateOpen 0 0, by decide +kernel⟩

/-- The hypotheses of IntervalChannels, tcRun_2, meet. -/
theorem test_meets_IntervalChannels_tcRun_2 : ∃ (dt : Nat) (r : Requester) (k : Fin 16) (s : State),
    Heard r (writeFrame r (addrWord 49 (k) 0) .u8 2) (elapse dt s) ∧ (elapse dt s).md.mode ≠ .safe ∧ (elapse dt s).md.bootRom = false ∧ (elapse dt s).isFenced (.tc k) = false ∧ k.val < (elapse dt s).cfg.tc.length ∧ (∀ n ∈ tcInputs ((elapse dt s).cfg.tcs k), ((elapse dt s).cfg.tsi n).enable = 1 ∧ (elapse dt s).isFenced (.tsi n) = false) :=
  ⟨0, can0, 15, gateOpen 0 0, by decide +kernel⟩

/-- The hypotheses of IntervalChannels, tcRun_0, meet. -/
theorem test_meets_IntervalChannels_tcRun_0 : ∃ (dt : Nat) (r : Requester) (k : Fin 16) (s : State),
    Heard r (writeFrame r (addrWord 49 (k) 0) .u8 0) (elapse dt s) ∧ (elapse dt s).md.mode ≠ .safe ∧ (elapse dt s).md.bootRom = false ∧ (elapse dt s).isFenced (.tc k) = false :=
  ⟨0, can0, 15, gateOpen 0 1, by decide +kernel⟩

/-- The hypotheses of IntervalChannels, writeRun, meet. -/
theorem test_meets_IntervalChannels_writeRun : ∃ (k v : Nat) (s : State),
    v ≠ 0 :=
  ⟨15, 1, up, by decide +kernel⟩

/-- The hypotheses of IntervalChannels, gateEnd_single, meet. -/
theorem test_meets_IntervalChannels_gateEnd_single : ∃ (dt : Nat) (k : Fin 16) (g : Rat) (s : State),
    ((elapse dt s).tcs k).gate = some g ∧ g + ((((elapse dt s).cfg.tcs k).gate * 1000000 : Nat) : Rat) ≤ ((elapse dt s).clk.count : Rat) ∧ ((elapse dt s).cfg.tcs k).run = 2 :=
  ⟨0, 15, 4000000000, gateOpen 0 2, by decide +kernel⟩

/-- The hypotheses of IntervalChannels, gateEnd_continuous, meet. -/
theorem test_meets_IntervalChannels_gateEnd_continuous : ∃ (dt : Nat) (k : Fin 16) (g : Rat) (s : State),
    ((elapse dt s).tcs k).gate = some g ∧ g + ((((elapse dt s).cfg.tcs k).gate * 1000000 : Nat) : Rat) ≤ ((elapse dt s).clk.count : Rat) ∧ ((elapse dt s).cfg.tcs k).run ≠ 2 :=
  ⟨0, 15, 4000000000, gateOpen 1 1, by decide +kernel⟩

/-- The hypotheses of IntervalChannels, gateEnd_early, meet. -/
theorem test_meets_IntervalChannels_gateEnd_early : ∃ (dt : Nat) (k : Fin 16) (g : Rat) (s : State),
    ((elapse dt s).tcs k).gate = some g ∧ ((elapse dt s).clk.count : Rat) < g + ((((elapse dt s).cfg.tcs k).gate * 1000000 : Nat) : Rat) :=
  ⟨0, 15, 4900000000, { gateOpen 0 1 with tc := up.tc.map fun x => { x with gate := some 4900000000 } }, by decide +kernel⟩

/-- The hypotheses of IntervalChannels, tcEdgeEvaluation, meet. -/
theorem test_meets_IntervalChannels_tcEdgeEvaluation : ∃ (dt : Nat) (k : Fin 16) (a : Rat × Bool) (rest : List (Rat × Bool)) (s : State),
    ((elapse dt s).tcs k).waiting = a :: rest ∧ ((elapse dt s).cfg.tcs k).mode = 0 ∧ a.1 + 200 ≤ ((elapse dt s).clk.count : Rat) :=
  ⟨0, 15, (4999999000, true), [], edgeWaits, by decide +kernel⟩

/-- The hypotheses of IntervalChannels, takeEdge_start_pairs, meet. -/
theorem test_meets_IntervalChannels_takeEdge_start_pairs : ∃ (t w : Rat) (x : Tc) (b : Rat),
    x.stop = some b ∧ ¬ b + w < t :=
  ⟨100, 2, { Tc.reset with stop := some 99 }, 99, by decide +kernel⟩

/-- The hypotheses of IntervalChannels, takeEdge_start_unpaired, meet. -/
theorem test_meets_IntervalChannels_takeEdge_start_unpaired : ∃ (t w : Rat) (x : Tc) (a : Rat),
    x.stop = none ∧ x.start = some a :=
  ⟨100, 2, { Tc.reset with start := some 99 }, 99, by decide +kernel⟩

/-- The hypotheses of IntervalChannels, takeEdge_start_opens, meet. -/
theorem test_meets_IntervalChannels_takeEdge_start_opens : ∃ (t w : Rat) (x : Tc),
    x.stop = none ∧ x.start = none :=
  ⟨100, 2, Tc.reset, by decide +kernel⟩

/-- The hypotheses of IntervalChannels, takeEdge_stop_pairs, meet. -/
theorem test_meets_IntervalChannels_takeEdge_stop_pairs : ∃ (t w : Rat) (x : Tc) (a : Rat),
    x.stop = none ∧ x.start = some a :=
  ⟨100, 2, { Tc.reset with start := some 99 }, 99, by decide +kernel⟩

/-- The hypotheses of IntervalChannels, takeEdge_stop_early, meet. -/
theorem test_meets_IntervalChannels_takeEdge_stop_early : ∃ (t w : Rat) (x : Tc) (b : Rat),
    x.stop = some b ∧ ¬ b + w < t ∧ x.start = none :=
  ⟨100, 2, { Tc.reset with stop := some 99 }, 99, by decide +kernel⟩

/-- The hypotheses of IntervalChannels, takeEdge_stop_held, meet. -/
theorem test_meets_IntervalChannels_takeEdge_stop_held : ∃ (t w : Rat) (x : Tc),
    x.stop = none ∧ x.start = none :=
  ⟨100, 2, Tc.reset, by decide +kernel⟩

/-- The hypotheses of IntervalChannels, heldStopExpiry, meet. -/
theorem test_meets_IntervalChannels_heldStopExpiry : ∃ (dt : Nat) (k : Fin 16) (b : Rat) (s : State),
    ((elapse dt s).tcs k).stop = some b ∧ b + coincidenceNs ((elapse dt s).cfg.tcs k) ≤ ((elapse dt s).clk.count : Rat) ∧ (((elapse dt s).tcs k).waiting.any fun a => a.2 && decide (a.1 ≤ b + coincidenceNs ((elapse dt s).cfg.tcs k))) = false :=
  ⟨0, 15, 4000000000, { gateOpen 0 1 with tc := up.tc.map fun x => { x with stop := some 4000000000 } }, by decide +kernel⟩

/-- The hypotheses of AxisCounting, axisCountEdge_illegal, meet. -/
theorem test_meets_AxisCounting_axisCountEdge_illegal : ∃ (dt : Nat) (k : Fin 4) (aChanged bChanged a b : Bool) (s : State),
    trackerRuns (elapse dt s) (k + 4) = true ∧ (aChanged && bChanged) = true ∧ (((elapse dt s).axis (k + 4)).state = .tracking ∨ ((elapse dt s).axis (k + 4)).state = .stalled) :=
  ⟨0, 3, true, true, true, false, axes 1 .tracking, by decide +kernel⟩

/-- The hypotheses of AxisCounting, axisCountEdge_illegal_unhomed, meet. -/
theorem test_meets_AxisCounting_axisCountEdge_illegal_unhomed : ∃ (dt : Nat) (k : Fin 4) (aChanged bChanged a b : Bool) (s : State),
    trackerRuns (elapse dt s) (k + 4) = true ∧ (aChanged && bChanged) = true ∧ ((elapse dt s).axis (k + 4)).state = .unhomed :=
  ⟨0, 3, true, true, true, false, axes 1 .unhomed, by decide +kernel⟩

/-- The hypotheses of AxisCounting, axisCountEdge_stalled, meet. -/
theorem test_meets_AxisCounting_axisCountEdge_stalled : ∃ (dt : Nat) (k : Fin 4) (aChanged bChanged a b : Bool) (forward : Bool) (s : State),
    trackerRuns (elapse dt s) (k + 4) = true ∧ (aChanged && bChanged) = false ∧ countOf ((elapse dt s).cfg.axi k) aChanged bChanged a b = some forward ∧ ((elapse dt s).axis (k + 4)).state = .stalled :=
  ⟨0, 3, true, false, true, false, true, axes 1 .stalled, by decide +kernel⟩

/-- The hypotheses of AxisCounting, axisCountEdge_moving, meet. -/
theorem test_meets_AxisCounting_axisCountEdge_moving : ∃ (dt : Nat) (k : Fin 4) (aChanged bChanged a b : Bool) (forward : Bool) (s : State),
    trackerRuns (elapse dt s) (k + 4) = true ∧ (aChanged && bChanged) = false ∧ countOf ((elapse dt s).cfg.axi k) aChanged bChanged a b = some forward ∧ ((elapse dt s).axis (k + 4)).state ≠ .stalled :=
  ⟨0, 3, true, false, true, false, true, axes 1 .tracking, by decide +kernel⟩

/-- The hypotheses of AxisCounting, axisCountEdge_uncounted, meet. -/
theorem test_meets_AxisCounting_axisCountEdge_uncounted : ∃ (dt : Nat) (k : Fin 4) (aChanged bChanged a b : Bool) (s : State),
    trackerRuns (elapse dt s) (k + 4) = true ∧ (aChanged && bChanged) = false ∧ countOf ((elapse dt s).cfg.axi k) aChanged bChanged a b = none :=
  ⟨0, 3, false, false, true, false, axes 1 .tracking, by decide +kernel⟩

/-- The hypotheses of AxisCounting, countOf_everyEdge, meet. -/
theorem test_meets_AxisCounting_countOf_everyEdge : ∃ (c : CfgAx) (a b : Bool),
    c.kind = 1 ∧ c.countMode = 0 ∧ c.invert = 0 :=
  ⟨{ CfgAx.reset with kind := 1 }, true, false, by decide +kernel⟩

/-- The hypotheses of AxisCounting, countOf_rising, meet. -/
theorem test_meets_AxisCounting_countOf_rising : ∃ (c : CfgAx) (a b : Bool),
    (c.kind = 1 ∧ c.countMode = 1) ∨ (c.kind = 2 ∧ c.travelMode = 2) ∧ c.invert = 0 :=
  ⟨{ CfgAx.reset with kind := 1, countMode := 1 }, true, false, by decide +kernel⟩

/-- The hypotheses of AxisCounting, takeCount_reversal, meet. -/
theorem test_meets_AxisCounting_takeCount_reversal : ∃ (c : CfgAx) (now : Nat) (forward : Bool) (est : Rat) (x : Axis),
    0 < x.edges ∧ x.backward = forward :=
  ⟨CfgAx.reset, 9, true, 0, { Axis.reset with edges := 1, backward := true }, by decide +kernel⟩

/-- The hypotheses of AxisCounting, takeCount_steady, meet. -/
theorem test_meets_AxisCounting_takeCount_steady : ∃ (c : CfgAx) (now : Nat) (forward : Bool) (est : Rat) (x : Axis),
    x.backward = !forward :=
  ⟨CfgAx.reset, 9, true, 0, Axis.reset, by decide +kernel⟩

/-- The hypotheses of AxisCounting, indexEdge_homes, meet. -/
theorem test_meets_AxisCounting_indexEdge_homes : ∃ (dt : Nat) (k : Fin 4) (s : State),
    trackerRuns (elapse dt s) (k + 4) = true ∧ ((elapse dt s).cfg.axi k).kind = 1 ∧ ((elapse dt s).axis (k + 4)).state = .unhomed :=
  ⟨0, 3, axes 1 .unhomed, by decide +kernel⟩

/-- The hypotheses of AxisCounting, indexEdge_rehomes, meet. -/
theorem test_meets_AxisCounting_indexEdge_rehomes : ∃ (dt : Nat) (k : Fin 4) (s : State),
    trackerRuns (elapse dt s) (k + 4) = true ∧ ((elapse dt s).cfg.axi k).kind = 1 ∧ ((elapse dt s).axis (k + 4)).state = .fault :=
  ⟨0, 3, axes 1 .fault, by decide +kernel⟩

/-- The hypotheses of AxisCounting, indexEdge_exact, meet. -/
theorem test_meets_AxisCounting_indexEdge_exact : ∃ (dt : Nat) (k : Fin 4) (n : Int) (s : State),
    trackerRuns (elapse dt s) (k + 4) = true ∧ ((elapse dt s).cfg.axi k).kind = 1 ∧ (((elapse dt s).axis (k + 4)).state = .tracking ∨ ((elapse dt s).axis (k + 4)).state = .stalled) ∧ ((elapse dt s).axis (k + 4)).sinceIndex = some n ∧ indexMismatch ((elapse dt s).cfg.axi k) n = 0 :=
  ⟨0, 3, 4096, { axes 1 .tracking with ax := (axes 1 .tracking).ax.map fun x => { x with sinceIndex := some 4096 } }, by decide +kernel⟩

/-- The hypotheses of AxisCounting, indexEdge_corrects, meet. -/
theorem test_meets_AxisCounting_indexEdge_corrects : ∃ (dt : Nat) (k : Fin 4) (n : Int) (s : State),
    trackerRuns (elapse dt s) (k + 4) = true ∧ ((elapse dt s).cfg.axi k).kind = 1 ∧ (((elapse dt s).axis (k + 4)).state = .tracking ∨ ((elapse dt s).axis (k + 4)).state = .stalled) ∧ ((elapse dt s).axis (k + 4)).sinceIndex = some n ∧ indexMismatch ((elapse dt s).cfg.axi k) n ≠ 0 ∧ indexMismatch ((elapse dt s).cfg.axi k) n ≤ ((elapse dt s).cfg.axi k).indexTol :=
  ⟨0, 3, 4095, { axes 1 .tracking with ax := (axes 1 .tracking).ax.map fun x => { x with sinceIndex := some 4095 } }, by decide +kernel⟩

/-- The hypotheses of AxisCounting, indexEdge_faults, meet. -/
theorem test_meets_AxisCounting_indexEdge_faults : ∃ (dt : Nat) (k : Fin 4) (n : Int) (s : State),
    trackerRuns (elapse dt s) (k + 4) = true ∧ ((elapse dt s).cfg.axi k).kind = 1 ∧ (((elapse dt s).axis (k + 4)).state = .tracking ∨ ((elapse dt s).axis (k + 4)).state = .stalled) ∧ ((elapse dt s).axis (k + 4)).sinceIndex = some n ∧ ((elapse dt s).cfg.axi k).indexTol < indexMismatch ((elapse dt s).cfg.axi k) n :=
  ⟨0, 3, 4093, { axes 1 .tracking with ax := (axes 1 .tracking).ax.map fun x => { x with sinceIndex := some 4093 } }, by decide +kernel⟩

/-- The hypotheses of AxisCounting, axisStall, meet. -/
theorem test_meets_AxisCounting_axisStall : ∃ (dt : Nat) (k : Fin 4) (s : State),
    trackerRuns (elapse dt s) (k + 4) = true ∧ stallDue (elapse dt s) (k + 4) = true :=
  ⟨0, 3, { axes 1 .tracking with ax := (axes 1 .tracking).ax.map fun x => { x with v := 1000000000 } }, by decide +kernel⟩

/-- The hypotheses of AxisCounting, setAxisState, meet. -/
theorem test_meets_AxisCounting_setAxisState : ∃ (a : Nat) (st : AxisState) (s : State),
    (nth s.ax a Axis.reset).state ≠ st ∧ axisSuspends st = false ∧ axisSuspends (nth s.ax a Axis.reset).state = false :=
  ⟨7, .tracking, axes 1 .stalled, by decide +kernel⟩

/-- The hypotheses of AxisSettings, axisKindWrite, meet. -/
theorem test_meets_AxisSettings_axisKindWrite : ∃ (dt : Nat) (r : Requester) (k : Fin 4) (v : Nat) (s : State),
    Heard r (writeFrame r (addrWord 0x40 (20 + k) 0) .u8 v) (elapse dt s) ∧ (elapse dt s).md.mode ≠ .safe ∧ (elapse dt s).md.bootRom = false ∧ (elapse dt s).isFenced (.axis (k + 4)) = false ∧ v ≤ 2 ∧ (v = 0 → axisBusy (elapse dt s) (k + 4) = false) :=
  ⟨0, can0, 3, 2, axes 0 .off, by decide +kernel⟩

/-- The hypotheses of AxisSettings, writeKind_angle, meet. -/
theorem test_meets_AxisSettings_writeKind_angle : ∃ (k : Nat) (s : State),
    (s.axis (k + 4)).state = .off :=
  ⟨3, axes 0 .off, by decide +kernel⟩

/-- The hypotheses of AxisSettings, writeKind_travel, meet. -/
theorem test_meets_AxisSettings_writeKind_travel : ∃ (k : Nat) (s : State),
    (s.axis (k + 4)).state = .off :=
  ⟨3, axes 0 .off, by decide +kernel⟩

/-- The hypotheses of AxisSettings, writeKind_off, meet. -/
theorem test_meets_AxisSettings_writeKind_off : ∃ (k : Nat) (s : State),
    (s.axis (k + 4)).state ≠ .fenced :=
  ⟨3, axes 1 .tracking, by decide +kernel⟩

/-- The hypotheses of AxisSettings, writeKind_other, meet. -/
theorem test_meets_AxisSettings_writeKind_other : ∃ (k v : Nat) (s : State),
    (s.axis (k + 4)).state ≠ .fenced ∧ (s.axis (k + 4)).state ≠ .off ∧ v ≠ 0 :=
  ⟨3, 2, axes 1 .tracking, by decide +kernel⟩

/-- The hypotheses of AxisSettings, preset, meet. -/
theorem test_meets_AxisSettings_preset : ∃ (dt : Nat) (r : Requester) (k : Fin 4) (v : Nat) (s : State),
    Heard r (commandFrame r (addrWord 0x40 (20 + k) 10) .u64 v) (elapse dt s) ∧ (elapse dt s).md.mode ≠ .safe ∧ (elapse dt s).md.bootRom = false ∧ v < 2 ^ 64 ∧ (elapse dt s).isFenced (.axis (k + 4)) = false ∧ ((elapse dt s).cfg.axi k).kind = 2 ∧ ((elapse dt s).axis (k + 4)).state ≠ .fault :=
  ⟨0, can0, 3, 7, axes 2 .stalled, by decide +kernel⟩

/-- The hypotheses of AxisSettings, preset_fault, meet. -/
theorem test_meets_AxisSettings_preset_fault : ∃ (dt : Nat) (r : Requester) (k : Fin 4) (v : Nat) (s : State),
    Heard r (commandFrame r (addrWord 0x40 (20 + k) 10) .u64 v) (elapse dt s) ∧ (elapse dt s).md.mode ≠ .safe ∧ (elapse dt s).md.bootRom = false ∧ v < 2 ^ 64 ∧ (elapse dt s).isFenced (.axis (k + 4)) = false ∧ ((elapse dt s).cfg.axi k).kind = 2 ∧ ((elapse dt s).axis (k + 4)).state = .fault :=
  ⟨0, can0, 3, 7, axes 2 .fault, by decide +kernel⟩

/-- The hypotheses of ArmAndDisarm, arm, meet. -/
theorem test_meets_ArmAndDisarm_arm : ∃ (dt : Nat) (r : Requester) (a : Fin 1024) (s : State),
    Heard r (commandFrame r (addrWord 0x41 a 11) .u8 1) (elapse dt s) ∧ (elapse dt s).md.mode ≠ .safe ∧ (elapse dt s).md.bootRom = false ∧ armCheck (elapse dt s) a = none ∧ axisSuspends (axisState (elapse dt s) ((elapse dt s).cfg.action a).axis) = false ∧ ¬ (((elapse dt s).cfg.action a).policy = 1 ∧ isLate ((elapse dt s).cfg.action a).direction (gapTo (elapse dt s) ((elapse dt s).cfg.action a).axis (leadOf (elapse dt s) a) ((elapse dt s).cfg.action a).target) (margin (elapse dt s) ((elapse dt s).cfg.action a).axis 2000) = true) :=
  ⟨0, can0, 69, actions .idle, by decide +kernel⟩

/-- The hypotheses of ArmAndDisarm, arm_suspended, meet. -/
theorem test_meets_ArmAndDisarm_arm_suspended : ∃ (dt : Nat) (r : Requester) (a : Fin 1024) (s : State),
    Heard r (commandFrame r (addrWord 0x41 a 11) .u8 1) (elapse dt s) ∧ (elapse dt s).md.mode ≠ .safe ∧ (elapse dt s).md.bootRom = false ∧ armCheck (elapse dt s) a = none ∧ axisSuspends (axisState (elapse dt s) ((elapse dt s).cfg.action a).axis) = true :=
  ⟨0, can0, 69, { actions .idle with cfg := { (actions .idle).cfg with act := (actions .idle).cfg.act.map fun c => { c with axis := 4 } }, ax := (axes 1 .unhomed).ax }, by decide +kernel⟩

/-- The hypotheses of ArmAndDisarm, armAction_late, meet. -/
theorem test_meets_ArmAndDisarm_armAction_late : ∃ (a : Nat) (s : State),
    armCheck s a = none ∧ axisSuspends (axisState s (s.cfg.action a).axis) = false ∧ (s.cfg.action a).policy = 1 ∧ isLate (s.cfg.action a).direction (gapTo s (s.cfg.action a).axis (leadOf s a) (s.cfg.action a).target) (margin s (s.cfg.action a).axis 2000) = true :=
  ⟨69, { actions .idle with cfg := { (actions .idle).cfg with act := (actions .idle).cfg.act.map fun c => { c with target := 0#64 } } }, by decide +kernel⟩

/-- The hypotheses of ArmAndDisarm, armAction_refused, meet. -/
theorem test_meets_ArmAndDisarm_armAction_refused : ∃ (a st : Nat) (s : State),
    armCheck s a = some st :=
  ⟨69, 4, up, by decide +kernel⟩

/-- The hypotheses of ArmAndDisarm, applyPolicy_inTime, meet. -/
theorem test_meets_ArmAndDisarm_applyPolicy_inTime : ∃ (a ns : Nat) (afterLate : Bool) (s : State),
    isLate (s.cfg.action a).direction (gapTo s (s.cfg.action a).axis (s.action a).lead (s.action a).next) (margin s (s.cfg.action a).axis ns) = false :=
  ⟨69, 4, false, (actions .armed).setAct 69 fun x => { x with next := 6000000000#64 }, by decide +kernel⟩

/-- The hypotheses of ArmAndDisarm, applyPolicy_reject, meet. -/
theorem test_meets_ArmAndDisarm_applyPolicy_reject : ∃ (a ns : Nat) (afterLate : Bool) (s : State),
    isLate (s.cfg.action a).direction (gapTo s (s.cfg.action a).axis (s.action a).lead (s.action a).next) (margin s (s.cfg.action a).axis ns) = true ∧ (s.cfg.action a).policy = 1 :=
  ⟨69, 4, false, { actions .armed with cfg := { (actions .armed).cfg with act := (actions .armed).cfg.act.map fun c => { c with latePolicy := 1 } } }, by decide +kernel⟩

/-- The hypotheses of ArmAndDisarm, applyPolicy_fireLate, meet. -/
theorem test_meets_ArmAndDisarm_applyPolicy_fireLate : ∃ (a ns : Nat) (afterLate : Bool) (s : State),
    isLate (s.cfg.action a).direction (gapTo s (s.cfg.action a).axis (s.action a).lead (s.action a).next) (margin s (s.cfg.action a).axis ns) = true ∧ (s.cfg.action a).policy = 2 ∧ afterLate = false :=
  ⟨69, 4, false, { actions .armed with cfg := { (actions .armed).cfg with act := (actions .armed).cfg.act.map fun c => { c with latePolicy := 2 } } }, by decide +kernel⟩

/-- The hypotheses of ArmAndDisarm, applyPolicy_afterLate, meet. -/
theorem test_meets_ArmAndDisarm_applyPolicy_afterLate : ∃ (a ns : Nat) (afterLate : Bool) (s : State),
    isLate (s.cfg.action a).direction (gapTo s (s.cfg.action a).axis (s.action a).lead (s.action a).next) (margin s (s.cfg.action a).axis ns) = true ∧ (s.cfg.action a).policy = 2 ∧ afterLate = true :=
  ⟨69, 4, true, { actions .armed with cfg := { (actions .armed).cfg with act := (actions .armed).cfg.act.map fun c => { c with latePolicy := 2 } } }, by decide +kernel⟩

/-- The hypotheses of ArmAndDisarm, applyPolicy_skip, meet. -/
theorem test_meets_ArmAndDisarm_applyPolicy_skip : ∃ (a ns : Nat) (afterLate : Bool) (s : State),
    isLate (s.cfg.action a).direction (gapTo s (s.cfg.action a).axis (s.action a).lead (s.action a).next) (margin s (s.cfg.action a).axis ns) = true ∧ (s.cfg.action a).policy = 3 :=
  ⟨69, 4, false, { actions .armed with cfg := { (actions .armed).cfg with act := (actions .armed).cfg.act.map fun c => { c with latePolicy := 3 } } }, by decide +kernel⟩

/-- The hypotheses of ArmAndDisarm, armEffect_due, meet. -/
theorem test_meets_ArmAndDisarm_armEffect_due : ∃ (dt : Nat) (a : Fin 1024) (n : Nat) (s : State),
    calendarRuns (elapse dt s) = true ∧ ((elapse dt s).action a).status = .armed ∧ ((elapse dt s).action a).effectAt = some n ∧ n ≤ (elapse dt s).clk.count ∧ isDue (if ((elapse dt s).action a).fireLate then (elapse dt s).setAct a fun x => { x with effectAt := none }
            else noteSign a ((elapse dt s).setAct a fun x => { x with effectAt := none })) a = true ∧ fireRoom (if ((elapse dt s).action a).fireLate then (elapse dt s).setAct a fun x => { x with effectAt := none }
            else noteSign a ((elapse dt s).setAct a fun x => { x with effectAt := none })) ≠ 0 :=
  ⟨0, 69, 5000000000, { actions .armed with sc := { (actions .armed).sc with act := (actions .armed).sc.act.map fun x => { x with effectAt := some 5000000000, fireLate := true, next := 6000000000#64 } } }, by decide +kernel⟩

/-- The hypotheses of ArmAndDisarm, armEffect_full, meet. -/
theorem test_meets_ArmAndDisarm_armEffect_full : ∃ (dt : Nat) (a : Fin 1024) (n : Nat) (s : State),
    calendarRuns (elapse dt s) = true ∧ ((elapse dt s).action a).status = .armed ∧ ((elapse dt s).action a).effectAt = some n ∧ n ≤ (elapse dt s).clk.count ∧ isDue (if ((elapse dt s).action a).fireLate then (elapse dt s).setAct a fun x => { x with effectAt := none }
            else noteSign a ((elapse dt s).setAct a fun x => { x with effectAt := none })) a = true ∧ fireRoom (if ((elapse dt s).action a).fireLate then (elapse dt s).setAct a fun x => { x with effectAt := none }
            else noteSign a ((elapse dt s).setAct a fun x => { x with effectAt := none })) = 0 :=
  ⟨0, 69, 5000000000, { actions .armed with sc := { (actions .armed).sc with firedAt := 5000000000, fired := 64, act := (actions .armed).sc.act.map fun x => { x with effectAt := some 5000000000, fireLate := true, next := 6000000000#64 } } }, by decide +kernel⟩

/-- The hypotheses of ArmAndDisarm, armEffect_later, meet. -/
theorem test_meets_ArmAndDisarm_armEffect_later : ∃ (dt : Nat) (a : Fin 1024) (n : Nat) (s : State),
    calendarRuns (elapse dt s) = true ∧ ((elapse dt s).action a).status = .armed ∧ ((elapse dt s).action a).effectAt = some n ∧ n ≤ (elapse dt s).clk.count ∧ isDue (if ((elapse dt s).action a).fireLate then (elapse dt s).setAct a fun x => { x with effectAt := none }
            else noteSign a ((elapse dt s).setAct a fun x => { x with effectAt := none })) a = false :=
  ⟨0, 69, 5000000000, { actions .armed with sc := { (actions .armed).sc with act := (actions .armed).sc.act.map fun x => { x with effectAt := some 5000000000, fireLate := false, next := 6000000000#64 } } }, by decide +kernel⟩

/-- The hypotheses of ArmAndDisarm, disarm, meet. -/
theorem test_meets_ArmAndDisarm_disarm : ∃ (dt : Nat) (r : Requester) (a : Fin 1024) (s : State),
    Heard r (commandFrame r (addrWord 0x41 a 11) .u8 2) (elapse dt s) ∧ (elapse dt s).md.mode ≠ .safe ∧ (elapse dt s).md.bootRom = false ∧ actPending (elapse dt s) a = true :=
  ⟨0, can0, 69, actions .suspended, by decide +kernel⟩

/-- The hypotheses of ArmAndDisarm, disarmAll, meet. -/
theorem test_meets_ArmAndDisarm_disarmAll : ∃ (dt : Nat) (r : Requester) (arg : Nat) (s : State),
    Heard r (commandFrame r (addrWord 0x41 2048 5) .u8 arg) (elapse dt s) ∧ (elapse dt s).md.mode ≠ .safe ∧ (elapse dt s).md.bootRom = false ∧ arg < 256 :=
  ⟨0, can0, 1, actions .armed, by decide +kernel⟩

/-- The hypotheses of ArmAndDisarm, actionKindWrite, meet. -/
theorem test_meets_ArmAndDisarm_actionKindWrite : ∃ (dt : Nat) (r : Requester) (a : Fin 1024) (v : Nat) (s : State),
    Heard r (writeFrame r (addrWord 0x41 a 0) .u8 v) (elapse dt s) ∧ (elapse dt s).md.mode ≠ .safe ∧ (elapse dt s).md.bootRom = false ∧ (elapse dt s).isFenced .calendar = false ∧ actPending (elapse dt s) a = false ∧ v ≤ 7 :=
  ⟨0, can0, 69, 7, actions .idle, by decide +kernel⟩

/-- The hypotheses of ArmAndDisarm, writeActKind_empty, meet. -/
theorem test_meets_ArmAndDisarm_writeActKind_empty : ∃ (a v : Nat) (s : State),
    (s.action a).status ≠ .fenced ∧ v = 0 :=
  ⟨69, 0, actions .idle, by decide +kernel⟩

/-- The hypotheses of ArmAndDisarm, writeActKind_idle, meet. -/
theorem test_meets_ArmAndDisarm_writeActKind_idle : ∃ (a v : Nat) (s : State),
    (s.action a).status = .empty ∧ v ≠ 0 :=
  ⟨69, 1, up, by decide +kernel⟩

/-- The hypotheses of ArmAndDisarm, writeActKind_kept, meet. -/
theorem test_meets_ArmAndDisarm_writeActKind_kept : ∃ (a v : Nat) (s : State),
    (s.action a).status ≠ .empty ∧ v ≠ 0 :=
  ⟨69, 1, actions .done, by decide +kernel⟩

/-- The hypotheses of Firing, actionFire_all, meet. -/
theorem test_meets_Firing_actionFire_all : ∃ (dt : Nat) (s : State),
    calendarRuns (elapse dt s) = true ∧ ((List.range (elapse dt s).sc.act.length).filter fun a => isDue (elapse dt s) a || isDelayed (elapse dt s) a).length ≤ fireRoom (elapse dt s) :=
  ⟨0, actions .idle, by decide +kernel⟩

/-- The hypotheses of Firing, actionFire_overrun, meet. -/
theorem test_meets_Firing_actionFire_overrun : ∃ (dt : Nat) (s : State),
    calendarRuns (elapse dt s) = true ∧ fireRoom (elapse dt s) < ((List.range (elapse dt s).sc.act.length).filter fun a => isDue (elapse dt s) a || isDelayed (elapse dt s) a).length :=
  ⟨0, { actions .armed with sc := { (actions .armed).sc with act := (actions .armed).sc.act.map fun x => { x with effectAt := none, fireLate := true } } }, by decide +kernel⟩

/-- The hypotheses of Firing, overrunFire, meet. -/
theorem test_meets_Firing_overrunFire : ∃ (dt : Nat) (s : State),
    calendarRuns (elapse dt s) = true :=
  ⟨0, actions .idle, by decide +kernel⟩

/-- The hypotheses of Firing, delayList, meet. -/
theorem test_meets_Firing_delayList : ∃ (l : List Nat) (s : State),
    l ≠ [] :=
  ⟨[69], up, by decide +kernel⟩

/-- The hypotheses of Firing, fireAction, meet. -/
theorem test_meets_Firing_fireAction : ∃ (a : Nat) (overrun : Bool) (s : State),
    (s.action a).fireLate = false ∧ overrun = false :=
  ⟨69, false, actions .armed, by decide +kernel⟩

/-- The hypotheses of Firing, moveOn_done, meet. -/
theorem test_meets_Firing_moveOn_done : ∃ (a : Nat) (late : Bool) (s : State),
    (s.cfg.action a).unbounded = false ∧ (s.action a).remaining ≤ 1 :=
  ⟨69, false, actions .armed, by decide +kernel⟩

/-- The hypotheses of Firing, moveOn_next, meet. -/
theorem test_meets_Firing_moveOn_next : ∃ (a : Nat) (late : Bool) (s : State),
    (s.cfg.action a).unbounded = false ∧ 1 < (s.action a).remaining :=
  ⟨69, false, (actions .armed).setAct 69 fun x => { x with remaining := 2 }, by decide +kernel⟩

/-- The hypotheses of Firing, pulseEnd, meet. -/
theorem test_meets_Firing_pulseEnd : ∃ (dt : Nat) (n : Fin 48) (m : Nat) (s : State),
    ((elapse dt s).trg n).pulseEnd = some m ∧ m ≤ (elapse dt s).clk.count :=
  ⟨0, 47, 5, up.setTrg 47 fun t => { t with pulseEnd := some 5 }, by decide +kernel⟩

/-- The hypotheses of Firing, pulseEnd_early, meet. -/
theorem test_meets_Firing_pulseEnd_early : ∃ (dt : Nat) (n : Fin 48) (m : Nat) (s : State),
    ((elapse dt s).trg n).pulseEnd = some m ∧ (elapse dt s).clk.count < m :=
  ⟨0, 47, 5000000001, up.setTrg 47 fun t => { t with pulseEnd := some 5000000001 }, by decide +kernel⟩

/-- The hypotheses of Firing, windowEnd, meet. -/
theorem test_meets_Firing_windowEnd : ∃ (dt : Nat) (n : Fin 64) (m : Nat) (s : State),
    ((elapse dt s).window n).ends = some m ∧ m ≤ (elapse dt s).clk.count :=
  ⟨0, 63, 5, up.setWin 63 fun w => { w with isOpen := true, ends := some 5 }, by decide +kernel⟩

/-- The hypotheses of SkipsAreFewest, forward, meet. -/
theorem test_meets_SkipsAreFewest_forward : ∃ (d : Int) (lam : Rat) (period : Nat),
    0 < period ∧ isLate 0 d lam = true :=
  ⟨-7, 2000, 20, by decide +kernel⟩

/-- The hypotheses of SkipsAreFewest, backward, meet. -/
theorem test_meets_SkipsAreFewest_backward : ∃ (d : Int) (lam : Rat) (period : Nat),
    0 < period ∧ isLate 1 d lam = true :=
  ⟨7, 2000, 20, by decide +kernel⟩

/-- The hypotheses of ServoSlots, servoEnable_1, meet. -/
theorem test_meets_ServoSlots_servoEnable_1 : ∃ (dt : Nat) (r : Requester) (k : Fin 48) (s : State),
    Heard r (writeFrame r (addrWord 0x41 (2050 + k) 0) .u8 1) (elapse dt s) ∧ (elapse dt s).md.mode ≠ .safe ∧ (elapse dt s).md.bootRom = false ∧ ((elapse dt s).cfg.slot k).enable ≠ 1 ∧ k.val < (elapse dt s).cfg.servo.length ∧ servoMayEnable { (elapse dt s) with cfg := { (elapse dt s).cfg with servo := upd (elapse dt s).cfg.servo k fun c => { c with enable := 1 } } } k = true :=
  ⟨0, can0, 47, servoUp 0, by decide +kernel⟩

/-- The hypotheses of ServoSlots, servoEnable_0, meet. -/
theorem test_meets_ServoSlots_servoEnable_0 : ∃ (dt : Nat) (r : Requester) (k : Fin 48) (s : State),
    Heard r (writeFrame r (addrWord 0x41 (2050 + k) 0) .u8 0) (elapse dt s) ∧ (elapse dt s).md.mode ≠ .safe ∧ (elapse dt s).md.bootRom = false ∧ ((elapse dt s).cfg.slot k).enable ≠ 0 :=
  ⟨0, can0, 47, servoUp 1, by decide +kernel⟩

/-- The hypotheses of ServoSlots, overdue, meet. -/
theorem test_meets_ServoSlots_overdue : ∃ (c : CfgServo) (now : Nat) (a : Rat) (fr : SvFrame),
    fr.s = some a ∧ fr.f = none :=
  ⟨CfgServo.reset, 0, 1, { SvFrame.reset with s := some 1 }, by decide +kernel⟩

/-- The hypotheses of BlobWrites, modelWrite, meet. -/
theorem test_meets_BlobWrites_modelWrite : ∃ (dt : Nat) (r : Requester) (image : List Byte) (s : State),
    BlobHeard r (addrWord 18 2 0) image (elapse dt s) ∧ (elapse dt s).md.mode ≠ .safe ∧ (elapse dt s).md.bootRom = false ∧ BlobFree (addrWord 18 2 0) (elapse dt s) ∧ modelAccepted (elapse dt s) image = true ∧ (elapse dt s).runs 1 = true :=
  ⟨0, can0, [], up, by decide +kernel⟩

/-- The hypotheses of BlobWrites, cardsWrite, meet. -/
theorem test_meets_BlobWrites_cardsWrite : ∃ (dt : Nat) (r : Requester) (image : List Byte) (s : State),
    BlobHeard r (addrWord 19 30 0) image (elapse dt s) ∧ (elapse dt s).md.mode ≠ .safe ∧ (elapse dt s).md.bootRom = false ∧ BlobFree (addrWord 19 30 0) (elapse dt s) ∧ (readCards (elapse dt s) image).isSome = true :=
  ⟨0, can0, [], up, by decide +kernel⟩

/-- The hypotheses of BlobWrites, calendarWrite, meet. -/
theorem test_meets_BlobWrites_calendarWrite : ∃ (dt : Nat) (r : Requester) (image : List Byte) (s : State),
    BlobHeard r (addrWord 65 2048 0) image (elapse dt s) ∧ (elapse dt s).md.mode ≠ .safe ∧ (elapse dt s).md.bootRom = false ∧ BlobFree (addrWord 65 2048 0) (elapse dt s) ∧ calendarStatus (elapse dt s) image = 0 :=
  ⟨0, can0, [], up, by decide +kernel, by decide +kernel, by decide +kernel, by decide +kernel, calendar_free _ 1024 rfl rfl⟩

/-- The hypotheses of BlobWrites, firmwareWrite, meet. -/
theorem test_meets_BlobWrites_firmwareWrite : ∃ (dt : Nat) (r : Requester) (image : List Byte) (s : State),
    BlobHeard r firmwareAddress image (elapse dt s) ∧ (elapse dt s).md.mode ≠ .safe ∧ (elapse dt s).md.bootRom = false ∧ BlobFree firmwareAddress (elapse dt s) ∧ image ≠ [] ∧ firmwareOk image = true ∧ (elapse dt s).pwr.pfail = false :=
  ⟨0, can0, goodImage, up, by decide +kernel⟩

/-- The hypotheses of BlobWrites, firmwareErase, meet. -/
theorem test_meets_BlobWrites_firmwareErase : ∃ (dt : Nat) (r : Requester) (s : State),
    BlobHeard r firmwareAddress [] (elapse dt s) ∧ (elapse dt s).md.mode ≠ .safe ∧ (elapse dt s).md.bootRom = false ∧ BlobFree firmwareAddress (elapse dt s) ∧ (elapse dt s).pwr.pfail = false :=
  ⟨0, can0, up, by decide +kernel⟩

/-- The hypotheses of ReadsAndWrites, read, meet. -/
theorem test_meets_ReadsAndWrites_read : ∃ (dt : Nat) (r : Requester) (f : Frame) (o : Obj) (el : Elem) (s : State),
    Heard r f (elapse dt s) ∧ objectAt (counted (elapse dt s)) (areaOf f.address) (objectOf f.address) = some o ∧ o.find (elementOf f.address) = some el ∧ f.opcode = 1 ∧ f.segFlag = false ∧ f.length = 0 ∧ el.acc ≠ .cmd ∧ el.ty ≠ .blob :=
  ⟨0, can0, nvFrame 1 1 none [], nv21, nv21El 1, up, by decide +kernel, rfl, rfl, by decide +kernel⟩

/-- The hypotheses of ReadsAndWrites, write, meet. -/
theorem test_meets_ReadsAndWrites_write : ∃ (dt : Nat) (r : Requester) (f : Frame) (o : Obj) (el : Elem) (s : State),
    Heard r f (elapse dt s) ∧ objectAt (counted (elapse dt s)) (areaOf f.address) (objectOf f.address) = some o ∧ o.find (elementOf f.address) = some el ∧ f.opcode = 2 ∧ (elapse dt s).md.mode ≠ .safe ∧ f.segFlag = false ∧ f.length = el.ty.size ∧ el.ty ≠ .blob ∧ (el.acc = .rw ∨ el.acc = .rws ∨ el.acc = .seal) ∧ modeStatus (counted (elapse dt s)) el.acc = 0 ∧ (el.via = 0 ∨ (elapse dt s).runs el.via = true) ∧ checkOne o el (el.ty.decode (f.payload.take f.length)) (counted (elapse dt s)) = 0 :=
  ⟨0, can0, nvFrame 2 1 none (natBytes 4 500000), nv21, nv21El 1, up, by decide +kernel, rfl, rfl, by decide +kernel⟩

/-- The hypotheses of Blocks, readBlock_first, meet. -/
theorem test_meets_Blocks_readBlock_first : ∃ (dt : Nat) (r : Requester) (f : Frame) (o : Obj) (el : Elem) (s : State),
    Heard r f (elapse dt s) ∧ objectAt (counted (elapse dt s)) (areaOf f.address) (objectOf f.address) = some o ∧ o.find (elementOf f.address) = some el ∧ f.opcode = 3 ∧ f.segFlag = true ∧ el.acc ≠ .cmd ∧ f.segment = 0 ∧ ((elapse dt s).dop.rx.filter fun y => !y.sameKey r (plainAddress f.address)).length < 4 ∧ (readouts.contains (plainAddress f.address) && ((elapse dt s).dop.rx.filter fun y => !y.sameKey r (plainAddress f.address)).any fun y => readouts.contains y.address) = false :=
  ⟨0, can0, nvFrame 3 1 (some 0) [], nv21, nv21El 1, up, by decide +kernel, rfl, rfl, by decide +kernel⟩

/-- The hypotheses of Blocks, readBlock_next, meet. -/
theorem test_meets_Blocks_readBlock_next : ∃ (dt : Nat) (r : Requester) (f : Frame) (o : Obj) (el : Elem) (x : RXfer) (s : State),
    Heard r f (elapse dt s) ∧ objectAt (counted (elapse dt s)) (areaOf f.address) (objectOf f.address) = some o ∧ o.find (elementOf f.address) = some el ∧ f.opcode = 3 ∧ f.segFlag = true ∧ el.acc ≠ .cmd ∧ f.segment ≠ 0 ∧ (elapse dt s).dop.rx.find? (fun y => y.sameKey r (plainAddress f.address)) = some x ∧ (f.segment = x.lastSeg ∨ f.segment = x.lastSeg + 1) :=
  ⟨0, can0, nvFrame 3 1 (some 1) [], nv21, nv21El 1, { iface := 0x40, source := 0, sport := 0, address := addrWord 0x50 21 1, lastSeg := 0, atNs := 0, data := List.replicate 60 0#8 }, midTransfer, by decide +kernel, rfl, rfl, by decide +kernel⟩

/-- The hypotheses of Blocks, writeBlock_first, meet. -/
theorem test_meets_Blocks_writeBlock_first : ∃ (dt : Nat) (r : Requester) (f : Frame) (o : Obj) (el : Elem) (s : State),
    Heard r f (elapse dt s) ∧ objectAt (counted (elapse dt s)) (areaOf f.address) (objectOf f.address) = some o ∧ o.find (elementOf f.address) = some el ∧ f.opcode = 4 ∧ (elapse dt s).md.mode ≠ .safe ∧ f.segFlag = true ∧ (el.acc = .rw ∨ el.acc = .rws ∨ el.acc = .seal) ∧ modeStatus (counted (elapse dt s)) el.acc = 0 ∧ f.segment = 0 ∧ (f.payload.take f.length).isEmpty = false ∧ openRefused r (plainAddress f.address) el (counted (elapse dt s)) = 0 ∧ el.opening (counted (elapse dt s)) = 0 ∧ (elapse dt s).dop.wx.any (fun x => x.sameKey r (plainAddress f.address)) = false :=
  ⟨0, can0, nvFrame 4 1 (some 0) (natBytes 4 500000), nv21, nv21El 1, up, by decide +kernel, rfl, rfl, by decide +kernel⟩

/-- The hypotheses of Blocks, writeBlock_next, meet. -/
theorem test_meets_Blocks_writeBlock_next : ∃ (dt : Nat) (r : Requester) (f : Frame) (o : Obj) (el : Elem) (x : WXfer) (s : State),
    Heard r f (elapse dt s) ∧ objectAt (counted (elapse dt s)) (areaOf f.address) (objectOf f.address) = some o ∧ o.find (elementOf f.address) = some el ∧ f.opcode = 4 ∧ (elapse dt s).md.mode ≠ .safe ∧ f.segFlag = true ∧ (el.acc = .rw ∨ el.acc = .rws ∨ el.acc = .seal) ∧ modeStatus (counted (elapse dt s)) el.acc = 0 ∧ f.segment = x.lastSeg + 1 ∧ (f.payload.take f.length).isEmpty = false ∧ el.opening (counted (elapse dt s)) = 0 ∧ (elapse dt s).dop.wx.find? (fun x => x.sameKey r (plainAddress f.address)) = some x :=
  ⟨0, can0, nvFrame 4 1 (some 1) (natBytes 4 2000000), nv21, nv21El 1, { iface := 0x40, source := 0, sport := 0, address := addrWord 0x50 21 1, lastSeg := 0, atNs := 0, data := natBytes 4 500000 }, midTransfer, by decide +kernel, rfl, rfl, by decide +kernel⟩

/-- The hypotheses of Blocks, writeBlock_end, meet. -/
theorem test_meets_Blocks_writeBlock_end : ∃ (dt : Nat) (r : Requester) (f : Frame) (o : Obj) (el : Elem) (x : WXfer) (vs : List (Elem × Int)) (cs : List Elem) (s : State),
    Heard r f (elapse dt s) ∧ objectAt (counted (elapse dt s)) (areaOf f.address) (objectOf f.address) = some o ∧ o.find (elementOf f.address) = some el ∧ f.opcode = 4 ∧ (elapse dt s).md.mode ≠ .safe ∧ f.segFlag = true ∧ (el.acc = .rw ∨ el.acc = .rws ∨ el.acc = .seal) ∧ modeStatus (counted (elapse dt s)) el.acc = 0 ∧ f.segment = x.lastSeg + 1 ∧ (f.payload.take f.length).isEmpty = true ∧ el.opening (counted (elapse dt s)) = 0 ∧ (elapse dt s).dop.wx.find? (fun x => x.sameKey r (plainAddress f.address)) = some x ∧ el.ty ≠ .blob ∧ (splitBlock (o.els.dropWhile fun y => y.no != el.no) x.data = (vs, cs, true)) ∧ x.data.isEmpty = false ∧ (cs.any fun y => y.ty == .blob || y.acc == .cmd || y.acc == .ro) = false ∧ cs.foldl (fun st y => orElse st (modeStatus (counted (elapse dt s)) y.acc)) stOk = 0 ∧ (el.via = 0 ∨ (elapse dt s).runs el.via = true) ∧ checkBlock o vs (endWrite r (plainAddress f.address) (counted (elapse dt s))) = 0 :=
  ⟨0, can0, nvFrame 4 1 (some 1) [], nv21, nv21El 1, { iface := 0x40, source := 0, sport := 0, address := addrWord 0x50 21 1, lastSeg := 0, atNs := 0, data := natBytes 4 500000 }, [(nv21El 1, 500000)], [nv21El 1], midTransfer,
   by decide +kernel, rfl, rfl, by decide +kernel, by decide +kernel, by decide +kernel, by decide +kernel, by decide +kernel, by decide +kernel, by decide +kernel, by decide +kernel, by decide +kernel, by decide +kernel, rfl, by decide +kernel⟩

/-- The hypotheses of Subscriptions, subscribe_new, meet. -/
theorem test_meets_Subscriptions_subscribe_new : ∃ (dt : Nat) (r : Requester) (f : Frame) (o : Obj) (el : Elem) (s : State),
    Heard r f (elapse dt s) ∧ objectAt (counted (elapse dt s)) (areaOf f.address) (objectOf f.address) = some o ∧ o.find (elementOf f.address) = some el ∧ f.opcode = 6 ∧ plainAddress f.address = eventAddress ∧ f.segFlag = false ∧ f.length = 34 ∧ bytesNat ((f.payload.take f.length).take 2) ≠ 0 ∧ bytesNat ((f.payload.take f.length).take 2) ≤ 3600 ∧ ((elapse dt s).dop.subs.filter fun x => !x.sameKey r).length < 8 ∧ (elapse dt s).dop.subs.find? (fun x => x.sameKey r) = none :=
  ⟨0, can0, mkFrame can0 6 eventAddress none (natBytes 2 60 ++ natBytes 32 5), (objEv 0).getD { els := [] }, (((objEv 0).getD { els := [] }).find 0).getD (command 0 .u8 fun _ s => (0, s)), up, by decide +kernel, rfl, rfl, by decide +kernel⟩

/-- The hypotheses of Subscriptions, subscribe_renew, meet. -/
theorem test_meets_Subscriptions_subscribe_renew : ∃ (dt : Nat) (r : Requester) (f : Frame) (o : Obj) (el : Elem) (s : State),
    Heard r f (elapse dt s) ∧ objectAt (counted (elapse dt s)) (areaOf f.address) (objectOf f.address) = some o ∧ o.find (elementOf f.address) = some el ∧ f.opcode = 6 ∧ plainAddress f.address = eventAddress ∧ f.segFlag = false ∧ f.length = 34 ∧ bytesNat ((f.payload.take f.length).take 2) ≠ 0 ∧ bytesNat ((f.payload.take f.length).take 2) ≤ 3600 ∧ ((elapse dt s).dop.subs.filter fun x => !x.sameKey r).length < 8 ∧ ((elapse dt s).dop.subs.find? (fun x => x.sameKey r)).isSome = true :=
  ⟨0, can0, mkFrame can0 6 eventAddress none (natBytes 2 60 ++ natBytes 32 5), (objEv 0).getD { els := [] }, (((objEv 0).getD { els := [] }).find 0).getD (command 0 .u8 fun _ s => (0, s)), hostDue, by decide +kernel, rfl, rfl, by decide +kernel⟩

/-- The hypotheses of Subscriptions, subscribe_cancel, meet. -/
theorem test_meets_Subscriptions_subscribe_cancel : ∃ (dt : Nat) (r : Requester) (f : Frame) (o : Obj) (el : Elem) (s : State),
    Heard r f (elapse dt s) ∧ objectAt (counted (elapse dt s)) (areaOf f.address) (objectOf f.address) = some o ∧ o.find (elementOf f.address) = some el ∧ f.opcode = 6 ∧ plainAddress f.address = eventAddress ∧ f.segFlag = false ∧ f.length = 34 ∧ bytesNat ((f.payload.take f.length).take 2) = 0 :=
  ⟨0, can0, mkFrame can0 6 eventAddress none (natBytes 2 0 ++ natBytes 32 5), (objEv 0).getD { els := [] }, (((objEv 0).getD { els := [] }).find 0).getD (command 0 .u8 fun _ s => (0, s)), hostDue, by decide +kernel, rfl, rfl, by decide +kernel⟩

/-- The hypotheses of Subscriptions, subscribe_stream, meet. -/
theorem test_meets_Subscriptions_subscribe_stream : ∃ (dt : Nat) (r : Requester) (f : Frame) (o : Obj) (el : Elem) (s : State),
    Heard r f (elapse dt s) ∧ objectAt (counted (elapse dt s)) (areaOf f.address) (objectOf f.address) = some o ∧ o.find (elementOf f.address) = some el ∧ f.opcode = 6 ∧ plainAddress f.address = streamAddress ∧ f.segFlag = false ∧ f.length = 2 ∧ onCan r.iface = false ∧ (elapse dt s).isFenced .streamer = false ∧ bytesNat ((f.payload.take f.length).take 2) ≠ 0 ∧ bytesNat ((f.payload.take f.length).take 2) ≤ 3600 ∧ (elapse dt s).ts.stream = none :=
  ⟨0, eth0, mkFrame eth0 6 streamAddress none (natBytes 2 60), (objTs 200).getD { els := [] }, (((objTs 200).getD { els := [] }).find 0).getD (command 0 .u8 fun _ s => (0, s)), linked, by decide +kernel, rfl, rfl, by decide +kernel⟩

/-- The hypotheses of Subscriptions, subscribe_stream_renew, meet. -/
theorem test_meets_Subscriptions_subscribe_stream_renew : ∃ (dt : Nat) (r : Requester) (f : Frame) (o : Obj) (el : Elem) (s : State),
    Heard r f (elapse dt s) ∧ objectAt (counted (elapse dt s)) (areaOf f.address) (objectOf f.address) = some o ∧ o.find (elementOf f.address) = some el ∧ f.opcode = 6 ∧ plainAddress f.address = streamAddress ∧ f.segFlag = false ∧ f.length = 2 ∧ onCan r.iface = false ∧ (elapse dt s).isFenced .streamer = false ∧ bytesNat ((f.payload.take f.length).take 2) ≠ 0 ∧ bytesNat ((f.payload.take f.length).take 2) ≤ 3600 ∧ ((elapse dt s).ts.stream.any fun x => x.sameKey r) = true :=
  ⟨0, eth0, mkFrame eth0 6 streamAddress none (natBytes 2 60), (objTs 200).getD { els := [] }, (((objTs 200).getD { els := [] }).find 0).getD (command 0 .u8 fun _ s => (0, s)), { linked with ts := { linked.ts with stream := some { Stream.reset with source := 9, sport := 7 } } }, by decide +kernel, rfl, rfl, by decide +kernel⟩

/-- The hypotheses of Subscriptions, subscribe_stream_close, meet. -/
theorem test_meets_Subscriptions_subscribe_stream_close : ∃ (dt : Nat) (r : Requester) (f : Frame) (o : Obj) (el : Elem) (s : State),
    Heard r f (elapse dt s) ∧ objectAt (counted (elapse dt s)) (areaOf f.address) (objectOf f.address) = some o ∧ o.find (elementOf f.address) = some el ∧ f.opcode = 6 ∧ plainAddress f.address = streamAddress ∧ f.segFlag = false ∧ f.length = 2 ∧ onCan r.iface = false ∧ (elapse dt s).isFenced .streamer = false ∧ bytesNat ((f.payload.take f.length).take 2) = 0 ∧ ((elapse dt s).ts.stream.any fun x => x.sameKey r) = true :=
  ⟨0, eth0, mkFrame eth0 6 streamAddress none (natBytes 2 0), (objTs 200).getD { els := [] }, (((objTs 200).getD { els := [] }).find 0).getD (command 0 .u8 fun _ s => (0, s)), { linked with ts := { linked.ts with stream := some { Stream.reset with source := 9, sport := 7 } } }, by decide +kernel, rfl, rfl, by decide +kernel⟩

/-- The hypotheses of Subscriptions, leaseExpiry_stream, meet. -/
theorem test_meets_Subscriptions_leaseExpiry_stream : ∃ (dt : Nat) (s : State),
    ((elapse dt s).ts.stream.any fun x => decide (x.ends ≤ (elapse dt s).clk.count)) = true :=
  ⟨0, streaming, by decide +kernel⟩

/-- The hypotheses of Subscriptions, leaseExpiry, meet. -/
theorem test_meets_Subscriptions_leaseExpiry : ∃ (dt : Nat) (s : State),
    ((elapse dt s).ts.stream.any fun x => decide (x.ends ≤ (elapse dt s).clk.count)) = false :=
  ⟨0, hostDue, by decide +kernel⟩

/-- The hypotheses of Subscriptions, transferTimeout, meet. -/
theorem test_meets_Subscriptions_transferTimeout : ∃ (dt : Nat) (s : State),
    ((elapse dt s).dop.wx.any fun x => decide (x.atNs + 5000000000 ≤ (elapse dt s).clk.count) && x.address == firmwareAddress) = false :=
  ⟨0, midTransfer, by decide +kernel⟩

/-- The hypotheses of Subscriptions, transferTimeout_firmware, meet. -/
theorem test_meets_Subscriptions_transferTimeout_firmware : ∃ (dt : Nat) (s : State),
    ((elapse dt s).dop.wx.any fun x => decide (x.atNs + 5000000000 ≤ (elapse dt s).clk.count) && x.address == firmwareAddress) = true :=
  ⟨0, { up with dop := { up.dop with wx := [{ iface := 0x40, source := 0, sport := 0, address := firmwareAddress, lastSeg := 0, atNs := 0, data := [] }] } }, by decide +kernel⟩

/-- The hypotheses of StoreAndJournal, store, meet. -/
theorem test_meets_StoreAndJournal_store : ∃ (dt : Nat) (r : Requester) (s : State),
    Heard r (commandFrame r (addrWord 0x50 0 0) .u8 0) (elapse dt s) ∧ (elapse dt s).md.mode ≠ .safe ∧ (elapse dt s).md.bootRom = false ∧ (elapse dt s).nvc.storeOp = none ∧ firmwareOpen (elapse dt s) = false ∧ (elapse dt s).pwr.pfail = false :=
  ⟨0, can0, up, by decide +kernel⟩

/-- The hypotheses of StoreAndJournal, eraseConfig, meet. -/
theorem test_meets_StoreAndJournal_eraseConfig : ∃ (dt : Nat) (r : Requester) (s : State),
    Heard r (commandFrame r (addrWord 0x50 0 1) .u8 0xA5) (elapse dt s) ∧ (elapse dt s).md.mode ≠ .safe ∧ (elapse dt s).md.bootRom = false ∧ (elapse dt s).nvc.storeOp = none ∧ firmwareOpen (elapse dt s) = false ∧ (elapse dt s).pwr.pfail = false :=
  ⟨0, can0, up, by decide +kernel⟩

/-- The hypotheses of StoreAndJournal, activate, meet. -/
theorem test_meets_StoreAndJournal_activate : ∃ (dt : Nat) (r : Requester) (arg : Nat) (s : State),
    Heard r (commandFrame r (addrWord 0x50 10 5) .u8 arg) (elapse dt s) ∧ (elapse dt s).md.mode ≠ .safe ∧ (elapse dt s).md.bootRom = false ∧ arg < 2 ∧ (nth (elapse dt s).nv.slots arg FwSlot.reset).state = 1 :=
  ⟨0, can0, 1, { up with nv := { up.nv with slots := up.nv.slots.map fun x => { x with state := 1 } } }, by decide +kernel⟩

/-- The hypotheses of StoreAndJournal, storeComplete_done, meet. -/
theorem test_meets_StoreAndJournal_storeComplete_done : ∃ (dt : Nat) (erase : Bool) (c : Cfg) (s : State),
    (elapse dt s).runs 0 = true ∧ (elapse dt s).nvc.storeOp = some (erase, c) :=
  ⟨0, false, up.cfg, storing false, by decide +kernel⟩

/-- The hypotheses of StoreAndJournal, storeComplete_interrupted, meet. -/
theorem test_meets_StoreAndJournal_storeComplete_interrupted : ∃ (dt : Nat) (erase : Bool) (c : Cfg) (s : State),
    (elapse dt s).runs 0 = true ∧ (elapse dt s).nvc.storeOp = some (erase, c) :=
  ⟨0, true, up.cfg, storing true, by decide +kernel⟩

/-- The hypotheses of StoreAndJournal, storeComplete_failed, meet. -/
theorem test_meets_StoreAndJournal_storeComplete_failed : ∃ (dt : Nat) (erase : Bool) (c : Cfg) (s : State),
    (elapse dt s).runs 0 = true ∧ (elapse dt s).nvc.storeOp = some (erase, c) :=
  ⟨0, true, up.cfg, storing true, by decide +kernel⟩

/-- The hypotheses of StoreAndJournal, storeComplete_stopped, meet. -/
theorem test_meets_StoreAndJournal_storeComplete_stopped : ∃ (dt : Nat) (end_ : StoreEnd) (s : State),
    (elapse dt s).runs 0 = false :=
  ⟨0, .done, { storing false with cores := [.stopped, .running, .running] }, by decide +kernel⟩

/-- The hypotheses of StoreAndJournal, journalFlush, meet. -/
theorem test_meets_StoreAndJournal_journalFlush : ∃ (dt : Nat) (s : State),
    (elapse dt s).runs 0 = true :=
  ⟨0, up, by decide +kernel⟩

/-- The hypotheses of StoreAndJournal, nvRefresh, meet. -/
theorem test_meets_StoreAndJournal_nvRefresh : ∃ (dt : Nat) (due failed spare erase : Nat) (s : State),
    (elapse dt s).runs 0 = true :=
  ⟨0, 3, 1, 63, 9, up, by decide +kernel⟩

/-- The hypotheses of Ipv4Replies, arpRequest, meet. -/
theorem test_meets_Ipv4Replies_arpRequest : ∃ (dt : Nat) (port : Fin 14) (target mac ip : Nat) (s : State),
    dopUp (elapse dt s) = true ∧ ((elapse dt s).port port).link = true ∧ target = (elapse dt s).dop.addressInUse :=
  ⟨0, 13, up.dop.addressInUse, 1, 2, linked, by decide +kernel⟩

/-- The hypotheses of Ipv4Replies, arpRequest_other, meet. -/
theorem test_meets_Ipv4Replies_arpRequest_other : ∃ (dt : Nat) (port : Fin 14) (target mac ip : Nat) (s : State),
    target ≠ (elapse dt s).dop.addressInUse :=
  ⟨0, 13, up.dop.addressInUse + 1, 1, 2, linked, by decide +kernel⟩

/-- The hypotheses of Ipv4Replies, icmpEcho, meet. -/
theorem test_meets_Ipv4Replies_icmpEcho : ∃ (dt : Nat) (port : Fin 14) (target mac ip : Nat) (payload : List Byte) (s : State),
    dopUp (elapse dt s) = true ∧ ((elapse dt s).port port).link = true ∧ target = (elapse dt s).dop.addressInUse :=
  ⟨0, 13, up.dop.addressInUse, 1, 2, [], linked, by decide +kernel⟩

/-- The hypotheses of Ipv4Replies, icmpEcho_other, meet. -/
theorem test_meets_Ipv4Replies_icmpEcho_other : ∃ (dt : Nat) (port : Fin 14) (target mac ip : Nat) (payload : List Byte) (s : State),
    target ≠ (elapse dt s).dop.addressInUse :=
  ⟨0, 13, up.dop.addressInUse + 1, 1, 2, [], linked, by decide +kernel⟩

end Sys2Proof.Machine
end

section
/-! SUPPORT. The settings of the alert lines and of the routes (R385, R398, R402): what each of their commands does to the state at its
moment. -/

namespace Sys2Proof.Machine

/-! ## A command as its effect -/

/-- A command answers with its effect on the state at its moment, settled (log entry 1). -/
theorem timed_of_effect {dt : Nat} {f : State → State} {s u : State} (h : f (elapse dt s) = u) :
    timed dt f s = .next (finish u) := by rw [timed, h]

/-- A byte that a request carries is read back. -/
theorem decode_byte {v : Nat} (h : v < 256) : ElTy.u8.decode (intBytes ElTy.u8.size v) = v :=
  decode_unsigned .u8 v rfl (by omega) (by simp only [ElTy.size]; omega)

/-! ## Alert lines (R398, R402) -/

/-- The object of the target of alert line k. -/
def objAlert (k : Nat) : Obj := { els := targetEls k ++ alertEls k }

theorem object_alert {s : State} (hb : s.md.bootRom = false) (line : Fin 2) :
    objectAt s 4 (21 + line) = some (objAlert (line + 1)) := by
  simp only [objectAt, hb, Bool.false_eq_true, if_false]
  match line with
  | 0 => rfl
  | 1 => rfl

/-- In LATCH mode an `ALERT_ACK` completes and acknowledges the line. -/
theorem ackRun_latch {s : State} {k : Nat} (v : Int) (h : (nth s.cfg.ev.targets k CfgTarget.reset).alertMode = 0) :
    ackRun k v s = (0, { s with ev := s.ev.ack s.cfg.ev k }) := by
  rw [ackRun, if_neg (by rw [h]; decide)]

/-- The element `ALERT_MODE` of alert line k. -/
def alertModeEl (k : Nat) : Elem := targetN k 5 .u8 (·.alertMode) (within 0 1) fun v t => { t with alertMode := v }

theorem objAlert_alertMode (k : Nat) : (objAlert k).find 5 = some (alertModeEl k) := rfl

theorem objAlert_alertAck (k : Nat) : (objAlert k).find 6 = some (command 6 .u8 (ackRun k)) := rfl

/-- `ALERT_MODE` takes 0 and 1. -/
theorem checkOne_alertMode (k : Nat) {v : Nat} (s : State) (hv : v < 2) : checkOne (objAlert k) (alertModeEl k) v s = 0 :=
  have hown : within 0 1 (v : Int) = 0 := within_ok (by omega)
  checkOne_ok hown rfl rfl

/-- A heard `ALERT_ACK` in LATCH mode (R398). -/
theorem serve_alertAck {r : Requester} {line : Fin 2} {arg : Nat} {s : State}
    (h : Heard r (commandFrame r (addrWord 0x04 (21 + line) 6) .u8 arg) s) (harg : arg < 256)
    (hsafe : s.md.mode ≠ .safe) (hb : s.md.bootRom = false)
    (hlatch : (nth s.cfg.ev.targets (line + 1) CfgTarget.reset).alertMode = 0) :
    serveCommand r (addrWord 0x04 (21 + line) 6) 1 arg s =
      commanded r (addrWord 0x04 (21 + line) 6) .u8 arg { counted s with ev := s.ev.ack s.cfg.ev (line + 1) } :=
  serveCommand_done (ty := .u8) h hsafe (by omega) (by omega) (by omega) (object_alert (s := counted s) hb line)
    (objAlert_alertAck (line + 1)) rfl rfl (decode_byte harg) (Or.inl rfl) rfl rfl (ackRun_latch (s := counted s) arg hlatch)

/-- A heard write of `ALERT_MODE` (R402). -/
theorem serve_alertMode {r : Requester} {line : Fin 2} {v : Nat} {s : State}
    (h : Heard r (writeFrame r (addrWord 0x04 (21 + line) 5) .u8 v) s) (hv : v < 2)
    (hsafe : s.md.mode ≠ .safe) (hb : s.md.bootRom = false) :
    serveWrite r (addrWord 0x04 (21 + line) 5) 1 v s =
      written r (addrWord 0x04 (21 + line) 5) .u8 (nth s.cfg.ev.targets (line + 1) CfgTarget.reset).alertMode v
        { counted s with cfg := { s.cfg with ev := { s.cfg.ev with
            targets := upd s.cfg.ev.targets (line + 1) fun t => { t with alertMode := v } } } } :=
  serveWrite_done (ty := .u8) (e := alertModeEl (line + 1)) h hsafe (by omega) (by omega) (by omega)
    (object_alert (s := counted s) hb line) (objAlert_alertMode (line + 1)) rfl rfl (by decide) (Or.inl rfl) rfl
    (decode_byte (by omega)) (Or.inl rfl) (checkOne_alertMode (line + 1) (counted s) hv)

/-- Where the modes in force are the ones written, the modes of the lines stay (R402). -/
theorem followModes_same {c : CfgEv} {e : Ev} (now : Nat)
    (h1 : (nth e.targets 1 EvTarget.reset).alertMode = (nth c.targets 1 CfgTarget.reset).alertMode)
    (h2 : (nth e.targets 2 EvTarget.reset).alertMode = (nth c.targets 2 CfgTarget.reset).alertMode) :
    e.followModes c now = e := by
  simp only [Ev.followModes, List.foldl_cons, List.foldl_nil, if_pos h1, if_pos h2]

/-- Taking over the coalescing settings keeps each target's mode. -/
theorem nth_configured_alertMode {l : List EvTarget} (c : Nat → CfgTarget) {k : Nat} (hk : k < l.length) :
    (nth ((indexed l).map fun (p : Nat × EvTarget) => p.2.configure (c p.1)) k EvTarget.reset).alertMode
      = (nth l k EvTarget.reset).alertMode :=
  (congrArg EvTarget.alertMode (nth_indexed_map l (fun n t => t.configure (c n)) k EvTarget.reset hk)).trans rfl

/-- Where no mode changes, only the coalescing settings come into force (R402). -/
theorem takeTargetSettings_same_modes {s : State}
    (h1 : (nth s.ev.targets 1 EvTarget.reset).alertMode = (nth s.cfg.ev.targets 1 CfgTarget.reset).alertMode)
    (h2 : (nth s.ev.targets 2 EvTarget.reset).alertMode = (nth s.cfg.ev.targets 2 CfgTarget.reset).alertMode)
    (hl : s.ev.targets.length = 3) :
    takeTargetSettings s = { s with ev := { s.ev with
      targets := (indexed s.ev.targets).map fun (p : Nat × EvTarget) => p.2.configure (nth s.cfg.ev.targets p.1 CfgTarget.reset) } } := by
  have hmode (k : Nat) (hk : k < 3) :=
    nth_configured_alertMode (l := s.ev.targets) (fun n => nth s.cfg.ev.targets n CfgTarget.reset) (hl ▸ hk)
  refine congrArg (fun e => { s with ev := e }) (followModes_same _ ?_ ?_)
  · exact (hmode 1 (by decide)).trans h1
  · exact (hmode 2 (by decide)).trans h2

/-! ## Routes (R385, R400) -/

/-- The configuration with `ROUTE` of source n written, its reserved bits left out (R14). -/
def Cfg.withRoute (n v : Nat) (c : Cfg) : Cfg :=
  { c with ev := { c.ev with routes := upd c.ev.routes n fun _ => BitVec.ofNat 8 v &&& 0xC7#8 } }

theorem routeByte_natCast (v : Nat) : routeByte v = BitVec.ofNat 8 v &&& 0xC7#8 := by
  rw [routeByte, BitVec.ofInt_natCast]

theorem routeEl_put (n v : Nat) (c : Cfg) : (routeEl n).put v c = c.withRoute n v := by
  simp only [routeEl, Elem.thenDo, Elem.lastly, field, routeByte_natCast, Cfg.withRoute]

theorem object_route {s : State} (hb : s.md.bootRom = false) : objectAt s 4 0 = some (perSource routeEl) := by
  simp only [objectAt, hb]; rfl

theorem routeBusy_idle {s : State} {n : Nat} (v : Int) (h : (s.ev.source n).state = .idle) : routeBusy s n v = 0 := by
  simp only [routeBusy, h]; rfl

/-- Clearing the enable is also taken of a source that is PENDING or HELD (R385). -/
theorem routeBusy_off {s : State} {n v : Nat} (hv : v < 128)
    (h : (s.ev.source n).state = .pending ∨ (s.ev.source n).state = .held) : routeBusy s n v = 0 := by
  have hoff : ((v : Int).toNat / 128 % 2 == 0) = true := by rw [Int.toNat_natCast, Nat.div_eq_of_lt hv]; rfl
  refine refuseIf_no _ ?_
  simp only [hoff]
  rcases h with h | h <;> rw [h] <;> rfl

/-- A route with its enable set changes no source. -/
theorem routeWritten_on {n v : Nat} {s : State} (hlo : 128 ≤ v) (hhi : v < 256) : routeWritten n v s = s := by
  rw [routeWritten, if_neg (by rw [Int.toNat_natCast]; omega)]

/-- A disabled source that was not HELD is IDLE. -/
theorem routeWritten_off {n v : Nat} {s : State} (hv : v < 128) (h : (s.ev.source n).state ≠ .held) :
    routeWritten n v s = { s with ev := s.ev.setSrc n fun x => { x with state := .idle, relatch := false } } := by
  rw [routeWritten, if_pos (by rw [Int.toNat_natCast]; omega), beq_false_of_ne h]; rfl

/-- A disabled source that was HELD is IDLE, and each target for which nothing is HELD any more starts afresh (log entry 32). -/
theorem routeWritten_off_held {n v : Nat} {s : State} (hv : v < 128) (h : (s.ev.source n).state = .held) :
    routeWritten n v s = { s with
      ev := [0, 1, 2].foldl (fun x k => x.dropCollection s.cfg.ev k)
        (s.ev.setSrc n fun x => { x with state := .idle, relatch := false }) } := by
  rw [routeWritten, if_pos (by rw [Int.toNat_natCast]; omega), h]; rfl

/-- The checks of a write of `ROUTE` that names a target and finds the source free for it. -/
theorem checkOne_route {s : State} {n v : Nat} (ht : v % 8 ≤ 5) (hfree : routeBusy s n v = 0) :
    checkOne (perSource routeEl) (routeEl n) v s = 0 :=
  have hown : refuseIf (decide (5 < (v : Int).toNat % 8)) stRange = 0 :=
    refuseIf_no _ (decide_eq_false (by rw [Int.toNat_natCast]; omega))
  checkOne_ok hown rfl hfree

/-- A heard write of `ROUTE` that is accepted, and what it leaves (R385). -/
theorem serve_route {r : Requester} {src : Fin 256} {v : Nat} {s t : State}
    (h : Heard r (writeFrame r (addrWord 0x04 0 src) .u8 v) s) (hsafe : s.md.mode ≠ .safe) (hb : s.md.bootRom = false)
    (ht : v % 8 ≤ 5) (hv : v < 256) (hfree : routeBusy s src v = 0)
    (hw : routeWritten src v { counted s with cfg := s.cfg.withRoute src v } = t) :
    serveWrite r (addrWord 0x04 0 src) 1 v s = written r (addrWord 0x04 0 src) .u8 (s.cfg.ev.route src).toNat v t := by
  rw [← hw, ← routeEl_put]
  exact serveWrite_done (ty := .u8) (e := routeEl src) h hsafe (by omega) (by omega) src.isLt (object_route (s := counted s) hb)
    (find_range_map routeEl (fun _ => rfl) src.isLt) rfl rfl (by decide) (Or.inl rfl) rfl (decode_byte hv) (Or.inl rfl)
    (checkOne_route (s := counted s) ht hfree)

/-- Settles O29: each request passes its checks and completes; the settings in force follow where no mode changes. -/
theorem alertAndRouteSettings : Obligations.AlertAndRouteSettings := by
  refine ⟨?ack, ?mode, fun s => takeTargetSettings_same_modes, ?routeOn, ?routeOff, ?routeHeld⟩
  case ack => exact fun dt r line arg s h harg hsafe hb hlatch => timed_of_effect (serve_alertAck h harg hsafe hb hlatch)
  case mode => exact fun dt r line v s h hv hsafe hb => timed_of_effect (serve_alertMode h hv hsafe hb)
  case routeOn =>
    exact fun dt r src v s h hsafe hb ht hlo hhi hidle =>
      timed_of_effect (serve_route h hsafe hb ht hhi (routeBusy_idle v hidle) (routeWritten_on hlo hhi))
  case routeOff =>
    intro dt r src v s e h hsafe hb ht hv hst
    have hfree : routeBusy e src v = 0 := hst.elim (routeBusy_idle v) fun hp => routeBusy_off hv (.inl hp)
    have hnot : (e.ev.source src).state ≠ .held := by rcases hst with hst | hst <;> rw [hst] <;> decide
    exact timed_of_effect (serve_route h hsafe hb ht (by omega) hfree (routeWritten_off hv hnot))
  case routeHeld =>
    exact fun dt r src v s h hsafe hb ht hv hheld =>
      timed_of_effect (serve_route h hsafe hb ht (by omega) (routeBusy_off hv (.inr hheld)) (routeWritten_off_held hv hheld))

end Sys2Proof.Machine
end

section
/-! SUPPORT. The ports and the switch (R4, R25, R68, R263, R270): what each of their commands does to the state at its moment. -/

namespace Sys2Proof.Machine

/-! ## Links (R68, R270) -/

/-- Port n after a change of its link: counted, its source raised, its foreign masters and its peer-delay exchange dropped. -/
def linkChanged (n : Nat) (on : Bool) (s : State) : State :=
  let u := raise (136 + n) (s.setPort n fun p =>
    { p with link := on, linkChanges := p.linkChanges + 1, pdelay := none, pdelayPrev := List.replicate 8 none })
  { u with pt := { u.pt with inst := u.pt.inst.map fun x => { x with foreign := x.foreign.filter fun f => f.port != n } } }

/-- An enabled port that is awake and booted links to a partner of the other PHY role. -/
theorem linkChange_up {n : Nat} {partnerMaster : Bool} {s : State} (hen : (s.cfg.port n).enable = 1)
    (hrole : ((s.cfg.port n).phyRole == 1) = !partnerMaster) (hboot : portsBooted s = true)
    (hawake : (s.port n).asleep = false) (hlink : (s.port n).link = false) :
    linkChange n true partnerMaster s = linkChanged n true s := by
  have hon : (true && (s.cfg.port n).enable == 1 && ((s.cfg.port n).phyRole == 1) != partnerMaster && portsBooted s
      && !(s.port n).asleep) = true := by
    rw [hen, hrole, hboot, hawake]
    cases partnerMaster <;> rfl
  simp only [linkChange, hon]
  rw [if_neg (by rw [hlink]; decide)]
  rfl

/-- A port that loses its partner loses its link. -/
theorem linkChange_down {n : Nat} {partnerMaster : Bool} {s : State} (hlink : (s.port n).link = true) :
    linkChange n false partnerMaster s = linkChanged n false s := by
  simp only [linkChange, Bool.false_and]
  rw [if_neg (by rw [hlink]; decide)]
  rfl

/-! ## Roles (R263, R271) -/

/-- A role that the profile lists is refused only as a second SLAVE of profile 3. -/
theorem roleRefused_listed {s : State} {n i v : Nat} (hv : v ≤ 4) (hlist : roleListed (profileOf s i) v = true)
    (hslave : v = 3 → profileOf s i ≠ 3) : roleRefused s n i v = false := by
  have hno : (v == 3 && profileOf s i == 3) = false := by
    rw [Bool.and_eq_false_iff, beq_eq_false_iff_ne, beq_eq_false_iff_ne]
    exact (em (v = 3)).symm.imp_right hslave
  simp only [roleRefused, hlist, hno, decide_eq_false (Nat.not_lt.2 hv), Bool.not_true, Bool.or_false, Bool.false_and]

/-- The element `ROLE` of port n for PTP domain i, behind the port's fence. -/
def portRoleEl (n i : Nat) : Elem := (roleEl n i).first fun s => refuseIf (s.isFenced (.port n)) stFenced

theorem portRoleEl_put (n i v : Nat) (c : Cfg) :
    (portRoleEl n i).put v c = { c with pt := upd c.pt n fun p => { p with roles := upd p.roles i fun _ => v } } := rfl

theorem objPort_role (n : Nat) (i : Fin 8) : (objPort n).find (8 + i) = some (portRoleEl n i) := by
  match i with
  | 0 | 1 | 2 | 3 | 4 | 5 | 6 | 7 => rfl

/-- The checks of a write of `ROLE`. -/
theorem checkOne_role {s : State} {n i v : Nat} (hfence : s.isFenced (.port n) = false) (hv : v ≤ 4)
    (hlist : roleListed (profileOf s i) v = true) (hslave : v = 3 → profileOf s i ≠ 3) :
    checkOne (objPort n) (portRoleEl n i) v s = 0 :=
  have hrefused : roleRefused { s with cfg := (portRoleEl n i).put v s.cfg } n i v = false :=
    roleRefused_listed hv hlist hslave
  have hown : (portRoleEl n i).own { s with cfg := (portRoleEl n i).put v s.cfg } v = 0 :=
    orElse_ok (refuseIf_no _ hfence) (refuseIf_no _ hrefused)
  checkOne_ok hown rfl rfl

/-- A heard write of `ROLE` (R263). -/
theorem serve_role {r : Requester} {port : Fin 14} {i : Fin 8} {v : Nat} {s : State}
    (h : Heard r (writeFrame r (addrWord 0x21 port (8 + i)) .u8 v) s) (hsafe : s.md.mode ≠ .safe) (hb : s.md.bootRom = false)
    (hfence : s.isFenced (.port port) = false) (hv : v ≤ 4) (hlist : roleListed (profileOf s i) v = true)
    (hslave : v = 3 → profileOf s i ≠ 3) :
    serveWrite r (addrWord 0x21 port (8 + i)) 1 v s =
      written r (addrWord 0x21 port (8 + i)) .u8 (s.cfg.role port i) v
        { counted s with cfg := { s.cfg with pt := upd s.cfg.pt port fun c => { c with roles := upd c.roles i fun _ => v } } } := by
  rw [← portRoleEl_put]
  exact serveWrite_done (ty := .u8) (e := portRoleEl port i) h hsafe (by omega) (by omega) (by omega)
    (object_port (s := counted s) hb port.isLt) (objPort_role port i) rfl rfl (by decide) (Or.inl rfl) rfl
    (decode_byte (by omega)) (Or.inl rfl) (checkOne_role (s := counted s) hfence hv hlist hslave)

/-! ## The copies of a PHY (R25) -/

/-- Copies that agree stand on the engine's counters, and nothing is reported. -/
theorem copyRealign_agree {n : Nat} {s : State} (hrun : s.clk.running = true) (hawake : (s.port n).asleep = false) :
    copyRealign n 0#4 s = { (s.setPort n fun p => { p with copies := [0, 0, 0, 0] }) with free := s.free + 4 } := by
  rw [copyRealign, hrun, hawake]
  rfl

/-- Copies that disagree are reported by the port's parity checker. -/
theorem copyRealign_mismatch {n : Nat} {mismatch : BitVec 4} {s : State} (hrun : s.clk.running = true)
    (hawake : (s.port n).asleep = false) (hm : mismatch ≠ 0#4) :
    copyRealign n mismatch s = takeReport (0x0500 + n) (mismatch.setWidth 32) false (realignCopies n mismatch s) := by
  rw [copyRealign, hrun, hawake]
  exact if_neg hm

/-- What the copies of an aligned PHY show. -/
theorem copyOf_realignCopies {n k : Nat} {mismatch : BitVec 4} {s : State} (hk : k < 4) (hn : n < s.pt.port.length) :
    copyOf (realignCopies n mismatch s) n k
      = (s.tbs k).now + (if mismatch.getLsbD k then Config.freeRat (s.free + k) else 0) := by
  simp [copyOf, realignCopies, State.port, hn, hk]

/-! ## The switch (R4, R262) -/

/-- The state once the switch has learned that a source is behind port n. -/
def learnSource (n src : Nat) (s : State) : State :=
  { s with pt := { s.pt with learned := (src, n) :: s.pt.learned.filter fun p => p.1 != src } }

/-- A frame that is not of PTP goes to the port learned for its destination, where that is another port in use. -/
theorem layer2_learned {n dst src etherType a m : Nat} {payload : List Byte} {s : State} (hup : portUp s n = true)
    (hmode : s.md.mode ≠ .standby) (hty : etherType ≠ 0x88F7) (hdst : s.pt.learned.find? (fun p => p.1 == dst) = some (a, m)) :
    layer2 n dst src etherType payload s =
      (((List.range 14).filter fun k => k != n && portUp s k).filter (· == m)).foldl
        (fun z k => send (.l2 k dst src etherType payload) z) (learnSource n src s) := by
  rw [layer2, if_neg (by simp [hup, hmode]), if_neg hty]
  simp only [hdst, learnSource]

/-- A frame that is not of PTP and whose destination is not learned goes to every other port in use (log entry 14). -/
theorem layer2_flooded {n dst src etherType : Nat} {payload : List Byte} {s : State} (hup : portUp s n = true)
    (hmode : s.md.mode ≠ .standby) (hty : etherType ≠ 0x88F7) (hdst : s.pt.learned.find? (fun p => p.1 == dst) = none) :
    layer2 n dst src etherType payload s =
      ((List.range 14).filter fun k => k != n && portUp s k).foldl
        (fun z k => send (.l2 k dst src etherType payload) z) (learnSource n src s) := by
  rw [layer2, if_neg (by simp [hup, hmode]), if_neg hty]
  simp only [hdst, learnSource]

/-- A PTP frame on a fenced port, or one that no domain handles, is discarded and counted. -/
theorem layer2_ptp_discarded {n dst src : Nat} {payload : List Byte} {s : State} (hup : portUp s n = true)
    (hmode : s.md.mode ≠ .standby) (h : s.isFenced (.port n) = true ∨ (ptpAlive s n = true ∧ ptpForeign s payload = true)) :
    layer2 n dst src 0x88F7 payload s = discardPtp n s := by
  rw [layer2, if_neg (by simp [hup, hmode]), if_pos rfl, if_pos (by rwa [Bool.or_eq_true, Bool.and_eq_true])]

/-- Any other PTP frame is left to the command of its message (log entry 118). -/
theorem layer2_ptp_left {n dst src : Nat} {payload : List Byte} {s : State} (hfence : s.isFenced (.port n) = false)
    (h : ptpAlive s n = false ∨ ptpForeign s payload = false) : layer2 n dst src 0x88F7 payload s = s := by
  have hno : (s.isFenced (.port n) || (ptpAlive s n && ptpForeign s payload)) = false := by
    rwa [hfence, Bool.false_or, Bool.and_eq_false_iff]
  rw [layer2, if_pos rfl, hno, if_neg Bool.false_ne_true, ite_self]

/-- Settles O45: one lemma for each command of the ports and of the switch. -/
theorem portsAndSwitch : Obligations.PortsAndSwitch := by
  refine ⟨?up, ?down, ?role, ?agree, ?mismatch, fun n k m s => copyOf_realignCopies, ?learned, ?flooded, ?discarded, ?left⟩
  case up => exact fun dt port pm s hen hrole hboot hawake hlink => timed_of_effect (linkChange_up hen hrole hboot hawake hlink)
  case down => exact fun dt port pm s hlink => timed_of_effect (linkChange_down hlink)
  case role =>
    exact fun dt r port i v s h hsafe hb hfence hv hlist hslave =>
      timed_of_effect (serve_role h hsafe hb hfence hv hlist hslave)
  case agree => exact fun dt port s hrun hawake => timed_of_effect (copyRealign_agree hrun hawake)
  case mismatch => exact fun dt port m s hrun hawake hm => timed_of_effect (copyRealign_mismatch hrun hawake hm)
  case learned =>
    exact fun dt port dst src ty payload a m s hup hmode hty hdst => timed_of_effect (layer2_learned hup hmode hty hdst)
  case flooded =>
    exact fun dt port dst src ty payload s hup hmode hty hdst => timed_of_effect (layer2_flooded hup hmode hty hdst)
  case discarded =>
    rintro dt port dst src _ payload s e hup hmode rfl h
    exact timed_of_effect (layer2_ptp_discarded hup hmode h)
  case left =>
    rintro dt port dst src _ payload s e rfl hfence h
    exact timed_of_effect (layer2_ptp_left hfence h)

end Sys2Proof.Machine
end

section
/-! SUPPORT. A step, the state after reset, the passing of time and the commit (R18, R32, R72, R208): what each leaves. -/

namespace Sys2Proof.Machine

/-! ## Steps (R403) -/

/-- With a command at the front of the queue a step runs it, the rest left waiting. -/
theorem step_of_pending {c : Instr} {rest : List Instr} {s : State} (h : s.pending = c :: rest) :
    step s = exec c { s with pending := rest } := by
  rw [step, h]

/-- On an empty queue a step leaves the state (log entry 1). -/
theorem step_of_empty {s : State} (h : s.pending = []) : step s = .next s := by
  rw [step, h]

/-- Settles O1: the two cases of the queue. -/
theorem stepRunsFrontCommand : Obligations.StepRunsFrontCommand :=
  ⟨fun _ _ _ => step_of_pending, fun _ => step_of_empty⟩

/-! ## Reset (R72) -/

theorem reset_unpowered : State.reset.powered = false := rfl

/-- Without power nothing is shown and no request waits (R72, R461). -/
theorem reset_consistent : Consistent State.reset := by
  refine ⟨fun h => ?_, fun _ => rfl, fun x hx => ?_⟩
  · exact absurd (reset_unpowered.symm.trans h.1) Bool.false_ne_true
  · exact absurd hx (List.not_mem_nil (a := x))

/-- Settles O3: nothing of the state after reset has power or waits. -/
theorem resetConsistent : Obligations.ResetConsistent := ⟨reset_consistent, reset_sram_wf, rfl⟩

/-! ## The passing of time (R18) -/

theorem elapse_clk (dt : Nat) (s : State) : (elapse dt s).clk = s.clk.ticked dt :=
  congrArg State.clk (elapse_steady dt s)

theorem elapse_clk_running {dt : Nat} {s : State} (h : s.clk.running = true) :
    (elapse dt s).clk = { s.clk with count := s.clk.count + dt } := by
  rw [elapse_clk, Clk.ticked, if_pos h]

theorem elapse_clk_standing {dt : Nat} {s : State} (h : s.clk.running = false) : (elapse dt s).clk = s.clk := by
  rw [elapse_clk, Clk.ticked, if_neg (by rw [h]; exact Bool.false_ne_true)]

/-- Where nothing waits for the next cycle, time moves what runs by itself and nothing else. -/
theorem elapse_plain_apart {dt : Nat} {s : State} (h : nextCycleDue s = false) :
    { elapse dt s with tx := s.tx, clk := s.clk, dp := s.dp, tb := s.tb, ou := s.ou, ev := s.ev, sc := s.sc } = s := by
  rw [elapse_plain dt s h]
  have hnote := noteTargets_apart true (advance dt s) s.ev s.sc
  have hadv := congrArg (fun z : State => { z with sc := s.sc }) (advance_apart dt s)
  exact (congrArg (fun z : State => { z with tx := s.tx, clk := s.clk, dp := s.dp, tb := s.tb, ou := s.ou }) hnote).trans hadv

/-- What waits for the next cycle takes effect in it, before the rest of the time passes (R81, R130, R208, R245, R402; log entry 134). -/
theorem pass_due {dt : Nat} {s : State} (hrun : s.clk.running = true) (hdue : nextCycleDue s = true) (hdt : 0 < dt) :
    pass dt s = passCycles 3 (dt - 1)
      (nextCycle (commitPending s) (modeWaits s) (selectionDue s) (takeSettings (advance 1 s))) := by
  have hnow : (nextCycleDue s && s.clk.running && decide (0 < dt)) = true := by rw [hdue, hrun, decide_eq_true hdt]; rfl
  rw [pass, passCycles, if_pos hnow]

/-- Time that passes, with what follows it, moves the engine count and what settles, and nothing else. -/
theorem finish_elapse_steady (dt : Nat) (s : State) : (finish (elapse dt s)).steady = (s.ticked dt).steady :=
  (steady_of_rest (finish_rest _)).trans (elapse_steady dt s)

/-- What a state that differs from another in nothing but what settles and the engine count has of it. -/
theorem parts_of_steady {dt : Nat} {s t : State} (h : t.steady = (s.ticked dt).steady) :
    { t.cfg with utc := s.cfg.utc } = s.cfg ∧ t.nv = s.nv ∧ t.nvc = s.nvc ∧ t.pwr = s.pwr ∧ t.cores = s.cores ∧ t.fc = s.fc
      ∧ t.tc = s.tc ∧ t.ax = s.ax ∧ t.jr = s.jr ∧ t.sram = s.sram ∧ t.free = s.free ∧ t.pending = s.pending := by
  have keeps {α : Type} (part : State → α) := congrArg part h
  exact ⟨keeps fun z => { z.cfg with utc := s.cfg.utc }, keeps State.nv, keeps State.nvc, keeps State.pwr, keeps State.cores,
    keeps State.fc, keeps State.tc, keeps State.ax, keeps State.jr, keeps State.sram, keeps State.free, keeps State.pending⟩

/-- Settles O7: what time moves is in `Laws/Elapse`; the parts that nothing moves are read off there. -/
theorem timePassesAlone : Obligations.TimePassesAlone :=
  ⟨fun _ _ => elapse_clk_running, fun _ _ => elapse_clk_standing, fun _ _ => elapse_plain_apart, fun _ _ => pass_due,
    fun dt s => parts_of_steady (finish_elapse_steady dt s)⟩

/-! ## The commit (R32, R193, R207, R208) -/

/-- Core c has the plan and the channel of a shadow. -/
def hasPlan (s : State) (c : Nat) (new : CfgSn) : Prop := (s.syn c).plan = new.plan ∧ (s.syn c).channel = new.channel

/-- What a commit leaves of the cores: each one of the list has its new plan and channel. -/
theorem commitCores_done (sn : List CfgSn) (l : List Nat) (s : State) :
    let t := l.foldl (fun s c => commitCore s c (nth sn c CfgSn.reset)) s
    t.cfg = s.cfg ∧ t.dp = s.dp ∧ t.tb = s.tb ∧ t.clk = s.clk ∧ t.sn.core.length = s.sn.core.length
      ∧ t.ou.out.length = s.ou.out.length
      ∧ ∀ c, c < s.sn.core.length → (c ∈ l ∨ hasPlan s c (nth sn c CfgSn.reset)) → hasPlan t c (nth sn c CfgSn.reset) := by
  induction l generalizing s with
  | nil => exact ⟨rfl, rfl, rfl, rfl, rfl, rfl, fun c _ h => h.resolve_left List.not_mem_nil⟩
  | cons a l ih =>
    obtain ⟨cfg, dp, tb, clk, cores, outs, -, made, others⟩ := commitCore_done s a (nth sn a CfgSn.reset)
    obtain ⟨cfg', dp', tb', clk', cores', outs', all'⟩ := ih (commitCore s a (nth sn a CfgSn.reset))
    refine ⟨cfg'.trans cfg, dp'.trans dp, tb'.trans tb, clk'.trans clk, cores'.trans cores, outs'.trans outs, fun c hc h => ?_⟩
    refine all' c (cores ▸ hc) ?_
    by_cases hca : c = a
    · subst hca; exact .inr (made hc)
    · refine h.imp (fun hm => (List.mem_cons.1 hm).resolve_left hca) fun hp => ?_
      rwa [hasPlan, others c hca]

/-- What a commit leaves. -/
theorem commitNow_done {s : State} (hcores : s.sn.core.length = 4) (houts : s.ou.out.length = 32) :
    let t := commitNow s
    let new := cutShadows s
    (∀ c, c < 4 → hasPlan t c (nth new.1 c CfgSn.reset))
      ∧ (∀ n, n < 32 → (t.out n).active = (nth new.2 n CfgOu.reset).shadow)
      ∧ t.sn.armed = none ∧ t.sn.commitState = 2 ∧ t.sn.lastCommit = s.clk.count
      ∧ t.cfg = s.cfg ∧ t.dp = s.dp ∧ t.tb = s.tb := by
  rcases hnew : cutShadows s with ⟨sn, ou⟩
  obtain ⟨cfg, dp, tb, clk, cores, outs, plans⟩ := commitCores_done sn [0, 1, 2, 3] s
  simp only [commitNow, hnew]
  generalize [0, 1, 2, 3].foldl (fun s c => commitCore s c (nth sn c CfgSn.reset)) s = u at *
  obtain ⟨cfg', sn', dp', tb', clk', outs', actives⟩ := commitOuts_done ou (List.range 32) u
  generalize (List.range 32).foldl (fun s n => commitOut s n (nth ou n CfgOu.reset).shadow) u = v at *
  refine ⟨fun c hc => ?_, fun n hn => ?_, rfl, rfl, rfl, cfg'.trans cfg, dp'.trans dp, tb'.trans tb⟩
  · have hp := plans c (by omega) (.inl (by simp; omega))
    unfold hasPlan State.syn at *
    rwa [← sn'] at hp
  · exact actives n (by omega) (.inl (List.mem_range.2 hn))

/-- Outside the cycle of a write the shadows are those of the configuration (R32). -/
theorem cutShadows_before {s : State} (h : (s.sn.cut.any fun x => x.1 == s.clk.count) = false) :
    cutShadows s = (s.cfg.sn, s.cfg.ou) := by
  unfold cutShadows
  split
  · next t sn ou hcut =>
    rw [hcut] at h
    exact if_neg (by simpa using h)
  · rfl

/-- In the cycle of a write they are those before it (R32). -/
theorem cutShadows_cut {s : State} {sn : List CfgSn} {ou : List CfgOu} (h : s.sn.cut = some (s.clk.count, sn, ou)) :
    cutShadows s = (sn, ou) := by
  rw [cutShadows, h]
  exact if_pos rfl

/-- Settles O38: first the cores, then the outputs, then the state of the commit. -/
theorem commitCopiesEveryShadow : Obligations.CommitCopiesEveryShadow :=
  ⟨fun _ => commitNow_done, fun _ => cutShadows_before, fun _ _ _ => cutShadows_cut⟩

end Sys2Proof.Machine
end

section
/-! SUPPORT. Processors and the supervision of the OCXO (R30, R33, R118, R164, R353): what each of their commands does to the state at
its moment. -/

namespace Sys2Proof.Machine

/-! ## Cores (R30, R33, R353) -/

/-- A core that runs is not fenced. -/
theorem not_fenced_of_runs {s : State} {c : Nat} (h : s.runs c = true) : s.core c ≠ .fenced := by
  rw [beq_iff_eq.1 h]; decide

/-- A running core other than the STEER core stops alone. -/
theorem coreStops_other {c : Nat} {s : State} (hrun : s.runs c = true) (hc : c ≠ 1) :
    coreStops c s = { s with
      cores := upd s.cores c fun _ => .stopped, stoppedAt := upd s.stoppedAt c fun _ => some s.clk.count } := by
  rw [coreStops, if_pos hrun, stopCore, if_neg (not_fenced_of_runs hrun), steerStops, if_neg hc]

/-- With the STEER core the rate corrections stand (R33). -/
theorem coreStops_steer {s : State} (hrun : s.runs 1 = true) :
    coreStops 1 s = { s with
      cores := upd s.cores 1 fun _ => .stopped, stoppedAt := upd s.stoppedAt 1 fun _ => some s.clk.count,
      tb := (indexed s.tb).map fun (p : Nat × Tb) => { p.2 with frozenC := some (tbCorr (s.cfg.tbs p.1) p.2) } } := by
  rw [coreStops, if_pos hrun, stopCore, if_neg (not_fenced_of_runs hrun), steerStops, if_pos rfl]
  rfl

/-- Whether the 100 ms of a watchdog that has run since `c0` are over. -/
theorem watchdogRan_since {s : State} {c c0 : Nat} (h : nth s.stoppedAt c none = some c0) :
    watchdogRan s c = decide (c0 + 100000000 ≤ s.clk.count) := by
  rw [watchdogRan, h]

theorem watchdogTimeout_due {s : State} {c c0 : Nat} (hstop : s.core c = .stopped) (h : nth s.stoppedAt c none = some c0)
    (hdue : c0 + 100000000 ≤ s.clk.count) : watchdogTimeout c s = reportFree (0x1100 + c) s := by
  rw [watchdogTimeout, watchdogRan_since h, decide_eq_true hdue, hstop]; rfl

theorem watchdogTimeout_early {s : State} {c c0 : Nat} (h : nth s.stoppedAt c none = some c0)
    (hearly : s.clk.count < c0 + 100000000) : watchdogTimeout c s = s := by
  rw [watchdogTimeout, watchdogRan_since h, decide_eq_false (by omega), Bool.and_false, if_neg Bool.false_ne_true]

theorem coreWrites_outside {s : State} {c : Nat} {w : SramWrite} (syn : BitVec 32) (hrun : s.runs c = true)
    (h : mayWrite c w.addr = false) : coreWrites c w syn s = takeReport (0x1200 + c) syn false s := by
  rw [coreWrites, hrun, h]; rfl

theorem coreWrites_inside {s : State} {c : Nat} {w : SramWrite} (syn : BitVec 32) (hrun : s.runs c = true)
    (h : mayWrite c w.addr = true) :
    coreWrites c w syn s = { s with sram := { s.sram with mem := writeByte s.sram.mem w.addr w.value } } := by
  rw [coreWrites, hrun, h]; rfl

/-- The region table of R30. -/
theorem mayWrite_eq (c : Fin 3) {addr : Nat} (h : addr < 0x400000) :
    mayWrite c addr = decide ((c = 0 ∧ addr < 0x200000) ∨ (c = 1 ∧ 0x200000 ≤ addr ∧ addr < 0x300000)
      ∨ (c = 2 ∧ 0x300000 ≤ addr ∧ addr < 0x380000) ∨ (c ≠ 2 ∧ 0x380000 ≤ addr)) := by
  rw [Bool.eq_iff_iff]
  match c with
  | 0 => simp [mayWrite, sramRegions]; omega
  | 1 => simp [mayWrite, sramRegions]; omega
  | 2 => simp [mayWrite, sramRegions]

/-! ## The gates of the OCXO (R164) -/

/-- The gross gate with the count of bad gates that it leaves. -/
theorem grossGate_counts {s : State} {offset : Rat} {n : Nat} (syn : BitVec 32) (hrun : s.clk.running = true)
    (hn : (if 200 < absR offset then s.md.grossBad + 1 else 0) = n) :
    grossGate offset syn s =
      if 2 ≤ n then takeReport 0x0D01 syn false { s with md := { s.md with grossBad := n } }
      else { s with md := { s.md with grossBad := n } } := by
  rw [grossGate, hrun, hn]; rfl

/-- The fine gate with the count of bad gates that it leaves, while the oven is ready. -/
theorem fineGate_counts {s : State} {offset : Rat} {n : Nat} (syn : BitVec 32) (hrun : s.clk.running = true)
    (hoven : s.md.ovenReady = true) (hn : (if 10 < absR (fineOffset s offset) then s.md.fineBad + 1 else 0) = n) :
    fineGate offset syn s =
      if 3 ≤ n then takeReport 0x0D02 syn false { s with md := { s.md with fineBad := n } }
      else { s with md := { s.md with fineBad := n } } := by
  rw [fineGate, hrun, hoven, hn]; rfl

/-! ## The consensus test (R118) -/

/-- The test reports where it begins to hold. -/
theorem consensusTest_running {s : State} (hrun : s.clk.running = true) (hstop : s.rf.stopped = false) :
    consensusTest s =
      let u := { s with md := { s.md with ocxoSuspect := (consensus s).1 } }
      if (consensus s).1 && !s.md.ocxoSuspect then
        takeReport 0x0D03 (BitVec.ofInt 32 (readInt ((consensus s).2 / 1000))) false u
      else u := by
  rw [consensusTest, hrun, hstop]; rfl

/-- Settles O23: one lemma for each command, and for the gates one with the count that they leave. -/
theorem processorsAndOcxoSupervision : Obligations.ProcessorsAndOcxoSupervision := by
  refine ⟨?stop, ?steer, ?watchdog, ?early, ?outside, ?inside, fun c addr => mayWrite_eq c, ?grossGood, ?grossReport, ?grossFirst,
    ?fineFirst, ?fineGood, ?fineReport, ?noConsensus, ?consensus⟩
  case stop => exact fun dt c s hrun hc => timed_of_effect (coreStops_other hrun (fun h => hc (Fin.ext h)))
  case steer => exact fun dt s hrun => timed_of_effect (coreStops_steer hrun)
  case watchdog => exact fun dt c c0 s hstop h hdue => timed_of_effect (watchdogTimeout_due hstop h hdue)
  case early => exact fun dt c c0 s h hearly => timed_of_effect (watchdogTimeout_early h hearly)
  case outside => exact fun dt c w syn s hrun h => timed_of_effect (coreWrites_outside syn hrun h)
  case inside => exact fun dt c w syn s hrun h => timed_of_effect (coreWrites_inside syn hrun h)
  case grossGood =>
    exact fun dt offset syn s hrun hgood => timed_of_effect (grossGate_counts syn hrun (if_neg (not_lt.2 hgood)))
  case grossReport =>
    exact fun dt offset syn s hrun hbad hcount =>
      timed_of_effect ((grossGate_counts syn hrun (if_pos hbad)).trans (if_pos (Nat.succ_le_succ hcount)))
  case grossFirst =>
    intro dt offset syn s e hrun hbad hcount
    have hone : (if 200 < absR offset then e.md.grossBad + 1 else 0) = 1 := by rw [if_pos hbad, hcount]
    exact timed_of_effect (grossGate_counts syn hrun hone)
  case fineFirst =>
    exact fun dt offset syn s hrun hoven hbad hcount =>
      timed_of_effect ((fineGate_counts syn hrun hoven (if_pos hbad)).trans (if_neg (by omega)))
  case fineGood =>
    exact fun dt offset syn s hrun hoven hgood => timed_of_effect (fineGate_counts syn hrun hoven (if_neg (not_lt.2 hgood)))
  case fineReport =>
    exact fun dt offset syn s hrun hoven hbad hcount =>
      timed_of_effect ((fineGate_counts syn hrun hoven (if_pos hbad)).trans (if_pos (Nat.succ_le_succ hcount)))
  case noConsensus =>
    intro dt s e hrun hstop h
    refine timed_of_effect ((consensusTest_running hrun hstop).trans (if_neg ?_))
    rcases h with h | h <;> simp [e, h]
  case consensus =>
    intro dt s e hrun hstop hholds hwas
    have hnew : ((consensus e).1 && !e.md.ocxoSuspect) = true := by rw [hholds, hwas]; rfl
    have heff := (consensusTest_running hrun hstop).trans (if_pos hnew)
    rw [hholds] at heff
    exact timed_of_effect heff

end Sys2Proof.Machine
end

section
/-! SUPPORT. The second of Lantern (R23, R167 to R169). -/

namespace Sys2Proof.Machine

/-- While the engine runs T and P follow their sensors, F is evaluated from them, and each channel has its second (R23, R167). -/
theorem lanternEvaluate_running {s : State} (hrun : s.clk.running = true) :
    lanternEvaluate s =
      let u := { s with ln := { s.ln with
        tInt := some (lagStep s.cfg.ln.tempLag s.ln.tInt s.pwr.tBase),
        pInt := some (lagStep s.cfg.ln.loadLag s.ln.pInt s.pwr.load) } }
      (List.range 8).foldl lanternSecond
        { u with ln := { u.ln with f := (fNow u).1, extrap := (fNow u).2.1, unmod := (fNow u).2.2 } } := by
  rw [lanternEvaluate, hrun]; rfl

/-- The cell of T and P is in the list of the populated ones exactly where it is populated. -/
theorem populatedCells_contains {cfg : CfgLn} {m : Model} {c : Nat} (hpop : populated cfg m c = true) (hc : c < 72) :
    (populatedCells cfg m).contains c = true :=
  List.contains_iff_mem.2 (List.mem_filter.2 ⟨List.mem_range.2 hc, hpop⟩)

/-- In a populated cell F is the value of that cell with the ageing terms (R168). -/
theorem evalF_populated {cfg : CfgLn} {m : Model} {t p a : Rat} (hon : cfg.modelEnable = 1)
    (hpop : populated cfg m (cellOf t p) = true) (hc : cellOf t p < 72) :
    evalF cfg m t p a = (cellValue (m.cell (cellOf t p)) t p + ageing m a, false, false) := by
  unfold evalF
  simp only [hon, populatedCells_contains hpop hc, ne_eq, not_true_eq_false, if_false, if_true, bne_self_eq_false]

/-- Settles O34: the evaluation, the second of a channel in holdover, F in a populated cell, and corners of the cell map. -/
theorem lanternSecond_holds : Obligations.LanternSecond := by
  refine ⟨?evaluation, ?second, ?cell, fun t p => rfl, ?corners⟩
  case evaluation => exact fun dt s hrun => timed_of_effect (lanternEvaluate_running hrun)
  case second => exact fun n s hho hdp hst => lanternSecond_hold n s hho hdp hst
  case cell => exact fun cfg m t p a hon hpop hc => evalF_populated hon hpop hc
  case corners => decide +kernel

end Sys2Proof.Machine
end

section
/-! SUPPORT. The Syncs of a domain (R248, R249, R262, R266, R358): what each of their commands does to the state at its moment. -/

namespace Sys2Proof.Machine

/-! ## Reception (R262, R358) -/

/-- A live port carries frames and is not fenced. -/
theorem ptpAlive_up {s : State} {n : Nat} (h : ptpAlive s n = true) : portUp s n = true ∧ s.isFenced (.port n) = false := by
  simp only [ptpAlive, ptpUp, Bool.and_eq_true, Bool.not_eq_true'] at h
  obtain ⟨⟨⟨⟨hup, hfence⟩, -⟩, -⟩, -⟩ := h
  exact ⟨hup, hfence⟩

/-- A fenced port counts every frame and does nothing else (R358). -/
theorem ptpReceive_fenced {s : State} {n : Nat} {h : PtpHdr} (f : Nat → State → State) (hup : portUp s n = true)
    (hfence : s.isFenced (.port n) = true) : ptpReceive n h f s = discardPtp n s := by
  rw [ptpReceive, hup, hfence]; rfl

/-- A frame whose header no domain carries is counted (R262). -/
theorem ptpReceive_foreign {s : State} {n : Nat} {h : PtpHdr} (f : Nat → State → State) (halive : ptpAlive s n = true)
    (hinst : instOf s h = none) : ptpReceive n h f s = discardPtp n s := by
  obtain ⟨hup, hfence⟩ := ptpAlive_up halive
  rw [ptpReceive, hup, hfence, halive, hinst]; rfl

/-- A frame whose header a domain carries is left to it (R262). -/
theorem ptpReceive_handled {s : State} {n i : Nat} {h : PtpHdr} (f : Nat → State → State) (halive : ptpAlive s n = true)
    (hinst : instOf s h = some i) : ptpReceive n h f s = f i s := by
  obtain ⟨hup, hfence⟩ := ptpAlive_up halive
  rw [ptpReceive, hup, hfence, halive, hinst]; rfl

/-! ## Sync and Follow_Up (R248, R249, R266) -/

/-- The state in which a Sync has restarted the receipt timer of its domain. -/
def syncTimed (i : Nat) (s : State) : State := s.setDom i fun d => { d with syncDue := some (s.clk.count + syncTimeoutNs s i) }

theorem syncReceive_oneStep {s : State} {n i : Nat} {h : PtpHdr} (g : Option (Nat × Int)) (origin ratio : Rat)
    (hslave : s.portState n i = .slave) :
    syncReceive n h (.oneStep g) origin ratio i s =
      syncComplete i n s.clk.count (copyOf s n (i / 2)) origin h.corr ratio (noteGm i g (syncTimed i s)) := by
  rw [syncReceive, if_neg (not_not.2 hslave)]; rfl

theorem syncReceive_twoStep {s : State} {n i : Nat} {h : PtpHdr} (origin ratio : Rat) (hslave : s.portState n i = .slave) :
    syncReceive n h .twoStep origin ratio i s =
      (syncTimed i s).setInst i fun x =>
        { x with wait := some { port := n, seqId := h.seqId, rx := copyOf s n (i / 2), corr := h.corr, atNs := s.clk.count } } := by
  rw [syncReceive, if_neg (not_not.2 hslave)]; rfl

/-- The Follow_Up that a two-step Sync waits for completes it (R249). -/
theorem followUpReceive_matched {s : State} {n i : Nat} {h : PtpHdr} {w : SyncWait} (origin ratio : Rat) (g : Option (Nat × Int))
    (hslave : s.portState n i = .slave) (hwait : (s.inst i).wait = some w) (hport : w.port = n) (hseq : w.seqId = h.seqId) :
    followUpReceive n h origin ratio g i s =
      syncComplete i n w.atNs w.rx origin (w.corr + h.corr) ratio (noteGm i g s) := by
  rw [followUpReceive, if_neg (not_not.2 hslave), hwait]
  exact if_pos ⟨hport, hseq⟩

/-! ## The grandmaster's time base (R266) -/

/-- In the profiles of IEEE 802.1AS a carried indicator is noted, and a changed one counted with source 133. -/
theorem noteGm_carried {s : State} {i v : Nat} {ph : Int} (hprof : 2 ≤ profileOf s i) :
    noteGm i (some (v, ph)) s =
      let u := (s.setDom i fun d => { d with gmInd := some v }).setInst i fun x => { x with gmPhase := ph }
      if (s.domi i).gmInd = none ∨ (s.domi i).gmInd = some v then u
      else raise 133 (u.setInst i fun x => { x with gmChanges := x.gmChanges + 1 }) := by
  simp only [noteGm]
  rw [if_neg (Nat.not_lt.2 hprof)]
  rcases hind : (s.domi i).gmInd with _ | w
  · rfl
  · by_cases hw : w = v
    · simp [hw]
    · simp [hw]

/-- Outside those profiles, or where none is carried, nothing is noted. -/
theorem noteGm_nothing {s : State} {i : Nat} {g : Option (Nat × Int)} (h : profileOf s i < 2 ∨ g = none) : noteGm i g s = s := by
  rcases g with _ | ⟨v, ph⟩
  · rfl
  · exact if_pos (h.resolve_right nofun)

/-- Settles O42: a frame is discarded or reaches its domain, and there one lemma says what each message does. -/
theorem syncsAndFollowUps : Obligations.SyncsAndFollowUps := by
  refine ⟨?oneStep, ?twoStep, ?foreign, ?fenced, ?followUp, ?complete, fun i v ph s => noteGm_carried, fun i g s => noteGm_nothing⟩
  case oneStep =>
    exact fun dt port h origin ratio g i s halive hinst hslave =>
      timed_of_effect ((ptpReceive_handled _ halive hinst).trans (syncReceive_oneStep g origin ratio hslave))
  case twoStep =>
    exact fun dt port h origin ratio i s halive hinst hslave =>
      timed_of_effect ((ptpReceive_handled _ halive hinst).trans (syncReceive_twoStep origin ratio hslave))
  case foreign =>
    exact fun dt port h kind origin ratio s halive hinst => timed_of_effect (ptpReceive_foreign _ halive hinst)
  case fenced =>
    exact fun dt port h kind origin ratio s hup hfence => timed_of_effect (ptpReceive_fenced _ hup hfence)
  case followUp =>
    exact fun dt port h origin ratio g w i s halive hinst hslave hwait hport hseq =>
      timed_of_effect ((ptpReceive_handled _ halive hinst).trans
        (followUpReceive_matched origin ratio g hslave hwait hport hseq))
  case complete => exact fun i n at_ rx origin corr ratio s => rfl

end Sys2Proof.Machine
end

section
/-! SUPPORT. The start-up sequence (R35, R43, R83 to R85, R94, R219, R225, R239): what each of its commands does. -/

namespace Sys2Proof.Machine

/-! ## POWER_UP (R83, R94) -/

theorem powerUp_unpowered {s : State} (i : StartIn) (sealDur entryDur : Nat) (h : s.powered = false) :
    powerUp i sealDur entryDur s = runSteps i sealDur entryDur (reportCodings (railsQualified i s)) := by
  rw [powerUp, h]; rfl

/-- A start that waited for PFAIL to clear runs from step 1 again (R94). -/
theorem powerUp_again {s : State} (i : StartIn) (sealDur entryDur : Nat) (h : s.powered = true) (hwait : s.md.phase = .waiting)
    (hpfail : s.pwr.pfail = false) : powerUp i sealDur entryDur s = runSteps i sealDur entryDur s := by
  rw [powerUp, h, if_neg (by decide : ¬ (!true) = true), if_pos ⟨hwait, by rw [hpfail]; rfl⟩]

/-- The steps of a start that no PFAIL cuts (R83, R85). -/
theorem runSteps_whole (i : StartIn) (sealDur entryDur : Nat) (s : State) (h : i.stopped = none) :
    runSteps i sealDur entryDur s =
      let one := settle (stepOne i (elapse i.load s))
      let two := settle (stepTwo i (elapse i.bist one))
      startHold sealDur entryDur (settle (stepThree i (tablesAfter (i.bist + i.boot) (elapse i.boot two)))) := by
  rw [runSteps, h]

/-- A PFAIL during step 1 cuts the sequence there (R94). -/
theorem runSteps_cut {i : StartIn} {n : Nat} (sealDur entryDur : Nat) (s : State) (h : i.stopped = some n) (hn : n < i.load) :
    runSteps i sealDur entryDur s = stopStart (elapse n s) := by
  rw [runSteps, h]
  exact if_pos hn

/-- A start is counted in NV, with the epoch that each timebase begins (R239). -/
theorem railsQualified_nv (i : StartIn) (s : State) :
    (railsQualified i s).nv = { s.nv with
      startCount := s.nv.startCount + 1,
      epochs := (List.range 4).map fun k => some (((nth s.nv.epochs k none).map (· + 1)).getD 1) } := by
  simp only [railsQualified, raise_nv]
  refine congrArg (fun l => { s.nv with startCount := s.nv.startCount + 1, epochs := l }) (List.map_congr_left fun k _ => ?_)
  cases nth s.nv.epochs k none <;> rfl

/-- Each timebase begins a new epoch (R239). -/
theorem railsQualified_epochs (i : StartIn) (s : State) :
    (railsQualified i s).tb.map (·.epoch) = (List.range 4).map fun k => ((nth s.nv.epochs k none).map (· + 1)).getD 1 := by
  simp only [railsQualified, raise_tb, List.map_map]
  refine List.map_congr_left fun k _ => ?_
  simp only [Function.comp_apply]
  cases nth s.nv.epochs k none <;> rfl

/-! ## The seal and FREERUN (R35, R80, R85, R219) -/

/-- The hold ends in the seal and FREERUN (R85). -/
theorem finishStart_held {s : State} (sealDur entryDur : Nat) (hphase : s.md.phase = .hold) (hsafe : s.md.mode ≠ .safe) :
    finishStart sealDur entryDur s = enterFreerun (elapse entryDur (settle (sealLimits (elapse sealDur s)))) := by
  rw [finishStart, if_neg (by simp [hphase, hsafe])]

theorem holdExpiry_over {s : State} (sealDur entryDur : Nat) (hphase : s.md.phase = .hold) (hseal : s.md.sealed = false)
    (hend : s.md.holdEnd ≤ s.clk.count) : holdExpiry sealDur entryDur s = finishStart sealDur entryDur s :=
  if_pos ⟨hphase, by rw [hseal]; rfl, hend⟩

/-- The object of the commands of SY (R85, R88, R82). -/
theorem object_syCommands (s : State) : objectAt s 1 12 = some
    { els := [command 0 .u8 sleepRun, command 1 .u8 (sealNowRun 0 0), command 2 .u8 enterSafeRun] } := rfl

/-- A heard `SEAL_NOW` within the hold (R85). -/
theorem serveSealNow_held {r : Requester} {arg : Nat} {s : State} (sealDur entryDur : Nat)
    (h : Heard r (commandFrame r (addrWord 0x01 12 1) .u8 arg) s) (harg : arg < 256) (hphase : s.md.phase = .hold)
    (hseal : s.md.sealed = false) (hsafe : s.md.mode ≠ .safe) :
    serveSealNow r arg sealDur entryDur s = commanded r (addrWord 0x01 12 1) .u8 arg
      (enterFreerun (elapse entryDur (settle (sealLimits (elapse sealDur (counted s)))))) := by
  have hrun : sealNowRun sealDur entryDur arg (counted s) =
      (stOk, enterFreerun (elapse entryDur (settle (sealLimits (elapse sealDur (counted s)))))) := by
    rw [sealNowRun, if_pos ⟨hphase, by rw [counted_md, hseal]; rfl⟩, finishStart_held (s := counted s) _ _ hphase hsafe]
  exact command_done (ty := .u8) (t := fun e => { e with run := sealNowRun sealDur entryDur }) (e := command 1 .u8 (sealNowRun 0 0))
    h hsafe (by omega) (by omega) (by omega) (object_syCommands (counted s)) rfl rfl rfl (decode_byte harg) (Or.inl rfl) rfl rfl hrun

/-- The limits of NV are taken where step 1's check passed and a copy is valid (R35, R219; log entry 64). -/
theorem sealLimits_nv {s : State} {k : CfgCopy} (hok : s.md.limitsOk = true) (hcopy : newestCopy s.nv = some k) :
    sealLimits s = { s with
      cfg := k.cfg.withLimits s.cfg, md := { s.md with sealed := true, limitSource := 0 },
      ou := { s.ou with heartbeatAt := s.clk.count } } := by
  simp only [sealLimits, hok, hcopy, if_true]
  rfl

/-- Otherwise the fail-closed set is sealed, with source 10 (R219; log entry 64). -/
theorem sealLimits_closed {s : State} (h : s.md.limitsOk = false ∨ newestCopy s.nv = none) :
    sealLimits s = raise 10 { s with
      cfg := s.cfg.failClosed, md := { s.md with sealed := true, limitSource := 1 },
      ou := { s.ou with heartbeatAt := s.clk.count } } := by
  by_cases hok : s.md.limitsOk = true
  · have hnone : newestCopy s.nv = none := h.resolve_left (by rw [hok]; decide)
    simp only [sealLimits, hok, hnone, if_true]
    rfl
  · simp only [sealLimits, Bool.not_eq_true _ ▸ hok, Bool.false_eq_true, if_false]
    rfl

/-- Step 5 ends in FREERUN, the start-up done (R80, R83). -/
theorem enterFreerun_md (s : State) : (enterFreerun s).md.phase = .done ∧ (enterFreerun s).md.mode = .freerun := by
  have harm (z : State) : (armLoaded z).md = z.md := congrArg (fun w => w.2.1) (armLoaded_wide z)
  obtain ⟨-, -, -, -, hphase⟩ := enterMode_md_keeps .freerun { s with md :=
    { s.md with phase := .done, startDuration := (readInt (((s.clk.count : Rat) - s.md.startedAt) / 1000)).toNat } }
  exact ⟨(congrArg Md.phase (harm _)).trans hphase, (congrArg Md.mode (harm _)).trans (enterMode_mode _ _)⟩

/-- Settles O15: POWER_UP and its steps, then the two ways in which the hold ends. -/
theorem startupSequence : Obligations.StartupSequence := by
  refine ⟨?fresh, ?again, runSteps_whole, ?cut, ?rails, ?expiry, ?sealNow, fun s k => sealLimits_nv, fun s => sealLimits_closed,
    enterFreerun_md⟩
  case fresh =>
    exact fun i sealDur entryDur s h =>
      congrArg (Host.Outcome.next ∘ finish) (powerUp_unpowered (s := { s with tx := [] }) i sealDur entryDur h)
  case again =>
    exact fun i sealDur entryDur s h hwait hpfail =>
      congrArg (Host.Outcome.next ∘ finish) (powerUp_again (s := { s with tx := [] }) i sealDur entryDur h hwait hpfail)
  case cut => exact fun i sealDur entryDur n s h hn => runSteps_cut sealDur entryDur s h hn
  case rails => exact fun i s => ⟨rfl, rfl, rfl, railsQualified_nv i s, railsQualified_epochs i s⟩
  case expiry =>
    exact fun dt sealDur entryDur s hphase hseal hend hsafe =>
      timed_of_effect ((holdExpiry_over sealDur entryDur hphase hseal hend).trans (finishStart_held sealDur entryDur hphase hsafe))
  case sealNow =>
    exact fun dt sealDur entryDur r arg s h harg hphase hseal hsafe =>
      timed_of_effect (serveSealNow_held sealDur entryDur h harg hphase hseal hsafe)

end Sys2Proof.Machine
end

section
/-! SUPPORT. What every step leaves consistent (R57, R72, R75 to R79, R461): every command ends in the settling of its cycle, and settling
alone makes the state consistent. -/

namespace Sys2Proof.Machine

/-! ## The settling of a cycle -/

theorem settle_powered (s : State) : (settle s).powered = s.powered :=
  have h := congrArg (fun t : State => t.powered) (settle_rest s); h

theorem settle_clk (s : State) : (settle s).clk = s.clk :=
  have h := congrArg (fun t : State => t.clk) (settle_rest s); h

theorem settle_unpowered {s : State} (h : s.powered = false) : settle s = { s with pins := Pins.reset } := by
  rw [settle, h]; rfl

theorem settle_running {s : State} (hp : s.powered = true) (hrun : s.clk.running = true) : settle s = settleEngine s := by
  rw [settle, hp, hrun]; rfl

/-- What settles after the mode leaves what the mode, the vouching and the pins are read from. -/
theorem settleEngine_shown (s : State) :
    shown (settleEngine s) = shown (settleMode (settleTime (settleChannels (settleRefs s)))) := by
  rw [settleEngine, settlePins_shown, settleDeliveries_shown, settleLevels_shown, settleCommit_shown, settleOuts_shown]

/-- With power and its engine clock running the module settles into a mode, a vouching and pins that fit (R57, R75 to R79). -/
theorem settle_fits {s : State} (hp : s.powered = true) (hrun : s.clk.running = true) :
    modeFits (settle s) ∧ vouchingFits (settle s) ∧ pinsFit (settle s) := by
  rw [settle_running hp hrun]
  obtain ⟨hvouch, hmode⟩ := settleMode_fits (settleTime (settleChannels (settleRefs s)))
  have hshown := settleEngine_shown s
  exact ⟨modeFits_of hshown hmode, vouchingFits_of hshown hvouch, settleEngine_fit s hrun⟩

/-- Without power the module settles dark (R72). -/
theorem settle_dark {s : State} (h : s.powered = false) : darkFits (settle s) := by
  rw [settle_unpowered h]; rfl

/-! ## The end of a command -/

/-- What the servo notes and the answered relays leave of a settled state: all that is shown. -/
theorem finish_lit (s : State) : lit (finish s) = lit (settle (settleStream s)) := by
  rw [finish, settleRelays_lit, noteTargets_lit]

/-- The pins, the supply, the engine clock and the cores are among what is shown. -/
theorem parts_of_lit {s t : State} (h : lit t = lit s) :
    t.pins = s.pins ∧ t.powered = s.powered ∧ t.clk = s.clk ∧ t.cores = s.cores := by
  simp only [lit, shown, Prod.mk.injEq] at h
  obtain ⟨pins, -, -, -, -, -, -, pwr, clk, cores, -⟩ := h
  exact ⟨pins, by rw [State.powered, State.powered, pwr], clk, cores⟩

/-- Once relays have settled none is left that waits for a fenced core (R461). -/
theorem settleRelays_fit (s : State) : relaysFit (settleRelays s) := by
  intro x hx
  obtain ⟨-, -, -, hcores⟩ := parts_of_lit (settleRelays_lit s)
  rw [settleRelays_relays, List.mem_filter, Bool.not_eq_true', beq_eq_false_iff_ne] at hx
  rw [State.core, hcores]
  exact hx.2

/-- Whatever state a command's effect leaves, the state that follows in its cycle is consistent. -/
theorem finish_consistent (s : State) : Consistent (finish s) := by
  have hlit := finish_lit s
  obtain ⟨hpins, hpow, hclk, -⟩ := parts_of_lit hlit
  have hshown : shown (finish s) = shown (settle (settleStream s)) := congrArg Prod.snd hlit
  rw [settle_powered] at hpow
  rw [settle_clk] at hclk
  refine ⟨fun ⟨hp, hrun⟩ => ?_, fun hp => ?_, settleRelays_fit _⟩
  · obtain ⟨hmode, hvouch, hfit⟩ := settle_fits (hpow ▸ hp) (hclk ▸ hrun)
    exact ⟨modeFits_of hshown hmode, vouchingFits_of hshown hvouch, pinsFit_of hlit hfit⟩
  · exact hpins.trans (settle_dark (hpow ▸ hp))

/-! ## Commands and steps -/

/-- The outcome is a fault, or the state that follows in the cycle of some effect. -/
def Settled (o : Host.Outcome State Fault Refusal) : Prop := ∀ t, o = .next t → ∃ u, t = finish u

theorem finish_settled (u : State) : Settled (.next (finish u)) := fun _ h => ⟨u, (Host.Outcome.next.inj h).symm⟩

theorem fault_settled (f : Fault) : Settled (.fault f) := fun _ h => nomatch h

theorem settled_ite {p : Prop} [Decidable p] {a b : Host.Outcome State Fault Refusal} (ha : Settled a) (hb : Settled b) :
    Settled (if p then a else b) := by
  split
  · exact ha
  · exact hb

/-- Every command ends in the settling of its cycle; a report of a checker that the spec does not list is a fault (log entry 109). -/
theorem exec_settled (c : Instr) (s : State) : Settled (exec c s) := by
  cases c with
  | checkerError => exact settled_ite (finish_settled _) (fault_settled _)
  | pathFault => exact settled_ite (finish_settled _) (fault_settled _)
  | utcWrite => exact settled_ite (finish_settled _) (finish_settled _)
  | _ => exact finish_settled _

/-- Settles O4: a command ends in the settling of its cycle, which makes any state consistent; on an empty queue nothing changes. -/
theorem stepKeepsConsistent : Obligations.StepKeepsConsistent := by
  intro s t hs h
  rcases hq : s.pending with _ | ⟨c, rest⟩
  · rw [step_of_empty hq] at h
    exact Host.Outcome.next.inj h ▸ hs
  · rw [step_of_pending hq] at h
    obtain ⟨u, rfl⟩ := exec_settled c _ t h
    exact finish_consistent u

end Sys2Proof.Machine
end

section
/-! SUPPORT. The supply, the codings, the oven and the wake (R40, R44, R86, R90 to R97): what each of their commands does to the state at
its moment. -/

namespace Sys2Proof.Machine

/-! ## The supply (R40, R93, R97, R99) -/

theorem lowInput_first {s : State} (hp : s.powered = true) (hlow : s.pwr.lowInput = false) :
    lowInput s =
      { s with pwr := { s.pwr with lowInput := true }, nv := { s.nv with lowInputCount := s.nv.lowInputCount + 1 } } := by
  rw [lowInput, hp, hlow]; rfl

/-- Once steps 1 to 3 are complete PFAIL is counted, and its hold-up write is open until it completes (R93, R94). -/
theorem setPfail_booted {s : State} (hp : s.powered = true) (hpfail : s.pwr.pfail = false) (hboot : booted s = true) :
    setPfail s = { s with
      pwr := { s.pwr with pfail := true, pfailAt := s.clk.count, writeDone := false, holdupWriteResult := 2 },
      nv := { s.nv with pfailCount := s.nv.pfailCount + 1, lastHoldup := 2 } } := by
  have hphase : s.md.phase ≠ .hold := fun h => by simp [booted, h] at hboot
  rw [setPfail, hp, hpfail, hboot, if_neg hphase]; rfl

/-- In the start-up hold PFAIL makes the start wait, with nothing to write (R94). -/
theorem setPfail_hold {s : State} (hp : s.powered = true) (hpfail : s.pwr.pfail = false) (hhold : s.md.phase = .hold) :
    setPfail s = { s with
      md := { s.md with phase := .waiting },
      pwr := { s.pwr with pfail := true, pfailAt := s.clk.count, writeDone := true },
      nv := { s.nv with pfailCount := s.nv.pfailCount + 1 } } := by
  have hboot : booted s = false := by rw [booted, hhold]; rfl
  rw [setPfail, hp, hpfail, hboot, if_pos hhold]; rfl

/-- The state in which the level of OVER_VOLTAGE has risen and is counted. -/
def overVoltageSet (s : State) : State :=
  { s with pwr := { s.pwr with overVoltage := true }, nv := { s.nv with overvoltCount := s.nv.overvoltCount + 1 } }

/-- An input above 75 V sets the level; above 80 V the input stage disconnects, which is a power fail at once (R40; log entry 74). -/
theorem overVoltage_first {mv : Nat} {s : State} (hmv : 75000 < mv) (hp : s.powered = true) (hover : s.pwr.overVoltage = false) :
    overVoltage mv s =
      if mv ≤ 80000 then overVoltageSet s
      else setPfail { overVoltageSet s with pwr := { (overVoltageSet s).pwr with disconnected := true } } := by
  rw [overVoltage, hp, hover, if_neg (by simp [hmv])]; rfl

/-- Above 80 V a started module loses its input: the level, the disconnection and PFAIL come in one cycle (R40; log entry 74). -/
theorem overVoltage_disconnects {mv : Nat} {s : State} (hmv : 80000 < mv) (hp : s.powered = true) (hover : s.pwr.overVoltage = false)
    (hpfail : s.pwr.pfail = false) (hboot : booted s = true) :
    overVoltage mv s = { s with
      pwr := { s.pwr with
        overVoltage := true, disconnected := true, pfail := true, pfailAt := s.clk.count, writeDone := false, holdupWriteResult := 2 },
      nv := { s.nv with overvoltCount := s.nv.overvoltCount + 1, pfailCount := s.nv.pfailCount + 1, lastHoldup := 2 } } :=
  (overVoltage_first (by omega) hp hover).trans ((if_neg (Nat.not_le.2 hmv)).trans (setPfail_booted hp hpfail hboot))

theorem refreshMeasurements_powered {s : State} (m : Sensors) (hp : s.powered = true) :
    refreshMeasurements m s = { s with pwr :=
      { s.pwr with vin := m.vin, iin := m.iin, pin := m.pin, load := m.load, tBase := m.tBase, tOcxo := m.tOcxo } } := by
  rw [refreshMeasurements, hp]; rfl

/-- Settles O13: one lemma for each command, and for PFAIL one on each side of step 3. -/
theorem supplyFlagsAndMeasurements : Obligations.SupplyFlagsAndMeasurements := by
  refine ⟨?low, ?above, ?disconnect, ?pfail, ?hold, fun _ _ _ => timed_of_effect rfl, ?measured⟩
  case low => exact fun dt s hp hlow => timed_of_effect (lowInput_first hp hlow)
  case above =>
    exact fun dt mv s hmv hle hp hover => timed_of_effect ((overVoltage_first hmv hp hover).trans (if_pos hle))
  case disconnect =>
    exact fun dt mv s hmv hp hover hpfail hboot => timed_of_effect (overVoltage_disconnects hmv hp hover hpfail hboot)
  case pfail => exact fun dt s hp hpfail hboot => timed_of_effect (setPfail_booted hp hpfail hboot)
  case hold => exact fun dt s hp hpfail hhold => timed_of_effect (setPfail_hold hp hpfail hhold)
  case measured => exact fun dt m s hp => timed_of_effect (refreshMeasurements_powered m hp)

/-! ## The codings and the oven (R44, R86) -/

theorem codingChange_powered {s : State} (hp : s.powered = true) : codingChange s = raise 9 s := if_pos hp

theorem setOvenReady_first {s : State} (hrun : s.clk.running = true) (hnot : s.md.ovenReady = false) :
    setOvenReady s = raise 5 { s with md := { s.md with ovenReady := true, ovenReadyAt := s.clk.count } } := by
  rw [setOvenReady, hrun, hnot]; rfl

/-- Which checker reports an excursion is the next free value (log entry 120). -/
theorem ovenExcursion_ready {s : State} (hrun : s.clk.running = true) (hready : s.md.ovenReady = true) :
    ovenExcursion s = reportFree (nth allCheckers (Config.freeNat s.free % allCheckers.length) 0x0101)
      (raise 13 { s with free := s.free + 1 }) := by
  rw [ovenExcursion, hrun, hready]; rfl

/-- Settles O16: one lemma for each command. -/
theorem codingAndOven : Obligations.CodingAndOven :=
  ⟨fun _ _ _ hp => timed_of_effect (codingChange_powered hp), fun _ _ hrun hnot => timed_of_effect (setOvenReady_first hrun hnot),
    fun _ _ hrun hready => timed_of_effect (ovenExcursion_ready hrun hready)⟩

/-! ## The wake (R89 to R91) -/

/-- In STANDBY an enabled source that is recognised begins the wake (R90). -/
theorem wakeSource_standby {s : State} {bit : Nat} (port : Nat) (hen : bit8 s.cfg.sy.wakeEnable bit = true)
    (hrun : s.clk.running = true) (hmode : s.md.mode = .standby) (hnot : s.md.waking = none) :
    wakeSource bit port s = beginWake (bit + 1) port s := by
  rw [wakeSource, hen, hrun, hmode, hnot]; rfl

/-- While a sleep is under way the source is latched for instant D (R89). -/
theorem wakeSource_sleeping {s : State} {bit : Nat} (port : Nat) (hen : bit8 s.cfg.sy.wakeEnable bit = true)
    (hrun : s.clk.running = true) (hmode : s.md.mode ≠ .standby) (hsleep : s.md.sleep ≠ none) (hnot : s.md.wakeLatched = none) :
    wakeSource bit port s = { s with md := { s.md with wakeLatched := some (bit + 1, port) } } := by
  have hlatch : s.md.sleep.isSome = true ∧ s.md.wakeLatched.isNone = true :=
    ⟨Option.isSome_iff_ne_none.2 hsleep, Option.isNone_iff_eq_none.2 hnot⟩
  rw [wakeSource, hen, hrun, if_neg (by decide), if_neg hmode, if_pos hlatch]

/-- Of the configuration settling moves the UTC registers alone (R245). -/
theorem cfg_of_rest {s t : State} (h : t.rest = s.rest) : { t.cfg with utc := s.cfg.utc } = s.cfg :=
  congrArg (fun z : State => { z.cfg with utc := s.cfg.utc }) h

/-- What a completed wake and the settling after it leave: the mode was chosen before the settling (R91). -/
theorem wakeComplete_finished {s : State} (hmode : s.md.mode = .standby) (hwaking : s.md.waking ≠ none) :
    ∃ u, wakeComplete s = raise 8 u ∧ (finish (raise 8 u)).md.waking = none ∧ (finish (raise 8 u)).rf.stopped = false
      ∧ (finish (raise 8 u)).sc.stopped = false
      ∧ u.md.mode = (if (s.md.sleptFrom = .tracking ∨ s.md.sleptFrom = .holdover) ∧ s.isFenced (.tb s.ptb) = false then .holdover
          else .freerun)
      ∧ { (finish (raise 8 u)).cfg with utc := s.cfg.utc } = s.cfg ∧ (finish (raise 8 u)).clk = s.clk
      ∧ (finish (raise 8 u)).jr = s.jr := by
  obtain ⟨u, hu, waking, rf, sc, mode, cfg, clk, jr⟩ := wakeComplete_done s hmode hwaking
  have hcfg : (raise 8 u).cfg = s.cfg := cfg
  exact ⟨u, hu, by simp [waking], by simp [rf], by simp [sc], mode,
    hcfg ▸ cfg_of_rest (finish_rest (raise 8 u)), by simp [clk], by simp [jr]⟩

/-- Settles O18: each source is a wake source with its number; the completed wake is read off what it leaves. -/
theorem wakeSequence : Obligations.WakeSequence := by
  refine ⟨?pin, ?can, ?t1, ?alarm, ?latched, ?wake⟩
  case pin => exact fun dt held s hen hrun hmode hnot => timed_of_effect (wakeSource_standby 0 hen hrun hmode hnot)
  case can =>
    exact fun dt ch ident s hid hch hen hrun hmode hnot =>
      timed_of_effect ((if_pos ⟨hid, hch⟩).trans (wakeSource_standby ch hen hrun hmode hnot))
  case t1 =>
    exact fun dt port s hport hen hrun hmode hnot =>
      timed_of_effect ((if_pos hport).trans (wakeSource_standby port hen hrun hmode hnot))
  case alarm =>
    intro dt s e hen hdue hrun hmode hnot
    have hreached : alarmReached e = true := by rw [alarmReached, hen, decide_eq_true hdue]; rfl
    exact timed_of_effect ((if_pos hreached).trans (wakeSource_standby 0 hen hrun hmode hnot))
  case latched =>
    exact fun dt held s hen hrun hmode hsleep hnot => timed_of_effect (wakeSource_sleeping 0 hen hrun hmode hsleep hnot)
  case wake =>
    intro dt s e hmode hwaking
    obtain ⟨u, hu, hparts⟩ := wakeComplete_finished (s := e) hmode hwaking
    exact ⟨finish (raise 8 u), u, timed_of_effect hu, rfl, hparts⟩

end Sys2Proof.Machine
end

section
/-! SUPPORT. The timestamp inputs (R52, R281 to R284, R292, R305, R307): what each of their commands does to the state at its moment. -/

namespace Sys2Proof.Machine

/-! ## Edges at the pin (R52, R281) -/

/-- The TDC of input n stamps the edge at the pin at engine time `pin`, less DELAY_COMP (R281). -/
def stampPin (n : Nat) (falling : Bool) (pin : Rat) (s : State) : State :=
  stampEdge n falling (units16 (pin - ((s.cfg.tsi n).delayComp : Rat) / 1000)) (s.setTsi n fun x => { x with lastEdge := some pin })

/-- An edge of a long pulse, at least 2 ns after the stamped one before it, is stamped. -/
theorem tsiEdge_stamped {n : Nat} {falling : Bool} {pin : Rat} {s : State} (hrun : tdcRuns s n = true)
    (hsel : bit8 (s.cfg.tsi n).edges (b2n falling) = true) (hfar : ∀ l, (s.tsi n).lastEdge = some l → ¬ pin < l + 2) :
    tsiEdge n falling pin false s = stampPin n falling pin s := by
  rcases hlast : (s.tsi n).lastEdge with _ | l
  · simp only [tsiEdge, hrun, hsel, hlast]; rfl
  · simp only [tsiEdge, hrun, hsel, hlast, decide_eq_false (hfar l hlast)]; rfl

/-- An edge of a short pulse, or one too near to the stamped one before it, is lost where the next free value says so (R52; log entry 60). -/
theorem tsiEdge_doubtful {n : Nat} {falling short : Bool} {pin : Rat} {s : State} (hrun : tdcRuns s n = true)
    (hsel : bit8 (s.cfg.tsi n).edges (b2n falling) = true)
    (hnear : short = true ∨ ∃ l, (s.tsi n).lastEdge = some l ∧ pin < l + 2) :
    tsiEdge n falling pin short s =
      if Config.freeBool s.free then { s with free := s.free + 1 } else stampPin n falling pin { s with free := s.free + 1 } := by
  rcases hnear with rfl | ⟨l, hlast, hpin⟩
  · simp only [tsiEdge, hrun, hsel, Bool.true_or, Bool.true_and]; rfl
  · simp only [tsiEdge, hrun, hsel, hlast, decide_eq_true hpin, Bool.or_true, Bool.true_and]; rfl

/-- The edge of a TSI_EDGE comes `frac` ns after the engine cycle of the command (R281). -/
theorem exec_tsiEdge {dt : Nat} {n : Fin 64} {falling short : Bool} {frac : Rat} {s u : State}
    (h : tsiEdge n falling ((elapse dt s).clk.count + frac) short (elapse dt s) = u) :
    exec (.tsiEdge dt n ⟨falling, short⟩ frac) s = .next (finish u) := by
  rw [← h]; rfl

/-! ## The filters (R284) -/

theorem captureFilters_noRing {n : Nat} {falling : Bool} {t : Rat} {s : State} (h : (s.cfg.tsi n).toRing ≠ 1) :
    captureFilters n falling t s = s := if_pos h

/-- A stamp of a gated input in no window is counted alone. -/
theorem captureFilters_outside {n : Nat} {falling : Bool} {t : Rat} {s : State} (hring : (s.cfg.tsi n).toRing = 1)
    (hgate : (s.cfg.tsi n).gating = 1) (hwin : (s.window n).covers t.floor = false) :
    captureFilters n falling t s = s.setTsi n fun x => { x with outside := x.outside + 1 } := by
  rw [captureFilters, if_neg (not_not.2 hring), if_pos ⟨hgate, by rw [hwin]; rfl⟩]

/-- The decimation counts every other stamp and keeps the one at 0. -/
theorem captureFilters_decimated {n : Nat} {falling : Bool} {t : Rat} {s : State} (hring : (s.cfg.tsi n).toRing = 1)
    (hopen : ¬ ((s.cfg.tsi n).gating = 1 ∧ (s.window n).covers t.floor = false)) :
    captureFilters n falling t s =
      let u := s.setTsi n fun x => { x with dec := if (s.tsi n).dec + 1 < (s.cfg.tsi n).decimate then (s.tsi n).dec + 1 else 0 }
      if (s.tsi n).dec = 0 then recordStamp n falling t u else u := by
  rw [captureFilters, if_neg (not_not.2 hring), if_neg (by simpa using hopen)]

/-! ## Records (R290, R292, R294, R305) -/

theorem recordStamp_noStream {n : Nat} {falling : Bool} {t : Rat} {s : State} (h : s.ts.stream = none) :
    recordStamp n falling t s = s := by
  rw [recordStamp, h]; rfl

/-- A FIFO that has room takes the record, and the edge event follows it (R305; log entry 24). -/
theorem recordStamp_kept {n : Nat} {falling : Bool} {t : Rat} {s : State} (hopen : s.ts.stream.isNone = false)
    (hroom : (s.tsi n).fifo.length < 16) :
    recordStamp n falling t s = raiseIf ((s.cfg.tsi n).edgeEvent == 1) (152 + n) (s.setTsi n fun _ =>
      { s.tsi n with
        fifo := (s.tsi n).fifo ++ [captureOf s n falling t], lostFlag := false,
        fifoPeak := max (s.tsi n).fifoPeak ((s.tsi n).fifo.length + 1) }) := by
  simp only [recordStamp, Tsi.enqueue, hopen, if_pos hroom, decide_eq_true hroom, Bool.and_true]
  rfl

/-- A full FIFO loses the record, and the first loss raises the input's source (R292). -/
theorem recordStamp_lost {n : Nat} {falling : Bool} {t : Rat} {s : State} (hopen : s.ts.stream.isNone = false)
    (hfull : 16 ≤ (s.tsi n).fifo.length) :
    recordStamp n falling t s = raiseIf (!(bit8 (s.tsi n).sticky 0)) (152 + n) (s.setTsi n fun _ =>
      { s.tsi n with lost := (s.tsi n).lost + 1, lostFlag := true, sticky := (s.tsi n).sticky ||| 1#8 }) := by
  have hno : ¬ (s.tsi n).fifo.length < 16 := Nat.not_lt.2 hfull
  simp only [recordStamp, Tsi.enqueue, hopen, if_neg hno, decide_eq_false hno, Bool.and_false]
  rfl

/-! ## Calibration (R282, R283) -/

/-- On an input that calibrates, a good table exchanges the interpolators and a bad one is reported. -/
theorem calibration_done {n : Nat} {s : State} (ok : Bool) (syndrome : BitVec 32) (h : calibrates s n = true) :
    calibration n ok syndrome s = if ok then tdcCalibrated n s else takeReport (0x0600 + n) syndrome false s := by
  rw [calibration, h]; rfl

/-! ## ENABLE (R284, R299, R307) -/

/-- The element `ENABLE` of input n, behind the input's fence. -/
def tsiEnableEl (n : Nat) : Elem :=
  ((tsN n 0 .u8 (·.enable) (within 0 1) fun v c => { c with enable := v }).thenDo fun v => enableTsi n v.toNat).first
    fun s => refuseIf (s.isFenced (.tsi n)) stFenced

theorem objTsi_enable (n : Nat) : (objTsi n).find 0 = some (tsiEnableEl n) := rfl

/-- `ENABLE` takes 0 and 1 on an input that is not fenced. -/
theorem checkOne_tsiEnable {n v : Nat} {s : State} (hfence : s.isFenced (.tsi n) = false) (hv : v < 2) :
    checkOne (objTsi n) (tsiEnableEl n) v s = 0 :=
  have hown : (tsiEnableEl n).own { s with cfg := (tsiEnableEl n).put v s.cfg } v = 0 :=
    orElse_ok (refuseIf_no _ hfence) (within_ok (by omega))
  checkOne_ok hown rfl rfl

/-- A heard write of `ENABLE`, with what it leaves of the input (R284, R299). -/
theorem serve_tsiEnable {r : Requester} {n : Fin 64} {v : Nat} {s : State}
    (h : Heard r (writeFrame r (addrWord 48 n 0) .u8 v) s) (hv : v < 2) (hsafe : s.md.mode ≠ .safe) (hb : s.md.bootRom = false)
    (hfence : s.isFenced (.tsi n) = false) :
    serveWrite r (addrWord 48 n 0) 1 v s = written r (addrWord 48 n 0) .u8 (s.cfg.tsi n).enable v
      (enableTsi n v { counted s with cfg := { s.cfg with ts := upd s.cfg.ts n fun c => { c with enable := v } } }) :=
  serveWrite_done (ty := .u8) (e := tsiEnableEl n) h hsafe (by omega) (by omega) (by omega)
    (object_tsi (s := counted s) hb n.isLt) (objTsi_enable n) rfl rfl (by decide) (Or.inl rfl) rfl (decode_byte (by omega))
    (Or.inl rfl) (checkOne_tsiEnable (s := counted s) hfence hv)

/-- Settles O46: an edge is stamped or in doubt; a stamp passes the filters, which keep it or not; a kept one is recorded or lost. -/
theorem capturedEdges : Obligations.CapturedEdges := by
  refine ⟨?first, ?far, ?near, ?short, fun n falling t s => rfl, fun n falling t s => captureFilters_noRing,
    fun n falling t s => captureFilters_outside, ?kept, ?skipped, fun n falling t s => recordStamp_noStream,
    fun n falling t s => recordStamp_kept, fun n falling t s => recordStamp_lost, ?tableGood, ?tableBad, ?disable, ?enable,
    fun n s => ⟨rfl, rfl⟩⟩
  case first =>
    rintro dt n falling frac _ s e hrun hsel hlast rfl
    exact exec_tsiEdge (tsiEdge_stamped hrun hsel fun l hl => nomatch hlast.symm.trans hl)
  case far =>
    rintro dt n falling frac _ l s e hrun hsel hlast rfl hpin
    exact exec_tsiEdge (tsiEdge_stamped hrun hsel fun m hm => Option.some.inj (hlast.symm.trans hm) ▸ hpin)
  case near =>
    exact fun dt n falling frac short l s hrun hsel hlast hpin =>
      exec_tsiEdge (tsiEdge_doubtful hrun hsel (.inr ⟨l, hlast, hpin⟩))
  case short =>
    exact fun dt n falling frac short s hrun hsel hshort => exec_tsiEdge (tsiEdge_doubtful hrun hsel (.inl hshort))
  case kept =>
    intro n falling t s hring hopen hdec
    have hkeep := captureFilters_decimated (falling := falling) hring hopen
    rw [hdec] at hkeep
    exact hkeep
  case skipped =>
    exact fun n falling t s hring hopen hdec => (captureFilters_decimated hring hopen).trans (if_neg hdec)
  case tableGood => exact fun dt n syndrome s h => timed_of_effect (calibration_done true syndrome h)
  case tableBad => exact fun dt n syndrome s h => timed_of_effect (calibration_done false syndrome h)
  case disable =>
    exact fun dt r n s h hsafe hb hfence => timed_of_effect (serve_tsiEnable h (by decide) hsafe hb hfence)
  case enable =>
    exact fun dt r n s h hsafe hb hfence => timed_of_effect (serve_tsiEnable h (by decide) hsafe hb hfence)

end Sys2Proof.Machine
end

section
/-! SUPPORT. The hold-up store and the loss of power (R93 to R96, R182, R425): what each of their commands does to the state at its
moment. -/

namespace Sys2Proof.Machine

/-! ## The hold-up record (R94, R95) -/

/-- The MGT core writes the record of this instant into the area whose turn it is (R94). -/
theorem holdupWritten_open {s : State} (hpfail : s.pwr.pfail = true) (hopen : s.pwr.writeDone = false) (hmgt : mgtServes s = true) :
    holdupWritten s = { s with
      nv := { s.nv with
        holdup := upd s.nv.holdup s.nv.holdupArea fun _ => some (holdupRecord s), holdupArea := 1 - s.nv.holdupArea,
        lastHoldup := 1, holdupTimes := s.tb.map (·.now) },
      pwr := { s.pwr with
        writeDone := true, copyPending := some s.nv.holdupArea, holdupWriteResult := 1,
        holdupWriteTime := (readInt (((s.clk.count : Rat) - s.pwr.pfailAt) / 1000)).toNat } } := by
  rw [holdupWritten, hpfail, hopen, hmgt]; rfl

theorem clearPfail_written {s : State} (hpfail : s.pwr.pfail = true) (hdone : s.pwr.writeDone = true) :
    clearPfail s = raise 2 { s with pwr := { s.pwr with pfail := false } } := by
  rw [clearPfail, hpfail, hdone]; rfl

theorem holdupCopied_pending {s : State} (hpfail : s.pwr.pfail = false) (hpending : s.pwr.copyPending ≠ none)
    (hmgt : mgtServes s = true) :
    holdupCopied s = { s with nv := copyHoldups s.nv, pwr := { s.pwr with copyPending := none } } := by
  rw [holdupCopied, hpfail, hmgt, Option.isNone_eq_false_iff.2 (Option.isSome_iff_ne_none.2 hpending)]; rfl

/-- A copied record adds its journal records beyond those kept, and its model where that is valid and the newer (R95, R182). -/
theorem copyHoldup_some (h : HoldupRec) (nv : Nv) :
    copyHoldup (some h) nv =
      let more := h.journal.filter fun r => decide (nv.nextIndex ≤ r.index)
      let all := nv.journal ++ more
      let newer : Bool := h.modelOk && (nv.model.isNone || decide (nv.modelAge ≤ h.age))
      { nv with
        journal := all.drop (all.length - 8192), nextIndex := (more.getLast?.map (·.index + 1)).getD nv.nextIndex,
        model := if newer then some h.model else nv.model, modelAge := if newer then h.age else nv.modelAge } := by
  simp only [copyHoldup]
  cases (h.journal.filter fun r => decide (nv.nextIndex ≤ r.index)).getLast? <;> rfl

/-! ## The fall of the rails (R96) -/

theorem orderlyStop_failing {s : State} (hp : s.powered = true) (hpfail : s.pwr.pfail = true) : orderlyStop s = powerLost s := by
  rw [orderlyStop, hp, hpfail]; rfl

theorem powerLost_idle {s : State} (h : s.nvc.storeOp = none) :
    powerLost s = { State.reset with pending := s.pending, free := s.free, nv := { s.nv with age := ageNow s } } := by
  rw [powerLost, h]; rfl

/-- A store in progress has spoilt the copy it was writing (R425). -/
theorem powerLost_storing {s : State} (h : s.nvc.storeOp ≠ none) :
    powerLost s =
      { State.reset with pending := s.pending, free := s.free, nv := spoilOlder { s.nv with age := ageNow s } } := by
  rw [powerLost, Option.isSome_iff_ne_none.2 h]; rfl

/-- Settles O14: one lemma for each command, and for the loss of power one with and one without a store in progress. -/
theorem holdupStoreAndPowerLoss : Obligations.HoldupStoreAndPowerLoss := by
  refine ⟨?write, ?clear, ?copy, copyHoldup_some, fun nv => rfl, ?idle, ?storing⟩
  case write => exact fun dt s hpfail hopen hmgt => timed_of_effect (holdupWritten_open hpfail hopen hmgt)
  case clear => exact fun dt s hpfail hdone => timed_of_effect (clearPfail_written hpfail hdone)
  case copy => exact fun dt s hpfail hpending hmgt => timed_of_effect (holdupCopied_pending hpfail hpending hmgt)
  case idle =>
    exact fun dt s hp hpfail hidle => timed_of_effect ((orderlyStop_failing hp hpfail).trans (powerLost_idle hidle))
  case storing =>
    exact fun dt s hp hpfail hstore => timed_of_effect ((orderlyStop_failing hp hpfail).trans (powerLost_storing hstore))

end Sys2Proof.Machine
end

section
/-! SUPPORT. SLEEP (R80, R87 to R89, R182, R410, R416): what refuses it, what an accepted one does, and how it is decided and committed. -/

namespace Sys2Proof.Machine

/-! ## Refused commands (R415, R416) -/

/-- In SAFE a heard `COMMAND` is answered SAFE and does nothing, whatever element it names (R416). -/
theorem serveCommand_inSafe {r : Requester} {a ob el : Nat} {ty : ElTy} {v : Int} {s : State} {o : Obj} {e : Elem}
    (h : Heard r (commandFrame r (addrWord a ob el) ty v) s) (hsafe : s.md.mode = .safe)
    (ha : a < 256) (hob : ob < 4096) (hel : el < 256) (ho : objectAt (counted s) a ob = some o) (he : o.find el = some e) :
    serveCommand r (addrWord a ob el) ty.size v s = replied r (commandFrame r (addrWord a ob el) ty v) stSafe [] (counted s) := by
  have hrefused : admitStatus (commandFrame r (addrWord a ob el) ty v) e (counted s) = stSafe := by
    rw [admitStatus, counted_md, hsafe]; rfl
  have hd := dispatch_at (r := r) (f := commandFrame r (addrWord a ob el) ty v) (s := counted s) id
    ((congrArg₂ (objectAt (counted s)) (areaOf_addrWord a ob el ha hob hel) (objectOf_addrWord a ob el hob hel)).trans ho)
    ((congrArg o.find (elementOf_addrWord a ob el hel)).trans he)
  rw [id, hrefused, if_neg (by decide)] at hd
  have hr := receive_heard id h
  rw [hd] at hr
  exact congrArg Prod.snd hr

/-- A heard `COMMAND` that its element refuses is answered with that status and does nothing. -/
theorem serveCommand_refused {r : Requester} {a ob el st : Nat} {ty : ElTy} {v : Int} {s : State} {o : Obj} {e : Elem}
    (h : Heard r (commandFrame r (addrWord a ob el) ty v) s) (hsafe : s.md.mode ≠ .safe)
    (ha : a < 256) (hob : ob < 4096) (hel : el < 256)
    (ho : objectAt (counted s) a ob = some o) (he : o.find el = some e) (hty : e.ty = ty)
    (hacc : e.acc = .cmd) (hv : ty.decode (intBytes ty.size v) = v)
    (hvia : e.via = 0 ∨ s.runs e.via = true) (hown : e.own (counted s) v = 0) (hlate : e.late (counted s) v = 0)
    (hst : st ≠ stOk) (hwait : st ≠ stWait) (hrun : e.run v (counted s) = (st, counted s)) :
    serveCommand r (addrWord a ob el) ty.size v s = replied r (commandFrame r (addrWord a ob el) ty v) st [] (counted s) := by
  have hc := command_reaches (t := id) h hsafe ha hob hel ho he hty hacc hv hvia hown hlate
  simp only [id, runCommand, hrun, if_neg hst, if_neg hwait] at hc
  exact hc

/-! ## Refusals of SLEEP (R88) -/

/-- The status `st` refuses a `SLEEP` for a reason of R88 that holds. -/
def SleepRefusedBy (s : State) (st : Nat) : Prop :=
  (st = stMode ∧ s.md.mode = .startup) ∨ (st = stSafe ∧ s.md.mode = .safe) ∨ (st = stBusy ∧ s.pwr.pfail = true)
    ∨ (st = stRange ∧ s.cfg.sy.wakeEnable &&& 0x0F#8 = 0#8)

/-- Where a row of R88 holds, the first such row gives the status. -/
theorem sleepStatus_refused {s : State}
    (h : s.md.mode = .startup ∨ s.md.mode = .safe ∨ s.pwr.pfail = true ∨ s.cfg.sy.wakeEnable &&& 0x0F#8 = 0#8) :
    SleepRefusedBy s (sleepStatus s) := by
  unfold sleepStatus
  split_ifs with hstart hsafe hpfail hwake
  · exact .inl ⟨rfl, hstart⟩
  · exact .inr (.inl ⟨rfl, hsafe⟩)
  · exact .inr (.inr (.inl ⟨rfl, hpfail⟩))
  · exact .inr (.inr (.inr ⟨rfl, hwake⟩))
  all_goals exact absurd h (by simp [hstart, hsafe, hpfail, hwake])

/-- A status that refuses a `SLEEP` is an answer at once, and not OK. -/
theorem SleepRefusedBy.not_done {s : State} {st : Nat} (h : SleepRefusedBy s st) : st ≠ stOk ∧ st ≠ stWait := by
  rcases h with ⟨rfl, -⟩ | ⟨rfl, -⟩ | ⟨rfl, -⟩ | ⟨rfl, -⟩ <;> decide

theorem sleepStatus_safe {s : State} (h : s.md.mode = .safe) : sleepStatus s = stSafe := by
  rw [sleepStatus, h]; rfl

theorem sleepRun_refused {s : State} (v : Int) (h : sleepStatus s ≠ stOk) : sleepRun v s = (sleepStatus s, s) := by
  rw [sleepRun, if_neg h]

/-- A heard `SLEEP` that R88 refuses is answered with its status and does nothing. -/
theorem serveSleep_refused {r : Requester} {arg : Nat} {s : State} (h : Heard r (commandFrame r (addrWord 0x01 12 0) .u8 arg) s)
    (harg : arg < 256) (hwhy : SleepRefusedBy s (sleepStatus s)) :
    serveCommand r (addrWord 0x01 12 0) 1 arg s =
      replied r (commandFrame r (addrWord 0x01 12 0) .u8 arg) (sleepStatus s) [] (counted s) := by
  by_cases hsafe : s.md.mode = .safe
  · rw [sleepStatus_safe hsafe]
    exact serveCommand_inSafe (ty := .u8) h hsafe (by omega) (by omega) (by omega) (object_syCommands (counted s)) rfl
  · obtain ⟨hok, hwait⟩ := hwhy.not_done
    exact serveCommand_refused (ty := .u8) h hsafe (by omega) (by omega) (by omega) (object_syCommands (counted s)) rfl rfl rfl
      (decode_byte harg) (Or.inl rfl) rfl rfl hok hwait (sleepRun_refused (s := counted s) arg hok)

/-- Settles O12: the status is that of the first row of R88 that holds, and a refused command does nothing. -/
theorem sleepRefusals : Obligations.SleepRefusals := by
  intro dt r arg s e h harg hcond
  have hwhy : SleepRefusedBy e (sleepStatus e) := sleepStatus_refused hcond
  exact ⟨sleepStatus e, timed_of_effect (serveSleep_refused h harg hwhy), hwhy⟩

/-! ## Instants A and D and the commit (R89) -/

/-- Where no row of R88 holds and no other `SLEEP` is under way, a `SLEEP` is accepted. -/
theorem sleepStatus_ok {s : State} (hstart : s.md.mode ≠ .startup) (hsafe : s.md.mode ≠ .safe) (hpfail : s.pwr.pfail = false)
    (hwake : s.cfg.sy.wakeEnable &&& 0x0F#8 ≠ 0#8) (hsleep : s.md.sleep = none) : sleepStatus s = stOk := by
  rw [sleepStatus, if_neg hstart, if_neg hsafe, hpfail, if_neg Bool.false_ne_true, if_neg hwake, hsleep]; rfl

theorem sleepRun_accepted {s : State} {arg : Nat} (h : sleepStatus s = stOk) : sleepRun arg s = (stWait, acceptSleep arg s) := by
  rw [sleepRun, if_pos h, Int.toNat_natCast]

/-- The journal is written through, and where the STEER core runs the model is saved (R89, R182). -/
def sleepSaved (s : State) : State :=
  let a := flushJournal s
  if s.runs 1 then saveModel a else a

/-- A heard `SLEEP` that is accepted keeps its requester, without an answer (R89, R410). -/
theorem serveSleep_accepted {r : Requester} {arg : Nat} {s : State} (h : Heard r (commandFrame r (addrWord 0x01 12 0) .u8 arg) s)
    (harg : arg < 256) (hsafe : s.md.mode ≠ .safe) (hok : sleepStatus s = stOk) :
    serveCommand r (addrWord 0x01 12 0) 1 arg s =
      let b := sleepSaved (counted s)
      { b with md := { b.md with
          sleep := some { req := r, frame := commandFrame r (addrWord 0x01 12 0) .u8 arg, atNs := s.clk.count, decided := none,
                          arg := arg },
          wakeLatched := none } } :=
  serveCommand_waits (ty := .u8) h hsafe (by omega) (by omega) (by omega) (object_syCommands (counted s)) rfl rfl rfl
    (decode_byte harg) (Or.inl rfl) rfl rfl (sleepRun_accepted (s := counted s) hok)

/-- Outside SAFE, with the object protocol served, the decision of a sleep under way turns on the wake sources alone. -/
theorem sleepDecision_open {s : State} {q : SleepSeq} (hq : s.md.sleep = some q) (hopen : q.decided = none)
    (hsafe : s.md.mode ≠ .safe) (hup : dopUp s = true) :
    sleepDecision s =
      if wakeStands s then
        raise 7 (answer q.req q.frame 1 stAborted []
          (record (sleepRecord q 4 stAborted) { s with md := { s.md with sleep := none, wakeLatched := none } }))
      else
        answer q.req q.frame 1 stOk []
          (record (sleepRecord q 1 stOk) { s with md := { s.md with sleep := some { q with decided := some s.clk.count } } }) := by
  simp only [sleepDecision, hq, hopen, if_neg hsafe, Option.isSome_none, Bool.false_eq_true, if_false]
  exact if_congr Iff.rfl (congrArg (raise 7) (if_pos hup)) (if_pos hup)

/-- 2 ms after D, in a cycle that holds no other transition, the sleep is committed. -/
theorem sleepCommit_due {s : State} {q : SleepSeq} {d : Nat} (hq : s.md.sleep = some q) (hd : q.decided = some d)
    (hdue : d + 2000000 ≤ s.clk.count) (hmoved : moved s = false) : sleepCommit s = commitSleep s := by
  simp only [sleepCommit, hq, hd, hmoved]
  exact if_pos ⟨hdue, rfl⟩

/-- Settles O17: acceptance, the two outcomes of the decision, and the commit. -/
theorem sleepSequence : Obligations.SleepSequence := by
  refine ⟨?accept, ?abort, ?decide, ?commit⟩
  case accept =>
    exact fun dt r arg s h harg hstart hsafe hpfail hwake hsleep =>
      timed_of_effect (serveSleep_accepted h harg hsafe (sleepStatus_ok hstart hsafe hpfail hwake hsleep))
  case abort =>
    exact fun dt q s hq hopen hsafe hup hwake =>
      timed_of_effect ((sleepDecision_open hq hopen hsafe hup).trans (if_pos hwake))
  case decide =>
    exact fun dt q s hq hopen hsafe hup hwake =>
      timed_of_effect ((sleepDecision_open hq hopen hsafe hup).trans (if_neg (Bool.eq_false_iff.1 hwake)))
  case commit =>
    intro dt d q s e hq hd hdue hlatched hmode hmoved
    exact ⟨finish (commitSleep e), timed_of_effect (sleepCommit_due hq hd hdue hmoved), commitSleep_done e hlatched hmode⟩

end Sys2Proof.Machine
end

section
/-! SUPPORT. The commands of the device mode (R75, R80 to R82, R98): ENTER_SAFE and the choice of the principal timebase. -/

namespace Sys2Proof.Machine

/-! ## ENTER_SAFE (R82) -/

/-- A heard `ENTER_SAFE` is a report of identity 0x1E00, its syndrome the next free value (log entry 61). -/
theorem serveEnterSafe {r : Requester} {arg : Nat} {s : State} (h : Heard r (commandFrame r (addrWord 0x01 12 2) .u8 arg) s)
    (harg : arg < 256) (hsafe : s.md.mode ≠ .safe) :
    serveCommand r (addrWord 0x01 12 2) 1 arg s =
      commanded r (addrWord 0x01 12 2) .u8 arg (reportFree 0x1E00 (counted s)) :=
  serveCommand_done (ty := .u8) h hsafe (by omega) (by omega) (by omega) (object_syCommands (counted s)) rfl rfl rfl
    (decode_byte harg) (Or.inl rfl) rfl rfl rfl

/-! ## PRINCIPAL_TB (R80, R98) -/

/-- The configuration with `PRINCIPAL_TB` written. -/
def Cfg.withPrincipal (v : Nat) (c : Cfg) : Cfg := { c with sy := { c.sy with principalTb := v } }

/-- The element `PRINCIPAL_TB`. -/
def principalTbEl : Elem :=
  ((fieldN 0 .u8 (·.sy.principalTb) (within 0 3) Cfg.withPrincipal).as .rws).thenDo fun _ s => principalWritten s

/-- `PRINCIPAL_TB` is the first element of its object, which has no cross-field rule. -/
theorem object_syMode (s : State) :
    ∃ o, objectAt s 1 10 = some o ∧ o.find 0 = some principalTbEl ∧ o.cross = fun _ _ _ => true :=
  ⟨_, rfl, rfl, rfl⟩

/-- `PRINCIPAL_TB` takes 0 to 3. -/
theorem checkOne_principalTb {o : Obj} {v : Nat} {s : State} (hcross : o.cross = fun _ _ _ => true) (hv : v < 4) :
    checkOne o principalTbEl v s = 0 :=
  have hown : within 0 3 (v : Int) = 0 := within_ok (by omega)
  checkOne_ok hown (by rw [hcross]) rfl

/-- Outside TRACKING and HOLDOVER a class RWS element may be written (R414). -/
theorem modeStatus_rws {s : State} (htrack : s.md.mode ≠ .tracking) (hhold : s.md.mode ≠ .holdover) : modeStatus s .rws = 0 :=
  refuseIf_no _ (by rw [beq_false_of_ne htrack, beq_false_of_ne hhold]; rfl)

/-- A heard write of `PRINCIPAL_TB` that is accepted. -/
theorem servePrincipalTb {r : Requester} {v : Nat} {s : State} (h : Heard r (writeFrame r (addrWord 0x01 10 0) .u8 v) s)
    (hv : v < 4) (hsafe : s.md.mode ≠ .safe) (htrack : s.md.mode ≠ .tracking) (hhold : s.md.mode ≠ .holdover) :
    serveWrite r (addrWord 0x01 10 0) 1 v s =
      written r (addrWord 0x01 10 0) .u8 s.cfg.sy.principalTb v
        (principalWritten { counted s with cfg := s.cfg.withPrincipal v }) := by
  obtain ⟨o, ho, hel, hcross⟩ := object_syMode (counted s)
  exact serveWrite_done (ty := .u8) (e := principalTbEl) h hsafe (by omega) (by omega) (by omega) ho hel rfl rfl (by decide)
    (Or.inr (Or.inl rfl)) (modeStatus_rws (s := counted s) htrack hhold) (decode_byte (by omega)) (Or.inl rfl)
    (checkOne_principalTb hcross hv)

/-- In FREERUN a principal timebase that meets the HOLDOVER condition takes the module there (R80). -/
theorem principalWritten_held {s : State} (hmode : s.md.mode = .freerun) (hheld : heldTime s = true) (hmoved : moved s = false) :
    principalWritten s = enterMode .holdover s := by
  rw [principalWritten, if_pos ⟨hmode, hheld⟩, hmoved, if_neg Bool.false_ne_true]

/-- Settles O19: each request passes its checks and completes; the mode after the write is that of the transition. -/
theorem enterSafeAndPrincipalTimebase : Obligations.EnterSafeAndPrincipalTimebase := by
  refine ⟨?enterSafe, ?write, ?held⟩
  case enterSafe => exact fun dt r arg s h harg hsafe => timed_of_effect (serveEnterSafe h harg hsafe)
  case write => exact fun dt r v s h hv hsafe htrack hhold => timed_of_effect (servePrincipalTb h hv hsafe htrack hhold)
  case held =>
    intro s hmode hheld hmoved
    rw [principalWritten_held hmode hheld hmoved, enterMode_mode]

end Sys2Proof.Machine
end

section
/-! SUPPORT. The kinds of the event sources (R97, R227, R270, R340, R377, R384, R434). -/

namespace Sys2Proof.Machine

theorem reservedSource_iff (n : Nat) :
    reservedSource n = true ↔ n = 15 ∨ (40 ≤ n ∧ n ≤ 44) ∨ n = 87 ∨ n = 134 ∨ n = 135 ∨ n = 150 ∨ n = 151 ∨ (247 ≤ n ∧ n ≤ 251) := by
  simp only [reservedSource, Bool.or_eq_true, Bool.and_eq_true, beq_iff_eq, decide_eq_true_eq, or_assoc]

theorem levelSources_contains_iff (n : Nat) :
    levelSources.contains n = true ↔ n = 1 ∨ n = 3 ∨ n = 4 ∨ n = 11 ∨ n = 12 ∨ n = 14 ∨ n = 85 ∨ n = 132 ∨ n = 255 := by
  simp only [levelSources, List.contains_iff_mem, List.mem_cons, List.not_mem_nil, or_false]

/-- Settles O27: the branches of `kindOf`, each condition spelt out. -/
theorem kindsOfSources : Obligations.KindsOfSources := by
  intro n _
  simp only [kindOf, reservedSource_iff, levelSources_contains_iff]

end Sys2Proof.Machine
end

section
/-! SUPPORT. The selectors and the derived ranks (R125, R126, R128, R136). -/

namespace Sys2Proof.Machine

/-! ## The selector's objects (R136) -/

theorem object_priority {s : State} {n : Nat} (hb : s.md.bootRom = false) (h : n < 8) :
    objectAt s 16 (110 + n) = some (objPriority n) := by
  simp only [objectAt, hb, objRf, Bool.false_eq_true, if_false]
  rw [if_neg (by omega), if_neg (by omega), if_neg (by omega), if_neg (by omega), if_neg (by omega), if_neg (by omega),
    if_pos (by omega), Nat.add_sub_cancel_left]

/-- `MASK` of channel n shows the mask of its selector. -/
theorem objSel_mask (n : Nat) (s : State) :
    ∃ m, (objSel n).find 0 = some m ∧ m.get s = ((s.cfg.sel n).mask.toNat : Int) :=
  ⟨_, rfl, rfl⟩

/-- Element c of the priority object of channel n shows the priority value of candidate c. -/
theorem objPriority_element (n : Nat) (s : State) {c : Nat} (hc : c < 24) :
    ∃ p, (objPriority n).find c = some p ∧ p.get s = ((nth (s.cfg.sel n).priority c 0 : Nat) : Int) :=
  ⟨_, find_range_map _ (fun _ => rfl) hc, rfl⟩

/-! ## The first of a list (R128) -/

theorem firstBest_eq_none_iff {better : Nat → Nat → Bool} {l : List Nat} : firstBest better l = none ↔ l = [] := by
  cases l with
  | nil => simp [firstBest]
  | cons a l =>
    rw [firstBest]
    split
    · simp
    · split <;> simp

section
variable {better : Nat → Nat → Bool} (htrans : ∀ a b c, better a b = true → better b c = true → better a c = true)
  (htotal : ∀ a b, better a b = true ∨ a = b ∨ better b a = true)
include htrans htotal

/-- Under a total order the element found comes before every other element of the list. -/
theorem firstBest_first {l : List Nat} {c : Nat} (h : firstBest better l = some c) :
    c ∈ l ∧ ∀ d ∈ l, d = c ∨ better c d = true := by
  induction l generalizing c with
  | nil => cases h
  | cons a l ih =>
    rw [firstBest] at h
    split at h
    case h_1 hnone =>
      obtain rfl := firstBest_eq_none_iff.1 hnone
      obtain rfl := Option.some.inj h
      exact ⟨List.mem_cons_self, by simp⟩
    case h_2 b hb =>
      obtain ⟨hmem, hfirst⟩ := ih hb
      split at h
      case isTrue hba =>
        obtain rfl : b = c := Option.some.inj h
        exact ⟨List.mem_cons_of_mem _ hmem, List.forall_mem_cons.2 ⟨.inr hba, hfirst⟩⟩
      case isFalse hba =>
        obtain rfl : a = c := Option.some.inj h
        refine ⟨List.mem_cons_self, List.forall_mem_cons.2 ⟨.inl rfl, fun d hd => ?_⟩⟩
        have hab : a = b ∨ better a b = true := (htotal a b).elim .inr fun h => h.imp_right fun h => absurd h hba
        rcases hfirst d hd with rfl | hbd
        · exact hab.imp_left Eq.symm
        · exact .inr (hab.elim (fun e => e ▸ hbd) fun hab => htrans a b d hab hbd)

/-- Under a strict total order the element found is the one that comes before every other. -/
theorem firstBest_eq_some_iff (hirrefl : ∀ a, ¬ better a a = true) {l : List Nat} {c : Nat} :
    firstBest better l = some c ↔ c ∈ l ∧ ∀ d ∈ l, d = c ∨ better c d = true := by
  refine ⟨firstBest_first htrans htotal, fun ⟨hmem, hfirst⟩ => ?_⟩
  rcases hb : firstBest better l with _ | b
  · simp [firstBest_eq_none_iff.1 hb] at hmem
  · obtain ⟨hbmem, hbfirst⟩ := firstBest_first htrans htotal hb
    rcases hfirst b hbmem with rfl | hcb
    · rfl
    · exact congrArg some ((hbfirst c hmem).resolve_right fun hbc => hirrefl c (htrans c b c hcb hbc)).symm

end

/-! ## The best candidate (R128) -/

theorem candUsable_iff {x : Cand} : candUsable x = true ↔ x.state = .qualified ∨ x.state = .selected := by
  rw [candUsable, Bool.or_eq_true, beq_iff_eq, beq_iff_eq]

theorem selectable_iff {s : State} {n c : Nat} :
    selectable s n c = true ↔ (s.cfg.sel n).mask.getLsbD c = true
      ∧ ((s.cand c).state = .qualified ∨ (s.cand c).state = .selected) ∧ (s.cand c).rank ≤ 14 := by
  rw [selectable, Bool.and_eq_true, Bool.and_eq_true, candUsable_iff, decide_eq_true_iff, and_assoc]

/-- Rank, then priority value, then index. -/
theorem betterCand_iff {s : State} {n c d : Nat} :
    betterCand s n c d = true ↔ (s.cand c).rank < (s.cand d).rank ∨ ((s.cand c).rank = (s.cand d).rank
      ∧ (nth (s.cfg.sel n).priority c 0 < nth (s.cfg.sel n).priority d 0
        ∨ (nth (s.cfg.sel n).priority c 0 = nth (s.cfg.sel n).priority d 0 ∧ c < d))) := by
  simp only [betterCand, Bool.or_eq_true, Bool.and_eq_true, decide_eq_true_eq, beq_iff_eq]

theorem betterCand_irrefl (s : State) (n c : Nat) : ¬ betterCand s n c c = true := by
  rw [betterCand_iff]; omega

theorem betterCand_trans (s : State) (n a b c : Nat) (hab : betterCand s n a b = true) (hbc : betterCand s n b c = true) :
    betterCand s n a c = true := by
  rw [betterCand_iff] at *; omega

theorem betterCand_total (s : State) (n a b : Nat) : betterCand s n a b = true ∨ a = b ∨ betterCand s n b a = true := by
  rw [betterCand_iff, betterCand_iff]; omega

/-- The candidates among which channel n selects. -/
theorem mem_selectable {s : State} {n c : Nat} :
    c ∈ (List.range 24).filter (selectable s n) ↔ c < 24 ∧ selectable s n c = true := by
  rw [List.mem_filter, List.mem_range]

theorem bestCand_eq_some_iff {s : State} {n c : Nat} :
    bestCand s n = some c ↔ c < 24 ∧ selectable s n c = true
      ∧ ∀ d < 24, selectable s n d = true → d = c ∨ betterCand s n c d = true := by
  rw [bestCand, firstBest_eq_some_iff (betterCand_trans s n) (betterCand_total s n) (betterCand_irrefl s n)]
  simp only [mem_selectable, and_assoc, and_imp]

theorem bestCand_eq_none_iff {s : State} {n : Nat} : bestCand s n = none ↔ ∀ c < 24, ¬ selectable s n c = true := by
  rw [bestCand, firstBest_eq_none_iff, List.filter_eq_nil_iff]
  simp only [List.mem_range]

/-- Settles O8: the selector's objects show what the order is read from, and that order is strict and total. -/
theorem selectionOrder : Obligations.SelectionOrder := by
  refine ⟨fun n s hn hb => ⟨?mask, fun c hc => ?priority⟩, fun n s => ⟨fun c => ?some, ?none⟩⟩
  case mask =>
    obtain ⟨m, hm, hget⟩ := objSel_mask n s
    exact ⟨_, m, object_sel hb hn, hm, hget⟩
  case priority =>
    obtain ⟨p, hp, hget⟩ := objPriority_element n s hc
    exact ⟨_, p, object_priority hb hn, hp, hget⟩
  case some =>
    rw [bestCand_eq_some_iff]
    simp only [selectable_iff, betterCand_iff]
  case none =>
    rw [bestCand_eq_none_iff]
    simp only [selectable_iff]

/-! ## The rank of a DOMAIN reference (R125, R126) -/

/-- A logical reference of kind DOMAIN is a DOMAIN candidate. -/
theorem candKind_domain {c : Nat} {cfg : Cfg} (hc : 16 ≤ c) (hkind : (cfg.lref (c - 16)).kind = 1) :
    candKind cfg c = .domain := by
  rw [candKind, if_neg (Nat.not_lt.2 hc), if_neg (by omega)]

/-- Over a PTP domain with Announce the derived rank is that of the clockClass last announced, 15 before the first. -/
theorem derivedRank_ptp {c : Nat} {s : State} (hc : 16 ≤ c) (hlref : (s.cfg.lref (c - 16)).kind = 1)
    (hkind : (s.cfg.domi (s.cfg.lref (c - 16)).source).kind = 1)
    (hprofile : (s.cfg.domi (s.cfg.lref (c - 16)).source).profile ≠ 3) :
    derivedRank s c = ((s.inst (s.cfg.lref (c - 16)).source).annClass.map classRank).getD 15 := by
  simp only [derivedRank, candKind_domain hc hlref]
  rw [if_neg (by omega), if_pos hkind, if_neg hprofile, ptpRank, if_neg hprofile]
  cases (s.inst (s.cfg.lref (c - 16)).source).annClass <;> rfl

/-- The table of R126. -/
theorem classRank_table (k : Nat) :
    (k = 6 → classRank k = 1) ∧ (k = 13 → classRank k = 2) ∧ (k = 7 → classRank k = 4) ∧ (k = 14 → classRank k = 5)
      ∧ (k = 52 ∨ k = 58 ∨ k = 187 ∨ k = 193 → classRank k = 10) ∧ (k = 248 → classRank k = 12)
      ∧ (k = 255 → classRank k = 15)
      ∧ (k ≠ 6 → k ≠ 13 → k ≠ 7 → k ≠ 14 → k ≠ 52 → k ≠ 58 → k ≠ 187 → k ≠ 193 → k ≠ 248 → k ≠ 255 → classRank k = 14) := by
  refine ⟨fun h => h ▸ rfl, fun h => h ▸ rfl, fun h => h ▸ rfl, fun h => h ▸ rfl, ?holdover, fun h => h ▸ rfl,
    fun h => h ▸ rfl, ?other⟩
  case holdover => rintro (rfl | rfl | rfl | rfl) <;> rfl
  case other => intros; simp [classRank, *]

/-- Settles O9: the rank of the announced class, read off the table. -/
theorem classRanks : Obligations.ClassRanks := by
  refine ⟨fun c k s hc _ hlref hkind hprofile hclass => ?announced, fun c s hc _ hlref hkind hprofile hclass => ?silent⟩
  all_goals simp only [derivedRank_ptp hc hlref hkind hprofile, hclass]
  case announced => exact classRank_table k
  case silent => rfl

end Sys2Proof.Machine
end

section
/-! SUPPORT. The edges of the references (R104, R105, R113 to R116, R138): what each of their commands does to the state at its moment. -/

namespace Sys2Proof.Machine

/-! ## Edges and the channel seconds that fall in them (R114, R190) -/

/-- The channel seconds follow from what the effect makes of the state. -/
theorem withSeconds_congr {f g : State → State} {s : State} (h : f s = g s) : withSeconds f s = withSeconds g s := by
  rw [withSeconds, withSeconds, h]

/-- A REFERENCE_EDGE makes the edge at its instant, and the channel seconds in it. -/
theorem exec_referenceEdge {dt : Nat} {n : Fin 16} {frac : Rat} {s : State} {g : State → State}
    (h : referenceEdge n ((elapse dt s).clk.count + frac) (elapse dt s) = g (elapse dt s)) :
    exec (.referenceEdge dt n frac) s = .next (finish (withSeconds g (elapse dt s))) :=
  timed_of_effect (withSeconds_congr h)

/-- A REFERENCE_EDGE that moves no channel meets no channel second. -/
theorem exec_referenceEdge_still {dt : Nat} {n : Fin 16} {frac : Rat} {s u : State}
    (h : referenceEdge n ((elapse dt s).clk.count + frac) (elapse dt s) = u) (hdp : u.dp = (elapse dt s).dp) :
    exec (.referenceEdge dt n frac) s = .next (finish u) :=
  (exec_referenceEdge (g := fun _ => u) h).trans (by rw [withSeconds_still _ _ hdp])

/-- An input that is watched, and not absent with J2's coding, takes its edges (R45, R46). -/
theorem input_present {n : Nat} {s : State} (hlive : candLive s n = true)
    (hconn : 8 ≤ n ∧ n < 12 → s.isFenced (.conn 2) = false) :
    (!candLive s n || (decide (8 ≤ n ∧ n < 12) && s.isFenced (.conn 2))) = false := by
  rw [hlive, Bool.not_true, Bool.false_or, Bool.and_eq_false_imp, decide_eq_true_iff]
  exact hconn

theorem referenceEdge_clk {n : Nat} {pin : Rat} {s : State} (hlive : candLive s n = true)
    (hconn : 8 ≤ n ∧ n < 12 → s.isFenced (.conn 2) = false) (hkind : candKind s.cfg n = .clk) :
    referenceEdge n pin s = clkEdge n pin s := by
  rw [referenceEdge, input_present hlive hconn, hkind]; rfl

theorem referenceEdge_pulse {n : Nat} {pin : Rat} {s : State} (hlive : candLive s n = true)
    (hconn : 8 ≤ n ∧ n < 12 → s.isFenced (.conn 2) = false) (hkind : candKind s.cfg n = .pulse) :
    referenceEdge n pin s = pulseEdge n (pin - delayNs s.cfg n) s := by
  rw [referenceEdge, input_present hlive hconn, hkind]; rfl

/-! ## CLK edges (R114) -/

/-- An edge below the divider only counts. -/
theorem clkEdge_counts {c : Nat} {t : Rat} {s : State} (hsel : (s.cand c).state ≠ .selected)
    (hdiv : (s.cand c).edgeDiv + 1 < watchDivider (nominalMhz s.cfg c)) :
    clkEdge c t s = s.setCand c fun x => { x with edgeDiv := x.edgeDiv + 1 } := by
  simp only [clkEdge]
  rw [if_pos hdiv, if_neg hsel]

/-- The edge that completes the divider is a watched edge on time, and reaches the channels of a SELECTED candidate. -/
theorem clkEdge_watched {c : Nat} {t : Rat} {s : State}
    (hdiv : watchDivider (nominalMhz s.cfg c) ≤ (s.cand c).edgeDiv + 1) :
    clkEdge c t s =
      let u := (candEdge c t s).setCand c fun x => { x with edgeDiv := 0 }
      if (s.cand c).state = .selected then edgeToChannels c t u else u := by
  simp only [clkEdge]
  rw [if_neg (Nat.not_lt.2 hdiv)]

/-! ## PULSE edges (R104, R105, R114, R115) -/

/-- Without an enabled GNSS reference no input is the source of one. -/
theorem gnssOf_of_none {s : State} (k : Nat) (h : gnssCand s = none) : gnssOf s k = none := by
  rw [gnssOf, h]

/-- Candidate c takes a PULSE edge on time at `t`; under an activity fault it is also noted in `STICKY` (R115, R135). -/
def pulseTaken (c : Nat) (t : Rat) (s : State) : State :=
  candEdge c t (s.setCand c fun x => { x with sticky := if (s.cand c).actFault then setBit8 x.sticky 3 else x.sticky })

/-- A PULSE edge on time of a candidate that is not SELECTED reaches its GNSS reference. -/
theorem pulseEdge_onTime {c : Nat} {t : Rat} {s : State} (hsel : (s.cand c).state ≠ .selected) (htime : pulseOnTime s c t = true) :
    pulseEdge c t s = match gnssOf s c with | some l => labelledPulse l t (pulseTaken c t s) | none => pulseTaken c t s := by
  simp only [pulseEdge]
  rw [if_pos htime, if_neg hsel]
  rfl

/-- Any other PULSE edge is an extra edge. -/
theorem pulseEdge_extra {c : Nat} {t : Rat} {s : State} (htime : pulseOnTime s c t = false) (hgnss : gnssCand s = none) :
    pulseEdge c t s = extraEdge c s := by
  simp only [pulseEdge, gnssOf_of_none c hgnss]
  rw [if_neg (Bool.eq_false_iff.1 htime)]

/-! ## Missing edges (R113, R114) -/

/-- A CLK candidate whose watched period and a half has passed misses an edge. -/
theorem missingEdge_clk {c : Nat} {l : Rat} {s : State} (hlive : candLive s c = true) (hkind : candKind s.cfg c = .clk)
    (hlast : (s.cand c).lastWatch = some l) (hdue : l + watchPeriod s.cfg c * 3 / 2 ≤ (s.clk.count : Rat)) :
    missingEdge c s = missEdge c (s.setCand c fun x => { x with lastWatch := some (l + watchPeriod s.cfg c) }) := by
  simp only [missingEdge, hlive, hkind, hlast]
  exact if_neg (not_lt.2 hdue)

/-- A PULSE candidate whose window has closed misses an edge, and so does its GNSS reference. -/
theorem missingEdge_pulse {c : Nat} {l : Rat} {s : State} (hlive : candLive s c = true) (hkind : candKind s.cfg c = .pulse)
    (hlast : (s.cand c).lastWatch = some l)
    (hdue : l + nominalPeriod s.cfg c + (s.cfg.ref c).pulseWindow + max 0 (delayNs s.cfg c) ≤ (s.clk.count : Rat)) :
    missingEdge c s =
      let u := missEdge c (s.setCand c fun x =>
        { x with lastWatch := x.anchor.map fun a =>
            a + nominalPeriod s.cfg c * (((l - a) / nominalPeriod s.cfg c + 1 / 2).floor + 1) })
      match gnssOf s c with | some k => labelledMissing k u | none => u := by
  simp only [missingEdge, hlive, hkind, hlast]
  exact if_neg (not_lt.2 hdue)

/-- A DOMAIN candidate whose timebase is more than 1 ms into the second after the next misses an edge. -/
theorem missingEdge_domain {c : Nat} {l : Rat} {s : State} (hlive : candLive s c = true) (hkind : candKind s.cfg c = .domain)
    (hlast : (s.cand c).lastWatch = some l)
    (hdue : (l + 1) * 1000000000 + 1000000 < (s.tbs ((s.cfg.lref (c - 16)).source / 2)).now) :
    missingEdge c s = missEdge c (s.setCand c fun x => { x with lastWatch := some (l + 1) }) := by
  simp only [missingEdge, hlive, hkind, hlast]
  exact if_neg (not_le.2 hdue)

/-! ## The activity monitor (R113, R116) -/

theorem onTime_below {thr : Nat} {x : Cand} (period : Option Rat) (t : Rat) (h : x.actCount < thr) :
    x.onTime thr period t =
      let n := x.winCount + periodsSince period t x
      let c := if x.onTimeRun + 1 < 4 then x.actCount else x.actCount - 1
      { x with
        onTimeRun := (x.onTimeRun + 1) % 4, actCount := c,
        actFault := x.actFault && !(decide (4 ≤ x.onTimeRun + 1) && c == 0),
        anchor := some t, lastWatch := some t, winCount := n, winLast := some t,
        marks := if x.marks.isEmpty then [(t, n)] else x.marks, mark100 := x.mark100.or (some (t, n)) } := by
  rw [Cand.onTime, Cand.atThreshold, if_pos h]

theorem atThreshold_reached {thr : Nat} {x : Cand} (h : thr ≤ x.actCount) (hfault : x.actFault = false) :
    x.atThreshold thr = { x with actCount := thr, onTimeRun := 0, actFault := true, sticky := setBit8 x.sticky 0 } := by
  rw [Cand.atThreshold, if_neg (Nat.not_lt.2 h), hfault]; rfl

/-- A missing edge, its threshold and the discard of the windows written out. -/
theorem missEdge_eq (c : Nat) (s : State) :
    missEdge c s = s.setCand c fun x =>
      let n := min (candCfg s.cfg c).act (x.actCount + 1)
      if (candCfg s.cfg c).act ≤ n ∧ x.actFault = false then
        { x with
          missing := x.missing + 1, onTimeRun := 0, actCount := n, actFault := true, sticky := setBit8 x.sticky 0,
          winCount := 0, winLast := none, marks := [], mark100 := none, y1 := none, y10 := none, y100 := none,
          samples := [], drift := none, freqFault := false, driftFault := false }
      else { x with missing := x.missing + 1, onTimeRun := 0, actCount := n } := by
  simp only [missEdge, Cand.discard, Bool.not_eq_true']

/-- Settles O30: the edges of each class of reference, the missing edges, and the three steps of the activity counter. -/
theorem referenceEdges : Obligations.ReferenceEdges := by
  refine ⟨?counts, ?watched, ?pulse, ?extra, ?selected, ?labelled, ?missingClk, ?missingPulse, ?missingDomain, missEdge_eq,
    fun thr period t x => onTime_below period t, fun thr x => atThreshold_reached⟩
  case counts =>
    exact fun dt n frac s hlive hconn hkind hsel hdiv =>
      exec_referenceEdge_still ((referenceEdge_clk hlive hconn hkind).trans (clkEdge_counts hsel hdiv)) rfl
  case watched =>
    exact fun dt n frac s hlive hconn hkind hsel hdiv =>
      exec_referenceEdge_still
        ((referenceEdge_clk hlive hconn hkind).trans ((clkEdge_watched hdiv).trans (if_neg hsel))) rfl
  case pulse =>
    intro dt n frac s e hlive hconn hkind hsel hgnss htime
    have hedge := pulseEdge_onTime hsel htime
    rw [gnssOf_of_none _ hgnss] at hedge
    exact exec_referenceEdge_still ((referenceEdge_pulse hlive hconn hkind).trans hedge) rfl
  case extra =>
    exact fun dt n frac s hlive hconn hkind hgnss htime =>
      exec_referenceEdge_still ((referenceEdge_pulse hlive hconn hkind).trans (pulseEdge_extra htime hgnss)) rfl
  case selected =>
    exact fun dt n frac s hlive hconn hkind hsel hdiv =>
      exec_referenceEdge ((referenceEdge_clk hlive hconn hkind).trans ((clkEdge_watched hdiv).trans (if_pos hsel)))
  case labelled =>
    intro dt n frac l s e hlive hconn hkind hsel hgnss htime
    have hedge := pulseEdge_onTime hsel htime
    rw [hgnss] at hedge
    exact exec_referenceEdge ((referenceEdge_pulse hlive hconn hkind).trans hedge)
  case missingClk => exact fun dt c l s hlive hkind hlast hdue => timed_of_effect (missingEdge_clk hlive hkind hlast hdue)
  case missingPulse => exact fun dt c l s hlive hkind hlast hdue => timed_of_effect (missingEdge_pulse hlive hkind hlast hdue)
  case missingDomain => exact fun dt c l s hlive hkind hlast hdue => timed_of_effect (missingEdge_domain hlive hkind hlast hdue)

end Sys2Proof.Machine
end

section
/-! SUPPORT. The GNSS port (R105, R107 to R111, R462): what each of its commands does to the state at its moment. -/

namespace Sys2Proof.Machine

/-! ## Sentences (R107, R108, R110) -/

/-- The characters are an enabled sentence, `rmc` telling RMC from ZDA, and the MGT core runs to take it. -/
structure SentenceTaken (chars : List Byte) (x : Sentence) (rmc : Bool) (s : State) : Prop where
  /-- The sentence is read from the characters. -/
  read : readSentence chars = some x
  /-- Its address is that of a ZDA or an RMC. -/
  type : sentenceType (fieldAt x.fields 0) = some rmc
  /-- The MGT core runs. -/
  runs : s.runs 0 = true
  /-- Sentences of its type are enabled. -/
  enabled : bit8 s.cfg.gnss.sentences (if rmc then 1 else 0) = true

/-- What a sentence taken leaves of the port: counted, its time with those of the pulse, and an RMC's fix and rank. -/
def sentenceKept (rmc : Bool) (x : Sentence) (quality : Nat) (s : State) : State :=
  s.setGnss fun g =>
    { g with
      sentencesOk := g.sentencesOk + 1, sents := g.sents ++ [sentenceTime rmc x.fields],
      fix := if rmc then (fixOf x.fields).getD g.fix else g.fix,
      fixRank := if rmc then fixRankOf ((fixOf x.fields).getD g.fix) quality else g.fixRank }

section
variable {chars : List Byte} {began : Nat} {x : Sentence} {rmc : Bool} {s : State} (h : SentenceTaken chars x rmc s)
include h

theorem gnssSentence_overlong (hlong : 82 < x.length) :
    gnssSentence chars began s = s.setGnss fun g => { g with overlong := g.overlong + 1 } := by
  simp only [gnssSentence, h.read, h.type, h.runs, h.enabled]
  exact if_pos hlong

theorem gnssSentence_badSum (hlen : x.length ≤ 82) (hsum : x.sumOk = false) :
    gnssSentence chars began s = s.setGnss fun g => { g with checksumErrors := g.checksumErrors + 1 } := by
  simp only [gnssSentence, h.read, h.type, h.runs, h.enabled, hsum]
  exact if_neg (Nat.not_lt.2 hlen)

/-- A sentence that does not lie between the latest pulse and MSG_LATEST after it is late; so is one before the first pulse (log
entry 37). -/
theorem gnssSentence_late (hlen : x.length ≤ 82) (hsum : x.sumOk = true)
    (hout : ∀ p, s.rf.gnss.pulseAt = some p →
      ((s.clk.count - began : Nat) : Rat) < p ∨ p + (s.cfg.gnss.msgLatest : Rat) * 1000000 < (s.clk.count : Rat)) :
    gnssSentence chars began s = s.setGnss fun g => { g with late := g.late + 1 } := by
  simp only [gnssSentence, h.read, h.type, h.runs, h.enabled, hsum]
  rw [if_neg (Nat.not_lt.2 hlen)]
  rcases hp : s.rf.gnss.pulseAt with _ | p
  · rfl
  · rcases hout p hp with hb | ha
    · simp only [decide_eq_false (not_le.2 hb)]; rfl
    · simp only [decide_eq_false (not_le.2 ha), Bool.and_false]; rfl

/-- A sentence in time is kept; where `LABEL` is 0 and every enabled sentence is in, the pulse is judged. -/
theorem gnssSentence_kept {p : Rat} {c : Nat} (hlen : x.length ≤ 82) (hsum : x.sumOk = true)
    (hp : s.rf.gnss.pulseAt = some p) (hafter : p ≤ ((s.clk.count - began : Nat) : Rat))
    (hbefore : (s.clk.count : Rat) ≤ p + (s.cfg.gnss.msgLatest : Rat) * 1000000)
    (hopen : ¬ (s.cfg.gnss.label = 0 ∧ s.rf.gnss.judged = true)) (hcand : gnssCand s = some c) :
    gnssSentence chars began s =
      let u := sentenceKept rmc x (candCfg s.cfg c).quality s
      let got := fun (y : Bool) => u.rf.gnss.sents.any fun z => z.rmc == y
      if s.cfg.gnss.label = 0
          ∧ ((!bit8 s.cfg.gnss.sentences 0 || got false) && (!bit8 s.cfg.gnss.sentences 1 || got true)) = true then
        judgeOpen c u
      else u := by
  simp only [gnssSentence, h.read, h.type, h.runs, h.enabled, hsum, hp, decide_eq_true hafter, decide_eq_true hbefore, hcand]
  rw [if_neg (Nat.not_lt.2 hlen), if_neg hopen]
  cases rmc with
  | false => rfl
  | true => rfl

end

/-! ## Pulses (R105, R109 to R111, R462) -/

/-- A labelled pulse without a running MGT core or without sentences is a missing one of the reference. -/
theorem judgePulse_unlabelled {c : Nat} {t : Rat} {s : State} (h : s.runs 0 = false ∨ s.rf.gnss.sents = []) :
    judgePulse c t s = missEdge c (s.setGnss fun g => { g with judged := true, sents := [] }) := by
  have hno : (!s.runs 0) = true ∨ s.rf.gnss.sents.isEmpty = true := by rwa [Bool.not_eq_true', List.isEmpty_iff]
  simp only [judgePulse]
  exact if_pos hno

theorem judgeOpen_open {c : Nat} {p : Rat} {s : State} (hp : s.rf.gnss.pulseAt = some p) (hopen : s.rf.gnss.judged = false) :
    judgeOpen c s = judgePulse c p s := by
  simp only [judgeOpen, hp, hopen]; rfl

/-- With `LABEL` = 0 a pulse that is open MSG_LATEST after it is judged. -/
theorem msgLatestExpiry_open {p : Rat} {c : Nat} {s : State} (hp : s.rf.gnss.pulseAt = some p) (hcand : gnssCand s = some c)
    (hlabel : s.cfg.gnss.label = 0) (hlive : candLive s c = true)
    (hdue : p + (s.cfg.gnss.msgLatest : Rat) * 1000000 ≤ (s.clk.count : Rat)) (hopen : s.rf.gnss.judged = false) :
    msgLatestExpiry s = judgePulse c p s := by
  rw [← judgeOpen_open hp hopen]
  simp only [msgLatestExpiry, hp, hcand]
  exact if_pos ⟨hlabel, hlive, hdue⟩

/-- While its source is off the enabled GNSS reference misses one pulse each second. -/
theorem gnssSourceMissing_off {n : Nat} {s : State} (hcand : gnssCand s = some (16 + n)) (hlive : candLive s (16 + n) = true)
    (hoff : candLive s (s.cfg.lref n).source = false ∨ candKind s.cfg (s.cfg.lref n).source ≠ .pulse)
    (hdue : s.rf.gnss.countBase + 1000000000 ≤ s.clk.count) :
    gnssSourceMissing n s =
      missEdge (16 + n) (s.setGnss fun g => { g with countBase := g.countBase + 1000000000 }) := by
  have hoff' : (!candLive s (s.cfg.lref n).source || candKind s.cfg (s.cfg.lref n).source != .pulse) = true := by
    rwa [Bool.or_eq_true, Bool.not_eq_true', bne_iff_ne]
  exact if_pos ⟨hcand, hlive, hoff', hdue⟩

/-- Settles O31: the fates of a sentence, and the judgements of a pulse. -/
theorem gnssPort : Obligations.GnssPort := by
  refine ⟨?overlong, ?badSum, ?late, ?kept, ?expiry, ?missing, fun c t s => judgePulse_unlabelled⟩
  case overlong =>
    exact fun dt chars began x rmc s hread htype hruns hen hlong =>
      timed_of_effect (gnssSentence_overlong ⟨hread, htype, hruns, hen⟩ hlong)
  case badSum =>
    exact fun dt chars began x rmc s hread htype hruns hen hlen hsum =>
      timed_of_effect (gnssSentence_badSum ⟨hread, htype, hruns, hen⟩ hlen hsum)
  case late =>
    exact fun dt chars began x rmc s hread htype hruns hen hlen hsum hout =>
      timed_of_effect (gnssSentence_late ⟨hread, htype, hruns, hen⟩ hlen hsum hout)
  case kept =>
    exact fun dt chars began x rmc p c s hread htype hruns hen hlen hsum hp hafter hbefore hopen hcand =>
      timed_of_effect (gnssSentence_kept ⟨hread, htype, hruns, hen⟩ hlen hsum hp hafter hbefore hopen hcand)
  case expiry =>
    exact fun dt p c s hp hcand hlabel hlive hdue hopen =>
      timed_of_effect (msgLatestExpiry_open hp hcand hlabel hlive hdue hopen)
  case missing =>
    exact fun dt n s hcand hlive hoff hdue => timed_of_effect (gnssSourceMissing_off hcand hlive hoff hdue)

end Sys2Proof.Machine
end

section
/-! SUPPORT. The states, ranks and windows of the candidates (R103, R112, R116, R121, R127, R135): what each of their commands does to the
state at its moment. -/

namespace Sys2Proof.Machine

/-! ## Entering a state (R121, R124) -/

/-- A candidate that does not leave QUALIFIED or SELECTED has no sample to drop. -/
theorem candGo_keeps {c : Nat} {st : CandState} {s : State}
    (h : (candUsable (s.cand c) && st != .qualified && st != .selected) = false) :
    candGo c st s =
      raise (48 + c) (s.setCand c fun x => { x with state := st, lastChange := s.clk.count, wtrSince := none }) := by
  simp only [candGo, h]; rfl

theorem candGo_qualified (c : Nat) (s : State) :
    candGo c .qualified s =
      raise (48 + c) (s.setCand c fun x => { x with state := .qualified, lastChange := s.clk.count, wtrSince := none }) :=
  candGo_keeps (by cases candUsable (s.cand c) <;> rfl)

/-- A candidate that a change leaves neither QUALIFIED nor SELECTED enters a state as part of that change. -/
theorem candGo_setCand {c : Nat} {st : CandState} {s : State} {f : Cand → Cand} (h : candUsable (f (s.cand c)) = false) :
    candGo c st (s.setCand c f) =
      raise (48 + c) (s.setCand c fun x => { f x with state := st, lastChange := s.clk.count, wtrSince := none }) := by
  rw [candGo_keeps (by rw [setCand_unusable s c f h]; rfl)]
  simp only [State.setCand, upd_upd]

theorem candUsable_of_monitoring {x : Cand} (h : x.state = .absent ∨ x.state = .monitoring ∨ x.state = .qualifying) :
    candUsable x = false := by
  rcases h with h | h | h <;> rw [candUsable, h] <;> rfl

/-! ## Timers (R103, R121, R127) -/

/-- A clean candidate whose WTR has passed is QUALIFIED. -/
theorem wtrReached_clean {c t : Nat} {s : State} (hst : (s.cand c).state = .qualifying) (hsince : (s.cand c).wtrSince = some t)
    (hclean : candClean (candCfg s.cfg c) (s.cand c) = true) (hdue : t + (candCfg s.cfg c).wtr * 1000000000 ≤ s.clk.count)
    (hrun : s.rf.stopped = false) : wtrReached c s = qualifyCand c s := by
  simp only [wtrReached, hst, hsince]
  exact if_pos ⟨hclean, hdue, by rw [hrun]; rfl⟩

/-- A rank improvement that has waited WTR is the effective rank. -/
theorem rankImprovement_due {c k t : Nat} {s : State} (himp : (s.cand c).improve = some (k, t))
    (hdue : t + (candCfg s.cfg c).wtr * 1000000000 ≤ s.clk.count) (hrun : s.rf.stopped = false) :
    rankImprovement c s = raise (48 + c) (s.setCand c fun x => { x with rank := k, improve := none }) := by
  simp only [rankImprovement, himp]
  exact if_pos ⟨hdue, by rw [hrun]; rfl⟩

/-! ## Frequency windows (R116) -/

theorem frequencyUpdate_live {c : Nat} {s : State} (h : candLive s c = true) :
    frequencyUpdate c s = s.setCand c fun x => x.windows (candCfg s.cfg c) (watchPeriod s.cfg c) := if_pos h

theorem windowOffset_of_lt {p t0 t1 : Rat} {n0 n1 : Nat} (h : t0 < t1) :
    windowOffset p t0 n0 t1 n1 = some ((((n1 - n0 : Nat) : Rat) * p / (t1 - t0) - 1) * 1000000000000) :=
  if_neg (not_le.2 h)

/-- Judging the faults leaves the windows. -/
theorem rejudge_y1 (c : CandCfg) (x : Cand) : (x.rejudge c).y1 = x.y1 := rfl

/-- The 1 s window runs from the oldest mark to the last watched edge, once a second less half a period lies between them. -/
theorem windows_y1 {c : CandCfg} {x : Cand} {p t t0 : Rat} {n0 : Nat} {rest : List (Rat × Nat)} (hlast : x.winLast = some t)
    (hmarks : x.marks = (t0, n0) :: rest) (hlong : 1000000000 - p / 2 ≤ t - t0) (hlt : t0 < t) :
    (x.windows c p).y1 = windowOffset p t0 n0 t x.winCount := by
  have hopen : ¬ (t ≤ t0 ∨ t - t0 < 1000000000 - p / 2) := not_or.2 ⟨not_le.2 hlt, not_lt.2 hlong⟩
  simp only [Cand.windows, hlast, hmarks, if_neg hopen, rejudge_y1]
  split
  · split <;> rfl
  · rfl

/-! ## ENABLE (R102, R113, R121, R135) -/

/-- The element `ENABLE` of REFn, behind the candidate's fence. -/
def refEnableEl (n : Nat) : Elem :=
  ((refN n 0 .u8 (·.enable) (within 0 1) fun v r => { r with enable := v }).thenDo fun _ s => enableWritten n s).first (candFenced n)

theorem objRef_enable (n : Nat) : (objRef n).find 0 = some (refEnableEl n) := rfl

/-- The element `ENABLE` of LREFn, behind the candidate's fence. -/
def lrefEnableEl (n : Nat) : Elem :=
  ((lrefN n 0 .u8 (·.enable) (within 0 1) fun v r => { r with enable := v }).thenDo fun _ s => enableWritten (16 + n) s).first
    (candFenced (16 + n))

theorem objLref_enable (n : Nat) : (objLref n).find 0 = some (lrefEnableEl n) := rfl

/-- The configuration with `ENABLE` of REFn written. -/
def Cfg.withRefEnable (n v : Nat) (c : Cfg) : Cfg := { c with refs := upd c.refs n fun x => { x with enable := v } }

/-- The configuration with `ENABLE` of LREFn written. -/
def Cfg.withLrefEnable (n v : Nat) (c : Cfg) : Cfg := { c with lrefs := upd c.lrefs n fun x => { x with enable := v } }

theorem ref_withRefEnable {c : Cfg} {n : Nat} (v : Nat) (h : n < c.refs.length) :
    (c.withRefEnable n v).ref n = { c.ref n with enable := v } := nth_upd_eq _ _ _ h

theorem lref_withLrefEnable {c : Cfg} {n : Nat} (v : Nat) (h : n < c.lrefs.length) :
    (c.withLrefEnable n v).lref n = { c.lref n with enable := v } := nth_upd_eq _ _ _ h

/-- An enabled reference has to be a valid combination of R102. -/
theorem checkOne_refEnable {n v : Nat} {s : State} (hfence : s.isFenced (.cand n) = false) (hv : v < 2)
    (hlen : n < s.cfg.refs.length) (hvalid : v = 0 ∨ refValid n { s.cfg.ref n with enable := v } = true) :
    checkOne (objRef n) (refEnableEl n) v s = 0 := by
  refine checkOne_ok (orElse_ok (refuseIf_no _ hfence) (within_ok (by omega))) ?_ rfl
  change ((((s.cfg.withRefEnable n v).ref n).enable == 0 || refValid n ((s.cfg.withRefEnable n v).ref n)) && true) = true
  rw [ref_withRefEnable v hlen, Bool.and_true, Bool.or_eq_true, beq_iff_eq]
  exact hvalid

theorem lrefValid_freq {n : Nat} {c : Cfg} (h : lrefValid n c = true) :
    decide ((c.lref n).freqAccept < (c.lref n).freqReject) = true := (Bool.and_eq_true_iff.1 h).1

/-- An enabled logical reference meets the conditions of R105 and R106. -/
theorem checkOne_lrefEnable {n v : Nat} {s : State} (hfence : s.isFenced (.cand (16 + n)) = false) (hv : v < 2)
    (hlen : n < s.cfg.lrefs.length) (hvalid : v = 0 ∨ lrefValid n (s.cfg.withLrefEnable n v) = true) :
    checkOne (objLref n) (lrefEnableEl n) v s = 0 := by
  refine checkOne_ok (orElse_ok (refuseIf_no _ hfence) (within_ok (by omega))) ?_ rfl
  change (((((s.cfg.withLrefEnable n v).lref n).enable == 0) || lrefValid n (s.cfg.withLrefEnable n v))
    && (((((s.cfg.withLrefEnable n v).lref n).enable == 0) && true)
      || decide (((s.cfg.withLrefEnable n v).lref n).freqAccept < ((s.cfg.withLrefEnable n v).lref n).freqReject))) = true
  rcases hvalid with rfl | hvalid
  · rw [lref_withLrefEnable 0 hlen]; rfl
  · rw [hvalid, lrefValid_freq hvalid, Bool.or_true, Bool.or_true]; rfl

/-- A heard write of `ENABLE` of REFn. -/
theorem serve_refEnable {r : Requester} {n : Fin 16} {v : Nat} {s : State}
    (h : Heard r (writeFrame r (addrWord 0x10 n 0) .u8 v) s) (hsafe : s.md.mode ≠ .safe) (hb : s.md.bootRom = false) (hv : v < 2)
    (hfence : s.isFenced (.cand n) = false) (hlen : n < s.cfg.refs.length)
    (hvalid : v = 0 ∨ refValid n { s.cfg.ref n with enable := v } = true) :
    serveWrite r (addrWord 0x10 n 0) 1 v s = written r (addrWord 0x10 n 0) .u8 (s.cfg.ref n).enable v
      (enableWritten n { counted s with cfg := s.cfg.withRefEnable n v }) :=
  serveWrite_done (ty := .u8) (e := refEnableEl n) h hsafe (by omega) (by omega) (by omega) (object_ref (s := counted s) hb n.isLt)
    (objRef_enable n) rfl rfl (by decide) (Or.inl rfl) rfl (decode_byte (by omega)) (Or.inl rfl)
    (checkOne_refEnable (s := counted s) hfence hv hlen hvalid)

/-- A heard write of `ENABLE` of LREFn. -/
theorem serve_lrefEnable {r : Requester} {n : Fin 8} {v : Nat} {s : State}
    (h : Heard r (writeFrame r (addrWord 0x10 (16 + n) 0) .u8 v) s) (hsafe : s.md.mode ≠ .safe) (hb : s.md.bootRom = false)
    (hv : v < 2) (hfence : s.isFenced (.cand (16 + n)) = false) (hlen : n < s.cfg.lrefs.length)
    (hvalid : v = 0 ∨ lrefValid n (s.cfg.withLrefEnable n v) = true) :
    serveWrite r (addrWord 0x10 (16 + n) 0) 1 v s = written r (addrWord 0x10 (16 + n) 0) .u8 (s.cfg.lref n).enable v
      (enableWritten (16 + n) { counted s with cfg := s.cfg.withLrefEnable n v }) :=
  serveWrite_done (ty := .u8) (e := lrefEnableEl n) h hsafe (by omega) (by omega) (by omega)
    (object_lref (s := counted s) hb n.isLt) (objLref_enable n) rfl rfl (by decide) (Or.inl rfl) rfl (decode_byte (by omega))
    (Or.inl rfl) (checkOne_lrefEnable (s := counted s) hfence hv hlen hvalid)

/-- An ABSENT candidate that is enabled starts, its counters at 0. -/
theorem enableWritten_on {c : Nat} {s : State} (hen : (candCfg s.cfg c).enable = 1) (hst : (s.cand c).state = .absent) :
    enableWritten c s = startCand c (s.setCand c fun x => { x with missing := 0, extra := 0, disq := 0 }) := by
  simp only [enableWritten]
  rw [if_pos hen, if_pos hst]

/-- An ABSENT input starts in MONITORING, its monitors reset. -/
theorem startCand_input {c : Nat} {s : State} (hst : (s.cand c).state = .absent)
    (hkind : candKind s.cfg c = .clk ∨ candKind s.cfg c = .pulse) :
    startCand c s = raise (48 + c) (s.setCand c fun x =>
      { x.resetActivity (candCfg s.cfg c).act with state := .monitoring, lastChange := s.clk.count, wtrSince := none }) := by
  have hstart : startCand c s = candGo c .monitoring (s.setCand c fun x => x.resetActivity (candCfg s.cfg c).act) := by
    rcases hkind with h | h <;> simp only [startCand, h]
  rw [hstart]
  exact candGo_setCand (candUsable_of_monitoring (.inl hst))

/-- A candidate on its way to QUALIFIED that is disabled is ABSENT. -/
theorem enableWritten_off {c : Nat} {s : State} (hen : (candCfg s.cfg c).enable = 0)
    (hst : (s.cand c).state = .monitoring ∨ (s.cand c).state = .qualifying) :
    enableWritten c s = raise (48 + c) (s.setCand c fun x =>
      { x.discard with actFault := false, actCount := 0, state := .absent, lastChange := s.clk.count, wtrSince := none }) := by
  have hleft : ¬ ((s.cand c).state = .absent ∨ (s.cand c).state = .fenced) := by rcases hst with h | h <;> rw [h] <;> decide
  simp only [enableWritten]
  rw [if_neg (by omega), if_neg hleft]
  exact candGo_setCand (candUsable_of_monitoring (.inr hst))

/-! ## STICKY bytes (R135, R425) -/

theorem objCand_sticky (n : Nat) : (objCand n).find 2 = some (stickyEl 2 (fun s => (s.cand n).sticky)
    fun m s => s.setCand n fun x => { x with sticky := clearBits m x.sticky }) := rfl

theorem objChan_sticky (n : Nat) : (objChan n).find 11 = some (stickyEl 11 (fun s => (s.chan n).sticky)
    fun m s => s.setChan n fun x => { x with sticky := clearBits m x.sticky }) := rfl

theorem objTsiStatus_sticky (n : Nat) : (objTsiStatus n).find 5 = some (stickyEl 5 (fun s => (s.tsi n).sticky)
    fun m s => s.setTsi n fun x => { x with sticky := clearBits m x.sticky }) := rfl

theorem objOutStatus_sticky (n : Nat) : (objOutStatus n).find 6 = some (stickyEl 6 (fun s => (s.out n).sticky)
    fun m s => s.setOut n fun x => { x with sticky := clearBits m x.sticky }) := rfl

theorem objAxis_sticky (n : Nat) : (objAxis n).find 10 = some (stickyEl 10 (fun s => (s.axis n).sticky)
    fun m s => s.setAxis n fun x => { x with sticky := clearBits m x.sticky }) := rfl

/-- The element `STICKY` of source n. -/
def sourceStickyEl (n : Nat) : Elem :=
  stickyEl n (fun s => (s.ev.source n).sticky) fun m s =>
    { s with ev := s.ev.setSrc n fun x => { x with sticky := clearBits m x.sticky } }

theorem object_sourceSticky {s : State} (hb : s.md.bootRom = false) : objectAt s 4 7 = some (perSource sourceStickyEl) := by
  simp only [objectAt, hb]; rfl

theorem perSource_sticky {n : Nat} (hn : n < 256) : (perSource sourceStickyEl).find n =
    some (stickyEl n (fun s => (s.ev.source n).sticky) fun m s =>
      { s with ev := s.ev.setSrc n fun x => { x with sticky := clearBits m x.sticky } }) :=
  find_range_map sourceStickyEl (fun _ => rfl) hn

/-- A heard write of a `STICKY` byte clears the bits written 1. -/
theorem serve_sticky {r : Requester} {a ob el v : Nat} {s : State} {o : Obj} {get : State → BitVec 8}
    {clear : BitVec 8 → State → State} (h : Heard r (writeFrame r (addrWord a ob el) .u8 v) s) (hsafe : s.md.mode ≠ .safe)
    (hv : v < 256) (ha : a < 256) (hob : ob < 4096) (hel : el < 256) (ho : objectAt s a ob = some o)
    (he : o.find el = some (stickyEl el get clear)) (hcross : o.cross = fun _ _ _ => true) :
    serveWrite r (addrWord a ob el) 1 v s =
      written r (addrWord a ob el) .u8 (get (counted s)).toNat v (clear (BitVec.ofNat 8 v) (counted s)) := by
  have hok : checkOne o (stickyEl el get clear) v (counted s) = 0 := checkOne_ok rfl (by rw [hcross]) rfl
  rw [← BitVec.ofInt_natCast]
  exact serveWrite_done (ty := .u8) (e := stickyEl el get clear) h hsafe ha hob hel ((objectAt_congr rfl a ob).trans ho) he rfl rfl
    (by decide) (Or.inl rfl) rfl (decode_byte hv) (Or.inl rfl) hok

/-- STICKY_CLEAR of a byte that the counting of requests leaves alone. -/
theorem exec_stickyClear (dt : Nat) (r : Requester) (v : Nat) (s : State) {a ob el : Nat} {o : Obj} {get : State → BitVec 8}
    {clear : BitVec 8 → State → State} (ho : ∀ t : State, t.md.bootRom = false → objectAt t a ob = some o)
    (he : o.find el = some (stickyEl el get clear)) (hcross : o.cross = fun _ _ _ => true) (hget : ∀ t, get (counted t) = get t)
    (ha : a < 256) (hob : ob < 4096) (hel : el < 256)
    (h : Heard r (writeFrame r (addrWord a ob el) .u8 v) (elapse dt s)) (hsafe : (elapse dt s).md.mode ≠ .safe)
    (hb : (elapse dt s).md.bootRom = false) (hv : v < 256) :
    exec (.stickyClear dt r (addrWord a ob el) v) s =
      .next (finish (written r (addrWord a ob el) .u8 (get (elapse dt s)).toNat v
        (clear (BitVec.ofNat 8 v) (counted (elapse dt s))))) := by
  rw [← hget]
  exact timed_of_effect (serve_sticky h hsafe hv ha hob hel (ho _ hb) he hcross)

/-! ## DOMAIN edges (R106, R114) -/

/-- LREFn takes the whole second `sec` of domain i's master at the engine instant `t`, where its timebase reads `loc`: an edge where it is a
live DOMAIN reference of that domain, `loc` lies within 1 ms after a whole second, and this second has had no edge. -/
def domainSecond (i : Nat) (sec : Int) (t loc : Rat) (u : State) (n : Nat) : State :=
  let tsec : Rat := ((loc.floor / 1000000000 : Int) : Rat)
  if candKind u.cfg (16 + n) = .domain ∧ (u.cfg.lref n).source = i ∧ candLive u (16 + n) = true
      ∧ loc - tsec * 1000000000 ≤ 1000000 ∧ (u.cand (16 + n)).lastWatch ≠ some tsec then
    let w := (candEdge (16 + n) t u).setCand (16 + n) fun x => { x with lastWatch := some tsec }
    let w := if (u.cand (16 + n)).state = .selected then edgeToChannels (16 + n) t w else w
    (List.range 8).foldl (labelAligned (16 + n) sec.toNat t) w
  else u

/-- A supplying domain with estimates whose whole second has passed notes it, and every logical reference takes it. -/
theorem domainEdge_due {i : Nat} {q : Int} {s : State} (hsup : (s.domi i).supplies = true) (hest : (s.domi i).est ≠ [])
    (hedge : (s.domi i).edgeSec = some q) (hdue : q < (masterNow s i).floor / 1000000000) :
    domainEdge i s =
      let m := masterNow s i
      let t := (s.clk.count : Rat) - (m - ((m.floor / 1000000000 : Int) : Rat) * 1000000000)
      (List.range 8).foldl (domainSecond i (m.floor / 1000000000) t (tbAt s (i / 2) t))
        (s.setDom i fun d => { d with edgeSec := some (m.floor / 1000000000) }) := by
  have hopen : ¬ ((!(s.domi i).supplies) = true ∨ (s.domi i).est.isEmpty = true
      ∨ (!decide (q < (masterNow s i).floor / 1000000000)) = true) := by
    rw [hsup, List.isEmpty_iff, decide_eq_true hdue]
    simpa using hest
  simp only [domainEdge, hedge, if_neg hopen, decide_eq_true_eq]
  rfl

/-- Settles O32: the timers, the windows, `ENABLE`, the `STICKY` bytes and the whole second of a domain. -/
theorem candidateStates : Obligations.CandidateStates := by
  refine ⟨?wtr, ?rank, ?windows, ?offset, ?ref, ?lref, fun c s => enableWritten_on, fun c s => startCand_input,
    fun c s => enableWritten_off, ?candSticky, ?chanSticky, ?tsiSticky, ?outSticky, ?axisSticky, ?sourceSticky, ?domain⟩
  case wtr =>
    intro dt c t s e hst hsince hclean hdue hrun
    refine timed_of_effect ((wtrReached_clean hst hsince hclean hdue hrun).trans ?_)
    rw [qualifyCand, candGo_qualified]
  case rank => exact fun dt c k t s himp hdue hrun => timed_of_effect (rankImprovement_due himp hdue hrun)
  case windows => exact fun dt c s hlive => timed_of_effect (frequencyUpdate_live hlive)
  case offset =>
    exact fun c x p t t0 n0 rest hlast hmarks hlong hlt =>
      (windows_y1 hlast hmarks hlong hlt).trans (windowOffset_of_lt hlt)
  case ref =>
    exact fun dt r n v s h hsafe hb hv hfence hlen hvalid =>
      timed_of_effect (serve_refEnable h hsafe hb hv hfence hlen hvalid)
  case lref =>
    exact fun dt r n v s h hsafe hb hv hfence hlen hvalid =>
      timed_of_effect (serve_lrefEnable h hsafe hb hv hfence hlen hvalid)
  case candSticky =>
    exact fun dt r n v s => (exec_stickyClear dt r v s (fun t hb => object_cand hb n.isLt) (objCand_sticky n) rfl (fun _ => rfl)
      (by omega) (by omega) (by omega) :)
  case chanSticky =>
    exact fun dt r n v s => (exec_stickyClear dt r v s (fun t hb => object_chan hb n.isLt) (objChan_sticky n) rfl (fun _ => rfl)
      (by omega) (by omega) (by omega) :)
  case tsiSticky =>
    exact fun dt r n v s => (exec_stickyClear dt r v s (fun t hb => object_tsiStatus hb n.isLt) (objTsiStatus_sticky n) rfl (fun _ => rfl)
      (by omega) (by omega) (by omega) :)
  case outSticky =>
    exact fun dt r n v s => (exec_stickyClear dt r v s (fun t hb => object_outStatus hb n.isLt) (objOutStatus_sticky n) rfl (fun _ => rfl)
      (by omega) (by omega) (by omega) :)
  case axisSticky =>
    exact fun dt r n v s => (exec_stickyClear dt r v s (fun t hb => object_axis hb n.isLt) (objAxis_sticky n) rfl (fun _ => rfl)
      (by omega) (by omega) (by omega) :)
  case sourceSticky =>
    exact fun dt r n v s => (exec_stickyClear dt r v s (fun t => object_sourceSticky) (perSource_sticky n.isLt) rfl (fun _ => rfl)
      (by omega) (by omega) n.isLt :)
  case domain =>
    exact fun dt i q s hsup hest hedge hdue => timed_of_effect (withSeconds_congr (domainEdge_due hsup hest hedge hdue))

end Sys2Proof.Machine
end

section
/-! SUPPORT. The lock criterion, the first alignment, the channel seconds, the lock monitor and the ends of the Taper paths (R140, R145,
R146, R150, R153, R155, R157, R190): what each of their commands does to the state at its moment. -/

namespace Sys2Proof.Machine

/-! ## The lock criterion (R140, R145, R146) -/

/-- LOCK_CRITERION passes over no tracking channel that has its count and has not met the criterion. -/
theorem criterion_due {c : Chan} {count : Nat} (hcount : count ≤ c.lockRun) (hcrit : c.crit = false) (htracks : tracks c = true) :
    ¬ (c.lockRun < count ∨ c.crit = true ∨ (!tracks c) = true) := by
  simp [hcount, hcrit, htracks]

/-- A LOCKED channel on a reference with its count of cycles meets the criterion. -/
theorem lockCriterion_locked {n k : Nat} {s : State} (hcand : (s.chan n).cand = some k)
    (hcount : (s.cfg.chan n).lockCount ≤ (s.chan n).lockRun) (hcrit : (s.chan n).crit = false) (hst : (s.chan n).state = .locked) :
    lockCriterion n s = s.setChan n fun x => { x with crit := true } := by
  have htracks : tracks (s.chan n) = true := by rw [tracks, hst]; rfl
  simp only [lockCriterion, hcand]
  rw [if_neg (criterion_due hcount hcrit htracks), if_pos hst]

/-- A channel on its way to lock with its count of cycles is LOCKED from its last step, and NARROWING at the next from an earlier one. -/
theorem lockCriterion_narrows {n k : Nat} {s : State} (hcand : (s.chan n).cand = some k)
    (hcount : (s.cfg.chan n).lockCount ≤ (s.chan n).lockRun) (hcrit : (s.chan n).crit = false)
    (hst : (s.chan n).state = .acquire ∨ (s.chan n).state = .narrowing) :
    lockCriterion n s =
      if (scheduleOf s n k).length ≤ (s.chan n).pos + 1 then
        (chanGo n .locked s).setChan n fun x => { x.atLast (scheduleOf s n k) with crit := true, integ := x.loopTerm }
      else (chanGo n .narrowing s).setChan n fun x => { x.atStep (scheduleOf s n k) ((s.chan n).pos + 1) with lockRun := 0 } := by
  have htracks : tracks (s.chan n) = true := by rcases hst with h | h <;> rw [tracks, h] <;> rfl
  have hopen : (s.chan n).state ≠ .locked := by rcases hst with h | h <;> rw [h] <;> decide
  simp only [lockCriterion, hcand]
  rw [if_neg (criterion_due hcount hcrit htracks), if_neg hopen]

/-! ## ENABLE (R140, R161) -/

/-- The element `ENABLE` of channel n, behind the channel's fence. -/
def dpllEnableEl (n : Nat) : Elem :=
  (dpN n 0 .u8 (·.enable) (within 0 1) fun v c => { c with enable := v }).first fun s => refuseIf (s.isFenced (.dp n)) stFenced

theorem objDpll_enable (n : Nat) : (objDpll n).find 0 = some (dpllEnableEl n) := rfl

/-- `ENABLE` takes 0 and 1 on a channel that is not fenced and whose steps do not increase (R143). -/
theorem checkOne_dpllEnable {n v : Nat} {s : State} (hfence : s.isFenced (.dp n) = false) (hv : v < 2) (hlen : n < s.cfg.dp.length)
    (hsched : scheduleOk (s.cfg.chan n) = true) : checkOne (objDpll n) (dpllEnableEl n) v s = 0 := by
  refine checkOne_ok (orElse_ok (refuseIf_no _ hfence) (within_ok (by omega))) ?_ rfl
  change scheduleOk (nth (upd s.cfg.dp n fun c => { c with enable := v }) n _) = true
  rw [nth_upd_eq _ _ _ hlen]
  exact hsched

/-- A heard write of `ENABLE` of a channel. -/
theorem serve_dpllEnable {r : Requester} {n : Fin 8} {v : Nat} {s : State}
    (h : Heard r (writeFrame r (addrWord 0x11 n 0) .u8 v) s) (hv : v < 2) (hsafe : s.md.mode ≠ .safe) (hb : s.md.bootRom = false)
    (hfence : s.isFenced (.dp n) = false) (hlen : n < s.cfg.dp.length) (hsched : scheduleOk (s.cfg.chan n) = true) :
    serveWrite r (addrWord 0x11 n 0) 1 v s = written r (addrWord 0x11 n 0) .u8 (s.cfg.chan n).enable v
      { counted s with cfg := { s.cfg with dp := upd s.cfg.dp n fun c => { c with enable := v } } } :=
  serveWrite_done (ty := .u8) (e := dpllEnableEl n) h hsafe (by omega) (by omega) (by omega)
    (object_dpll (s := counted s) hb n.isLt) (objDpll_enable n) rfl rfl (by decide) (Or.inl rfl) rfl (decode_byte (by omega))
    (Or.inl rfl) (checkOne_dpllEnable (s := counted s) hfence hv hlen hsched)

/-! ## The first alignment (R157, R190) -/

/-- The first edge after the outputs of a tracking channel have stopped sets the channel to it. -/
theorem firstAlignment_first {n c : Nat} {t : Rat} {s : State} (hcand : (s.chan n).cand = some c) (hal : (s.chan n).aligning = 1)
    (htracks : tracks (s.chan n) = true) (hfree : (s.chan n).frozen = none) :
    firstAlignment n t s = realign n (t - delayNs s.cfg c) s := by
  simp only [firstAlignment, hcand]
  exact if_pos ⟨hal, htracks, by rw [hfree]; rfl⟩

/-- A channel changed and then flagged is changed once. -/
theorem chanFlag_setChan (n b : Nat) (s : State) (f : Chan → Chan) :
    chanFlag n b (s.setChan n f) = raise (72 + n) (s.setChan n fun c => { f c with sticky := setBit8 (f c).sticky b }) := by
  simp only [chanFlag, State.setChan, upd_upd]

/-- Without a GNSS or DOMAIN candidate the aligned second is known at once: it is second 0. -/
theorem realign_unlabelled {n : Nat} {t : Rat} {s : State}
    (hkind : ∀ c, (s.chan n).cand = some c → candKind s.cfg c = .clk ∨ candKind s.cfg c = .pulse) :
    realign n t s =
      let since := ((s.clk.count : Rat) - t) * (1 + dcoOffset s n / ppt1)
      raise (72 + n) ((shiftOuts n (since - (s.chan n).cyc) s).setChan n fun x =>
        { x with
          cyc := since, phase := since, secAt := some t, secNum := 0, relabel := false, buildout := 0,
          taper := { x.taper with gap := 0, slope := 0, ending := false },
          aligned := true, aligning := 2, phaseErr := some 0, integ := x.loopTerm, sticky := setBit8 x.sticky 6 }) := by
  cases hc : (s.chan n).cand with
  | none => simp only [realign, chanFlag_setChan, hc]; rfl
  | some c => rcases hkind c hc with h | h <;> simp only [realign, chanFlag_setChan, hc, h] <;> rfl

/-! ## Channel seconds (R190) -/

/-- A DCO past a whole second goes on to the next. -/
theorem channelSecond_due {n : Nat} {s : State} (hdue : 1000000000 ≤ (s.chan n).phase) :
    channelSecond n s = s.setChan n fun x =>
      { x with
        phase := x.phase - 1000000000, secNum := x.secNum + 1,
        secAt := some ((s.clk.count : Rat) - ((s.chan n).phase - 1000000000) / (1 + dcoOffset s n / ppt1)) } :=
  if_neg (not_lt.2 hdue)

/-! ## The lock monitor (R150) -/

/-- The monitor rests at 0 with no channel selected. -/
theorem ldaDutyNow_unselected {s : State} (h : 7 < s.cfg.ldaSelect) : ldaDutyNow s = 0 := if_pos h

theorem ldaDutyNow_fenced {s : State} (hsel : s.cfg.ldaSelect ≤ 7) (hst : (s.chan s.cfg.ldaSelect).state = .fenced) :
    ldaDutyNow s = 0 := by
  simp only [ldaDutyNow, hst, if_neg (not_lt.2 hsel)]

/-- The monitor stands at 5 % on a channel that tracks no reference. -/
theorem ldaDutyNow_untracked {s : State} (hsel : s.cfg.ldaSelect ≤ 7)
    (hst : (s.chan s.cfg.ldaSelect).state = .idle ∨ (s.chan s.cfg.ldaSelect).state = .holdover) : ldaDutyNow s = 500 := by
  rcases hst with h | h <;> simp only [ldaDutyNow, h, if_neg (not_lt.2 hsel)]

/-! ## The ends of Taper paths (R153, R155) -/

/-- A path taken to its end has neither gap nor slope left. -/
theorem advance_ends {t : Taper} {sec : Rat} (h : legsTime t.legs ≤ sec) :
    (t.advance sec).1.gap = 0 ∧ (t.advance sec).1.slope = 0 ∧ (t.advance sec).1.ending = false := by
  rw [Taper.advance]
  split
  next hrest => exact ⟨hrest.1, hrest.2, rfl⟩
  next => simp [h]

theorem endPath_of_ends {t : Taper} (h : legsTime t.legs ≤ 1 / 1000000000) : endPath t = t.advance (1 / 1000000000) := if_pos h

/-- The pull of a channel that is not frozen ends with the rest of its phase moved. -/
theorem pullEnd_channel {n : Fin 8} {s : State} (hrun : s.clk.running = true) (hfree : (s.chan n).frozen = none)
    (hend : legsTime (s.chan n).taper.legs ≤ 1 / 1000000000) :
    pullEnd (.channel n) s = s.setChan n fun c =>
      { c with
        taper := (c.taper.advance (1 / 1000000000)).1,
        phase := c.phase + (c.taper.advance (1 / 1000000000)).2 / 1000,
        cyc := c.cyc + (c.taper.advance (1 / 1000000000)).2 / 1000 } := by
  simp only [pullEnd, hrun]
  refine congrArg (fun l => { s with dp := l }) (upd_congr _ _ _ _ Chan.reset ?_)
  simp only [hfree, endPath_of_ends hend]; rfl

/-- The pull of a timebase that is not frozen ends with the rest of its time moved. -/
theorem pullEnd_timebase {n : Fin 4} {s : State} (hrun : s.clk.running = true) (hfree : (s.tbs n).frozenC = none)
    (hend : legsTime (s.tbs n).taper.legs ≤ 1 / 1000000000) :
    pullEnd (.timebase n) s = s.setTb n fun b =>
      { b with
        taper := (b.taper.advance (1 / 1000000000)).1, now := b.now + (b.taper.advance (1 / 1000000000)).2 / 1000 } := by
  simp only [pullEnd, hrun]
  refine congrArg (fun l => { s with tb := l }) (upd_congr _ _ _ _ Tb.reset ?_)
  simp only [hfree, endPath_of_ends hend]; rfl

/-- The move of an output ends. -/
theorem pullEnd_output {n : Fin 32} {s : State} (hrun : s.clk.running = true)
    (hend : legsTime (s.out n).move.legs ≤ 1 / 1000000000) :
    pullEnd (.output n) s = s.setOut n fun o => { o with move := (o.move.advance (1 / 1000000000)).1 } := by
  simp only [pullEnd, hrun]
  refine congrArg (fun l => { s with ou := { s.ou with out := l } }) (upd_congr _ _ _ _ Out.reset ?_)
  rw [endPath_of_ends hend]

/-- Settles O33: the lock criterion, `ENABLE`, the first alignment, the channel second, the lock monitor and the ends of the pulls. -/
theorem lockAndAlignment : Obligations.LockAndAlignment := by
  refine ⟨?locked, ?last, ?next, ?enable, ?align, fun n t s => realign_unlabelled, ?second, ?monitor,
    fun s => ⟨ldaDutyNow_unselected, ldaDutyNow_fenced, ldaDutyNow_untracked⟩, ?channel, ?timebase, ?output,
    fun t sec => advance_ends⟩
  case locked =>
    exact fun dt n k s hcand hcount hcrit hst => timed_of_effect (lockCriterion_locked hcand hcount hcrit hst)
  case last =>
    exact fun dt n k s hcand hcount hcrit hst hlast =>
      timed_of_effect ((lockCriterion_narrows hcand hcount hcrit hst).trans (if_pos hlast))
  case next =>
    exact fun dt n k s hcand hcount hcrit hst hnext =>
      timed_of_effect ((lockCriterion_narrows hcand hcount hcrit hst).trans (if_neg (not_le.2 hnext)))
  case enable =>
    exact fun dt r n v s h hv hsafe hb hfence hlen hsched =>
      timed_of_effect (serve_dpllEnable h hv hsafe hb hfence hlen hsched)
  case align =>
    exact fun dt n frac c s hcand hal htracks hfree =>
      timed_of_effect (withSeconds_congr (firstAlignment_first hcand hal htracks hfree))
  case second => exact fun dt n s hdue => timed_of_effect (withSeconds_congr (channelSecond_due hdue))
  case monitor => exact fun dt s hrun => timed_of_effect (if_pos hrun)
  case channel => exact fun dt n s hrun hfree hend => timed_of_effect (pullEnd_channel hrun hfree hend)
  case timebase => exact fun dt n s hrun hfree hend => timed_of_effect (pullEnd_timebase hrun hfree hend)
  case output => exact fun dt n s hrun hend => timed_of_effect (pullEnd_output hrun hend)

end Sys2Proof.Machine
end

section
/-! SUPPORT. The coverage map (R169): the cells of the plane of temperature and load, and the bits that show the populated ones. -/

namespace Sys2Proof.Machine

/-! ## The cell of a temperature and a load -/

/-- Step i of 10 K, counted from −40 °C. -/
theorem floor_tenKelvin_eq_iff {i : Nat} {t : Rat} :
    ((t + 40000) / 10000).floor = i ↔ -40000 + 10000 * (i : Rat) ≤ t ∧ t < -30000 + 10000 * (i : Rat) := by
  have hstep : ((t + 40000) / 10000).floor = i ↔ (i : Int) ≤ ((t + 40000) / 10000).floor ∧ ((t + 40000) / 10000).floor < i + 1 := by
    omega
  rw [hstep, Rat.le_floor_iff, Rat.floor_lt_iff, le_div_iff₀ (by norm_num), div_lt_iff₀ (by norm_num)]
  push_cast
  exact and_congr ⟨fun h => by linarith, fun h => by linarith⟩ ⟨fun h => by linarith, fun h => by linarith⟩

/-- Temperature index i: ten ranges of 10 K between the two open ones. -/
theorem cellI_eq_iff {i : Nat} {t : Rat} :
    cellI t = i ↔ (i = 0 ∧ t < -30000)
      ∨ (1 ≤ i ∧ i ≤ 10 ∧ -40000 + 10000 * (i : Rat) ≤ t ∧ t < -30000 + 10000 * (i : Rat)) ∨ (i = 11 ∧ 70000 ≤ t) := by
  rw [cellI]
  split
  case isTrue hlow =>
    refine ⟨fun h => .inl ⟨h.symm, hlow⟩, ?_⟩
    rintro (⟨h, -⟩ | ⟨hone, -, hle, -⟩ | ⟨-, hhigh⟩)
    · exact h.symm
    · have : (1 : Rat) ≤ i := by exact_mod_cast hone
      linarith
    · linarith
  case isFalse hlow =>
    split
    case isTrue hhigh =>
      refine ⟨fun h => .inr (.inr ⟨h.symm, hhigh⟩), ?_⟩
      rintro (⟨-, h⟩ | ⟨-, hten, -, hlt⟩ | ⟨h, -⟩)
      · linarith
      · have : (i : Rat) ≤ 10 := by exact_mod_cast hten
        linarith
      · exact h.symm
    case isFalse hhigh =>
      have hone : 1 ≤ ((t + 40000) / 10000).floor := Rat.le_floor_iff.2 (by push_cast; linarith)
      have hten : ((t + 40000) / 10000).floor < 11 := Rat.floor_lt_iff.2 (by push_cast; linarith)
      rw [← floor_tenKelvin_eq_iff]
      constructor
      · intro h
        exact .inr (.inl (by omega))
      · rintro (⟨-, h⟩ | ⟨-, -, h⟩ | ⟨-, h⟩)
        · exact absurd h hlow
        · omega
        · exact absurd h hhigh

/-- Load index j. -/
theorem cellJ_eq_iff {j : Nat} {p : Rat} :
    cellJ p = j ↔ (j = 0 ∧ p < 8000) ∨ (j = 1 ∧ 8000 ≤ p ∧ p < 14000) ∨ (j = 2 ∧ 14000 ≤ p ∧ p < 18000)
      ∨ (j = 3 ∧ 18000 ≤ p ∧ p < 22000) ∨ (j = 4 ∧ 22000 ≤ p ∧ p < 26000) ∨ (j = 5 ∧ 26000 ≤ p) := by
  rw [cellJ]
  split_ifs <;> grind

theorem cellJ_le (p : Rat) : cellJ p ≤ 5 := by
  rw [cellJ]
  split_ifs <;> decide

/-- A cell number tells both indices. -/
theorem cellOf_eq_iff {i j : Nat} {t p : Rat} (hj : j ≤ 5) : cellOf t p = 6 * i + j ↔ cellI t = i ∧ cellJ p = j := by
  have := cellJ_le p
  rw [cellOf]
  omega

/-! ## The bits of the populated cells -/

/-- The sum of the powers of two of the chosen numbers below n has exactly these bits. -/
theorem testBit_sum_filter (p : Nat → Bool) (n c : Nat) :
    (((List.range n).filter p).foldl (fun a c => a + 2 ^ c) 0).testBit c = (decide (c < n) && p c) := by
  induction n generalizing c with
  | zero => simp
  | succ n ih =>
    have hlt : ((List.range n).filter p).foldl (fun a c => a + 2 ^ c) 0 < 2 ^ n :=
      Nat.lt_pow_two_of_testBit _ fun i hi => by rw [ih, decide_eq_false (Nat.not_lt.2 hi), Bool.false_and]
    rw [List.range_succ, List.filter_append, List.foldl_append]
    generalize ((List.range n).filter p).foldl (fun a c => a + 2 ^ c) 0 = low at *
    have hstep : ([n].filter p).foldl (fun a c => a + 2 ^ c) low = 2 ^ n * (p n).toNat + low := by
      cases hp : p n <;> simp [hp, Nat.add_comm]
    rw [hstep, Nat.testBit_two_pow_mul_add _ hlt, ih, Nat.testBit_bool_toNat]
    rcases Nat.lt_trichotomy c n with h | rfl | h
    · simp [h, Nat.lt_succ_of_lt h]
    · simp
    · simp [Nat.not_lt_of_gt h, Nat.sub_eq_zero_iff_le, Nat.not_le_of_gt h]

/-- Bit c of the coverage is set exactly for a populated cell. -/
theorem testBit_coverage {s : State} {c : Nat} (hc : c < 72) :
    (coverage s).testBit c = decide (s.cfg.ln.cellMin ≤ (s.ln.model.cell c).n) := by
  rw [coverage, populatedCells, testBit_sum_filter, decide_eq_true hc, Bool.true_and]
  rfl

/-- The low word of the coverage. -/
theorem testBit_coverageLo {s : State} {c : Nat} (hc : c < 64) :
    (coverage s % 2 ^ 64).testBit c = decide (s.cfg.ln.cellMin ≤ (s.ln.model.cell c).n) := by
  rw [Nat.testBit_mod_two_pow, testBit_coverage (by omega), decide_eq_true hc, Bool.true_and]

/-- The cells above the low word. -/
theorem testBit_coverageHi {s : State} {c : Nat} (hc : c < 8) :
    (coverage s / 2 ^ 64).testBit c = decide (s.cfg.ln.cellMin ≤ (s.ln.model.cell (64 + c)).n) := by
  rw [Nat.testBit_div_two_pow, Nat.add_comm, testBit_coverage (by omega)]

/-- The object of Lantern's status (R188) shows the coverage in two words, and the present cell. -/
theorem object_lantern {s : State} (hb : s.md.bootRom = false) :
    ∃ o lo hi now, objectAt s 0x12 1 = some o ∧ o.find 2 = some lo ∧ o.find 3 = some hi ∧ o.find 11 = some now
      ∧ lo.get s = (coverage s % 2 ^ 64 : Nat) ∧ hi.get s = (coverage s / 2 ^ 64 : Nat)
      ∧ now.get s = (cellOf (tempNow s) (loadNow s) : Int) := by
  simp only [objectAt, hb]
  exact ⟨_, _, _, _, rfl, rfl, rfl, rfl, rfl, rfl, rfl⟩

/-- Settles O10: each index by its ranges, and the two words bit by bit. -/
theorem coverageMap : Obligations.CoverageMap := by
  refine ⟨fun i j t p _ hj => ?cell, fun s hb => ?reads⟩
  case cell => rw [cellOf_eq_iff hj, cellI_eq_iff, cellJ_eq_iff]
  case reads =>
    obtain ⟨o, lo, hi, now, ho, hlo, hhi, hnow, glo, ghi, gnow⟩ := object_lantern hb
    refine ⟨o, lo, hi, now, ho, hlo, hhi, hnow, fun c hc => ?_, fun c hc => ?_, gnow⟩
    · rw [glo, Int.toNat_natCast, testBit_coverageLo hc]
    · rw [ghi, Int.toNat_natCast, testBit_coverageHi hc]

end Sys2Proof.Machine
end

section
/-! SUPPORT. Learning, the commits of the model, its copy in the store, and STEERING (R171 to R173, R181, R182, R187): what each of their
commands does to the state at its moment. -/

namespace Sys2Proof.Machine

/-! ## Learning (R171) -/

/-- A second throughout which learning was allowed and whose record is valid and locked gives a sample. -/
theorem learn_sample {s : State} {r : HistRec} {c : Nat} (hrun : s.runs 1 = true) (hn : s.cfg.ln.learnChannel < 8)
    (hr : (s.hov s.cfg.ln.learnChannel).hist.head? = some r) (hcand : r.cand = some c) (hsec : s.ln.secLearn = true)
    (hok : r.ok = true) (hlocked : r.locked = true) (hmay : mayLearn s = true) :
    learn s =
      let f := -(r.term + r.steer) - ageing s.ln.model (ageNow s)
      let u := admitDue { s with ln := { s.ln with
          waiting := s.ln.waiting ++ [{ atNs := s.clk.count, cand := c, f := f, t := r.t, p := r.p }],
          model := { s.ln.model with learnTime := s.ln.model.learnTime + 1 },
          work := { s.ln.work with learnTime := s.ln.work.learnTime + 1 } } }
      { u with ln := { u.ln with secLearn := mayLearn u } } := by
  simp only [learn, hrun, hr, hcand, hsec, hok, hlocked, hmay, decide_eq_true hn]; rfl

/-- With no second throughout which learning was allowed, or with no record, nothing is added. -/
theorem learn_nothing {s : State} (hrun : s.runs 1 = true)
    (h : s.ln.secLearn = false ∨ (s.hov s.cfg.ln.learnChannel).hist = []) :
    learn s = { admitDue s with ln := { (admitDue s).ln with secLearn := mayLearn (admitDue s) } } := by
  rcases h with hsec | hnone
  · rcases hhist : (s.hov s.cfg.ln.learnChannel).hist.head? with _ | r
    · simp only [learn, hrun, hhist]; rfl
    · rcases hcand : r.cand with _ | c
      · simp only [learn, hrun, hhist, hcand]; rfl
      · simp only [learn, hrun, hhist, hcand, hsec, Bool.and_false, Bool.false_and]; rfl
  · simp only [learn, hrun, hnone]; rfl

/-! ## Commits (R172, R173) -/

theorem refitNow_running {s : State} (hrun : s.runs 1 = true) :
    refitNow s = commitModel (refitModel s) { s with free := s.free + 1 } := if_pos hrun

/-- A commit leaves M of every channel, and a channel in an episode is re-based (R173). -/
theorem commitModel_rebases {m : Model} {s : State} {n : Nat} (h : n < s.ln.ho.length) :
    ((commitModel m s).hov n).m = (s.hov n).m
      ∧ (inEpisode (s.chan n) = true →
        (commitModel m s).ln.f - ((commitModel m s).hov n).f0 = (fNow s).1 - (s.hov n).f0)
      ∧ (inEpisode (s.chan n) = false → ((commitModel m s).hov n).f0 = (s.hov n).f0) := by
  rw [commitModel_done m s n h]
  cases hep : inEpisode (s.chan n)
  case true => exact ⟨rfl, fun _ => sub_sub_cancel _ _, nofun⟩
  case false => exact ⟨rfl, nofun, fun _ => rfl⟩

/-! ## The stored model (R182, R187) -/

theorem saveModel_powered {s : State} (h : s.pwr.pfail = false) :
    saveModel s = { s with nv := { s.nv with model := some s.ln.model, modelAge := ageNow s } } := by
  rw [saveModel, h]; rfl

theorem saveModel_pfail {s : State} (h : s.pwr.pfail = true) : saveModel s = s := if_pos h

theorem modelSaveNow_running {s : State} (hmgt : s.runs 0 = true) (hsteer : s.runs 1 = true) :
    modelSaveNow s = saveModel s := by rw [modelSaveNow, hmgt, hsteer]; rfl

/-- While PFAIL is set MODEL_SAVE leaves the store as it is (R93). -/
theorem modelSaveNow_pfail {s : State} (h : s.pwr.pfail = true) : modelSaveNow s = s := by
  rw [modelSaveNow, saveModel_pfail h, ite_self]

/-- The element `MODEL` (R184). -/
def modelEl : Elem := ({ no := 0, ty := .blob, acc := .rw, image := modelImage, load := modelLoad } : Elem).viaSteer

/-- The element `MODEL_STORE` (R187). -/
def modelStoreEl : Elem := (command 1 .u8 modelStoreRun).viaSteer

theorem object_model {s : State} (hb : s.md.bootRom = false) : objectAt s 0x12 2 = some { els := [modelEl, modelStoreEl] } := by
  simp only [objectAt, hb]; rfl

theorem modelStoreRun_powered {s : State} (v : Int) (h : s.pwr.pfail = false) : modelStoreRun v s = (0, saveModel s) := by
  rw [modelStoreRun, h]; rfl

/-- A heard `MODEL_STORE` (R187). -/
theorem serve_modelStore {r : Requester} {arg : Nat} {s : State}
    (h : Heard r (commandFrame r (addrWord 0x12 2 1) .u8 arg) s) (harg : arg < 256) (hsafe : s.md.mode ≠ .safe)
    (hb : s.md.bootRom = false) (hsteer : s.runs 1 = true) (hpower : s.pwr.pfail = false) :
    serveCommand r (addrWord 0x12 2 1) 1 arg s = commanded r (addrWord 0x12 2 1) .u8 arg
      { counted s with nv := { s.nv with model := some s.ln.model, modelAge := ageNow s } } :=
  (serveCommand_done (ty := .u8) h hsafe (by omega) (by omega) (by omega) (object_model (s := counted s) hb) rfl rfl rfl
    (decode_byte harg) (.inr hsteer) rfl rfl (modelStoreRun_powered (s := counted s) arg hpower)).trans
    (congrArg _ (saveModel_powered (s := counted s) hpower))

/-! ## STEERING (R181) -/

/-- The element `STEERING` of channel n. -/
def steeringEl (n : Nat) : Elem :=
  ({ no := 0, ty := .freq64, acc := .rw, get := fun s => (s.hov n).steering,
     own := fun _ v => within (-steeringLimit) steeringLimit v, after := fun _ => writeSteering n } : Elem).viaSteer

theorem objHo_steering (n : Nat) : (objHo n).find 0 = some (steeringEl n) := rfl

/-- A heard write of `STEERING` within ±1,000 ppm. -/
theorem serve_steering {r : Requester} {n : Fin 8} {v : Int} {s : State}
    (h : Heard r (writeFrame r (addrWord 0x12 (10 + n) 0) .freq64 v) s) (hlo : -65536000000000 ≤ v) (hhi : v ≤ 65536000000000)
    (hsafe : s.md.mode ≠ .safe) (hb : s.md.bootRom = false) (hsteer : s.runs 1 = true) :
    serveWrite r (addrWord 0x12 (10 + n) 0) 8 v s = written r (addrWord 0x12 (10 + n) 0) .freq64 (s.hov n).steering v
      ((counted s).setHo n fun h => { h with steering := v }) :=
  serveWrite_done (ty := .freq64) (e := steeringEl n) h hsafe (by omega) (by omega) (by omega)
    (object_ho (s := counted s) hb n.isLt) (objHo_steering n) rfl rfl (by decide) (.inl rfl) rfl
    (decode_signed .freq64 v rfl (by simp only [ElTy.size]; omega) (by simp only [ElTy.size]; omega)) (.inr hsteer)
    (checkOne_ok (within_ok ⟨hlo, hhi⟩) rfl rfl)

/-- Settles O35: one lemma for each command, and what a commit leaves of the channels. -/
theorem learningAndModel : Obligations.LearningAndModel := by
  refine ⟨?sample, ?nothing, ?commit, ?rebase, ?save, ?savePfail, ?store, ?steering⟩
  case sample =>
    rintro dt n r c s e hrun rfl hn hr hcand hsec hok hlocked hmay
    exact timed_of_effect (learn_sample hrun hn hr hcand hsec hok hlocked hmay)
  case nothing =>
    rintro dt n s e hrun rfl h
    exact timed_of_effect (learn_nothing hrun h)
  case commit => exact fun dt s hrun => timed_of_effect (refitNow_running hrun)
  case rebase => exact fun m s => ⟨rfl, rfl, rfl, rfl, rfl, rfl, fun n => commitModel_rebases⟩
  case save =>
    exact fun dt s hmgt hsteer hpower => timed_of_effect ((modelSaveNow_running hmgt hsteer).trans (saveModel_powered hpower))
  case savePfail => exact fun dt s hpfail => timed_of_effect (modelSaveNow_pfail hpfail)
  case store =>
    exact fun dt r arg s h harg hsafe hb hsteer hpower =>
      timed_of_effect (serve_modelStore h harg hsafe hb hsteer hpower)
  case steering =>
    exact fun dt r n v s h hlo hhi hsafe hb hsteer => timed_of_effect (serve_steering h hlo hhi hsafe hb hsteer)

end Sys2Proof.Machine
end

section
/-! SUPPORT. The BLOB elements that take an image (R184, R201, R347, R429): what the write of a whole image does to the state at its
moment. -/

namespace Sys2Proof.Machine

/-- A heard write of an image that its element takes with the effect `w`, where segment 0 does nothing of its own. -/
theorem serveBlob_loaded {r : Requester} {a ob el : Nat} {image : List Byte} {s : State} {o : Obj} {e : Elem} {w : State → State}
    (h : BlobHeard r (addrWord a ob el) image s) (hsafe : s.md.mode ≠ .safe) (hfree : BlobFree (addrWord a ob el) s)
    (ha : a < 256) (hob : ob < 4096) (hel : el < 256) (ho : objectAt s a ob = some o) (he : o.find el = some e) (hty : e.ty = .blob)
    (hacc : e.acc = .rw) (hvia : e.via = 0 ∨ s.runs e.via = true) (hopening : ∀ t, e.opening t = 0) (hopened : ∀ t, e.opened t = t)
    (hload : ∀ d x, e.load image { s with dop := d, tx := x } = (0, w { s with dop := d, tx := x }))
    (hold : ∀ d x, e.image { s with dop := d, tx := x } = e.image s) :
    ∃ c x, serveBlob r (addrWord a ob el) image s = blobWritten r (addrWord a ob el) (e.image s) image
      (w { s with dop := { s.dop with requests := s.dop.requests + (blobEnd r image + 1), cache := c }, tx := x }) := by
  have ho' : objectAt s (areaOf (addrWord a ob el)) (objectOf (addrWord a ob el)) = some o := by
    rw [areaOf_addrWord a ob el ha hob hel, objectOf_addrWord a ob el hob hel, ho]
  have he' : o.find (elementOf (addrWord a ob el)) = some e := by rw [elementOf_addrWord a ob el hel, he]
  obtain ⟨c, x, hx⟩ := serveBlob_plain h hsafe (plainAddress_addrWord a ob el ha hob hel) hfree ho' he' hty hacc hvia
    (fun _ _ => hopening _) (fun _ => hopened _) (fun d x => congrArg Prod.fst (hload d x)) hold
  exact ⟨c, x, by rw [hx, hload]⟩

/-! ## MODEL (R184) -/

theorem modelLoad_accepted {s : State} {image : List Byte} (h : modelAccepted s image = true) :
    modelLoad image s = (0, writeModel image s) := if_pos h

/-- A heard write of an accepted `MODEL`. -/
theorem serve_model {r : Requester} {image : List Byte} {s : State} (h : BlobHeard r (addrWord 18 2 0) image s)
    (hsafe : s.md.mode ≠ .safe) (hb : s.md.bootRom = false) (hfree : BlobFree (addrWord 18 2 0) s)
    (hcheck : modelAccepted s image = true) (hsteer : s.runs 1 = true) :
    ∃ c x, serveBlob r (addrWord 18 2 0) image s = blobWritten r (addrWord 18 2 0) (modelImage s) image
      (writeModel image { s with dop := { s.dop with requests := s.dop.requests + (blobEnd r image + 1), cache := c }, tx := x }) :=
  serveBlob_loaded (e := modelEl) h hsafe hfree (by omega) (by omega) (by omega) (object_model hb) rfl rfl rfl (.inr hsteer)
    (fun _ => rfl) (fun _ => rfl) (fun _ _ => modelLoad_accepted hcheck) fun _ _ => rfl

/-! ## CARDS (R201) -/

/-- The element `CARDS`. -/
def cardsEl : Elem := { no := 0, ty := .blob, acc := .rw, image := cardsImage, load := cardsLoad }

theorem object_cards {s : State} (hb : s.md.bootRom = false) : ∃ o, objectAt s 19 30 = some o ∧ o.find 0 = some cardsEl := by
  simp only [objectAt, hb]
  exact ⟨_, rfl, rfl⟩

theorem cardsLoad_accepted {s : State} {image : List Byte} (h : (readCards s image).isSome = true) :
    cardsLoad image s = (0, writeCards image s) := if_pos h

/-- A heard write of accepted `CARDS`. -/
theorem serve_cards {r : Requester} {image : List Byte} {s : State} (h : BlobHeard r (addrWord 19 30 0) image s)
    (hsafe : s.md.mode ≠ .safe) (hb : s.md.bootRom = false) (hfree : BlobFree (addrWord 19 30 0) s)
    (hcheck : (readCards s image).isSome = true) :
    ∃ c x, serveBlob r (addrWord 19 30 0) image s = blobWritten r (addrWord 19 30 0) (cardsImage s) image
      (writeCards image { s with dop := { s.dop with requests := s.dop.requests + (blobEnd r image + 1), cache := c }, tx := x }) := by
  obtain ⟨o, ho, he⟩ := object_cards hb
  have hload (d x) := cardsLoad_accepted (s := { s with dop := d, tx := x }) hcheck
  exact serveBlob_loaded (e := cardsEl) (w := writeCards image) h hsafe hfree (by omega) (by omega) (by omega) ho he rfl rfl
    (.inl rfl) (fun _ => rfl) (fun _ => rfl) hload fun _ _ => rfl

/-! ## CALENDAR (R347) -/

/-- The element `CALENDAR`. -/
def calendarEl : Elem := { no := 0, ty := .blob, acc := .rw, image := calendarImage, load := calendarLoad }

theorem object_calendar {s : State} (hb : s.md.bootRom = false) :
    ∃ o, objectAt s 65 2048 = some o ∧ o.find 0 = some calendarEl := by
  simp only [objectAt, hb]
  exact ⟨objCalendar, rfl, rfl⟩

theorem calendarLoad_accepted {s : State} {image : List Byte} (h : calendarStatus s image = 0) :
    calendarLoad image s = (0, writeCalendar image s) := if_pos h

/-- A heard write of an accepted `CALENDAR`. -/
theorem serve_calendar {r : Requester} {image : List Byte} {s : State} (h : BlobHeard r (addrWord 65 2048 0) image s)
    (hsafe : s.md.mode ≠ .safe) (hb : s.md.bootRom = false) (hfree : BlobFree (addrWord 65 2048 0) s)
    (hcheck : calendarStatus s image = 0) :
    ∃ c x, serveBlob r (addrWord 65 2048 0) image s = blobWritten r (addrWord 65 2048 0) (calendarImage s) image
      (writeCalendar image { s with dop := { s.dop with requests := s.dop.requests + (blobEnd r image + 1), cache := c }, tx := x }) := by
  obtain ⟨o, ho, he⟩ := object_calendar hb
  have hload (d x) := calendarLoad_accepted (s := { s with dop := d, tx := x }) hcheck
  exact serveBlob_loaded (e := calendarEl) (w := writeCalendar image) h hsafe hfree (by omega) (by omega) (by omega) ho he rfl rfl
    (.inl rfl) (fun _ => rfl) (fun _ => rfl) hload fun _ _ => rfl

/-! ## FIRMWARE (R429) -/

/-- The image of the inactive slot. -/
def inactiveImage (s : State) : List Byte := (nth s.nv.slots (inactiveSlot s) FwSlot.reset).image

/-- The element `FIRMWARE`. -/
def firmwareEl : Elem :=
  { no := 0, ty := .blob, acc := .rw, image := inactiveImage, load := loadFirmware,
    opening := fun s => refuseIf s.pwr.pfail stBusy, opened := openFirmware }

theorem object_firmware {s : State} (hb : s.md.bootRom = false) :
    ∃ o, objectAt s (areaOf firmwareAddress) (objectOf firmwareAddress) = some o
      ∧ o.find (elementOf firmwareAddress) = some firmwareEl := by
  have ha : areaOf firmwareAddress = 0x50 := by decide
  have ho : objectOf firmwareAddress = 10 := by decide
  have he : elementOf firmwareAddress = 0 := by decide
  simp only [ha, ho, he, objectAt, hb]
  exact ⟨_, rfl, rfl⟩

/-- Marking the inactive slot as being written keeps its image. -/
theorem inactiveImage_openFirmware (s : State) : inactiveImage (openFirmware s) = inactiveImage s := by
  rcases Nat.lt_or_ge (inactiveSlot s) s.nv.slots.length with h | h
  · exact (congrArg FwSlot.image (nth_upd_eq s.nv.slots (fun x => { x with state := 3 }) FwSlot.reset h) :)
  · exact congrArg (fun l => (nth l (inactiveSlot s) FwSlot.reset).image) (upd_out s.nv.slots (inactiveSlot s) _ h)

/-- A whole image that passes its check is the valid image of the inactive slot. -/
theorem loadFirmware_good {s : State} {image : List Byte} (hpower : s.pwr.pfail = false) (hne : image ≠ [])
    (hok : firmwareOk image = true) :
    loadFirmware image s = (0, raise 254 (setSlot (fun _ => { state := 1, version := fieldOf image 4 4, image := image }) s)) := by
  rw [loadFirmware, hpower, List.isEmpty_eq_false_iff.2 hne, hok]; rfl

theorem loadFirmware_empty {s : State} (hpower : s.pwr.pfail = false) :
    loadFirmware [] s = (0, raise 254 (setSlot (fun _ => FwSlot.reset) s)) := by
  rw [loadFirmware, hpower]; rfl

/-- A heard write of a `FIRMWARE` image that passes its check. -/
theorem serve_firmware {r : Requester} {image : List Byte} {s : State} (h : BlobHeard r firmwareAddress image s)
    (hsafe : s.md.mode ≠ .safe) (hb : s.md.bootRom = false) (hfree : BlobFree firmwareAddress s) (hne : image ≠ [])
    (hok : firmwareOk image = true) (hpower : s.pwr.pfail = false) :
    ∃ c x, serveBlob r firmwareAddress image s = blobWritten r firmwareAddress (inactiveImage s) image
      (raise 254 (setSlot (fun _ => { state := 1, version := fieldOf image 4 4, image := image })
        { openFirmware s with dop := { s.dop with requests := s.dop.requests + (blobEnd r image + 1), cache := c }, tx := x })) := by
  obtain ⟨o, ho, he⟩ := object_firmware hb
  have hgood (d x) := loadFirmware_good (s := { openFirmware s with dop := d, tx := x }) hpower hne hok
  have hopening (d x) : firmwareEl.opening { openFirmware s with dop := d, tx := x } = 0 := refuseIf_no _ hpower
  obtain ⟨c, x, hx⟩ := serveBlob_done (u := openFirmware s) h hsafe (by decide) hne hfree ho he rfl rfl (.inl rfl)
    (refuseIf_no _ hpower) hopening (fun _ => rfl) rfl rfl rfl rfl (fun d x => congrArg Prod.fst (hgood d x)) fun _ _ => rfl
  refine ⟨c, x, hx.trans ?_⟩
  rw [← inactiveImage_openFirmware s]
  exact congrArg _ (congrArg Prod.snd (hgood _ x))

/-- A heard write of no bytes erases the slot. -/
theorem serve_firmware_empty {r : Requester} {s : State} (h : BlobHeard r firmwareAddress [] s) (hsafe : s.md.mode ≠ .safe)
    (hb : s.md.bootRom = false) (hfree : BlobFree firmwareAddress s) (hpower : s.pwr.pfail = false) :
    serveBlob r firmwareAddress [] s = blobWritten r firmwareAddress (inactiveImage s) []
      (raise 254 (setSlot (fun _ => FwSlot.reset) (counted s))) := by
  obtain ⟨o, ho, he⟩ := object_firmware hb
  have herased := loadFirmware_empty (s := counted s) hpower
  refine (serveBlob_empty h hsafe (by decide) hfree ho he rfl rfl (.inl rfl) (refuseIf_no _ hpower)
    (congrArg Prod.fst herased)).trans ?_
  exact congrArg _ (congrArg Prod.snd herased)

/-- A command whose effect names what it kept and sent answers with that effect, settled. -/
theorem timed_of_effects {dt : Nat} {f : State → State} {s : State} {g : List CacheEnt → List Tx → State}
    (h : ∃ c x, f (elapse dt s) = g c x) : ∃ c x, timed dt f s = .next (finish (g c x)) :=
  h.imp fun _ h => h.imp fun _ => timed_of_effect

/-- Settles O55: the three images that segment 0 leaves alone, and `FIRMWARE` with an image and with no bytes. -/
theorem blobWrites : Obligations.BlobWrites := by
  refine ⟨?model, ?cards, ?calendar, ?firmware, ?erase⟩
  case model =>
    exact fun dt r image s h hsafe hb hfree hcheck hsteer => timed_of_effects (serve_model h hsafe hb hfree hcheck hsteer)
  case cards => exact fun dt r image s h hsafe hb hfree hcheck => timed_of_effects (serve_cards h hsafe hb hfree hcheck)
  case calendar => exact fun dt r image s h hsafe hb hfree hcheck => timed_of_effects (serve_calendar h hsafe hb hfree hcheck)
  case firmware =>
    exact fun dt r image s h hsafe hb hfree hne hok hpower =>
      timed_of_effects (serve_firmware h hsafe hb hfree hne hok hpower)
  case erase => exact fun dt r s h hsafe hb hfree hpower => timed_of_effect (serve_firmware_empty h hsafe hb hfree hpower)

end Sys2Proof.Machine
end

section
/-! SUPPORT. The synthesis cores and their band cards (R193 to R203): what each of their commands does to the state at its moment. -/

namespace Sys2Proof.Machine

/-! ## Retunes (R193, R202, R203) -/

/-- A core that is not tuning begins to retune: its outputs stop, and s0 is at once where none of them is in a high phase. -/
theorem beginRetune_untuned {c : Nat} {s : State} (h : (s.syn c).state ≠ .tuning) :
    beginRetune c s =
      let r : Retune := { c0 := s.clk.count, s0 := none, card := none, cardFailed := false }
      let u := (stopOuts c s).setSyn c fun x => { x with state := .tuning, retune := some r }
      raise (80 + c) (if outsParked (stopOuts c s) c then tuneFrom c r u else u) := by
  rw [beginRetune, bne_iff_ne.2 h]
  rfl

/-- A LOCKED core that loses lock retunes. -/
theorem lockLoss_locked {c : Nat} {s : State} (h : (s.syn c).state = .locked) : lockLoss c s = beginRetune c s :=
  if_pos (beq_iff_eq.2 h)

/-- The last output has stopped: s0. -/
theorem outputsStopped_parked {c : Nat} {q : Retune} {s : State} (hq : (s.syn c).retune = some q) (hs0 : q.s0 = none)
    (hpark : outsParked s c = true) : outputsStopped c s = tuneFrom c q s := by
  simp only [outputsStopped, hq]
  rw [hs0, hpark]
  rfl

/-! ## ENABLE (R193, R229) -/

/-- The element `ENABLE` of core c, behind the core's fence. -/
def coreEnableEl (c : Nat) : Elem :=
  ((snN c 0 .u8 (·.enable) (within 0 1) fun v k => { k with enable := v }).thenDo fun v => enableCore c v.toNat).first
    fun s => refuseIf ((s.syn c).state == .fenced) stFenced

theorem objCore_enable (c : Nat) : (objCore c).find 0 = some (coreEnableEl c) := rfl

/-- A write of `ENABLE` to a DISABLED core takes 1 into a retune. -/
theorem enableCore_on {c : Nat} {s : State} (h : (s.syn c).state = .disabled) : enableCore c 1 s = beginRetune c s := by
  simp only [enableCore, h]
  rfl

/-- A write of 0 to a LOCKED core disables it. -/
theorem enableCore_off {c : Nat} {s : State} (h : (s.syn c).state = .locked) :
    enableCore c 0 s = raise (80 + c) (s.setSyn c fun x => { x with state := .disabled, retune := none }) := by
  simp only [enableCore, h]
  rfl

/-- `ENABLE` takes 0 and 1 on a core that is not fenced. -/
theorem checkOne_coreEnable {c v : Nat} {s : State} (hfree : (s.syn c).state ≠ .fenced) (hv : v < 2) :
    checkOne (objCore c) (coreEnableEl c) v s = 0 :=
  have hown : orElse (refuseIf ((s.syn c).state == .fenced) stFenced) (within 0 1 (v : Int)) = 0 :=
    orElse_ok (refuseIf_no _ (beq_false_of_ne hfree)) (within_ok (by omega))
  checkOne_ok hown rfl rfl

/-- A heard write of `ENABLE` of a core. -/
theorem serve_coreEnable {r : Requester} {c : Fin 4} {v : Nat} {s t : State}
    (h : Heard r (writeFrame r (addrWord 0x13 c 0) .u8 v) s) (hsafe : s.md.mode ≠ .safe) (hb : s.md.bootRom = false)
    (hfree : (s.syn c).state ≠ .fenced) (hv : v < 2)
    (hw : enableCore c v { counted s with cfg := { s.cfg with sn := upd s.cfg.sn c fun k => { k with enable := v } } } = t) :
    serveWrite r (addrWord 0x13 c 0) 1 v s = written r (addrWord 0x13 c 0) .u8 (s.cfg.syn c).enable v t := by
  subst hw
  exact serveWrite_done (ty := .u8) (e := coreEnableEl c) h hsafe (by omega) (by omega) (by omega)
    (object_core (s := counted s) hb c.isLt) (objCore_enable c) rfl rfl (by decide) (Or.inl rfl) rfl (decode_byte (by omega))
    (Or.inl rfl) (checkOne_coreEnable (s := counted s) hfree hv)

/-! ## Lock (R194, R197, R199, R202) -/

/-- Core c LOCKED by a full search that began at t0, with its method of lock. -/
def lockedBySearch (c band fine t0 method : Nat) (s : State) : State :=
  raise (80 + c) (s.setSyn c fun x =>
    { x with
      state := .locked, retune := none, band := band % 512, fine := fine % 4096,
      lastGap := (readInt (((s.clk.count : Rat) - t0) / 1000)).toNat, lastMethod := method, relocks := x.relocks + 1,
      cardHits := x.cardHits })

/-- A core locks after a full search, of which no card is stored. -/
theorem lockCore_search {c band fine t0 method : Nat} {q : Retune} {s : State} (hq : (s.syn c).retune = some q)
    (hs0 : q.s0 = some t0) (hcard : q.card = none) (hmethod : (if q.cardFailed then 3 else 2) = method)
    (hauto : (s.cfg.syn c).cardAuto = 0) :
    lockCore c band fine s =
      let w := lockedBySearch c band fine t0 method s
      (coreOuts w c).foldl originNow w := by
  subst hmethod
  simp only [lockCore, hq, hs0, hcard, hauto]
  rfl

/-- A core locks after a full search, and a card of it is stored. -/
theorem lockCore_search_stored {c band fine t0 method : Nat} {q : Retune} {s : State} (hq : (s.syn c).retune = some q)
    (hs0 : q.s0 = some t0) (hcard : q.card = none) (hmethod : (if q.cardFailed then 3 else 2) = method)
    (hauto : (s.cfg.syn c).cardAuto = 1) :
    lockCore c band fine s =
      let w := storeCard c (band % 512) (fine % 4096) (readInt (((s.clk.count : Rat) - t0) / 1000)).toNat
        (lockedBySearch c band fine t0 method s)
      (coreOuts w c).foldl originNow w := by
  subst hmethod
  simp only [lockCore, hq, hs0, hcard, hauto]
  rfl

/-- A core locks with the card that it holds. -/
theorem lockCore_card {c band fine t0 : Nat} {q : Retune} {k : Card} {s : State} (hq : (s.syn c).retune = some q)
    (hs0 : q.s0 = some t0) (hcard : q.card = some k) :
    lockCore c band fine s =
      let u := raise (80 + c) (s.setSyn c fun x =>
        { x with
          state := .locked, retune := none, band := k.band, fine := k.fine,
          lastGap := (readInt (((s.clk.count : Rat) - t0) / 1000)).toNat, lastMethod := 1, relocks := x.relocks + 1,
          cardHits := x.cardHits + 1 })
      let w := onCard k (fun x => { x with lastUsed := ageNow s }) u
      (coreOuts w c).foldl originNow w := by
  simp only [lockCore, hq, hs0, hcard]
  rfl

/-! ## Band cards (R198, R199) -/

/-- A card that has not brought lock in 60 µs is removed, and the search begins. -/
theorem cardTimeout_due {c t0 : Nat} {q : Retune} {k : Card} {s : State} (hq : (s.syn c).retune = some q) (hs0 : q.s0 = some t0)
    (hcard : q.card = some k) (hdue : t0 + 60000 ≤ s.clk.count) :
    cardTimeout c s = raise (80 + c)
      { s with
        sn := { s.sn with
          cards := s.sn.cards.map fun x => if x = k then Card.reset else x,
          core := upd s.sn.core c fun x => { x with retune := some { q with card := none, cardFailed := true } } },
        nvc := { s.nvc with cardsDirty := some (s.nvc.cardsDirty.getD s.clk.count) } } := by
  simp only [cardTimeout, hq, hs0, hcard]
  rw [if_neg (not_lt.2 hdue)]
  rfl

/-- Changed cards go to NV while PFAIL is not set and the MGT core runs. -/
theorem storeCards_dirty {s : State} (hdirty : s.nvc.cardsDirty ≠ none) (hpower : s.pwr.pfail = false) (hrun : s.runs 0 = true) :
    storeCards s = { s with nv := { s.nv with cards := s.sn.cards }, nvc := { s.nvc with cardsDirty := none } } :=
  if_pos ⟨Option.isSome_iff_ne_none.2 hdirty, by rw [hpower]; rfl, hrun⟩

/-- Settles O36: `ENABLE`, the steps of a retune, the ways to lock, and the cards. -/
theorem coresRetuneAndLock : Obligations.CoresRetuneAndLock := by
  refine ⟨?on, ?off, fun c s => beginRetune_untuned, fun n s => rfl, fun c r s => rfl, fun n s => rfl, ?search, ?afterCard, ?stored,
    ?card, fun c band fine time s => rfl, ?loss, ?stopped, ?timeout, ?store⟩
  case on =>
    intro dt r c s e h hsafe hb hst
    exact timed_of_effect (serve_coreEnable h hsafe hb (by rw [hst]; decide) (by omega) (enableCore_on hst))
  case off =>
    intro dt r c s e h hsafe hb hst
    exact timed_of_effect (serve_coreEnable h hsafe hb (by rw [hst]; decide) (by omega) (enableCore_off hst))
  case search =>
    exact fun dt c band fine t0 q s hq hs0 hcard hfail hauto =>
      timed_of_effect (lockCore_search hq hs0 hcard (by rw [hfail]; rfl) hauto)
  case afterCard =>
    exact fun dt c band fine t0 q s hq hs0 hcard hfail hauto =>
      timed_of_effect (lockCore_search hq hs0 hcard (by rw [hfail]; rfl) hauto)
  case stored =>
    exact fun dt c band fine t0 q s hq hs0 hcard hfail hauto =>
      timed_of_effect (lockCore_search_stored hq hs0 hcard (by rw [hfail]; rfl) hauto)
  case card => exact fun dt c band fine t0 q k s hq hs0 hcard => timed_of_effect (lockCore_card hq hs0 hcard)
  case loss => exact fun dt c s hst => timed_of_effect (lockLoss_locked hst)
  case stopped => exact fun dt c q s hq hs0 hpark => timed_of_effect (outputsStopped_parked hq hs0 hpark)
  case timeout => exact fun dt c q t0 k s hq hs0 hcard hdue => timed_of_effect (cardTimeout_due hq hs0 hcard hdue)
  case store => exact fun dt s hdirty hpower hrun => timed_of_effect (storeCards_dirty hdirty hpower hrun)

end Sys2Proof.Machine
end

section
/-! SUPPORT. Commits and the written settings of the outputs (R205 to R214, R217): what each of their commands does to the state at its
moment. -/

namespace Sys2Proof.Machine

/-! ## COMMIT (R208, R209) -/

/-- With every shadow in order and no commit armed, `COMMIT` 0 arms one for the next cycle. -/
theorem commitCommand_nextCycle {s : State} (hok : shadowOk s = true) (hfree : s.sn.armed = none) :
    commitCommand 0 s = (0, { s with sn := { s.sn with armed := some (0, 0, 0), commitState := 1 } }) := by
  simp only [commitCommand, hok, hfree]
  rfl

/-- 1 arms one for the next whole second of a timebase that is not fenced. -/
theorem commitCommand_second {s : State} (hok : shadowOk s = true) (hfree : s.sn.armed = none)
    (hfence : s.isFenced (.tb s.cfg.commitTb) = false) :
    commitCommand 1 s =
      (0, { s with sn := { s.sn with armed := some (1, s.cfg.commitTb, tbSecond s s.cfg.commitTb), commitState := 1 } }) := by
  simp only [commitCommand, hok, hfree, hfence]
  rfl

/-- 2 arms one for the next edge of a RUNNING output. -/
theorem commitCommand_edge {s : State} (hok : shadowOk s = true) (hfree : s.sn.armed = none)
    (hrun : (s.out s.cfg.commitEdgeOut).state = .running) :
    commitCommand 2 s = (0, { s with sn := { s.sn with armed := some (2, s.cfg.commitEdgeOut, 0), commitState := 1 } }) := by
  simp only [commitCommand, hok, hfree, hrun]
  rfl

/-- 3 cancels an armed commit. -/
theorem commitCommand_cancel {s : State} (harmed : s.sn.armed ≠ none) :
    commitCommand 3 s = (0, raise 86 { s with sn := { s.sn with armed := none, commitState := 3 } }) :=
  congrArg (Prod.mk 0) (if_neg (by rwa [Option.isNone_iff_eq_none]))

/-- The element `COMMIT`. -/
def commitEl : Elem := command 0 .u8 fun v => commitCommand v.toNat

theorem object_commit {s : State} (hb : s.md.bootRom = false) : ∃ o, objectAt s 0x13 20 = some o ∧ o.find 0 = some commitEl := by
  simp only [objectAt, hb]
  exact ⟨_, rfl, rfl⟩

/-- A heard `COMMIT` that is accepted. -/
theorem serve_commit {r : Requester} {arg : Nat} {s t : State} (h : Heard r (commandFrame r (addrWord 0x13 20 0) .u8 arg) s)
    (hsafe : s.md.mode ≠ .safe) (hb : s.md.bootRom = false) (harg : arg < 256) (hrun : commitCommand arg (counted s) = (0, t)) :
    serveCommand r (addrWord 0x13 20 0) 1 arg s = commanded r (addrWord 0x13 20 0) .u8 arg t := by
  obtain ⟨o, ho, he⟩ := object_commit (s := counted s) hb
  exact serveCommand_done (ty := .u8) (e := commitEl) h hsafe (by omega) (by omega) (by omega) ho he rfl rfl (decode_byte harg)
    (Or.inl rfl) rfl rfl hrun

/-- A commit waits for the next cycle where it is armed with boundary 0. -/
theorem commitPending_iff (s : State) : commitPending s = true ↔ ∃ k sec, s.sn.armed = some (0, k, sec) := by
  unfold commitPending
  split
  next k sec h => exact ⟨fun _ => ⟨k, sec, h⟩, fun _ => rfl⟩
  next h => exact ⟨fun hno => absurd hno Bool.false_ne_true, fun ⟨k, sec, hk⟩ => absurd hk (h k sec)⟩

/-- The second of the armed commit has come. -/
theorem commitInstant_second {k : Nat} {sec : Int} {s : State} (harmed : s.sn.armed = some (1, k, sec)) (hnew : tbSecond s k ≠ sec) :
    commitInstant s = commitNow s := by
  simp only [commitInstant, harmed]
  exact if_neg hnew

/-- The edge of the armed commit comes on an output that is driven still. -/
theorem commitInstant_edge {k : Nat} {sec : Int} {s : State} (harmed : s.sn.armed = some (2, k, sec))
    (hdriven : driven (s.out k).state = true) : commitInstant s = commitNow s := by
  simp only [commitInstant, harmed]
  exact if_pos hdriven

/-! ## ENABLE (R205, R206, R210) -/

/-- The configuration with `ENABLE` of output n written. -/
def Cfg.withOutEnable (n v : Nat) (c : Cfg) : Cfg := { c with ou := upd c.ou n fun o => { o with enable := v } }

/-- The element `ENABLE` of output n, behind the output's fence. -/
def outEnableEl (n : Nat) : Elem :=
  ((ouN n 0 .u8 (·.enable) (within 0 1) fun v c => { c with enable := v }).follow fun old v => enableOut n old v).first
    fun s => refuseIf (s.isFenced (.out n)) stFenced

theorem objOut_enable (n : Nat) : (objOut n).find 0 = some (outEnableEl n) := rfl

theorem outEnableEl_put (n v : Nat) (c : Cfg) : (outEnableEl n).put v c = c.withOutEnable n v := rfl

theorem withOutEnable_out {n v : Nat} {c : Cfg} (h : n < c.ou.length) :
    (c.withOutEnable n v).out n = { c.out n with enable := v } :=
  nth_upd_eq c.ou _ CfgOu.reset h

/-- A write of `ENABLE` leaves the settings that its check looks at. -/
theorem enableOk_withOutEnable (n v m core format : Nat) (s : State) :
    enableOk { s with cfg := s.cfg.withOutEnable n v } m core format = enableOk s m core format := rfl

/-- `ENABLE` takes 0, and 1 where the settings pass their checks, on an output that is not fenced. -/
theorem checkOne_outEnable {n v : Nat} {s : State} (hfence : s.isFenced (.out n) = false) (hlen : n < s.cfg.ou.length) (hv : v < 2)
    (hok : v = 0 ∨ enableOk s n (s.cfg.out n).core (s.cfg.out n).format = true) :
    checkOne (objOut n) (outEnableEl n) v s = 0 := by
  refine checkOne_ok (orElse_ok (refuseIf_no _ hfence) (within_ok (by omega))) ?_ rfl
  rw [outEnableEl_put]
  change outCross n s [0] (s.cfg.withOutEnable n v) = true
  rw [outCross, enableOk_withOutEnable, withOutEnable_out hlen]
  rcases hok with rfl | hok
  · rfl
  · have hok' : enableOk s n (s.cfg.out n).core (s.cfg.out n).format = true := hok
    simp only [hok', Bool.or_true]
    rfl

/-- A heard write of `ENABLE` of an output. -/
theorem serve_outEnable {r : Requester} {n : Fin 32} {v : Nat} {s t : State}
    (h : Heard r (writeFrame r (addrWord 0x14 n 0) .u8 v) s) (hsafe : s.md.mode ≠ .safe) (hb : s.md.bootRom = false)
    (hfence : s.isFenced (.out n) = false) (hlen : n < s.cfg.ou.length) (hv : v < 2)
    (hok : v = 0 ∨ enableOk s n (s.cfg.out n).core (s.cfg.out n).format = true)
    (hw : enableOut n (counted s) v { counted s with cfg := s.cfg.withOutEnable n v } = t) :
    serveWrite r (addrWord 0x14 n 0) 1 v s = written r (addrWord 0x14 n 0) .u8 (s.cfg.out n).enable v t := by
  subst hw
  exact serveWrite_done (ty := .u8) (e := outEnableEl n) h hsafe (by omega) (by omega) (by omega)
    (object_out (s := counted s) hb n.isLt) (objOut_enable n) rfl rfl (by decide) (Or.inl rfl) rfl (decode_byte (by omega))
    (Or.inl rfl) (checkOne_outEnable (s := counted s) hfence hlen hv hok)

/-- The grid of an output that was not enabled begins at the write of 1. -/
theorem enableOut_on (n : Nat) (old s : State) :
    enableOut n old (1 : Nat) s = if (old.cfg.out n).enable = 0 then originNow s n else s :=
  if_congr (and_iff_right rfl) rfl rfl

theorem enableOut_off (n : Nat) (old s : State) : enableOut n old (0 : Nat) s = s := if_neg (by simp)

/-! ## FORMAT (R214) -/

/-- The configuration with `FORMAT` of output n written. -/
def Cfg.withFormat (n v : Nat) (c : Cfg) : Cfg :=
  { c with ou := upd c.ou n fun o => { o with format := v, amplitude := amplitudeDefault v } }

/-- The element `FORMAT` of output n, behind the output's fence. -/
def outFormatEl (n : Nat) : Elem :=
  ((ouN n 2 .u8 (·.format) (within 0 4) fun v c => { c with format := v, amplitude := amplitudeDefault v }).lastly (outBusy n)).first
    fun s => refuseIf (s.isFenced (.out n)) stFenced

theorem objOut_format (n : Nat) : (objOut n).find 2 = some (outFormatEl n) := rfl

/-- `FORMAT` takes 0 to 4 on an output that is neither fenced nor enabled. -/
theorem checkOne_outFormat {n v : Nat} {s : State} (hfence : s.isFenced (.out n) = false) (hv : v < 5)
    (hoff : (s.cfg.out n).enable = 0) : checkOne (objOut n) (outFormatEl n) v s = 0 :=
  have hown : orElse (refuseIf (s.isFenced (.out n)) stFenced) (within 0 4 (v : Int)) = 0 :=
    orElse_ok (refuseIf_no _ hfence) (within_ok (by omega))
  have hbusy : outBusy n s v = 0 := refuseIf_no _ (by rw [hoff]; rfl)
  checkOne_ok hown rfl hbusy

/-- A heard write of `FORMAT` of an output. -/
theorem serve_outFormat {r : Requester} {n : Fin 32} {v : Nat} {s : State}
    (h : Heard r (writeFrame r (addrWord 0x14 n 2) .u8 v) s) (hsafe : s.md.mode ≠ .safe) (hb : s.md.bootRom = false)
    (hfence : s.isFenced (.out n) = false) (hv : v < 5) (hoff : (s.cfg.out n).enable = 0) :
    serveWrite r (addrWord 0x14 n 2) 1 v s =
      written r (addrWord 0x14 n 2) .u8 (s.cfg.out n).format v { counted s with cfg := s.cfg.withFormat n v } :=
  serveWrite_done (ty := .u8) (e := outFormatEl n) h hsafe (by omega) (by omega) (by omega)
    (object_out (s := counted s) hb n.isLt) (objOut_format n) rfl rfl (by decide) (Or.inl rfl) rfl (decode_byte (by omega))
    (Or.inl rfl) (checkOne_outFormat (s := counted s) hfence hv hoff)

/-- Settles O37: the four commands of `COMMIT`, the moments of an armed one, and the writes of `ENABLE` and `FORMAT`. -/
theorem commitsAndOutputs : Obligations.CommitsAndOutputs := by
  refine ⟨?nextCycle, ?second, ?edge, ?cancel, fun s => ⟨commitPending_iff s, rfl⟩, ?secondCome, ?edgeCome, ?on, ?off, ?format, rfl⟩
  case nextCycle =>
    intro dt r s e h hsafe hb hok hfree
    exact timed_of_effect (serve_commit h hsafe hb (by omega) (commitCommand_nextCycle (s := counted e) hok hfree))
  case second =>
    intro dt r s e h hsafe hb hok hfree hfence
    exact timed_of_effect (serve_commit h hsafe hb (by omega) (commitCommand_second (s := counted e) hok hfree hfence))
  case edge =>
    intro dt r s e h hsafe hb hok hfree hrun
    exact timed_of_effect (serve_commit h hsafe hb (by omega) (commitCommand_edge (s := counted e) hok hfree hrun))
  case cancel =>
    intro dt r s e h hsafe hb harmed
    exact timed_of_effect (serve_commit h hsafe hb (by omega) (commitCommand_cancel (s := counted e) harmed))
  case secondCome => exact fun dt k sec s harmed hnew => timed_of_effect (commitInstant_second harmed hnew)
  case edgeCome => exact fun dt k sec s harmed hdriven => timed_of_effect (commitInstant_edge harmed hdriven)
  case on =>
    rintro dt r n _ s e h hsafe hb hfence hlen rfl hok
    exact timed_of_effect (serve_outEnable h hsafe hb hfence hlen (by omega) (.inr hok) (enableOut_on n _ _))
  case off =>
    rintro dt r n _ s e h hsafe hb hfence hlen rfl
    exact timed_of_effect (serve_outEnable h hsafe hb hfence hlen (by omega) (.inl rfl) (enableOut_off n _ _))
  case format =>
    exact fun dt r n v s h hsafe hb hfence _ hv hoff => timed_of_effect (serve_outFormat h hsafe hb hfence hv hoff)

end Sys2Proof.Machine
end

section
/-! SUPPORT. Chimney's gates of the clock outputs and the heartbeat (R220 to R225, R358): what each of their commands does to the state
at its moment. -/

namespace Sys2Proof.Machine

/-! ## The tests (R221, R223) -/

/-- Both means pass: the fast one within 1 % of the window, the fine one in it, and the window is not closed. -/
theorem frequencyPasses_iff (s : State) (n : Nat) (fast fine : Rat) :
    frequencyPasses s n fast fine = true ↔
      let l := s.cfg.outLim n
      l.fmax ≠ 0 ∧ (l.fmin : Rat) * 99 / 100 ≤ fast ∧ fast ≤ (l.fmax : Rat) * 101 / 100 ∧ (l.fmin : Rat) ≤ fine ∧ fine ≤ l.fmax := by
  simp only [frequencyPasses, Bool.and_eq_true, bne_iff_ne, decide_eq_true_eq, and_assoc]

/-- Both phase movements pass. -/
theorem slewPasses_iff (s : State) (n : Nat) (short long : Rat) :
    slewPasses s n short long = true ↔
      absR short ≤ ((s.cfg.outLim n).slewLimit : Rat) / 100 + 20 ∧ absR long ≤ ((s.cfg.outLim n).slewLimit : Rat) + 20 := by
  simp only [slewPasses, Bool.and_eq_true, decide_eq_true_eq]

/-! ## The gates (R221 to R223) -/

/-- Two changes of an output that agree on it are one change. -/
theorem setOut_congr {s : State} {n : Nat} {f g : Out → Out} (h : f (s.out n) = g (s.out n)) : s.setOut n f = s.setOut n g := by
  simp only [State.setOut, upd_congr s.ou.out n f g Out.reset h]

/-- A passed frequency test of an enabled output keeps or starts its good time. -/
theorem frequencyTest_pass {n : Nat} {fast fine : Rat} {s : State} (hen : (s.cfg.out n).enable = 1)
    (hpass : frequencyPasses s n fast fine = true) :
    frequencyTest n fast fine s = s.setOut n fun x =>
      { x with measured := (readInt fine).toNat, winGood := some (x.winGood.getD s.clk.count) } := by
  rw [frequencyTest, if_neg (not_not.2 hen), hpass]
  exact setOut_congr (by simp)

/-- A failed one closes the window gate, and counts where the gate was open. -/
theorem frequencyTest_fail {n : Nat} {fast fine : Rat} {s : State} (hen : (s.cfg.out n).enable = 1)
    (hfail : frequencyPasses s n fast fine = false) :
    frequencyTest n fast fine s = s.setOut n fun x =>
      { x with
        measured := (readInt fine).toNat, winClosed := true, winGood := none,
        squelches := if winShut s n then x.squelches else x.squelches + 1,
        sticky := if winShut s n then x.sticky else setBit8 x.sticky 0 } := by
  rw [frequencyTest, if_neg (not_not.2 hen), hfail]
  refine setOut_congr ?_
  cases winShut s n <;> simp

/-- The slew test passes over no enabled time-carrying output. -/
theorem slewTest_taken {n : Nat} {s : State} (hen : (s.cfg.out n).enable = 1) (htime : outTime s n = true) :
    ¬ ((s.cfg.out n).enable ≠ 1 ∨ (!outTime s n) = true) := by
  rw [htime]
  exact fun h => h.elim (· hen) Bool.false_ne_true

/-- A passed slew test of an enabled time-carrying output keeps or starts its good time. -/
theorem slewTest_pass {n : Nat} {short long : Rat} {s : State} (hen : (s.cfg.out n).enable = 1) (htime : outTime s n = true)
    (hpass : slewPasses s n short long = true) :
    slewTest n short long s = s.setOut n fun x =>
      { x with slewNow := satInt 32 (readInt long), slewGood := some (x.slewGood.getD s.clk.count) } := by
  rw [slewTest, if_neg (slewTest_taken hen htime), hpass]
  exact setOut_congr (by simp)

/-- A failed one closes the slew gate, and counts where the gate was open. -/
theorem slewTest_fail {n : Nat} {short long : Rat} {s : State} (hen : (s.cfg.out n).enable = 1) (htime : outTime s n = true)
    (hfail : slewPasses s n short long = false) :
    slewTest n short long s = s.setOut n fun x =>
      { x with
        slewNow := satInt 32 (readInt long), slewClosed := true, slewGood := none,
        squelches := if x.slewClosed then x.squelches else x.squelches + 1,
        sticky := if x.slewClosed then x.sticky else setBit8 x.sticky 1 } := by
  rw [slewTest, if_neg (slewTest_taken hen htime), hfail]
  refine setOut_congr ?_
  cases hc : (s.out n).slewClosed <;> simp

/-! ## The heartbeat (R225) -/

/-- A refresh by the running MGT core opens the gate. -/
theorem heartbeatRefresh_running {s : State} (hrun : s.runs 0 = true) :
    heartbeatRefresh s = level 85 false { s with ou := { s.ou with heartbeatAt := s.clk.count, heartbeatClosed := false } } :=
  if_pos hrun

/-- After the seal an open gate closes where no refresh has come in time. -/
theorem heartbeatLapse_due {s : State} (hseal : s.md.sealed = true) (hopen : s.ou.heartbeatClosed = false)
    (hdue : s.ou.heartbeatAt + s.cfg.lim.heartbeatInterval * 1000000 ≤ s.clk.count) :
    heartbeatLapse s =
      level 85 true { s with ou := { s.ou with heartbeatClosed := true, heartbeatLapses := s.ou.heartbeatLapses + 1 } } :=
  if_pos ⟨hseal, by rw [hopen]; rfl, hdue⟩

/-- Settles O39: the two outcomes of each test, what passes it, the gates that open, and the heartbeat. -/
theorem chimneyGates : Obligations.ChimneyGates := by
  refine ⟨?freqPass, ?freqFail, ?slewPass, ?slewFail, frequencyPasses_iff, slewPasses_iff, fun dt n s => timed_of_effect rfl,
    ?refresh, ?lapse⟩
  case freqPass => exact fun dt n fast fine s hen hpass => timed_of_effect (frequencyTest_pass hen hpass)
  case freqFail => exact fun dt n fast fine s hen hfail => timed_of_effect (frequencyTest_fail hen hfail)
  case slewPass => exact fun dt n short long s hen htime hpass => timed_of_effect (slewTest_pass hen htime hpass)
  case slewFail => exact fun dt n short long s hen htime hfail => timed_of_effect (slewTest_fail hen htime hfail)
  case refresh => exact fun dt s hrun => timed_of_effect (heartbeatRefresh_running hrun)
  case lapse => exact fun dt s hseal hopen hdue => timed_of_effect (heartbeatLapse_due hseal hopen hdue)

end Sys2Proof.Machine
end

section
/-! SUPPORT. The timebases' own commands, their UTC values and the kind of a domain (R242, R244, R245, R247, R250): what each of their
commands does to the state at its moment. -/

namespace Sys2Proof.Machine

/-! ## RESTEP, CLEAR_DISC and LOCAL_LABEL (R242, R247, R250, R275) -/

/-- The object of the commands of timebase k. -/
def objTbCommands (k : Nat) : Obj :=
  { els := [
      command 0 .u8 (fun v => restepCommand k v.toNat), command 1 .u8 (fun v => clearDiscCommand k v.toNat),
      command 2 .time80 (fun v => writeLabel k (decodeTime80 v))] }

/-- A heard command of a timebase completes where its element's own meaning does. -/
theorem serve_tbCommand {r : Requester} {tb : Fin 4} {el : Nat} {ty : ElTy} {arg : Int} {run : Int → State → Nat × State}
    {s t : State} (h : Heard r (commandFrame r (addrWord 0x20 (50 + tb) el) ty arg) s) (hsafe : s.md.mode ≠ .safe)
    (hb : s.md.bootRom = false) (hel : el < 256) (he : (objTbCommands tb).find el = some (command el ty run))
    (harg : ty.decode (intBytes ty.size arg) = arg) (hrun : run arg (counted s) = (0, t)) :
    serveCommand r (addrWord 0x20 (50 + tb) el) ty.size arg s = commanded r (addrWord 0x20 (50 + tb) el) ty arg t :=
  serveCommand_done h hsafe (by omega) (by omega) hel (object_tbCommands (s := counted s) hb tb.isLt) he rfl rfl harg (Or.inl rfl)
    rfl rfl hrun

/-- `RESTEP` of a timebase that keeps time, has none pending, and whose domain measures (R242). -/
theorem restepCommand_accepted {s : State} {k arg : Nat} (harg : arg < 2)
    (hstate : (s.tbs k).state = .tracking ∨ (s.tbs k).state = .holdover) (hmeasures : (s.domi (2 * k + arg)).measures = true)
    (hfree : (s.tbs k).restep = none) :
    restepCommand k arg s = (0, s.setTb k fun t => { t with restep := some arg, restepState := 1 }) := by
  have hkeeps : (s.tbs k).state ≠ .fenced ∧ (s.tbs k).state ≠ .unset := by rcases hstate with h | h <;> rw [h] <;> decide
  have hready : ¬ ((s.tbs k).state = .unset ∨ (!(s.domi (2 * k + arg)).measures) = true) := by
    rw [hmeasures]
    exact fun h => h.elim hkeeps.2 Bool.false_ne_true
  simp only [restepCommand]
  rw [if_neg (by omega), if_neg hkeeps.1, if_neg hready, hfree]
  rfl

/-- `CLEAR_DISC` of a DISCONTINUOUS domain (R250). -/
theorem clearDiscCommand_accepted {s : State} {k arg : Nat} (harg : arg < 2) (hfence : s.isFenced (.tb k) = false)
    (hdisc : (s.domi (2 * k + arg)).state = .discontinuous) :
    clearDiscCommand k arg s =
      (0, domGo (2 * k + arg) .qualifying (s.setDom (2 * k + arg) fun d => { d with latch := false })) := by
  simp only [clearDiscCommand]
  rw [if_neg (by omega), hfence, if_neg Bool.false_ne_true, if_neg (not_not.2 hdisc)]

/-- `LOCAL_LABEL` with a whole second, where a domain of the timebase is LOCAL (R247). -/
theorem writeLabel_accepted {s : State} {k : Nat} {t : Time80} (hns : t.ns = 0) (hfence : s.isFenced (.tb k) = false)
    (hlocal : (s.cfg.domi (2 * k)).kind = 3 ∨ (s.cfg.domi (2 * k + 1)).kind = 3) :
    writeLabel k t s = (0, s.setTb k fun x => { x with labelNext := some t.sec }) := by
  have hany : ((domainsOf k).all fun i => (s.cfg.domi i).kind != 3) = false := by
    simp only [domainsOf, List.all_cons, List.all_nil, Bool.and_true, Bool.and_eq_false_iff, bne_eq_false_iff_eq]
    exact hlocal
  rw [writeLabel, if_neg (not_not.2 hns), hfence, if_neg Bool.false_ne_true, hany, if_neg Bool.false_ne_true]

/-! ## Values that a request carries (R413) -/

theorem decode_nonneg_byte {v : Int} (hlo : 0 ≤ v) (hhi : v < 256) : ElTy.u8.decode (intBytes ElTy.u8.size v) = v :=
  decode_unsigned .u8 v rfl hlo (by simp only [ElTy.size]; omega)

theorem decodeTime80_code {t : Time80} (hsec : t.sec < 2 ^ 48) (hns : t.ns < 2 ^ 32) : decodeTime80 (Time80.code t) = t := by
  have hdiv : (t.sec * 2 ^ 32 + t.ns) / 2 ^ 32 % 2 ^ 48 = t.sec := by omega
  have hmod : (t.sec * 2 ^ 32 + t.ns) % 2 ^ 32 = t.ns := by omega
  rw [decodeTime80, Time80.code, Int.toNat_natCast, hdiv, hmod]

/-- A TIME80 value that a request carries is read back. -/
theorem decode_time80 {t : Time80} (hsec : t.sec < 2 ^ 48) (hns : t.ns < 2 ^ 32) :
    ElTy.time80.decode (intBytes ElTy.time80.size (Time80.code t)) = Time80.code t :=
  decode_unsigned .time80 _ rfl (by simp only [Time80.code]; omega) (by simp only [Time80.code, ElTy.size]; omega)

/-! ## LEAP_SECOND_APPLY (R245) -/

/-- A leap of timebase k has been applied: `offset` is the new offset, in force and written, and no leap is pending. -/
def leapApplied (k : Nat) (offset : Int) (s : State) : State :=
  let u := (s.tbs k).utc
  raise (120 + k) { (s.setTb k fun t =>
      { t with utc := { u with offset := offset, leap := 0 }, leapDone := some (u.leap, u.offset, u.leapAt) }) with
    cfg := { s.cfg with utc := upd s.cfg.utc k fun c => { c with written := { c.written with offset := offset, leap := 0 } } } }

theorem applyLeap_reached {s : State} {k : Nat} (hleap : (s.tbs k).utc.leap ≠ 0)
    (hat : (Time80.toNs (s.tbs k).utc.leapAt : Rat) ≤ (s.tbs k).now) :
    applyLeap k s =
      leapApplied k (if (s.tbs k).utc.leap = 1 then (s.tbs k).utc.offset + 1 else (s.tbs k).utc.offset - 1) s :=
  if_neg fun h => h.elim hleap (not_lt.2 hat)

/-- An inserted second raises the offset. -/
theorem applyLeap_insert {s : State} {k : Nat} (hleap : (s.tbs k).utc.leap = 1)
    (hat : (Time80.toNs (s.tbs k).utc.leapAt : Rat) ≤ (s.tbs k).now) :
    applyLeap k s = leapApplied k ((s.tbs k).utc.offset + 1) s := by
  rw [applyLeap_reached (by omega) hat, if_pos hleap]

/-- A removed second lowers it. -/
theorem applyLeap_remove {s : State} {k : Nat} (hleap : (s.tbs k).utc.leap = 2)
    (hat : (Time80.toNs (s.tbs k).utc.leapAt : Rat) ≤ (s.tbs k).now) :
    applyLeap k s = leapApplied k ((s.tbs k).utc.offset - 1) s := by
  rw [applyLeap_reached (by omega) hat, if_neg (by omega)]

/-! ## UTC_WRITE (R244, R245, R274) -/

/-- An element behind the fence of timebase k. -/
def tbGuarded (k : Nat) (e : Elem) : Elem := e.first fun s => refuseIf (s.isFenced (.tb k)) stFenced

/-- The element `UTC_MODE` of timebase k. -/
def utcModeEl (k : Nat) : Elem :=
  (fieldN 0 .u8 (fun c => (c.utcs k).mode) (within 0 1) (fun v => Cfg.setUtc k fun c => { c with mode := v })).thenDo fun _ => followUtc k

theorem objUtc_mode (k : Nat) : (objUtc k).find 0 = some (tbGuarded k (utcModeEl k)) := rfl

/-- A heard write of `UTC_MODE`: with 1 the values of the active domain's last Announce are taken. -/
theorem serve_utcMode {r : Requester} {tb : Fin 4} {v : Int} {s : State}
    (h : Heard r (writeFrame r (addrWord 0x20 (20 + tb) 0) .u8 v) s) (hsafe : s.md.mode ≠ .safe) (hb : s.md.bootRom = false)
    (hfence : s.isFenced (.tb tb) = false) (hlo : 0 ≤ v) (hhi : v ≤ 1) :
    serveWrite r (addrWord 0x20 (20 + tb) 0) 1 v s = written r (addrWord 0x20 (20 + tb) 0) .u8 (s.cfg.utcs tb).mode v
      (followUtc tb { counted s with cfg := { s.cfg with utc := upd s.cfg.utc tb fun c => { c with mode := v.toNat } } }) :=
  have hown : orElse (refuseIf (s.isFenced (.tb tb)) stFenced) (within 0 1 v) = 0 :=
    orElse_ok (refuseIf_no _ hfence) (within_ok ⟨hlo, hhi⟩)
  serveWrite_done (ty := .u8) (e := tbGuarded tb (utcModeEl tb)) h hsafe (by omega) (by omega) (by omega)
    (object_utc (s := counted s) hb tb.isLt) (objUtc_mode tb) rfl rfl (by decide) (Or.inl rfl) rfl
    (decode_nonneg_byte hlo (by omega)) (Or.inl rfl) (checkOne_ok hown rfl rfl)

/-- A heard write of one of the UTC values goes to the written register (R245). -/
theorem serve_utcValue {r : Requester} {tb : Fin 4} {el : Nat} {ty : ElTy} {get : Utc → Int} {check : Int → Nat}
    {put : Int → Utc → Utc} {v : Int} {s : State} (h : Heard r (writeFrame r (addrWord 0x20 (20 + tb) el) ty v) s)
    (hsafe : s.md.mode ≠ .safe) (hb : s.md.bootRom = false) (hfence : s.isFenced (.tb tb) = false)
    (hmode : (s.cfg.utcs tb).mode = 0) (hel : el < 256)
    (he : (objUtc tb).find el = some (tbGuarded tb (utcEl tb el ty get check put))) (hblob : ty ≠ .blob)
    (hread : ty.decode (intBytes ty.size v) = v) (hcheck : check v = 0) :
    serveWrite r (addrWord 0x20 (20 + tb) el) ty.size v s =
      written r (addrWord 0x20 (20 + tb) el) ty (get (s.tbs tb).utc) v
        { counted s with cfg := { s.cfg with utc := upd s.cfg.utc tb fun c => { c with written := put v c.written } } } :=
  have hown : orElse (refuseIf (s.isFenced (.tb tb)) stFenced) (check v) = 0 := orElse_ok (refuseIf_no _ hfence) hcheck
  have hlate : refuseIf ((s.cfg.utcs tb).mode == 1) stMode = 0 := refuseIf_no _ (by rw [hmode]; rfl)
  serveWrite_done (e := tbGuarded tb (utcEl tb el ty get check put)) h hsafe (by omega) (by omega) hel
    (object_utc (s := counted s) hb tb.isLt) he rfl rfl hblob (Or.inl rfl) rfl hread (Or.inl rfl) (checkOne_ok hown rfl hlate)

theorem objUtc_offset (k : Nat) : (objUtc k).find 1 =
    some (tbGuarded k (utcEl k 1 .i16 (·.offset) (fun _ => stOk) fun v u => { u with offset := v })) := rfl

theorem objUtc_valid (k : Nat) : (objUtc k).find 2 =
    some (tbGuarded k (utcEl k 2 .u8 (fun u => u.valid) (within 0 1) fun v u => { u with valid := v.toNat })) := rfl

theorem objUtc_leap (k : Nat) : (objUtc k).find 3 =
    some (tbGuarded k (utcEl k 3 .u8 (fun u => u.leap) (within 0 2) fun v u => { u with leap := v.toNat })) := rfl

theorem objUtc_leapAt (k : Nat) : (objUtc k).find 4 =
    some (tbGuarded k (utcEl k 4 .time80 (fun u => Time80.code u.leapAt) (fun _ => stOk)
      fun v u => { u with leapAt := decodeTime80 v })) := rfl

/-- What comes into force is what is written, without a leap whose time has come (R245). -/
theorem copyUtc_inForce {s : State} {k : Nat} (hk : k < s.tb.length) :
    let w := (s.cfg.utcs k).written
    ((copyUtc k s).tbs k).utc =
      if w.leap ≠ 0 ∧ (Time80.toNs w.leapAt : Rat) ≤ (s.tbs k).now then { w with leap := 0 } else w := by
  have htb (b : Bool) (n : Nat) (u : State) : (raiseIf b n u).tb = u.tb := by cases b <;> rfl
  simp only [copyUtc, State.tbs, htb]
  rw [nth_upd_eq s.tb _ Tb.reset hk]
  simp only [decide_eq_true_eq]

/-! ## DOMAIN_KIND_WRITE (R250, R262) -/

/-- The configuration with `KIND` of domain i written. -/
def Cfg.withKind (i v : Nat) (c : Cfg) : Cfg := { c with dom := upd c.dom i fun d => { d with kind := v } }

theorem kind_withKind {c : Cfg} {i : Nat} (v : Nat) (hi : i < c.dom.length) : ((c.withKind i v).domi i).kind = v :=
  congrArg CfgDom.kind (nth_upd_eq c.dom _ CfgDom.reset hi)

/-- The element `KIND` of domain i. -/
def domKindEl (i : Nat) : Elem :=
  { domN i 0 .u8 (·.kind) (within 0 3) (fun v d => { d with kind := v }) with after := fun old _ => kindChanged i (old.cfg.domi i).kind }

theorem objDomain_kind (i : Nat) : (objDomain i).find 0 = some (domKindEl i) := rfl

/-- `KIND` takes 0 to 3, and PTP with a domain number that no other active domain has (R262). -/
theorem checkOne_domKind {s : State} {i v : Nat} (hv : v < 4) (hi : i < s.cfg.dom.length)
    (hunique : v ≠ 1 ∨ ptpDomainUnique i (s.cfg.withKind i v) = true) : checkOne (objDomain i) (domKindEl i) v s = 0 := by
  refine checkOne_ok (within_ok (by omega)) ?_ rfl
  change (((s.cfg.withKind i v).domi i).kind != 1 || ptpDomainUnique i (s.cfg.withKind i v)) = true
  rw [kind_withKind v hi, Bool.or_eq_true, bne_iff_ne]
  exact hunique

/-- A heard write of `KIND`. -/
theorem serve_domKind {r : Requester} {i : Fin 8} {v : Nat} {s : State}
    (h : Heard r (writeFrame r (addrWord 0x20 (10 + i) 0) .u8 v) s) (hsafe : s.md.mode ≠ .safe) (hb : s.md.bootRom = false)
    (hv : v < 4) (hi : i < s.cfg.dom.length) (hunique : v ≠ 1 ∨ ptpDomainUnique i (s.cfg.withKind i v) = true) :
    serveWrite r (addrWord 0x20 (10 + i) 0) 1 v s = written r (addrWord 0x20 (10 + i) 0) .u8 (s.cfg.domi i).kind v
      (kindChanged i (s.cfg.domi i).kind { counted s with cfg := s.cfg.withKind i v }) :=
  serveWrite_done (ty := .u8) (e := domKindEl i) h hsafe (by omega) (by omega) (by omega)
    (object_domain (s := counted s) hb i.isLt) (objDomain_kind i) rfl rfl (by decide) (Or.inl rfl) rfl (decode_byte (by omega))
    (Or.inl rfl) (checkOne_domKind (s := counted s) hv hi hunique)

/-- A domain without a Sync timer that goes to OFF or NO_SOURCE has no estimates. -/
theorem domGo_sourceless {s : State} {i : Nat} {st : DomState} (hi : i < s.dom.length) (hdue : (s.domi i).syncDue = none)
    (hst : st = .off ∨ st = .noSource) :
    ((domGo i st s).domi i).state = st ∧ ((domGo i st s).domi i).est = [] ∧ ((domGo i st s).domi i).syncDue = none := by
  simp only [domGo, State.domi, raise_dom]
  rw [nth_upd_eq s.dom _ Dom.reset hi]
  rcases hst with rfl | rfl <;> exact ⟨rfl, rfl, hdue⟩

/-- A changed kind makes the domain OFF, or starts it afresh without a source (R250). -/
theorem kindWritten_afresh {s : State} {i old : Nat} (hkind : (s.cfg.domi i).kind ≠ old) (hi : i < s.dom.length)
    (hst : (s.domi i).state ≠ .noSource) :
    ((kindWritten i old s).domi i).state = (if (s.cfg.domi i).kind = 0 then .off else .noSource)
      ∧ ((kindWritten i old s).domi i).est = [] ∧ ((kindWritten i old s).domi i).syncDue = none := by
  have hdue := congrArg Dom.syncDue
    (nth_upd_eq s.dom (fun d => { d with syncDue := none, annDue := none, gmInd := none, rankWait := none }) Dom.reset hi)
  have hlen : i < (s.setDom i fun d => { d with syncDue := none, annDue := none, gmInd := none, rankWait := none }).dom.length :=
    hi.trans_eq (upd_len s.dom i _).symm
  simp only [kindWritten]
  rw [if_neg hkind, if_neg hst]
  split
  · exact domGo_sourceless hlen hdue (.inl rfl)
  · exact domGo_sourceless hlen hdue (.inr rfl)

theorem kindChanged_afresh {s : State} {i old : Nat} (hkind : (s.cfg.domi i).kind ≠ old) (hi : i < s.dom.length)
    (hst : (s.domi i).state ≠ .noSource) :
    ((kindChanged i old s).domi i).state = (if (s.cfg.domi i).kind = 0 then .off else .noSource)
      ∧ ((kindChanged i old s).domi i).est = [] ∧ ((kindChanged i old s).domi i).syncDue = none := by
  rw [kindChanged, if_neg hkind]
  exact kindWritten_afresh (s := (takePriorities i s).setInst i _) hkind hi hst

/-- Settles O40: the commands of a timebase, the two leaps, the writes of the UTC values and what then is in force, and the write of
`KIND`. -/
theorem timebaseCommands : Obligations.TimebaseCommands := by
  refine ⟨?restep, ?clearDisc, ?label, ?insert, ?remove, ?mode, ?offset, ?valid, ?leap, ?leapAt, fun k s => copyUtc_inForce, ?kind,
    fun i old s => kindChanged_afresh⟩
  case restep =>
    exact fun dt r tb arg s h hsafe hb harg hstate hmeasures hfree =>
      timed_of_effect (serve_tbCommand (ty := .u8) h hsafe hb (by omega) rfl (decode_byte (by omega))
        (restepCommand_accepted (s := counted (elapse dt s)) harg hstate hmeasures hfree))
  case clearDisc =>
    exact fun dt r tb arg s h hsafe hb harg hfence hdisc =>
      timed_of_effect (serve_tbCommand (ty := .u8) h hsafe hb (by omega) rfl (decode_byte (by omega))
        (clearDiscCommand_accepted (s := counted (elapse dt s)) harg hfence hdisc))
  case label =>
    intro dt r tb t s e h hsafe hb hns hsec hfence hlocal
    have hns' : t.ns < 2 ^ 32 := by omega
    exact timed_of_effect (serve_tbCommand (ty := .time80) h hsafe hb (by omega) rfl (decode_time80 hsec hns')
      ((congrArg (writeLabel tb · (counted e)) (decodeTime80_code hsec hns')).trans
        (writeLabel_accepted (s := counted e) hns hfence hlocal)))
  case insert =>
    intro dt tb s e hleap hat
    have h := applyLeap_insert hleap hat
    rw [leapApplied, hleap] at h
    exact timed_of_effect h
  case remove =>
    intro dt tb s e hleap hat
    have h := applyLeap_remove hleap hat
    rw [leapApplied, hleap] at h
    exact timed_of_effect h
  case mode => exact fun dt r tb v t s h hsafe hb hfence hlo hhi => timed_of_effect (serve_utcMode h hsafe hb hfence hlo hhi)
  case offset =>
    intro dt r tb v t s e h hsafe hb hfence hmode hlo hhi
    have hread := decode_signed .i16 v rfl (by simp only [ElTy.size]; omega) (by simp only [ElTy.size]; omega)
    have hserve := serve_utcValue h hsafe hb hfence hmode (by omega) (objUtc_offset tb) (by decide) hread rfl
    exact timed_of_effect hserve
  case valid =>
    intro dt r tb v t s e h hsafe hb hfence hmode hlo hhi
    have hserve := serve_utcValue h hsafe hb hfence hmode (by omega) (objUtc_valid tb) (by decide)
      (decode_nonneg_byte hlo (by omega)) (within_ok ⟨hlo, hhi⟩)
    exact timed_of_effect hserve
  case leap =>
    intro dt r tb v t s e h hsafe hb hfence hmode hlo hhi
    have hserve := serve_utcValue h hsafe hb hfence hmode (by omega) (objUtc_leap tb) (by decide)
      (decode_nonneg_byte hlo (by omega)) (within_ok ⟨hlo, hhi⟩)
    exact timed_of_effect hserve
  case leapAt =>
    intro dt r tb v t s e h hsafe hb hfence hmode hsec hns
    have hserve := serve_utcValue h hsafe hb hfence hmode (by omega) (objUtc_leapAt tb) (by decide) (decode_time80 hsec hns) rfl
    rw [decodeTime80_code hsec hns] at hserve
    exact timed_of_effect hserve
  case kind =>
    exact fun dt r i v s h hsafe hb hv hi hunique => timed_of_effect (serve_domKind h hsafe hb hv hi hunique)

end Sys2Proof.Machine
end

section
/-! SUPPORT. The timers of a domain (R247, R252, R263): what each of their commands does to the state at its moment. -/

namespace Sys2Proof.Machine

/-! ## RECEIPT_TIMEOUT (R247, R263) -/

/-- A Sync timer that has run out is spent where the STEER core runs (R247). -/
theorem receiptTimeout_sync {s : State} {i t : Nat} (hact : instActive s i = true) (hdue : (s.domi i).syncDue = some t)
    (ht : t ≤ s.clk.count) (hrun : s.runs 1 = true) :
    receiptTimeout i false s = s.setDom i fun d => { d with syncDue := none } := by
  simp only [receiptTimeout]
  rw [hact, if_neg (by decide), if_pos (by decide), hdue, hrun, if_pos ⟨decide_eq_true ht, rfl⟩]

/-- Domain i without the masters whose Announces are overdue (R263). -/
def forgetOverdue (i : Nat) (s : State) : State :=
  s.setInst i fun x => { x with foreign := x.foreign.filter fun f => decide (s.clk.count < f.due) }

/-- Every port of domain i that is LISTENING with role BMCA becomes MASTER (R263). -/
def listenersToMaster (i : Nat) (s : State) : State :=
  (List.range 14).foldl (fun u n => if u.portState n i == .listening && u.cfg.role n i == 1 then setPortState i n .master u else u) s

/-- While the Announce timer has not run out only the overdue masters are forgotten. -/
theorem receiptTimeout_overdue {s : State} {i : Nat} (hact : instActive s i = true) (hrun : s.runs 0 = true)
    (hwait : ((s.domi i).annDue.all fun t => decide (s.clk.count < t)) = true) :
    receiptTimeout i true s = forgetOverdue i s := by
  simp only [receiptTimeout]
  rw [hact, if_neg (by decide), if_neg (by decide), hrun, if_neg (by decide)]
  rcases hann : (s.domi i).annDue with _ | t
  · exact if_pos (.inl rfl)
  · rw [hann, Option.all_some, decide_eq_true_eq] at hwait
    have hnot : (!decide (t ≤ s.clk.count)) = true := by rw [decide_eq_false (Nat.not_le.2 hwait)]; rfl
    exact if_pos (.inl hnot)

/-- A domain outside profile 2, or whose priority is not 255, may become grandmaster (R279). -/
theorem gmCapable_of {s : State} {i : Nat} (h : profileOf s i ≠ 2 ∨ (s.inst i).prio1 ≠ 255) : gmCapable s i = true := by
  rw [gmCapable, Bool.not_eq_true', Bool.and_eq_false_iff, beq_eq_false_iff_ne, beq_eq_false_iff_ne]
  exact h

/-- Where the Announce timer of a capable domain has run out its listening ports become MASTER. -/
theorem receiptTimeout_announce {s : State} {i t : Nat} (hact : instActive s i = true) (hrun : s.runs 0 = true)
    (hdue : (s.domi i).annDue = some t) (ht : t ≤ s.clk.count) (hcap : gmCapable s i = true) :
    receiptTimeout i true s =
      listenersToMaster i ((forgetOverdue i s).setDom i fun d => { d with annDue := none }) := by
  simp only [receiptTimeout]
  rw [hact, if_neg (by decide), if_neg (by decide), hrun, if_neg (by decide), hdue, hcap, if_neg (by simp [ht])]
  rfl

/-! ## DOMAIN_RANK_WAIT (R252) -/

/-- A better rank that has waited `QUAL_TIME` is the rank. -/
theorem domainRankWait_done {s : State} {i k t : Nat} (hwait : (s.domi i).rankWait = some (k, t))
    (ht : t + (s.cfg.domi i).qualTime * 1000000000 ≤ s.clk.count) :
    domainRankWait i s = raise (124 + i) (s.setDom i fun d => { d with rank := k, rankWait := none }) := by
  rw [domainRankWait, hwait]
  exact if_neg (Nat.not_lt.2 ht)

/-- Settles O41: the Sync timer, the Announce timer before and after it has run out, and the wait of a rank. -/
theorem domainTimers : Obligations.DomainTimers := by
  refine ⟨?sync, ?overdue, ?announce, ?rank⟩
  case sync => exact fun dt i t s hact hdue ht hrun => timed_of_effect (receiptTimeout_sync hact hdue ht hrun)
  case overdue => exact fun dt i s hact hrun hwait => timed_of_effect (receiptTimeout_overdue hact hrun hwait)
  case announce =>
    exact fun dt i t s hact hrun hdue ht hcap => timed_of_effect (receiptTimeout_announce hact hrun hdue ht (gmCapable_of hcap))
  case rank => exact fun dt i k t s hwait ht => timed_of_effect (domainRankWait_done hwait ht)

end Sys2Proof.Machine
end

section
/-! SUPPORT. The other receptions of PTP (R245, R249, R252, R262 to R265, R267, R269): what each of their commands does to the state at
its moment. -/

namespace Sys2Proof.Machine

/-! ## ANNOUNCE_RECEIVE (R245, R252, R263, R265) -/

/-- The master that port n of domain i hears in an Announce. -/
def heardMaster (s : State) (n i : Nat) (h : PtpHdr) (d : Dataset) : Foreign :=
  { port := n, due := s.clk.count + announceTimeoutNs s i, sender := h.sender, senderPort := h.senderPort, data := d }

/-- The domain with the priorities written and with the master heard on port n in place of the one before it, its port states decided
again. -/
def announceHeard (n : Nat) (h : PtpHdr) (d : Dataset) (i : Nat) (s : State) : State :=
  settleInst ((takePriorities i s).setInst i fun x =>
    { x with foreign := x.foreign.filter (fun g => g.port != n) ++ [heardMaster s n i h d] }) i

/-- An Announce of another clock that a listening role hears: on a SLAVE port its class and its UTC values are taken. -/
theorem announceReceive_heard {s : State} {n i : Nat} {h : PtpHdr} {d : Dataset} (hhears : hearsMasters s i n = true)
    (hother : h.sender ≠ s.nv.factory.clockIdentity) (hsteps : d.steps < 255) :
    announceReceive n h d i s =
      let u := announceHeard n h d i s
      if u.portState n i = .slave then
        let v := u.setInst i fun x => { x with annClass := some d.gmClass, rxUtcOffset := d.utcOffset }
        if (s.tbs (i / 2)).active = some (i % 2) then announceUtc (i / 2) d v else v
      else u := by
  have htaken : (!hearsMasters s i n || h.sender == s.nv.factory.clockIdentity || decide (255 ≤ d.steps)) = false := by
    rw [hhears, beq_false_of_ne hother, decide_eq_false (Nat.not_le.2 hsteps)]; rfl
  rw [announceReceive, htaken, if_neg Bool.false_ne_true]
  exact ite_not ..

/-! ## DELAY_REQ_RECEIVE and DELAY_RESP_RECEIVE (R249, R264) -/

/-- A MASTER port of profile 0 answers with the receive time of its PHY copy. -/
theorem delayReqReceive_master {s : State} {n i : Nat} {h : PtpHdr} (hprof : profileOf s i = 0) (hmaster : s.portState n i = .master) :
    delayReqReceive n h i s = send (.delayResp (ptpHead s n i false h.seqId h.corr (s.cfg.insts i).logPdelay)
      (copyOf s n (i / 2)) h.sender h.senderPort) s :=
  if_pos ⟨hprof, hmaster⟩

/-- A response to this clock identity and to the number of port n answers port n (R267). -/
theorem answersUs_own {s : State} {n ident port : Nat} (hident : ident = s.nv.factory.clockIdentity) (hport : port = n + 1) :
    answersUs s n ident port = true := by
  rw [answersUs, hident, hport, beq_self_eq_true, beq_self_eq_true, Bool.and_self]

/-- The answer to its own request gives a SLAVE port of profile 0 the mean path delay. -/
theorem delayRespReceive_own {s : State} {n i ident port : Nat} {h : PtpHdr} {receive t1 t2 t3 : Rat} (hprof : profileOf s i = 0)
    (hslave : s.portState n i = .slave) (hreq : (s.inst i).delayReq = some (n, h.seqId, t3))
    (hsync : (s.inst i).t1t2 = some (t1, t2)) (hus : answersUs s n ident port = true) :
    delayRespReceive n h receive ident port i s =
      s.setInst i fun x => { x with meanPath := ((t2 - t1) + (receive - t3) - h.corr) / 2, delayReq := none } := by
  simp only [delayRespReceive]
  rw [hreq, hsync]
  exact if_pos ⟨hprof, hslave, rfl, rfl, hus⟩

/-! ## PDELAY_REQ_RECEIVE and PDELAY_RESP_RECEIVE (R269) -/

/-- Outside profile 0 a port that takes part answers at once. -/
theorem pdelayReqReceive_answered {s : State} {n i : Nat} {h : PtpHdr} (hprof : profileOf s i ≠ 0)
    (hon : s.portState n i ≠ .disabled) :
    pdelayReqReceive n h i s = send (.pdelayResp (ptpHead s n i true h.seqId 0 0x7F) (copyOf s n (i / 2)) (copyOf s n (i / 2))
      h.sender h.senderPort) s :=
  if_pos ⟨hprof, hon⟩

/-- Port n has measured its link for domain i, the request sent at `t1` and answered from `t2` to `t3`, with the neighbour's rate
`rate`. -/
def linkMeasured (n i : Nat) (h : PtpHdr) (t1 t2 t3 rate : Rat) (s : State) : State :=
  let t4 := copyOf s n (i / 2)
  s.setPort n fun p =>
    { p with
      linkDelay := ((t4 - t1) * rate - (t3 - t2) - (if profileOf s i = 1 then h.corr + asymNs s n else h.corr)) / 2 * 1000,
      neighborRate := (rate - 1) * 1000000000000, pdelay := none, pdelayPrev := upd p.pdelayPrev i fun _ => some (t3, t4) }

/-- The first answer to a request of the domain measures the link at the rate 1. -/
theorem pdelayRespReceive_first {s : State} {n i ident port : Nat} {h : PtpHdr} {t1 t2 t3 : Rat}
    (hreq : (s.port n).pdelay = some (i, h.seqId, t1)) (hus : answersUs s n ident port = true)
    (hprev : nth (s.port n).pdelayPrev i none = none) :
    pdelayRespReceive n h t2 t3 ident port i s = linkMeasured n i h t1 t2 t3 1 s := by
  simp only [pdelayRespReceive]
  rw [hreq]
  simp only [hprev]
  exact if_pos ⟨trivial, trivial, hus⟩

/-- A later one measures the neighbour's rate against the answer before it, sent at `a` and received at `b`. -/
theorem pdelayRespReceive_again {s : State} {n i ident port : Nat} {h : PtpHdr} {t1 t2 t3 a b : Rat}
    (hreq : (s.port n).pdelay = some (i, h.seqId, t1)) (hus : answersUs s n ident port = true)
    (hprev : nth (s.port n).pdelayPrev i none = some (a, b)) (hlater : b ≠ copyOf s n (i / 2)) :
    pdelayRespReceive n h t2 t3 ident port i s = linkMeasured n i h t1 t2 t3 ((t3 - a) / (copyOf s n (i / 2) - b)) s := by
  simp only [pdelayRespReceive]
  rw [hreq]
  simp only [hprev, if_neg hlater.symm]
  exact if_pos ⟨trivial, trivial, hus⟩

/-! ## TRANSPARENT_FORWARD (R264) -/

/-- A message of the peer delay mechanism. -/
def peerKind (kind : PtpKind) : Bool := kind == .pdelayReq || kind == .pdelayResp || kind == .pdelayRespFollowUp

theorem peerKind_eq_false {kind : PtpKind} (h : kind ≠ .pdelayReq ∧ kind ≠ .pdelayResp ∧ kind ≠ .pdelayRespFollowUp) :
    peerKind kind = false := by
  obtain ⟨hreq, hresp, hfollow⟩ := h
  rw [peerKind, beq_false_of_ne hreq, beq_false_of_ne hresp, beq_false_of_ne hfollow]; rfl

/-- A message on a TRANSPARENT port of domain i goes out of the domain's other TRANSPARENT ports, its correction completed. -/
def forwardAll (n i : Nat) (h : PtpHdr) (kind : PtpKind) (twoStep : Bool) (residence : Rat) (s : State) : State :=
  let corr : Rat := h.corr + forwardExtra s i n h kind twoStep residence
  ((List.range 14).filter fun m => m != n && s.portState m i == .transparent).foldl
    (fun u m => send (.forwarded
      { ptpHead s m i (peerKind kind) h.seqId corr 0x7F with identity := h.sender, portNumber := h.senderPort } kind) u)
    (noteResidence i n h kind twoStep residence s)

/-- What a TRANSPARENT port forwards: in profile 1 no message of the peer delay mechanism. -/
theorem transparentForward_handled {s : State} {n i : Nat} {h : PtpHdr} {kind : PtpKind} (twoStep : Bool) (residence : Rat)
    (hup : portUp s n = true) (hfence : s.isFenced (.port n) = false) (hsafe : s.md.mode ≠ .safe) (hstandby : s.md.mode ≠ .standby)
    (hinst : instOf s h = some i) (hstate : s.portState n i = .transparent) (hpass : profileOf s i ≠ 1 ∨ peerKind kind = false) :
    transparentForward n h kind twoStep residence s = forwardAll n i h kind twoStep residence s := by
  have hon : (!portUp s n || s.md.mode == .safe || s.md.mode == .standby) = false := by
    rw [hup, beq_false_of_ne hsafe, beq_false_of_ne hstandby]; rfl
  have hforward : ¬ (s.portState n i ≠ .transparent ∨ (peerKind kind = true ∧ profileOf s i = 1)) := by
    rintro (hne | ⟨hpeer, hone⟩)
    · exact hne hstate
    · exact hpass.elim (· hone) fun hno => Bool.false_ne_true (hno.symm.trans hpeer)
  rw [transparentForward, hon, if_neg Bool.false_ne_true, hfence, if_neg Bool.false_ne_true, hinst]
  exact if_neg hforward

/-- A one-step Sync takes its own residence and a Follow_Up that of its Sync, in profile 1 with the delay of the ingress link; any other
message takes nothing. -/
theorem forwardExtra_eq (i n : Nat) (h : PtpHdr) (kind : PtpKind) (twoStep : Bool) (residence : Rat) (s : State) :
    forwardExtra s i n h kind twoStep residence =
      let link : Rat := if profileOf s i = 1 then linkDelayPs s n / 1000 else 0
      if kind = .sync ∧ twoStep = false then residence + link
      else if kind = .followUp then (match keptResidence s i n h with | some r => r + link | none => 0) else 0 := by
  cases kind with
  | sync => cases twoStep <;> rfl
  | _ => rfl

/-- The residence kept of a two-step Sync is found for its Follow_Up. -/
theorem keptResidence_noted {s : State} {i n : Nat} {h : PtpHdr} (residence : Rat) (hi : i < s.pt.inst.length) :
    keptResidence (noteResidence i n h .sync true residence s) i n h = some residence := by
  rw [keptResidence, noteResidence, if_pos ⟨rfl, rfl⟩, State.inst, nth_upd_eq s.pt.inst _ PtpInst.reset hi,
    List.find?_cons_of_pos (by simp)]
  rfl

/-- Settles O43: a frame that a domain handles reaches it, and there one lemma says what each message does; a TRANSPARENT port
forwards. -/
theorem otherPtpReceptions : Obligations.OtherPtpReceptions := by
  refine ⟨?announce, ?delayReq, ?delayResp, ?pdelayReq, ?pdelayFirst, ?pdelayAgain, ?forward, forwardExtra_eq,
    fun i n h residence s _ hi => keptResidence_noted residence hi⟩
  case announce =>
    exact fun dt port h d i s halive hinst hhears hother hsteps =>
      timed_of_effect ((ptpReceive_handled _ halive hinst).trans (announceReceive_heard hhears hother hsteps))
  case delayReq =>
    exact fun dt port h i s halive hinst hprof hmaster =>
      timed_of_effect ((ptpReceive_handled _ halive hinst).trans (delayReqReceive_master hprof hmaster))
  case delayResp =>
    exact fun dt port h receive ident toPort t1 t2 t3 i s halive hinst hprof hslave hreq hsync hident hport =>
      timed_of_effect ((ptpReceive_handled _ halive hinst).trans
        (delayRespReceive_own hprof hslave hreq hsync (answersUs_own hident hport)))
  case pdelayReq =>
    exact fun dt port h i s halive hinst hprof hon =>
      timed_of_effect ((ptpReceive_handled _ halive hinst).trans (pdelayReqReceive_answered hprof hon))
  case pdelayFirst =>
    exact fun dt port h t2 t3 ident toPort t1 i s halive hinst hreq hident hport hprev =>
      timed_of_effect ((ptpReceive_handled _ halive hinst).trans
        (pdelayRespReceive_first hreq (answersUs_own hident hport) hprev))
  case pdelayAgain =>
    exact fun dt port h t2 t3 ident toPort t1 a b i s halive hinst hreq hident hport hprev hlater =>
      timed_of_effect ((ptpReceive_handled _ halive hinst).trans
        (pdelayRespReceive_again hreq (answersUs_own hident hport) hprev hlater))
  case forward =>
    exact fun dt port h kind twoStep residence i s hup hfence hsafe hstandby hinst hstate hpass =>
      timed_of_effect (transparentForward_handled twoStep residence hup hfence hsafe hstandby hinst hstate
        (hpass.imp_right peerKind_eq_false))

end Sys2Proof.Machine
end

section
/-! SUPPORT. The transmissions of PTP (R249, R261, R262, R264 to R269, R279): what each of their commands does to the state at its
moment. -/

namespace Sys2Proof.Machine

/-! ## What every message carries (R262, R267) -/

/-- The header that port n gives a message of domain i. -/
theorem ptpHead_eq (n i q : Nat) (peer : Bool) (corr : Rat) (log : Int) (s : State) :
    ptpHead s n i peer q corr log =
      { port := n, inst := i,
        dst := if peer = true ∨ 2 ≤ profileOf s i then 0x0180C200000E else 0x011B19000000,
        src := s.nv.factory.baseMac + n, etherType := 0x88F7, domain := (s.cfg.domi i).ptpDomain,
        gptp := decide (2 ≤ profileOf s i), identity := s.nv.factory.clockIdentity, portNumber := n + 1,
        seqId := q, corr := corr, logInterval := log } := by
  simp only [ptpHead, Bool.or_eq_true, decide_eq_true_eq]

/-! ## The interval between messages of a kind (R279) -/

/-- After a message of its kind the next one is due when the interval has run. -/
theorem txNext_find {n i j : Nat} {log : Int} {s : State} (hn : n < s.pt.port.length) :
    ((txNext n i j log s).port n).txDue.find? (fun e => e.1 == i && e.2.1 == j) = some (i, j, s.clk.count + logNs log) := by
  simp only [txNext, State.port]
  rw [nth_upd_eq s.pt.port _ Port.reset hn, List.find?_cons_of_pos (by simp)]

/-- So it is due at once only where the interval is empty. -/
theorem txDueNow_txNext {n i j : Nat} {log : Int} {s : State} (hn : n < s.pt.port.length) :
    txDueNow (txNext n i j log s) n i j = true ↔ logNs log = 0 := by
  rw [txDueNow, txNext_find hn, decide_eq_true_eq]
  change s.clk.count + logNs log ≤ s.clk.count ↔ logNs log = 0
  omega

/-! ## What a MASTER port originates (R265, R268, R279) -/

/-- Port n of domain i may originate its message of kind `j` now: it is a MASTER port, and the interval has run. -/
structure MayOriginate (s : State) (n i j : Nat) : Prop where
  active : instActive s i = true
  up : ptpUp s n = true
  master : s.portState n i = .master
  awake : s.md.mode ≠ .standby
  due : txDueNow s n i j = true

/-- A message that may be originated is withheld and counted, or sent. -/
theorem originate_due {s : State} {n i j : Nat} {d : Dataset} (log : Int) (f : Dataset → State → State) (h : MayOriginate s n i j)
    (hdata : advDataset s i = some d) :
    originate n i j log f s =
      if originationStopped s then (txNext n i j log s).setPort n fun p => { p with suppressed := p.suppressed + 1 }
      else f d (txNext n i j log s) := by
  have hgo : (!instActive s i || !ptpUp s n || s.portState n i != .master || s.md.mode == .standby || !txDueNow s n i j) = false := by
    rw [h.active, h.up, h.master, beq_false_of_ne h.awake, h.due]; rfl
  rw [originate, hgo, if_neg Bool.false_ne_true, hdata]

/-- The sequence number of kind `j` of domain i goes up by one and wraps (R267). -/
def seqTaken (i j : Nat) (s : State) : State := s.setInst i fun x => { x with seqs := upd x.seqs j fun q => (q + 1) % 65536 }

/-- An Announce of port n with the dataset `d`. -/
def announceSent (n i : Nat) (log : Int) (d : Dataset) (s : State) : State :=
  send (.announce (ptpHead s n i false (nth (s.inst i).seqs 0 0) 0 log) d) (seqTaken i 0 s)

/-- ANNOUNCE_TRANSMIT originates with the priorities written, not in profile 3 (R261, R279). -/
theorem announceTransmit_originates {s : State} {n i : Nat} (hprof : profileOf s i ≠ 3) :
    announceTransmit n i s =
      originate n i 0 (s.cfg.insts i).logAnnounce (announceSent n i (s.cfg.insts i).logAnnounce) (takePriorities i s) :=
  if_neg hprof

/-- Taking the priorities changes nothing that says whether a port may originate. -/
theorem mayOriginate_takePriorities {s : State} {n i j : Nat} (h : MayOriginate s n i j) : MayOriginate (takePriorities i s) n i j :=
  ⟨h.active, h.up, h.master, h.awake, h.due⟩

/-- A Sync of port n with the time of its PHY copy and what its Follow_Up carries. -/
def syncSent (n i : Nat) (log : Int) (s : State) : State :=
  let f := followUpOf s i (copyOf s n (i / 2))
  send (.sync (ptpHead s n i false (nth (s.inst i).seqs 1 0) f.1 log) f.2.1 f.2.2.1 f.2.2.2) (seqTaken i 1 s)

theorem syncTransmit_originates (n i : Nat) (s : State) :
    syncTransmit n i s = originate n i 1 (s.cfg.insts i).logSync (fun _ => syncSent n i (s.cfg.insts i).logSync) s := rfl

/-! ## What the Follow_Up of a Sync carries (R263, R264, R266) -/

/-- A grandmaster and a boundary clock give the time of the port's copy, in profiles 2 and 3 a grandmaster its time base. -/
theorem followUpOf_own {s : State} {i : Nat} {tx : Rat} (h : profileOf s i ≠ 2 ∨ (s.inst i).parent = none) :
    followUpOf s i tx = (0, tx, 0, if 2 ≤ profileOf s i ∧ (s.inst i).parent = none then
      some ((s.tbs (i / 2)).epoch % 65536, (s.tbs (i / 2)).lastStep * 65536) else none) := by
  have hnot : ¬ (profileOf s i = 2 ∧ (s.inst i).parent.isSome = true) := by
    rintro ⟨hprof, hparent⟩
    rcases h with h | h
    · exact h hprof
    · rw [h] at hparent; exact Bool.false_ne_true hparent
  simp only [followUpOf]
  rw [if_neg hnot]
  simp only [Option.isNone_iff_eq_none]

/-- A time-aware relay passes on its grandmaster's time and what has passed since the Sync came. -/
theorem followUpOf_relay {s : State} {i g : Nat} {tx o c a rx : Rat} (hprof : profileOf s i = 2) (hparent : (s.inst i).parent ≠ none)
    (hrelay : (s.inst i).relay = some (o, c)) (hsync : (s.inst i).t1t2 = some (a, rx)) (hgm : (s.domi i).gmInd = some g) :
    followUpOf s i tx =
      (c + (tx - rx) * (1 + (s.inst i).rateRatio / 1000000000000), o, (s.inst i).rateRatio, some (g, (s.inst i).gmPhase)) := by
  simp only [followUpOf]
  rw [if_pos ⟨hprof, Option.isSome_iff_ne_none.2 hparent⟩, hrelay, hsync, hgm]
  rfl

/-! ## DELAY_REQ_TRANSMIT and PDELAY_REQ_TRANSMIT (R249, R269) -/

/-- A SLAVE port of profile 0 sends a Delay_Req and keeps its number and its time. -/
theorem delayReqTransmit_due {s : State} {n i : Nat} (hact : instActive s i = true) (hprof : profileOf s i = 0)
    (hslave : s.portState n i = .slave) (halive : ptpAlive s n = true) (hdue : txDueNow s n i 2 = true) :
    delayReqTransmit n i s =
      let u := txNext n i 2 (s.cfg.insts i).logPdelay s
      let q := nth (u.inst i).seqs 2 0
      send (.delayReq (ptpHead s n i false q (-(asymNs s n)) 0x7F))
        ((seqTaken i 2 u).setInst i fun x => { x with delayReq := some (n, q, copyOf s n (i / 2)) }) :=
  if_pos ⟨hact, hprof, hslave, halive, hdue⟩

/-- A port of a profile with peer delay, with PDELAY_MODE 0, sends a Pdelay_Req and keeps its number and its time. -/
theorem pdelayReqTransmit_due {s : State} {n i : Nat} (hact : instActive s i = true) (hprof : profileOf s i ≠ 0)
    (hon : s.portState n i ≠ .disabled) (halive : ptpAlive s n = true) (hmode : (s.cfg.port n).pdelayMode = 0)
    (hdue : txDueNow s n i 3 = true) :
    pdelayReqTransmit n i s =
      let q := (s.port n).pdelaySeq
      send (.pdelayReq (ptpHead s n i true q (if profileOf s i = 1 then -(asymNs s n) else 0) (s.cfg.insts i).logPdelay))
        ((txNext n i 3 (s.cfg.insts i).logPdelay s).setPort n fun p =>
          { p with pdelay := some (i, q, copyOf s n (i / 2)), pdelaySeq := (q + 1) % 65536 }) :=
  if_pos ⟨hact, hprof, hon, halive, hmode, hdue⟩

/-- Settles O44: what a MASTER port originates, sent or withheld, and the two requests; what a Follow_Up and a header carry, and when the
next message is due. -/
theorem ptpTransmissions : Obligations.PtpTransmissions := by
  refine ⟨?announce, ?announceWithheld, ?sync, ?syncWithheld, fun i tx s => followUpOf_own, ?relay, ?interval, ptpHead_eq, ?delayReq,
    ?pdelayReq⟩
  case announce =>
    intro dt port i d s e hact hup hmaster hawake _ hgo hprof hdue hdata
    have hmay := mayOriginate_takePriorities ⟨hact, hup, hmaster, hawake, hdue⟩
    exact timed_of_effect (((announceTransmit_originates hprof).trans (originate_due _ _ hmay hdata)).trans
      (if_neg (ne_true_of_eq_false hgo)))
  case announceWithheld =>
    intro dt port i d s e hact hup hmaster hawake _ hstop hprof hdue hdata
    have hmay := mayOriginate_takePriorities ⟨hact, hup, hmaster, hawake, hdue⟩
    exact timed_of_effect (((announceTransmit_originates hprof).trans (originate_due _ _ hmay hdata)).trans (if_pos hstop))
  case sync =>
    intro dt port i d s e hact hup hmaster hawake hdata hgo hdue
    exact timed_of_effect (((syncTransmit_originates port i e).trans
      (originate_due _ _ ⟨hact, hup, hmaster, hawake, hdue⟩ hdata)).trans (if_neg (ne_true_of_eq_false hgo)))
  case syncWithheld =>
    intro dt port i d s e hact hup hmaster hawake hdata hstop hdue
    exact timed_of_effect (((syncTransmit_originates port i e).trans
      (originate_due _ _ ⟨hact, hup, hmaster, hawake, hdue⟩ hdata)).trans (if_pos hstop))
  case relay => exact fun i g tx o c a rx s => followUpOf_relay
  case interval =>
    intro n i j log s hn
    refine ⟨fun m hm => ?_, txDueNow_txNext hn⟩
    rw [txNext_find hn, Option.some.injEq] at hm
    rw [← hm]
  case delayReq =>
    exact fun dt port i s hact hprof hslave halive hdue => timed_of_effect (delayReqTransmit_due hact hprof hslave halive hdue)
  case pdelayReq =>
    exact fun dt port i s hact hprof hon halive hmode hdue =>
      timed_of_effect (pdelayReqTransmit_due hact hprof hon halive hmode hdue)

end Sys2Proof.Machine
end

section
/-! SUPPORT. The capture ring and its streamer (R288 to R294, R423): what each of their commands does to the state at its moment. -/

namespace Sys2Proof.Machine

/-! ## Ring slots (R290, R292) -/

/-- With more than 64 slots free, the oldest record of the input whose turn it is passes to the ring. -/
theorem slot_served {now n : Nat} {rest : List Nat} {x : FifoRec} {more : List FifoRec} {t : Ts}
    (hopen : t.stream.isNone = false) (hroom : t.ring.length + 64 < 16384)
    (hturn : (if t.round.isEmpty then newRound t else t.round) = n :: rest) (hfifo : (t.input n).fifo = x :: more) :
    t.slot now = ({ t with
      round := rest, served := upd t.served (n / 8) (fun _ => n % 8),
      inp := upd t.inp n fun x => { x with fifo := more } } : Ts).push now x.word := by
  have hgo : ¬ (t.stream.isNone = true ∨ ringSize ≤ t.ring.length + ringReserve) := by
    rw [hopen]
    exact fun h => h.elim Bool.false_ne_true (Nat.not_le.2 hroom)
  rw [Ts.slot, if_neg hgo, hturn]
  simp only [hfifo]

/-- A slot passes nothing where no stream is open or at most 64 slots are free. -/
theorem slot_idle {now : Nat} {t : Ts} (h : t.stream = none ∨ 16384 ≤ t.ring.length + 64) : t.slot now = t :=
  if_pos (h.imp_left fun hnone => by rw [hnone]; rfl)

/-- While the engine runs RING_SLOT is one slot of the ring. -/
theorem ringSlot_running {s : State} (hrun : s.clk.running = true) : ringSlot s = { s with ts := s.ts.slot s.clk.count } :=
  if_pos hrun

/-- A record takes the next SEQ, and the peak follows the ring (R292, R294). -/
theorem push_eq (now : Nat) (w : BitVec 96) (t : Ts) :
    t.push now w = { t with
      ring := t.ring ++ [(now, w ||| BitVec.ofNat 96 (t.nextSeq % 65536))], nextSeq := (t.nextSeq + 1) % 65536,
      peak := max t.peak (t.ring.length + 1) } := by
  simp only [Ts.push, List.length_append, List.length_singleton]

/-! ## Stale records (R292) -/

/-- Whether the stamp of a record is 1 s old. -/
def FifoRec.isStale (now : Nat) (r : FifoRec) : Bool := decide (r.stamp + 1000000000 ≤ (now : Rat))

theorem dropStale_none {now : Nat} {x : Tsi} (h : x.fifo.filter (·.isStale now) = []) : x.dropStale now = (x, false) :=
  if_pos (List.isEmpty_iff.2 h)

/-- What is 1 s old goes, and is counted. -/
theorem dropStale_old {now : Nat} {x : Tsi} (h : (x.fifo.filter (·.isStale now)).isEmpty = false) :
    x.dropStale now =
      let keep := x.fifo.filter fun r => !r.isStale now
      ({ x with
         fifo := markLost keep, stale := x.stale + (x.fifo.filter (·.isStale now)).length,
         lostFlag := x.lostFlag || keep.isEmpty, sticky := x.sticky ||| 2#8 }, !(bit8 x.sticky 1)) :=
  if_neg (ne_true_of_eq_false h)

/-- STALE_RECORD puts back the input without its old records, and the first loss raises its source. -/
theorem staleRecord_drops {n : Nat} {x : Tsi} {rose : Bool} {s : State} (h : (s.tsi n).dropStale s.clk.count = (x, rose)) :
    staleRecord n s = raiseIf rose (152 + n) (s.setTsi n fun _ => x) := by
  rw [staleRecord, h]

/-! ## Anchors (R288) -/

/-- A timebase in a new second writes an anchor of the cycle in which that second began. -/
theorem anchorPeriodic_newSecond {k : Nat} {s : State} (hnew : nth s.ts.tbSec k 0 ≠ (s.tbs k).now.floor / 1000000000)
    (hopen : s.ts.stream.isNone = false) :
    anchorPeriodic k s =
      let sec := (s.tbs k).now.floor / 1000000000
      { s with
        ts := ({ s.ts with tbSec := upd s.ts.tbSec k fun _ => sec } : Ts).addAnchor s.clk.count k
          (anchorOf ((s.tbs k).atSecond sec (tbRate s k)) k false false) } :=
  if_neg (not_or.2 ⟨hnew, ne_true_of_eq_false hopen⟩)

/-! ## RING_FLUSH (R294, R309) -/

/-- The command `RING_FLUSH`. -/
def ringFlushEl : Elem := command 6 .u8 ringFlush

theorem object_ring {s : State} (hb : s.md.bootRom = false) : ∃ o, objectAt s 0x30 200 = some o ∧ o.find 6 = some ringFlushEl := by
  simp only [objectAt, hb]
  exact ⟨_, rfl, rfl⟩

/-- An open stream takes a flush. -/
theorem ringFlush_open {s : State} (v : Int) (hopen : s.ts.stream.isNone = false) :
    ringFlush v s = (0, { s with ts := s.ts.refill s.clk.count s.tb }) :=
  if_neg (ne_true_of_eq_false hopen)

/-- A heard `RING_FLUSH` while a stream is open. -/
theorem serve_ringFlush {r : Requester} {arg : Nat} {s : State} (h : Heard r (commandFrame r (addrWord 0x30 200 6) .u8 arg) s)
    (hsafe : s.md.mode ≠ .safe) (hb : s.md.bootRom = false) (harg : arg < 256) (hopen : s.ts.stream.isNone = false) :
    serveCommand r (addrWord 0x30 200 6) 1 arg s =
      commanded r (addrWord 0x30 200 6) .u8 arg { counted s with ts := s.ts.refill s.clk.count s.tb } := by
  obtain ⟨o, ho, he⟩ := object_ring (s := counted s) hb
  exact serveCommand_done (ty := .u8) (e := ringFlushEl) h hsafe (by omega) (by omega) (by omega) ho he rfl rfl (decode_byte harg)
    (Or.inl rfl) rfl rfl (ringFlush_open (s := counted s) arg hopen)

/-! ## STREAM_PACKET (R423) -/

/-- What the module sends over Ethernet goes out where the port has a link (R403). -/
theorem emit_linked {r : Requester} (version opcode seq status flags address segment : Nat) (payload : List Byte) {s : State}
    (h : (s.port r.iface).link = true) :
    emit r version opcode seq status flags address segment payload s =
      send (.dop r.iface r.source r.sport r.mac version opcode seq status (BitVec.ofNat 8 flags) address segment payload) s := by
  rw [emit, h, Bool.or_true, if_pos rfl]

/-- A due packet takes its records from the ring, and what waits in the queues follows into the room it leaves. -/
theorem streamPacket_due {x : Stream} {s : State} (hopen : s.ts.stream = some x) (hdue : packetDue s.clk.count s.ts.ring = true)
    (hlink : (s.port x.iface).link = true) :
    streamPacket s =
      let n := packetCount s.ts.ring
      let u := send (.dop x.iface x.source x.sport x.mac x.version 7 x.seq 0 0#8 streamAddress 0
        ((s.ts.ring.take n).flatMap fun p => recBytes p.2)) s
      { u with
        ts := ({ s.ts with
          ring := s.ts.ring.drop n, streamed := s.ts.streamed + n,
          stream := some { x with seq := nextPacketSeq x.iface x.seq } } : Ts).drain s.clk.count } := by
  simp only [streamPacket, hopen, hdue, emit_linked, hlink, Bool.not_true, Bool.false_eq_true, if_false]
  rfl

theorem streamPacket_idle {s : State} (h : s.ts.stream = none ∨ packetDue s.clk.count s.ts.ring = false) : streamPacket s = s := by
  unfold streamPacket
  rcases h with hnone | hnot
  · rw [hnone]
  · rw [hnot]
    split <;> rfl

/-- Settles O47: a slot, the records that are 1 s old, the anchors of a new second and of a flush, and the packets. -/
theorem captureRing : Obligations.CaptureRing := by
  refine ⟨?slot, ?slotIdle, push_eq, ?fresh, ?stale, ?anchor, ?flush, ?packet, ?packetIdle⟩
  case slot =>
    intro dt n rest x more s e hrun hopen hroom hturn hfifo
    exact timed_of_effect ((ringSlot_running hrun).trans (by rw [slot_served hopen hroom hturn hfifo]))
  case slotIdle =>
    intro dt s e hrun hidle
    exact timed_of_effect ((ringSlot_running hrun).trans (by rw [slot_idle hidle]))
  case fresh => exact fun dt n s hfresh => timed_of_effect (staleRecord_drops (dropStale_none hfresh))
  case stale => exact fun dt n s hold => timed_of_effect (staleRecord_drops (dropStale_old hold))
  case anchor => exact fun dt tb s hnew hopen => timed_of_effect (anchorPeriodic_newSecond hnew hopen)
  case flush => exact fun dt r arg s h hsafe hb harg hopen => timed_of_effect (serve_ringFlush h hsafe hb harg hopen)
  case packet => exact fun dt x s hopen hdue hlink => timed_of_effect (streamPacket_due hopen hdue hlink)
  case packetIdle => exact fun dt s hidle => timed_of_effect (streamPacket_idle hidle)

end Sys2Proof.Machine
end

section
/-! SUPPORT. The interval channels (R298 to R303): what each of their commands does to the state at its moment. -/

namespace Sys2Proof.Machine

/-! ## RUN (R298) -/

/-- The inputs of channel k can measure: each is enabled and not fenced. -/
def tcInputsReady (s : State) (k : Nat) : Prop :=
  ∀ n ∈ tcInputs (s.cfg.tcs k), (s.cfg.tsi n).enable = 1 ∧ s.isFenced (.tsi n) = false

/-- The configuration with `RUN` of channel k written. -/
def Cfg.withRun (k v : Nat) (c : Cfg) : Cfg := { c with tc := upd c.tc k fun x => { x with run := v } }

theorem objTcCfg_run (k : Nat) : (objTcCfg k).find 0 = some (runEl k) := rfl

/-- A write of `RUN` leaves the inputs of its channel. -/
theorem tcInputs_withRun {k v : Nat} {c : Cfg} (h : k < c.tc.length) : tcInputs ((c.withRun k v).tcs k) = tcInputs (c.tcs k) := by
  rw [Cfg.withRun, Cfg.tcs, nth_upd_eq c.tc _ CfgTc.reset h]
  rfl

theorem runStatus_stop (s : State) (k : Nat) : runStatus s k 0 = 0 := if_pos rfl

/-- A channel that is not fenced may start on inputs that can measure. -/
theorem runStatus_ready {s : State} {k : Nat} (v : Nat) (hfence : s.isFenced (.tc k) = false) (hready : tcInputsReady s k) :
    runStatus s k v = 0 := by
  have henabled : ((tcInputs (s.cfg.tcs k)).any fun n => (s.cfg.tsi n).enable != 1) = false :=
    List.any_eq_false.2 fun n hn => by rw [(hready n hn).1]; decide
  have hunfenced : ((tcInputs (s.cfg.tcs k)).any fun n => s.isFenced (.tsi n)) = false :=
    List.any_eq_false.2 fun n hn => ne_true_of_eq_false (hready n hn).2
  rw [runStatus, henabled, hunfenced, hfence]
  exact ite_self _

/-- Inputs that can measure can do so under the written `RUN`. -/
theorem tcInputsReady_withRun {s : State} {k : Nat} (v : Nat) (hlen : k < s.cfg.tc.length) (hready : tcInputsReady s k) :
    tcInputsReady { s with cfg := s.cfg.withRun k v } k := by
  rw [tcInputsReady, tcInputs_withRun hlen]
  exact hready

/-- `RUN` takes 0 to 2 on a channel that is not fenced, where its status allows it. -/
theorem checkOne_run {k v : Nat} {s : State} (hfence : s.isFenced (.tc k) = false) (hv : v < 3)
    (hstatus : runStatus { s with cfg := s.cfg.withRun k v } k v = 0) : checkOne (objTcCfg k) (runEl k) v s = 0 :=
  have hown : orElse (within 0 2 v) (orElse (runStatus { s with cfg := s.cfg.withRun k v } k v)
      (refuseIf (s.isFenced (.tc k)) stFenced)) = 0 :=
    orElse_ok (within_ok (by omega)) (orElse_ok hstatus (refuseIf_no _ hfence))
  checkOne_ok hown rfl rfl

/-- A heard write of `RUN`. -/
theorem serve_run {r : Requester} {k : Fin 16} {v : Nat} {s : State} (h : Heard r (writeFrame r (addrWord 49 k 0) .u8 v) s)
    (hsafe : s.md.mode ≠ .safe) (hb : s.md.bootRom = false) (hfence : s.isFenced (.tc k) = false) (hv : v < 3)
    (hstatus : runStatus { counted s with cfg := s.cfg.withRun k v } k v = 0) :
    serveWrite r (addrWord 49 k 0) 1 v s =
      written r (addrWord 49 k 0) .u8 (s.cfg.tcs k).run v (writeRun k v { counted s with cfg := s.cfg.withRun k v }) :=
  serveWrite_done (ty := .u8) (e := runEl k) h hsafe (by omega) (by omega) (by omega)
    (object_tc (s := counted s) hb k.isLt) (objTcCfg_run k) rfl rfl (by decide) (Or.inl rfl) rfl (decode_byte (by omega))
    (Or.inl rfl) (checkOne_run (s := counted s) hfence hv hstatus)

/-- One that starts the channel on inputs that can measure. -/
theorem serve_run_start {r : Requester} {k : Fin 16} {v : Nat} {s : State}
    (h : Heard r (writeFrame r (addrWord 49 k 0) .u8 v) s) (hsafe : s.md.mode ≠ .safe) (hb : s.md.bootRom = false)
    (hfence : s.isFenced (.tc k) = false) (hlen : k.val < s.cfg.tc.length) (hready : tcInputsReady s k) (hv : v < 3) :
    serveWrite r (addrWord 49 k 0) 1 v s =
      written r (addrWord 49 k 0) .u8 (s.cfg.tcs k).run v (writeRun k v { counted s with cfg := s.cfg.withRun k v }) :=
  serve_run h hsafe hb hfence hv (runStatus_ready v hfence (tcInputsReady_withRun (s := counted s) v hlen hready))

/-! ## Gates (R298, R303) -/

/-- A gate that has reached its end is published; a single one stops, a continuous one starts the next where it ended. -/
theorem gateEnd_reached {k : Nat} {g : Rat} {s : State} (hgate : (s.tcs k).gate = some g)
    (hend : g + (((s.cfg.tcs k).gate * 1000000 : Nat) : Rat) ≤ (s.clk.count : Rat)) :
    gateEnd k s =
      let t := g + (((s.cfg.tcs k).gate * 1000000 : Nat) : Rat)
      if (s.cfg.tcs k).run = 2 then stopTc k 2 (publish k t false s) else nextGate k t (publish k t false s) := by
  rw [gateEnd, hgate]
  exact if_neg (not_lt.2 hend)

/-- A gate that has not reached its end goes on. -/
theorem gateEnd_early {k : Nat} {g : Rat} {s : State} (hgate : (s.tcs k).gate = some g)
    (hearly : (s.clk.count : Rat) < g + (((s.cfg.tcs k).gate * 1000000 : Nat) : Rat)) : gateEnd k s = s := by
  rw [gateEnd, hgate]
  exact if_pos hearly

/-! ## Edges (R301, R302) -/

/-- The first edge waiting is taken 200 ns after its stamp. -/
theorem evaluateEdge_due {k : Nat} {a : Rat × Bool} {rest : List (Rat × Bool)} {s : State}
    (hwait : (s.tcs k).waiting = a :: rest) (hmode : (s.cfg.tcs k).mode = 0) (hdue : a.1 + 200 ≤ (s.clk.count : Rat)) :
    evaluateEdge k s = s.setTc k fun x => takeEdge (coincidenceNs (s.cfg.tcs k)) a { x with waiting := rest } := by
  rw [evaluateEdge, hwait]
  exact if_pos ⟨hmode, hdue⟩

theorem dropStop_none {w t : Rat} {x : Tc} (h : x.stop = none) : dropStop w t x = x := by
  rw [dropStop, h]

/-- A held stop within W of the stamp stays. -/
theorem dropStop_held {w t b : Rat} {x : Tc} (h : x.stop = some b) (hw : ¬ b + w < t) : dropStop w t x = x := by
  rw [dropStop, h]
  exact if_neg hw

/-- Where no held stop is dropped, the edge is taken at once. -/
theorem takeEdge_kept {w t : Rat} {start : Bool} {x : Tc} (h : dropStop w t x = x) :
    takeEdge w (t, start) x = if start then takeStart t x else takeStop t x := by
  simp only [takeEdge, h]

/-- A held stop that has reached W without a start is counted and dropped. -/
theorem stopExpiry_due {k : Nat} {b : Rat} {s : State} (hstop : (s.tcs k).stop = some b)
    (hend : b + coincidenceNs (s.cfg.tcs k) ≤ (s.clk.count : Rat))
    (hnone : ((s.tcs k).waiting.any fun a => a.2 && decide (a.1 ≤ b + coincidenceNs (s.cfg.tcs k))) = false) :
    stopExpiry k s = s.setTc k fun x => { x with stop := none, earlyNow := x.earlyNow + 1 } := by
  simp only [stopExpiry, hstop]
  exact if_pos ⟨hend, by rw [hnone]; rfl⟩

/-- Settles O48: the writes of `RUN`, the end of a gate, and the edges by the rows of R302. -/
theorem intervalChannels : Obligations.IntervalChannels := by
  refine ⟨?continuous, ?single, ?stop, fun k v s hv => if_neg hv, ?gateSingle, ?gateContinuous, ?gateEarly, ?edge, ?startReversed,
    ?startUnpaired, ?startOpens, ?stopPairs, ?stopEarly, ?stopHeld, ?expiry⟩
  case continuous =>
    exact fun dt r k s h hsafe hb hfence hlen hready =>
      timed_of_effect (serve_run_start h hsafe hb hfence hlen hready (by decide))
  case single =>
    exact fun dt r k s h hsafe hb hfence hlen hready =>
      timed_of_effect (serve_run_start h hsafe hb hfence hlen hready (by decide))
  case stop =>
    exact fun dt r k s h hsafe hb hfence => timed_of_effect (serve_run h hsafe hb hfence (by decide) (runStatus_stop _ _))
  case gateSingle =>
    exact fun dt k g s hgate hend hrun => timed_of_effect ((gateEnd_reached hgate hend).trans (if_pos hrun))
  case gateContinuous =>
    exact fun dt k g s hgate hend hrun => timed_of_effect ((gateEnd_reached hgate hend).trans (if_neg hrun))
  case gateEarly => exact fun dt k g s hgate hearly => timed_of_effect (gateEnd_early hgate hearly)
  case edge => exact fun dt k a rest s hwait hmode hdue => timed_of_effect (evaluateEdge_due hwait hmode hdue)
  case startReversed =>
    intro t w x b hstop hw
    rw [takeEdge_kept (dropStop_held hstop hw), if_pos rfl, takeStart, hstop]
  case startUnpaired =>
    intro t w x a hstop hstart
    rw [takeEdge_kept (dropStop_none hstop), if_pos rfl, takeStart, hstop, hstart]
  case startOpens =>
    intro t w x hstop hstart
    rw [takeEdge_kept (dropStop_none hstop), if_pos rfl, takeStart, hstop, hstart]
  case stopPairs =>
    intro t w x a hstop hstart
    rw [takeEdge_kept (dropStop_none hstop), if_neg Bool.false_ne_true, takeStop, hstart]
  case stopEarly =>
    intro t w x b hstop hw hstart
    rw [takeEdge_kept (dropStop_held hstop hw), if_neg Bool.false_ne_true, takeStop, hstart, hstop]
  case stopHeld =>
    intro t w x hstop hstart
    rw [takeEdge_kept (dropStop_none hstop), if_neg Bool.false_ne_true, takeStop, hstart, hstop]
  case expiry => exact fun dt k b s hstop hend hnone => timed_of_effect (stopExpiry_due hstop hend hnone)

end Sys2Proof.Machine
end

section
/-! SUPPORT. Subscriptions, their leases and the transfers that end by inactivity (R294, R419 to R421): what each of their commands does
to the state at its moment. -/

namespace Sys2Proof.Machine

/-! ## A heard SUBSCRIBE (R414, R416, R421) -/

/-- A SUBSCRIBE frame names one of the two addresses and has the length that goes with it. -/
structure SubscribeFrame (f : Frame) : Prop where
  opcode : f.opcode = 6
  plain : f.segFlag = false
  target : plainAddress f.address = eventAddress ∧ f.length = 34 ∨ plainAddress f.address = streamAddress ∧ f.length = 2

/-- SUBSCRIBE passes the tests of every element and mode, SAFE among them. -/
theorem admitStatus_subscribe {f : Frame} {s : State} (e : Elem) (h : SubscribeFrame f) : admitStatus f e s = 0 := by
  obtain ⟨hop, hplain, htarget⟩ := h
  have hchange : refuseIf (changes f.opcode && s.md.mode == .safe) stSafe = 0 := by rw [hop]; rfl
  have haccess : accessStatus f e.acc = 0 := by
    rcases htarget with ⟨haddr, -⟩ | ⟨haddr, -⟩ <;> simp [accessStatus, refuseIf, hop, haddr]
  have htype : typeStatus f e.ty = 0 := by
    rcases htarget with ⟨haddr, hlen⟩ | ⟨haddr, hlen⟩
    · simp [typeStatus, refuseIf, hop, hplain, haddr, hlen]
    · simp [typeStatus, refuseIf, hop, hplain, haddr, hlen]
  exact orElse_ok hchange (orElse_ok haccess (orElse_ok htype (by rw [hop]; rfl)))

theorem perform_subscribe {r : Requester} {f : Frame} (o : Obj) (e : Elem) (s : State) (h : f.opcode = 6) :
    perform r f o e s = subscribe r f s := by
  simp only [perform, h]

/-- A heard SUBSCRIBE that is accepted. -/
theorem serve_subscribe {r : Requester} {f : Frame} {o : Obj} {el : Elem} {s w : State} (h : Heard r f s)
    (ho : objectAt (counted s) (areaOf f.address) (objectOf f.address) = some o) (he : o.find (elementOf f.address) = some el)
    (hf : SubscribeFrame f) (hsub : subscribe r f (counted s) = (0, [], w)) : serve r f s = answer r f 1 stOk [] w :=
  serve_done h ho he (admitStatus_subscribe el hf) ((perform_subscribe o el _ hf.opcode).trans hsub) (by decide)

/-! ## Event messages (R421) -/

theorem subscribe_events {r : Requester} {f : Frame} {s : State} (h : plainAddress f.address = eventAddress) :
    subscribe r f s =
      let data := f.payload.take f.length
      subscribeEvents r (bytesNat (data.take 2)) (BitVec.ofNat 256 (bytesNat (data.drop 2))) s := if_pos h

/-- With LEASE 0 the key has no subscription any more. -/
theorem subscribeEvents_leave (r : Requester) (mask : BitVec 256) (s : State) :
    subscribeEvents r 0 mask s = (0, [], { s with dop := { s.dop with subs := s.dop.subs.filter fun x => !x.sameKey r } }) := rfl

section
variable {r : Requester} {lease : Nat} {s : State} (mask : BitVec 256)

/-- The subscriptions once that of the key runs `lease` seconds from now with a mask. -/
def subsLeased (r : Requester) (lease : Nat) (mask : BitVec 256) (s : State) : List Sub :=
  let ends := s.clk.count + lease * 1000000000
  match s.dop.subs.find? fun x => x.sameKey r with
  | some x => s.dop.subs.map fun y => if y.sameKey r then { x with req := r, mask := mask, ends := ends } else y
  | none => s.dop.subs ++ [{ req := r, mask := mask, ends := ends, seq := 0 }]

/-- One of at most eight subscribers gets a lease of up to 3,600 s. -/
theorem subscribeEvents_lease (h0 : lease ≠ 0) (hmost : lease ≤ 3600)
    (hroom : (s.dop.subs.filter fun x => !x.sameKey r).length < 8) :
    subscribeEvents r lease mask s = (0, [], { s with dop := { s.dop with subs := subsLeased r lease mask s } }) := by
  rw [subscribeEvents, if_neg fun h => Nat.not_le.2 hroom h.2, if_neg (Nat.not_lt.2 hmost), if_neg h0]
  rfl

theorem subsLeased_new (hnew : s.dop.subs.find? (fun x => x.sameKey r) = none) :
    subsLeased r lease mask s =
      s.dop.subs ++ [{ req := r, mask := mask, ends := s.clk.count + lease * 1000000000, seq := 0 }] := by
  rw [subsLeased, hnew]

theorem subsLeased_renewed {x : Sub} (hold : s.dop.subs.find? (fun x => x.sameKey r) = some x) :
    subsLeased r lease mask s = s.dop.subs.map fun y =>
      if y.sameKey r then { x with req := r, mask := mask, ends := s.clk.count + lease * 1000000000 } else y := by
  rw [subsLeased, hold]

end

/-! ## The capture stream (R294, R421) -/

theorem subscribe_stream {r : Requester} {f : Frame} {s : State} (h : plainAddress f.address = streamAddress) :
    subscribe r f s = subscribeStream r (bytesNat ((f.payload.take f.length).take 2)) s :=
  if_neg (by rw [h]; decide)

/-- The stream of a requester, its lease of `lease` seconds from now. -/
def streamLeased (r : Requester) (lease seq : Nat) (s : State) : Stream :=
  { iface := r.iface, source := r.source, sport := r.sport, mac := r.mac, version := r.version,
    ends := s.clk.count + lease * 1000000000, seq := seq }

section
variable {r : Requester} {lease : Nat} {s : State} (heth : onCan r.iface = false) (hfence : s.isFenced .streamer = false)
include heth hfence

/-- The one stream opens, and the ring is emptied. -/
theorem subscribeStream_opens (h0 : lease ≠ 0) (hmost : lease ≤ 3600) (hnone : s.ts.stream = none) :
    subscribeStream r lease s =
      (0, [], { s with ts := s.ts.openStream s.clk.count s.tb (streamLeased r lease 0 s) }) := by
  simp only [subscribeStream, heth, hfence, hnone, if_neg h0, if_neg (Nat.not_lt.2 hmost), Option.isSome_none, Bool.false_eq_true,
    false_and, and_false, if_false]
  rfl

/-- The stream of the key goes on with its SEQ and a new lease. -/
theorem subscribeStream_renews {x : Stream} (h0 : lease ≠ 0) (hmost : lease ≤ 3600) (hopen : s.ts.stream = some x)
    (hmine : x.sameKey r = true) :
    subscribeStream r lease s = (0, [], { s with ts := { s.ts with stream := some (streamLeased r lease x.seq s) } }) := by
  simp only [subscribeStream, heth, hfence, hopen, hmine, if_neg h0, if_neg (Nat.not_lt.2 hmost), Bool.not_true, Bool.false_eq_true,
    and_false, if_false]
  rfl

/-- With LEASE 0 the stream of the key closes. -/
theorem subscribeStream_closes {x : Stream} (hopen : s.ts.stream = some x) (hmine : x.sameKey r = true) :
    subscribeStream r 0 s = (0, [], { s with ts := s.ts.closeStream }) := by
  simp only [subscribeStream, heth, hfence, hopen, hmine]
  rfl

end

/-! ## Leases and transfers that end (R419 to R421) -/

/-- LEASE_EXPIRY leaves the subscriptions whose leases run, and closes a stream whose lease has ended. -/
theorem leaseExpiry_eq (s : State) :
    leaseExpiry s = { s with
      dop := { s.dop with subs := s.dop.subs.filter fun x => decide (s.clk.count < x.ends) },
      ts := if s.ts.stream.any fun x => decide (x.ends ≤ s.clk.count) then s.ts.closeStream else s.ts } := by
  rw [leaseExpiry]
  cases s.ts.stream <;> rfl

/-- The transfers that have had a segment in the last 5 s (log entry 87). -/
def withoutIdleTransfers (s : State) : State :=
  { s with
    dop := { s.dop with
      wx := s.dop.wx.filter fun x => !(decide (x.atNs + 5000000000 ≤ s.clk.count)),
      rx := s.dop.rx.filter fun x => !(decide (x.atNs + 5000000000 ≤ s.clk.count)) } }

/-- TRANSFER_TIMEOUT discards the idle transfers, and a FIRMWARE write among them is interrupted. -/
theorem transferTimeout_eq (s : State) :
    transferTimeout s =
      if s.dop.wx.any fun x => decide (x.atNs + 5000000000 ≤ s.clk.count) && x.address == firmwareAddress then
        raise 254 (dropFirmware (withoutIdleTransfers s))
      else withoutIdleTransfers s := rfl

/-- Settles O58: the three outcomes of a SUBSCRIBE to each address, and the leases and transfers that end. -/
theorem subscriptions : Obligations.Subscriptions := by
  refine ⟨?join, ?renew, ?leave, ?streamOpen, ?streamRenew, ?streamClose, ?leaseStream, ?lease, ?transfers, ?firmware⟩
  case join =>
    intro dt r f o el s e h ho he hop haddr hplain hlen h0 hmost hroom hnew
    refine timed_of_effect (serve_subscribe h ho he ⟨hop, hplain, .inl ⟨haddr, hlen⟩⟩ ((subscribe_events haddr).trans ?_))
    rw [subscribeEvents_lease (s := counted e) _ h0 hmost hroom, subsLeased_new (s := counted e) _ hnew]
    rfl
  case renew =>
    intro dt r f o el s e h ho he hop haddr hplain hlen h0 hmost hroom hold
    obtain ⟨x, hx⟩ := Option.isSome_iff_exists.1 hold
    refine timed_of_effect (serve_subscribe h ho he ⟨hop, hplain, .inl ⟨haddr, hlen⟩⟩ ((subscribe_events haddr).trans ?_))
    rw [subscribeEvents_lease (s := counted e) _ h0 hmost hroom, subsLeased_renewed (s := counted e) _ hx, hx]
    rfl
  case leave =>
    intro dt r f o el s e h ho he hop haddr hplain hlen h0
    refine timed_of_effect (serve_subscribe h ho he ⟨hop, hplain, .inl ⟨haddr, hlen⟩⟩ ((subscribe_events haddr).trans ?_))
    simp only [h0, subscribeEvents_leave]
    rfl
  case streamOpen =>
    intro dt r f o el s e h ho he hop haddr hplain hlen heth hfence h0 hmost hnone
    exact timed_of_effect (serve_subscribe h ho he ⟨hop, hplain, .inr ⟨haddr, hlen⟩⟩
      ((subscribe_stream haddr).trans (subscribeStream_opens (s := counted e) heth hfence h0 hmost hnone)))
  case streamRenew =>
    intro dt r f o el s e h ho he hop haddr hplain hlen heth hfence h0 hmost hmine
    obtain ⟨x, hopen, hkey⟩ := (Option.any_eq_true _ _).1 hmine
    refine timed_of_effect (serve_subscribe h ho he ⟨hop, hplain, .inr ⟨haddr, hlen⟩⟩
      ((subscribe_stream haddr).trans ?_))
    rw [subscribeStream_renews (s := counted e) heth hfence h0 hmost hopen hkey, hopen]
    rfl
  case streamClose =>
    intro dt r f o el s e h ho he hop haddr hplain hlen heth hfence h0 hmine
    obtain ⟨x, hopen, hkey⟩ := (Option.any_eq_true _ _).1 hmine
    refine timed_of_effect (serve_subscribe h ho he ⟨hop, hplain, .inr ⟨haddr, hlen⟩⟩
      ((subscribe_stream haddr).trans ?_))
    rw [h0, subscribeStream_closes (s := counted e) heth hfence hopen hkey]
    rfl
  case leaseStream =>
    exact fun dt s hend => timed_of_effect ((leaseExpiry_eq _).trans (by rw [if_pos hend]))
  case lease =>
    exact fun dt s hend => timed_of_effect ((leaseExpiry_eq _).trans (by rw [if_neg (ne_true_of_eq_false hend)]))
  case transfers =>
    exact fun dt s hnone => timed_of_effect ((transferTimeout_eq _).trans (if_neg (ne_true_of_eq_false hnone)))
  case firmware => exact fun dt s hsome => timed_of_effect ((transferTimeout_eq _).trans (if_pos hsome))

end Sys2Proof.Machine
end

section
/-! SUPPORT. Whole periods that a late target skips (R326, R327). -/

namespace Sys2Proof.Machine

/-- The least number of whole periods that covers a gap covers it, and no smaller number does. -/
theorem periods_cover {gap : Rat} {period : Nat} (hp : 0 < period) (hgap : 0 ≤ gap) :
    gap ≤ period * ((ceilR (gap / period)).toNat : Rat)
      ∧ ∀ j : Nat, j < (ceilR (gap / period)).toNat → (period : Rat) * j < gap := by
  have hp' : (0 : Rat) < period := by exact_mod_cast hp
  obtain ⟨hcover, hfewer⟩ := ceilR_spec (gap / period) (div_nonneg hgap hp'.le)
  exact ⟨(div_le_iff₀' hp').1 hcover, fun j hj => (lt_div_iff₀' hp').1 (hfewer j hj)⟩

theorem isLate_forward {d : Int} {lam : Rat} : isLate 0 d lam = true ↔ (d : Rat) < lam := decide_eq_true_iff

/-- A BACKWARD target is late where the FORWARD target at the mirrored distance is. -/
theorem isLate_backward (d : Int) (lam : Rat) : isLate 1 d lam = isLate 0 (-d) lam := by
  simp only [isLate, if_true, one_ne_zero, if_false, Int.cast_neg]

theorem skipCount_forward {d : Int} {lam : Rat} {period : Nat} (hp : 0 < period) :
    skipCount 0 d lam period = (ceilR ((lam - d) / period)).toNat := if_neg hp.ne'

/-- A BACKWARD action skips as many periods as a FORWARD one at the mirrored distance. -/
theorem skipCount_backward (d : Int) (lam : Rat) (period : Nat) : skipCount 1 d lam period = skipCount 0 (-d) lam period := by
  simp only [skipCount, if_true, zero_ne_one, if_false, Int.cast_neg, sub_neg_eq_add]

/-- The periods that a late FORWARD target skips are the fewest that bring it to the margin. -/
theorem skipCount_fewest {d : Int} {lam : Rat} {period : Nat} (hp : 0 < period) (hlate : isLate 0 d lam = true) :
    isLate 0 (d + period * skipCount 0 d lam period) lam = false
      ∧ ∀ j : Nat, j < skipCount 0 d lam period → isLate 0 (d + period * j) lam = true := by
  obtain ⟨hcover, hfewer⟩ := periods_cover hp (sub_nonneg.2 (isLate_forward.1 hlate).le)
  rw [← skipCount_forward hp] at hcover hfewer
  rw [← Bool.not_eq_true]
  simp only [isLate_forward]
  push_cast
  exact ⟨by linarith, fun j hj => by linarith [hfewer j hj]⟩

/-- Settles O53: the fewest periods forward, and backward the same at the mirrored distance. -/
theorem skipsAreFewest : Obligations.SkipsAreFewest := by
  refine ⟨fun d lam period => skipCount_fewest, ?backward⟩
  case backward =>
    intro d lam period hp hlate
    simp only [isLate_backward, skipCount_backward, neg_sub', sub_neg_eq_add] at hlate ⊢
    exact skipCount_fewest hp hlate

end Sys2Proof.Machine
end

section
/-! SUPPORT. The counting of an axis, its index edges and its stall (R315 to R317, R319): what each of their commands does to the state
at its moment. -/

namespace Sys2Proof.Machine

variable {s : State} {k : Nat}

/-! ## Counted edges (R315, R316, R318) -/

theorem countEdge_illegal {aChanged bChanged a b : Bool} (hrun : trackerRuns s (k + 4) = true)
    (hboth : (aChanged && bChanged) = true) : countEdge k aChanged bChanged a b s = illegalEdge (k + 4) s := by
  simp only [countEdge, hrun, hboth, Bool.not_true, Bool.false_eq_true, if_false, if_true]

theorem countEdge_uncounted {aChanged bChanged a b : Bool} (hrun : trackerRuns s (k + 4) = true)
    (hone : (aChanged && bChanged) = false) (hnone : countOf (s.cfg.axi k) aChanged bChanged a b = none) :
    countEdge k aChanged bChanged a b s = s := by
  simp only [countEdge, hrun, hone, hnone, Bool.not_true, Bool.false_eq_true, if_false]

/-- A counted edge goes to the tracker, and it ends a stall (R319). -/
theorem countEdge_counted {aChanged bChanged a b forward : Bool} (hrun : trackerRuns s (k + 4) = true)
    (hone : (aChanged && bChanged) = false) (hcount : countOf (s.cfg.axi k) aChanged bChanged a b = some forward) :
    countEdge k aChanged bChanged a b s =
      let s1 := s.setAxis (k + 4) fun x => x.takeCount (s.cfg.axi k) s.clk.count forward (rawEstimate x s.clk.count)
      if (s.axis (k + 4)).state = .stalled then setAxisState (k + 4) .tracking s1 else s1 := by
  simp only [countEdge, hrun, hone, hcount, Bool.not_true, Bool.false_eq_true, if_false, beq_iff_eq]

/-- An illegal transition of an axis in motion or at rest is a fault (R319). -/
theorem illegalEdge_moving {a : Nat} (hst : (s.axis a).state = .tracking ∨ (s.axis a).state = .stalled) :
    illegalEdge a s =
      setAxisState a .fault (s.setAxis a fun x => { x with illegal := x.illegal + 1, sticky := setBit8 x.sticky 1 }) :=
  if_pos (by simpa using hst)

theorem illegalEdge_unhomed {a : Nat} (hst : (s.axis a).state = .unhomed) :
    illegalEdge a s = s.setAxis a fun x => { x with illegal := x.illegal + 1, sticky := setBit8 x.sticky 1 } :=
  if_neg (by rw [hst]; decide)

/-- Where every edge counts, a change of A or of B does, in the direction of the quadrature. -/
theorem countOf_every {c : CfgAx} (hmode : c.kind = 1 ∧ c.countMode = 0) (hinv : c.invert = 0) (aChanged bChanged a b : Bool) :
    countOf c aChanged bChanged a b = if aChanged || bChanged then some (quadForward aChanged a b) else none := by
  simp [countOf, hmode, hinv]

/-- Where A's rising edges count and B gives the direction, they do while B is low forward and while it is high backward. -/
theorem countOf_rising {c : CfgAx} (hmode : (c.kind = 1 ∧ c.countMode = 1) ∨ (c.kind = 2 ∧ c.travelMode = 2)) (hinv : c.invert = 0)
    (aChanged bChanged a b : Bool) : countOf c aChanged bChanged a b = if aChanged && a then some (!b) else none := by
  rcases hmode with hmode | hmode <;> simp [countOf, hmode, hinv]

/-- An edge that does not turn the direction moves the axis by one count. -/
theorem takeCount_steady {c : CfgAx} {now : Nat} {forward : Bool} {est : Rat} {x : Axis} (h : x.backward = !forward) :
    let y := x.takeCount c now forward est
    y.xe = (if forward then x.xe + countStep c else x.xe - countStep c) ∧ y.te = now ∧ y.countedAt = now ∧ y.edges = x.edges + 1
      ∧ y.backward = x.backward ∧ y.sticky = x.sticky ∧ (x.fresh = true → y.v = 0 ∧ y.extrap = false)
      ∧ (x.fresh = false → y.extrap = true) := by
  cases hf : x.fresh <;> simp [Axis.takeCount, h, hf]

/-- An edge that turns the direction is the last counted one passed back (log entry 121). -/
theorem takeCount_reversal {c : CfgAx} {now : Nat} {forward : Bool} {est : Rat} {x : Axis} (hedges : 0 < x.edges)
    (h : x.backward = forward) :
    let y := x.takeCount c now forward est
    y.xe = x.xe ∧ y.te = now ∧ y.countedAt = now ∧ y.v = 0 ∧ y.extrap = false ∧ y.edges = x.edges + 1 ∧ y.backward = !forward
      ∧ y.sticky = setBit8 x.sticky 2 := by
  simp [Axis.takeCount, hedges, h]

/-! ## Index edges (R317, R331) -/

/-- An index edge is taken at a running angle axis. -/
theorem takesIndex (hrun : trackerRuns s (k + 4) = true) (hkind : (s.cfg.axi k).kind = 1) :
    (!trackerRuns s (k + 4) || decide ((s.cfg.axi k).kind ≠ 1)) = false := by
  rw [hrun, hkind]
  rfl

/-- The first index homes the axis at `INDEX_OFFSET`. -/
theorem indexEdge_unhomed (hrun : trackerRuns s (k + 4) = true) (hkind : (s.cfg.axi k).kind = 1)
    (hst : (s.axis (k + 4)).state = .unhomed) :
    indexEdge k s = setAxisState (k + 4) .tracking
      ((s.setAxis (k + 4) fun x => { x with lastIndex := s.clk.count }).setAxis (k + 4) fun x =>
        { x with xe := (s.cfg.axi k).indexOffset, te := s.clk.count, hold := none, sinceIndex := some 0 }) := by
  simp only [indexEdge]
  rw [takesIndex hrun hkind, if_neg Bool.false_ne_true, hst]

/-- In FAULT an index homes it again, at the nearest index position. -/
theorem indexEdge_fault (hrun : trackerRuns s (k + 4) = true) (hkind : (s.cfg.axi k).kind = 1)
    (hst : (s.axis (k + 4)).state = .fault) :
    indexEdge k s = setAxisState (k + 4) .tracking
      ((s.setAxis (k + 4) fun x => { x with lastIndex := s.clk.count }).setAxis (k + 4) fun x =>
        x.place s.clk.count (nearestIndex (s.cfg.axi k) (axiPos (s.cfg.axi k) (s.axis (k + 4)) s.clk.count))) := by
  simp only [indexEdge]
  rw [takesIndex hrun hkind, if_neg Bool.false_ne_true, hst]

/-- A later index of a homed axis is judged by the mismatch of the counts since the one before. -/
theorem indexEdge_judged {n : Int} (hrun : trackerRuns s (k + 4) = true) (hkind : (s.cfg.axi k).kind = 1)
    (hst : (s.axis (k + 4)).state = .tracking ∨ (s.axis (k + 4)).state = .stalled) (hsince : (s.axis (k + 4)).sinceIndex = some n) :
    indexEdge k s =
      let s1 := s.setAxis (k + 4) fun x => { x with lastIndex := s.clk.count }
      if indexMismatch (s.cfg.axi k) n = 0 then s1.setAxis (k + 4) fun x => { x with sinceIndex := some 0 }
      else if indexMismatch (s.cfg.axi k) n ≤ (s.cfg.axi k).indexTol then
        raise (232 + (k + 4)) (s1.setAxis (k + 4) fun x =>
          { x.place s.clk.count (nearestIndex (s.cfg.axi k) (axiPos (s.cfg.axi k) (s.axis (k + 4)) s.clk.count)) with
            extrap := x.extrap, hold := none, indexErrors := x.indexErrors + 1, sticky := setBit8 x.sticky 0 })
      else setAxisState (k + 4) .fault (s1.setAxis (k + 4) fun x => { x with sinceIndex := some 0 }) := by
  simp only [indexEdge]
  rw [takesIndex hrun hkind, if_neg Bool.false_ne_true, hsince]
  rcases hst with hst | hst <;> rw [hst]

theorem indexMismatch_eq (c : CfgAx) (n : Int) : indexMismatch c n = ((n.natAbs : Int) - countsPerTurn c).natAbs := by
  simp only [indexMismatch]
  omega

/-! ## Stall and state (R319, R328) -/

/-- A due stall makes the axis stand where its estimate is. -/
theorem axisStall_due (hrun : trackerRuns s (k + 4) = true) (hdue : stallDue s (k + 4) = true) :
    axisStall k s = setAxisState (k + 4) .stalled
      (s.setAxis (k + 4) (Axis.stand (axiPos (s.cfg.axi k) (s.axis (k + 4)) s.clk.count))) :=
  if_pos (by rw [hrun, hdue]; rfl)

/-- An axis that changes its state without suspending or resuming actions changes its own registers and raises its source. -/
theorem setAxisState_plain {a : Nat} {st : AxisState} (hchange : (nth s.ax a Axis.reset).state ≠ st)
    (hnew : axisSuspends st = false) (hold : axisSuspends (nth s.ax a Axis.reset).state = false) :
    setAxisState a st s = raise (232 + a) { s with
      ax := upd s.ax a fun x =>
        { x with state := st, lastChange := s.clk.count, stalls := if st = .stalled then x.stalls + 1 else x.stalls } } := by
  simp only [setAxisState]
  rw [if_neg hchange, hnew, hold]
  rfl

/-- Settles O49: the edges of A and B by what they count, the tracker, the index edges by the state of the axis, and the stall. -/
theorem axisCounting : Obligations.AxisCounting := by
  refine ⟨?illegal, ?illegalUnhomed, ?endsStall, ?counts, ?uncounted, ?every, ?rising, fun c now forward est x => takeCount_reversal,
    ?steady, ?homes, ?rehomes, ?exact, ?corrects, ?faults, indexMismatch_eq, ?stall, fun a st s => setAxisState_plain⟩
  case illegal =>
    exact fun dt k aC bC a b s hrun hboth hst => timed_of_effect ((countEdge_illegal hrun hboth).trans (illegalEdge_moving hst))
  case illegalUnhomed =>
    exact fun dt k aC bC a b s hrun hboth hst => timed_of_effect ((countEdge_illegal hrun hboth).trans (illegalEdge_unhomed hst))
  case endsStall =>
    exact fun dt k aC bC a b forward s hrun hone hcount hst =>
      timed_of_effect ((countEdge_counted hrun hone hcount).trans (if_pos hst))
  case counts =>
    exact fun dt k aC bC a b forward s hrun hone hcount hst =>
      timed_of_effect ((countEdge_counted hrun hone hcount).trans (if_neg hst))
  case uncounted => exact fun dt k aC bC a b s hrun hone hnone => timed_of_effect (countEdge_uncounted hrun hone hnone)
  case every => exact fun c a b hmode hinv => ⟨countOf_every hmode hinv true false a b, countOf_every hmode hinv false true a b⟩
  case rising =>
    exact fun c a b hmode hinv => ⟨countOf_rising hmode hinv true false true b, countOf_rising hmode hinv true false false b,
      countOf_rising hmode hinv false true a b⟩
  case steady =>
    intro c now forward est x h
    obtain ⟨hxe, hte, hat, hedges, hback, hsticky, hfresh, hextrap⟩ := takeCount_steady (c := c) (now := now) (est := est) h
    exact ⟨hxe, hte, hat, hedges, hback, hsticky, hfresh, fun hf _ => hextrap hf⟩
  case homes => exact fun dt k s hrun hkind hst => timed_of_effect (indexEdge_unhomed hrun hkind hst)
  case rehomes => exact fun dt k s hrun hkind hst => timed_of_effect (indexEdge_fault hrun hkind hst)
  case exact =>
    exact fun dt k n s hrun hkind hst hsince hm => timed_of_effect ((indexEdge_judged hrun hkind hst hsince).trans (if_pos hm))
  case corrects =>
    exact fun dt k n s hrun hkind hst hsince hm htol =>
      timed_of_effect ((indexEdge_judged hrun hkind hst hsince).trans ((if_neg hm).trans (if_pos htol)))
  case faults =>
    exact fun dt k n s hrun hkind hst hsince htol =>
      timed_of_effect ((indexEdge_judged hrun hkind hst hsince).trans
        ((if_neg (Nat.ne_zero_of_lt htol)).trans (if_neg (not_le.2 htol))))
  case stall => exact fun dt k s hrun hdue => timed_of_effect (axisStall_due hrun hdue)

end Sys2Proof.Machine
end

section
/-! SUPPORT. `KIND` and `PRESET` of an axis (R318, R319, R330, R343): what each of their commands does to the state at its moment. -/

namespace Sys2Proof.Machine

variable {s : State} {k : Nat}

/-! ## KIND (R319, R343) -/

/-- The element `KIND` of AXIk, behind the axis's fence. -/
def axKindEl (k : Nat) : Elem := (axKind k).first fun s => refuseIf (s.isFenced (.axis (k + 4))) stFenced

theorem objAxi_kind (k : Nat) : (objAxi k).find 0 = some (axKindEl k) := rfl

/-- `KIND` takes 0 to 2 on an axis that is not fenced, and 0 only while no action waits on it. -/
theorem checkOne_axKind {v : Nat} (hfence : s.isFenced (.axis (k + 4)) = false) (hv : v ≤ 2)
    (hfree : v = 0 → axisBusy s (k + 4) = false) : checkOne (objAxi k) (axKindEl k) v s = 0 := by
  have hlate : ((v : Int) == 0 && axisBusy s (k + 4)) = false := by
    rcases Nat.eq_zero_or_pos v with h0 | h0
    · rw [hfree h0, Bool.and_false]
    · rw [beq_false_of_ne (by omega), Bool.false_and]
  exact checkOne_ok (orElse_ok (refuseIf_no _ hfence) (within_ok (by omega))) rfl (refuseIf_no _ hlate)

/-- A write of `KIND` takes its effect on the configuration as it was. -/
theorem axKindEl_after (v : Nat) (s : State) :
    (axKindEl k).after s v { s with cfg := (axKindEl k).put v s.cfg } = writeKind k v s := by
  change writeKind k v { s with cfg := { s.cfg with ax := upd (upd s.cfg.ax k _) k _ } } = _
  rw [upd_back _ _ _ _ CfgAx.reset rfl]

/-- A heard write of `KIND`. -/
theorem serve_axKind {r : Requester} {k : Fin 4} {v : Nat} (h : Heard r (writeFrame r (addrWord 0x40 (20 + k) 0) .u8 v) s)
    (hsafe : s.md.mode ≠ .safe) (hb : s.md.bootRom = false) (hfence : s.isFenced (.axis (k + 4)) = false) (hv : v ≤ 2)
    (hfree : v = 0 → axisBusy s (k + 4) = false) :
    serveWrite r (addrWord 0x40 (20 + k) 0) 1 v s =
      written r (addrWord 0x40 (20 + k) 0) .u8 (s.cfg.axi k).kind v (writeKind k v (counted s)) := by
  rw [← axKindEl_after]
  exact serveWrite_done (ty := .u8) (e := axKindEl k) h hsafe (by omega) (by omega) (by omega)
    (object_axi (s := counted s) hb k.isLt) (objAxi_kind k) rfl rfl (by decide) (Or.inl rfl) rfl (decode_byte (by omega))
    (Or.inl rfl) (checkOne_axKind (s := counted s) hfence hv hfree)

/-- The configuration with `KIND` of AXIk written. -/
def Cfg.withAxKind (k v : Nat) (c : Cfg) : Cfg := { c with ax := upd c.ax k fun x => { x with kind := v } }

/-- 0 switches an axis OFF where it stands. -/
theorem writeKind_off (hst : (s.axis (k + 4)).state ≠ .fenced) :
    writeKind k 0 s = setAxisState (k + 4) .off (({ s with cfg := s.cfg.withAxKind k 0 } : State).setAxis (k + 4) fun x =>
      { x.stand (axiPos (s.cfg.axi k) x s.clk.count) with edges := 0 }) :=
  (if_neg hst).trans (if_pos rfl)

/-- A kind starts an axis that is OFF at position 0. -/
theorem writeKind_start {v : Nat} (hst : (s.axis (k + 4)).state = .off) (hv : v ≠ 0) :
    writeKind k v s = setAxisState (k + 4) (if v = 1 then .unhomed else .stalled)
      (({ s with cfg := s.cfg.withAxKind k v } : State).setAxis (k + 4) fun x =>
        { x with
          edges := 0, xe := 0, te := s.clk.count, countedAt := s.clk.count, v := 0, integ := 0, extrap := false, sinceIndex := none,
          backward := false, hold := none, fresh := true }) :=
  (if_neg (by rw [hst]; decide)).trans ((if_neg hv).trans (if_pos hst))

/-- On any other axis a kind restarts the count of edges. -/
theorem writeKind_recount {v : Nat} (hfenced : (s.axis (k + 4)).state ≠ .fenced) (hoff : (s.axis (k + 4)).state ≠ .off)
    (hv : v ≠ 0) :
    writeKind k v s = ({ s with cfg := s.cfg.withAxKind k v } : State).setAxis (k + 4) fun x => { x with edges := 0 } :=
  (if_neg hfenced).trans ((if_neg hv).trans (if_neg hoff))

/-! ## PRESET (R318, R330, R340) -/

theorem objAxi_preset (k : Nat) : (objAxi k).find 10 = some (command 10 .u64 fun v => presetAxis k v.toNat) := rfl

/-- A travel axis placed at a position: its source is raised, and the actions on it follow (R330). -/
def presetPlaced (k v : Nat) (s : State) : State :=
  rebaseAxis (k + 4) (BitVec.ofNat 64 v - pos64 (axiPos (s.cfg.axi k) (s.axis (k + 4)) s.clk.count))
    (raise (232 + (k + 4)) (s.setAxis (k + 4) fun x =>
      { x with xe := (BitVec.ofNat 64 v).toInt, te := s.clk.count, hold := none, sticky := setBit8 x.sticky 3 }))

/-- `PRESET` of a travel axis places it and takes it out of FAULT. -/
theorem presetAxis_travel {v : Nat} (hfence : s.isFenced (.axis (k + 4)) = false) (hkind : (s.cfg.axi k).kind = 2) :
    presetAxis k v s = (0, if (s.axis (k + 4)).state = .fault then
      setAxisState (k + 4) .stalled ((presetPlaced k v s).setAxis (k + 4) (Axis.stand (BitVec.ofNat 64 v).toInt))
      else presetPlaced k v s) :=
  (if_neg (ne_true_of_eq_false hfence)).trans (if_neg (not_not.2 hkind))

/-- A 64-bit value that a request carries is read back. -/
theorem decode_u64 {v : Nat} (h : v < 2 ^ 64) : ElTy.u64.decode (intBytes ElTy.u64.size v) = v :=
  decode_unsigned .u64 v rfl (by omega) (by simp only [ElTy.size]; omega)

/-- A heard `PRESET` completes with what its axis makes of it. -/
theorem serve_preset {r : Requester} {k : Fin 4} {v : Nat} {t : State}
    (h : Heard r (commandFrame r (addrWord 0x40 (20 + k) 10) .u64 v) s) (hsafe : s.md.mode ≠ .safe) (hb : s.md.bootRom = false)
    (hv : v < 2 ^ 64) (hrun : presetAxis k v (counted s) = (0, t)) :
    serveCommand r (addrWord 0x40 (20 + k) 10) 8 v s = commanded r (addrWord 0x40 (20 + k) 10) .u64 v t :=
  serveCommand_done (ty := .u64) h hsafe (by omega) (by omega) (by omega) (object_axi (s := counted s) hb k.isLt) (objAxi_preset k)
    rfl rfl (decode_u64 hv) (Or.inl rfl) rfl rfl hrun

/-- Settles O50: the write of `KIND` and its outcomes by the state of the axis, and `PRESET` in FAULT and out of it. -/
theorem axisSettings : Obligations.AxisSettings := by
  refine ⟨?kind, fun k s hst => writeKind_start hst (by decide), fun k s hst => writeKind_start hst (by decide),
    fun k s => writeKind_off, fun k v s => writeKind_recount, ?preset, ?presetFault⟩
  case kind =>
    exact fun dt r k v s h hsafe hb hfence hv hfree => timed_of_effect (serve_axKind h hsafe hb hfence hv hfree)
  case preset =>
    exact fun dt r k v s h hsafe hb hv hfence hkind hst => timed_of_effect (serve_preset h hsafe hb hv
      ((presetAxis_travel (s := counted (elapse dt s)) hfence hkind).trans (congrArg (Prod.mk 0) (if_neg hst))))
  case presetFault =>
    exact fun dt r k v s h hsafe hb hv hfence hkind hst => timed_of_effect (serve_preset h hsafe hb hv
      ((presetAxis_travel (s := counted (elapse dt s)) hfence hkind).trans (congrArg (Prod.mk 0) (if_pos hst))))

end Sys2Proof.Machine
end

section
/-! SUPPORT. Arming, disarming and the `KIND` of an action (R325 to R329, R346): what each of their commands does to the state at its
moment. -/

namespace Sys2Proof.Machine

variable {s : State} {a : Nat}

/-! ## Arming (R325 to R327) -/

theorem armAction_refused {st : Nat} (h : armCheck s a = some st) : armAction a s = (st, s) := by
  rw [armAction, h]

/-- An arm that passes the checks of R325 on an axis in use: REJECT refuses a late target, and else the action is ARMED. -/
theorem armAction_inUse (hcheck : armCheck s a = none) (hax : axisSuspends (axisState s (s.cfg.action a).axis) = false) :
    armAction a s =
      if (s.cfg.action a).policy = 1
          ∧ isLate (s.cfg.action a).direction (gapTo s (s.cfg.action a).axis (leadOf s a) (s.cfg.action a).target)
            (margin s (s.cfg.action a).axis 2000) = true then (0x09, s)
      else (0x00, noteSign a (applyPolicy a 2000 false (s.setAct a (armedAct s a .armed)))) := by
  simp only [armAction, hcheck, hax, Bool.false_eq_true, if_false]

/-- On an axis that suspends its actions the action is SUSPENDED. -/
theorem armAction_suspended (hcheck : armCheck s a = none) (hax : axisSuspends (axisState s (s.cfg.action a).axis) = true) :
    armAction a s = (0x00, statusEvent a (s.setAct a (armedAct s a .suspended))) := by
  simp only [armAction, hcheck, hax, if_true]

theorem objAction_control (a : Nat) : (objAction a).find 11 = some (command 11 .u8 (controlRun a)) := rfl

/-- A heard `CONTROL` completes with what its action makes of it. -/
theorem serve_control {r : Requester} {a : Fin 1024} {v : Nat} {t : State}
    (h : Heard r (commandFrame r (addrWord 0x41 a 11) .u8 v) s) (hsafe : s.md.mode ≠ .safe) (hb : s.md.bootRom = false)
    (hv : v < 256) (hrun : controlRun a v (counted s) = (0, t)) :
    serveCommand r (addrWord 0x41 a 11) 1 v s = commanded r (addrWord 0x41 a 11) .u8 v t :=
  serveCommand_done (ty := .u8) h hsafe (by omega) (by omega) (by omega) (object_action (s := counted s) hb a.isLt)
    (objAction_control a) rfl rfl (decode_byte hv) (Or.inl rfl) rfl rfl hrun

/-! ## Late policies (R326, R327) -/

section
variable {ns : Nat} {afterLate : Bool}

theorem applyPolicy_inTime (h : isLate (s.cfg.action a).direction
      (gapTo s (s.cfg.action a).axis (s.action a).lead (s.action a).next) (margin s (s.cfg.action a).axis ns) = false) :
    applyPolicy a ns afterLate s = s :=
  if_pos (by rw [h]; rfl)

/-- What a late policy makes of a late target. -/
theorem applyPolicy_late (h : isLate (s.cfg.action a).direction
      (gapTo s (s.cfg.action a).axis (s.action a).lead (s.action a).next) (margin s (s.cfg.action a).axis ns) = true) :
    applyPolicy a ns afterLate s =
      if (s.cfg.action a).policy = 1 then endAction a .tooLate s
      else if (s.cfg.action a).policy = 2 ∧ afterLate = false then s.setAct a fun x => { x with fireLate := true }
      else skipAction a (gapTo s (s.cfg.action a).axis (s.action a).lead (s.action a).next) (margin s (s.cfg.action a).axis ns) s := by
  simp only [applyPolicy, h, Bool.not_true, Bool.false_eq_true, if_false, Bool.not_eq_true']

end

/-! ## The effect of an arm (R326, R327) -/

/-- The state in which the arming of action a takes effect: the sign for EITHER is noted, unless the target fires late. -/
def armTakesEffect (a : Nat) (s : State) : State :=
  if (s.action a).fireLate then s.setAct a fun x => { x with effectAt := none }
  else noteSign a (s.setAct a fun x => { x with effectAt := none })

/-- An arming that takes effect now fires the action where it is due, or delays it where the cycle has no room. -/
theorem armEffect_reached {n : Nat} (hrun : calendarRuns s = true) (harmed : (s.action a).status = .armed)
    (hat : (s.action a).effectAt = some n) (hn : n ≤ s.clk.count) :
    armEffect a s =
      if isDue (armTakesEffect a s) a = true then
        if fireRoom (armTakesEffect a s) = 0 then delayList [a] (armTakesEffect a s) else fireList [a] (armTakesEffect a s)
      else armTakesEffect a s := by
  have hready : (!calendarRuns s || (s.action a).status != .armed) = false := by rw [hrun, harmed]; rfl
  simp only [armEffect]
  rw [hready, if_neg Bool.false_ne_true, hat]
  simp only [not_lt.2 hn, if_false, Bool.not_eq_true', ← Bool.not_eq_true, ite_not]
  rfl

/-! ## Disarming (R329, R346) -/

/-- `CONTROL` = 2 of a pending action cancels it. -/
theorem controlRun_disarm (h : actPending s a = true) : controlRun a 2 s = (0, endAction a .cancelled s) :=
  (if_neg (by decide)).trans ((if_pos rfl).trans (if_pos h))

/-- The command `DISARM_ALL`. -/
def disarmAllEl : Elem := command 5 .u8 fun _ s => (stOk, disarmAll s)

theorem object_disarmAll {s : State} (hb : s.md.bootRom = false) :
    ∃ o, objectAt s 0x41 2048 = some o ∧ o.find 5 = some disarmAllEl := by
  simp only [objectAt, hb]
  exact ⟨objCalendar, rfl, rfl⟩

/-- A heard `DISARM_ALL` cancels every pending action. -/
theorem serve_disarmAll {r : Requester} {arg : Nat} (h : Heard r (commandFrame r (addrWord 0x41 2048 5) .u8 arg) s)
    (hsafe : s.md.mode ≠ .safe) (hb : s.md.bootRom = false) (harg : arg < 256) :
    serveCommand r (addrWord 0x41 2048 5) 1 arg s = commanded r (addrWord 0x41 2048 5) .u8 arg (disarmAll (counted s)) := by
  obtain ⟨o, ho, he⟩ := object_disarmAll (s := counted s) hb
  exact serveCommand_done (ty := .u8) h hsafe (by omega) (by omega) (by omega) ho he rfl rfl (decode_byte harg) (Or.inl rfl) rfl rfl rfl

/-! ## KIND (R328, R344) -/

/-- The element `KIND` of action a: FENCED with the calendar, BUSY while the action is pending. -/
def actKindEl (a : Nat) : Elem :=
  (({ actN a 0 .u8 (·.kind) (within 0 7) (fun v c => { c with kind := v }) with
      after := fun _ v => writeActKind a v.toNat } : Elem).lastly fun s _ => refuseIf (actPending s a) stBusy).first
    fun s => refuseIf (s.isFenced .calendar) stFenced

theorem objAction_kind (a : Nat) : (objAction a).find 0 = some (actKindEl a) := rfl

/-- The configuration with `KIND` of action a written. -/
def Cfg.withActKind (a v : Nat) (c : Cfg) : Cfg := { c with act := upd c.act a fun x => { x with kind := v } }

/-- `KIND` takes 0 to 7 while the calendar is not fenced and the action not pending. -/
theorem checkOne_actKind {v : Nat} (hfence : s.isFenced .calendar = false) (hfree : actPending s a = false) (hv : v ≤ 7) :
    checkOne (objAction a) (actKindEl a) v s = 0 :=
  checkOne_ok (orElse_ok (refuseIf_no _ hfence) (within_ok (by omega))) rfl (refuseIf_no _ hfree)

/-- A heard write of `KIND`. -/
theorem serve_actKind {r : Requester} {a : Fin 1024} {v : Nat} (h : Heard r (writeFrame r (addrWord 0x41 a 0) .u8 v) s)
    (hsafe : s.md.mode ≠ .safe) (hb : s.md.bootRom = false) (hfence : s.isFenced .calendar = false)
    (hfree : actPending s a = false) (hv : v ≤ 7) :
    serveWrite r (addrWord 0x41 a 0) 1 v s = written r (addrWord 0x41 a 0) .u8 (s.cfg.action a).kind v
      (writeActKind a v { counted s with cfg := s.cfg.withActKind a v }) :=
  serveWrite_done (ty := .u8) (e := actKindEl a) h hsafe (by omega) (by omega) (by omega)
    (object_action (s := counted s) hb a.isLt) (objAction_kind a) rfl rfl (by decide) (Or.inl rfl) rfl (decode_byte (by omega))
    (Or.inl rfl) (checkOne_actKind (s := counted s) hfence hfree hv)

/-- 0 empties an action that is not fenced. -/
theorem writeActKind_empties (hst : (s.action a).status ≠ .fenced) :
    writeActKind a 0 s = ({ s with cfg := s.cfg.withActKind a 0 } : State).setAct a fun x => { x with status := .empty } :=
  (if_neg hst).trans (if_pos rfl)

/-- Another kind makes an EMPTY action IDLE. -/
theorem writeActKind_fills {v : Nat} (hst : (s.action a).status = .empty) (hv : v ≠ 0) :
    writeActKind a v s = ({ s with cfg := s.cfg.withActKind a v } : State).setAct a fun x => { x with status := .idle } :=
  (if_neg (by rw [hst]; decide)).trans ((if_neg hv).trans (if_pos hst))

/-- One that is not EMPTY keeps its status. -/
theorem writeActKind_keeps {v : Nat} (hst : (s.action a).status ≠ .empty) (hv : v ≠ 0) :
    writeActKind a v s = { s with cfg := s.cfg.withActKind a v } := by
  simp only [writeActKind, hst, hv, if_false, ite_self]
  rfl

/-- Settles O51: the outcomes of `ARM`, the late policies, the effect of an arm, the disarms, and the write of `KIND`. -/
theorem armAndDisarm : Obligations.ArmAndDisarm := by
  refine ⟨?arm, ?armSuspended, ?tooLate, fun a st s => armAction_refused, fun a ns afterLate s => applyPolicy_inTime, ?reject,
    ?fireLate, ?afterLate, ?skip, ?fires, ?delayed, ?waits, ?disarm, ?disarmAll, ?kind, ?empties, fun a v s => writeActKind_fills,
    fun a v s => writeActKind_keeps⟩
  case arm =>
    exact fun dt r a s h hsafe hb hcheck hax htime => timed_of_effect (serve_control (v := 1) h hsafe hb (by decide)
      ((armAction_inUse (s := counted (elapse dt s)) hcheck hax).trans (if_neg htime)))
  case armSuspended =>
    exact fun dt r a s h hsafe hb hcheck hax => timed_of_effect (serve_control (v := 1) h hsafe hb (by decide)
      (armAction_suspended (s := counted (elapse dt s)) hcheck hax))
  case tooLate => exact fun a s hcheck hax hpol hlate => (armAction_inUse hcheck hax).trans (if_pos ⟨hpol, hlate⟩)
  case reject => exact fun a ns afterLate s hlate hpol => (applyPolicy_late hlate).trans (if_pos hpol)
  case fireLate =>
    exact fun a ns afterLate s hlate hpol hfirst =>
      (applyPolicy_late hlate).trans ((if_neg (by omega)).trans (if_pos ⟨hpol, hfirst⟩))
  case afterLate =>
    exact fun a ns afterLate s hlate hpol hlater =>
      (applyPolicy_late hlate).trans ((if_neg (by omega)).trans (if_neg fun h => Bool.false_ne_true (h.2.symm.trans hlater)))
  case skip =>
    exact fun a ns afterLate s hlate hpol => (applyPolicy_late hlate).trans ((if_neg (by omega)).trans (if_neg (by omega)))
  case fires =>
    exact fun dt a n s hrun harmed hat hn hdue hroom =>
      timed_of_effect ((armEffect_reached hrun harmed hat hn).trans ((if_pos hdue).trans (if_neg hroom)))
  case delayed =>
    exact fun dt a n s hrun harmed hat hn hdue hroom =>
      timed_of_effect ((armEffect_reached hrun harmed hat hn).trans ((if_pos hdue).trans (if_pos hroom)))
  case waits =>
    exact fun dt a n s hrun harmed hat hn hdue =>
      timed_of_effect ((armEffect_reached hrun harmed hat hn).trans (if_neg (ne_true_of_eq_false hdue)))
  case disarm =>
    exact fun dt r a s h hsafe hb hpending => timed_of_effect (serve_control (v := 2) h hsafe hb (by decide)
      (controlRun_disarm (s := counted (elapse dt s)) hpending))
  case disarmAll => exact fun dt r arg s h hsafe hb harg => timed_of_effect (serve_disarmAll h hsafe hb harg)
  case kind =>
    exact fun dt r a v s h hsafe hb hfence hfree hv => timed_of_effect (serve_actKind h hsafe hb hfence hfree hv)
  case empties =>
    rintro a v s hst rfl
    exact writeActKind_empties hst

end Sys2Proof.Machine
end

section
/-! SUPPORT. Firing, and the ends of pulses and windows (R321 to R324, R333, R335): what each of their commands does to the state at its
moment. -/

namespace Sys2Proof.Machine

variable {s : State} {a : Nat}

/-! ## The actions of a cycle (R323) -/

/-- The actions that fire in this cycle or are delayed beyond it, in order of action number. -/
def firingList (s : State) : List Nat := (List.range s.sc.act.length).filter fun a => isDue s a || isDelayed s a

/-- A cycle of the calendar fires what it has room for, and delays the due actions of the rest. -/
theorem fireDue_running (hrun : calendarRuns s = true) :
    fireDue s = delayList (((firingList s).drop (fireRoom s)).filter (isDue s)) (fireList ((firingList s).take (fireRoom s)) s) :=
  if_neg (by rw [hrun]; decide)

/-- Where there is room for all, all fire. -/
theorem fireDue_all (hrun : calendarRuns s = true) (hroom : (firingList s).length ≤ fireRoom s) :
    fireDue s = fireList (firingList s) s := by
  rw [fireDue_running hrun, List.drop_eq_nil_of_le hroom, List.take_of_length_le hroom]
  rfl

theorem fireDelayed_running (hrun : calendarRuns s = true) :
    fireDelayed s = fireList (((List.range s.sc.act.length).filter (isDelayed s)).take (fireRoom s)) s :=
  if_neg (by rw [hrun]; decide)

/-- Delaying one action after another leaves the clock, so all wait for the same cycle. -/
theorem foldl_delay (l : List Nat) (s : State) :
    (l.foldl (fun z a => z.setAct a fun x => { x with delayed := true, effectAt := some (z.clk.count + 1) }) s) =
      l.foldl (fun z a => z.setAct a fun x => { x with delayed := true, effectAt := some (s.clk.count + 1) }) s := by
  suffices h : ∀ z : State, z.clk = s.clk →
      (l.foldl (fun z a => z.setAct a fun x => { x with delayed := true, effectAt := some (z.clk.count + 1) }) z) =
        l.foldl (fun z a => z.setAct a fun x => { x with delayed := true, effectAt := some (s.clk.count + 1) }) z from h s rfl
  induction l with
  | nil => exact fun z _ => rfl
  | cons b l ih =>
    intro z hz
    simp only [List.foldl_cons, hz]
    exact ih _ hz

/-- Delayed actions are counted and wait for the next cycle. -/
theorem delayList_nonempty {l : List Nat} (h : l ≠ []) :
    delayList l s = raise 243 (l.foldl (fun z a => z.setAct a fun x => { x with delayed := true, effectAt := some (s.clk.count + 1) })
      { s with sc := { s.sc with overruns := s.sc.overruns + l.length } }) :=
  (if_neg (by simpa using h)).trans (congrArg (raise 243) (foldl_delay l _))

/-! ## One firing (R321, R322, R324) -/

/-- A firing in time counts and notes its instant. -/
theorem fireAction_inTime (h : (s.action a).fireLate = false) :
    fireAction a false s = moveOn a false (openFrame a (s.action a).next ((actionEffect a false s).setAct a fun x =>
      { x with fires := x.fires + 1, lastFire := s.clk.count, lastFlags := 0#8 })) := by
  simp only [fireAction, h]
  rfl

theorem isDue_iff (s : State) (a : Nat) :
    isDue s a = true ↔ (s.action a).status = .armed ∧ (s.action a).delayed = false ∧ (s.action a).effective s.clk.count = true
      ∧ ((s.action a).fireLate = true ∨ crossed (s.cfg.action a).direction
        (gapTo s (s.cfg.action a).axis (s.action a).lead (s.action a).next) (s.action a).armSign = true) := by
  simp only [isDue, Bool.and_eq_true, Bool.or_eq_true, beq_iff_eq, Bool.not_eq_true', and_assoc]

theorem crossed_forward (d sign : Int) : crossed 0 d sign = true ↔ d ≤ 0 := decide_eq_true_iff

theorem crossed_backward (d sign : Int) : crossed 1 d sign = true ↔ 0 ≤ d := decide_eq_true_iff

/-- EITHER holds at the target and where D has changed its sign since the arming. -/
theorem crossed_either (d sign : Int) : crossed 2 d sign = true ↔ d = 0 ∨ (d < 0 ∧ 0 < sign) ∨ (0 < d ∧ sign < 0) := by
  simp [crossed, or_assoc]

/-- The last occurrence ends the action. -/
theorem moveOn_last (late : Bool) (hbound : (s.cfg.action a).unbounded = false) (hlast : (s.action a).remaining ≤ 1) :
    moveOn a late s = endAction a .done (s.setAct a fun x => { x with remaining := 0 }) :=
  if_pos (by rw [hbound, decide_eq_true hlast]; rfl)

/-- Any other is followed by the next, armed 4 ns later. -/
theorem moveOn_again (late : Bool) (hbound : (s.cfg.action a).unbounded = false) (hmore : 1 < (s.action a).remaining) :
    moveOn a late s = fireNext a (noteSign a (applyPolicy a 4 late (s.setAct a fun x =>
      { x with
        next := moveTarget (s.cfg.action a) x.next 1, remaining := x.remaining - 1, fireLate := false, delayed := false,
        effectAt := some (s.clk.count + 4), lead := leadOf s a }))) := by
  simp only [moveOn, hbound, decide_eq_false (not_le.2 hmore), Bool.and_false, Bool.false_eq_true, if_false]

theorem moveTarget_once (c : CfgAct) (t : BitVec 64) :
    moveTarget c t 1 = if c.direction = 1 then t - BitVec.ofNat 64 c.period else t + BitVec.ofNat 64 c.period := by
  simp only [moveTarget, Nat.mul_one]

/-! ## Pulses and windows that end (R333, R335) -/

/-- A pulse that has reached its end leaves the pin to the latch. -/
theorem pulseEnd_reached {n m : Nat} (hend : (s.trg n).pulseEnd = some m) (hm : m ≤ s.clk.count) :
    pulseEnd n s = s.setTrg n fun t => { t with pulseEnd := none, pulsePassed := false, pin := t.latch && t.latchPassed } := by
  simp only [pulseEnd, hend, hm, if_true, Trg.settle, Option.isSome_none, Bool.false_and, Bool.or_false]

theorem pulseEnd_early {n m : Nat} (hend : (s.trg n).pulseEnd = some m) (hm : s.clk.count < m) : pulseEnd n s = s := by
  simp only [pulseEnd, hend, not_le.2 hm, if_false]

theorem windowEnd_reached {n m : Nat} (hend : (s.window n).ends = some m) (hm : m ≤ s.clk.count) :
    windowEnd n s = s.setWin n (Win.go m false none) := by
  simp only [windowEnd, hend, hm, if_true]

/-- Settles O52: a cycle with and without room for all, the delayed ones, one firing and what follows it, and the ends. -/
theorem firing : Obligations.Firing := by
  refine ⟨?all, ?overrun, ?delayed, fun l s => delayList_nonempty, fun l s => rfl, fun s => rfl, ?inTime, fun a s => isDue_iff s a,
    fun d sign => ⟨crossed_forward d sign, crossed_backward d sign, crossed_either d sign⟩, fun a late s => moveOn_last late,
    fun a late s => moveOn_again late, moveTarget_once, ?pulse, ?pulseEarly, ?window⟩
  case all => exact fun dt s hrun hroom => timed_of_effect (fireDue_all hrun hroom)
  case overrun => exact fun dt s hrun _ => timed_of_effect (fireDue_running hrun)
  case delayed => exact fun dt s hrun => timed_of_effect (fireDelayed_running hrun)
  case inTime =>
    rintro a overrun s h rfl
    exact fireAction_inTime h
  case pulse => exact fun dt n m s hend hm => timed_of_effect (pulseEnd_reached hend hm)
  case pulseEarly => exact fun dt n m s hend hm => timed_of_effect (pulseEnd_early hend hm)
  case window => exact fun dt n m s hend hm => timed_of_effect (windowEnd_reached hend hm)

end Sys2Proof.Machine
end

section
/-! SUPPORT. The slots of the servo (R337, R338, R349): what each of their commands does to the state at its moment. -/

namespace Sys2Proof.Machine

variable {s : State} {k : Nat}

/-! ## ENABLE (R337, R348) -/

/-- The configuration with `ENABLE` of slot k written. -/
def Cfg.withServoEnable (k v : Nat) (c : Cfg) : Cfg := { c with servo := upd c.servo k fun x => { x with enable := v } }

theorem objServo_enable (k : Nat) : (objServo k).find 0 = some (svEnable k) := rfl

/-- `ENABLE` takes 0, and 1 where R337 accepts it. -/
theorem checkOne_svEnable {v : Nat} (hv : v ≤ 1)
    (hmay : v = 0 ∨ servoMayEnable { s with cfg := s.cfg.withServoEnable k v } k = true) :
    checkOne (objServo k) (svEnable k) v s = 0 := by
  refine checkOne_ok (orElse_ok (within_ok (by omega)) (refuseIf_no _ ?_)) rfl rfl
  change ((v : Int) == 1 && !servoMayEnable { s with cfg := s.cfg.withServoEnable k v } k) = false
  rcases hmay with rfl | hmay
  · rfl
  · rw [hmay, Bool.not_true, Bool.and_false]

/-- A write of `ENABLE` takes its effect on the configuration as it was. -/
theorem svEnable_after (v : Nat) (s : State) :
    (svEnable k).after s v { s with cfg := (svEnable k).put v s.cfg } = enableServo k v s := by
  change enableServo k v { s with cfg := { s.cfg with servo := upd (upd s.cfg.servo k _) k _ } } = _
  rw [upd_back _ _ _ _ CfgServo.reset rfl]

/-- A heard write of `ENABLE`. -/
theorem serve_svEnable {r : Requester} {k : Fin 48} {v : Nat} (h : Heard r (writeFrame r (addrWord 0x41 (2050 + k) 0) .u8 v) s)
    (hsafe : s.md.mode ≠ .safe) (hb : s.md.bootRom = false) (hv : v ≤ 1)
    (hmay : v = 0 ∨ servoMayEnable { s with cfg := s.cfg.withServoEnable k v } k = true) :
    serveWrite r (addrWord 0x41 (2050 + k) 0) 1 v s =
      written r (addrWord 0x41 (2050 + k) 0) .u8 (s.cfg.slot k).enable v (enableServo k v (counted s)) := by
  rw [← svEnable_after]
  exact serveWrite_done (ty := .u8) (e := svEnable k) h hsafe (by omega) (by omega) (by omega)
    (object_servo (s := counted s) hb k.isLt) (objServo_enable k) rfl rfl (by decide) (Or.inl rfl) rfl (decode_byte (by omega))
    (Or.inl rfl) (checkOne_svEnable (s := counted s) hv hmay)

/-- A slot that is enabled starts its counters and its lead. -/
theorem enableServo_on (hoff : (s.cfg.slot k).enable ≠ 1) :
    enableServo k 1 s =
      setLead k (s.cfg.slot k).leadInit (({ s with cfg := s.cfg.withServoEnable k 1 } : State).setServo k fun _ => Servo.reset) :=
  (if_neg hoff).trans (if_pos rfl)

/-- One that is disabled drops its open frames and its lead. -/
theorem enableServo_off (hon : (s.cfg.slot k).enable ≠ 0) :
    enableServo k 0 s =
      setLead k 0 (({ s with cfg := s.cfg.withServoEnable k 0 } : State).setServo k fun x => { x with live := [] }) :=
  (if_neg hon).trans (if_neg (by decide))

/-! ## Frames that wait in vain (R338) -/

/-- An exposed frame waits `MAX_EXPOSURE` for the opposite edge. -/
theorem overdue_exposed {c : CfgServo} {now : Nat} {t : Rat} {fr : SvFrame} (hs : fr.s = some t) (hf : fr.f = none) :
    fr.overdue c now = decide (t + c.maxExposure ≤ now) := by
  simp only [SvFrame.overdue, hs, hf]

/-- A frame that has not been exposed waits for `STROBE_WINDOW`. -/
theorem overdue_unexposed {c : CfgServo} {now : Nat} {fr : SvFrame} (hs : fr.s = none) :
    fr.overdue c now = decide (fr.fire + c.strobeWindow ≤ now) := by
  simp only [SvFrame.overdue, hs]

/-- A frame with both edges waits for none. -/
theorem overdue_closed {c : CfgServo} {now : Nat} {t u : Rat} {fr : SvFrame} (hs : fr.s = some t) (hf : fr.f = some u) :
    fr.overdue c now = false := by
  simp only [SvFrame.overdue, hs, hf]

/-- STROBE_WINDOW_EXPIRY takes the overdue frames from the slot, each of them a miss. -/
theorem strobeExpiry_eq (k : Nat) (s : State) :
    strobeExpiry k s =
      ((s.servo k).live.filter fun fr => fr.overdue (s.cfg.slot k) s.clk.count).foldl (fun z _ => servoMiss k z)
        (s.setServo k fun v => { v with live := (s.servo k).live.filter fun fr => !fr.overdue (s.cfg.slot k) s.clk.count }) := rfl

/-- Settles O54: the two writes of `ENABLE`, the expiry, and when each frame is overdue. -/
theorem servoSlots : Obligations.ServoSlots := by
  refine ⟨?enable, ?disable, fun dt k s => timed_of_effect (strobeExpiry_eq k _), fun k s => rfl, ?overdue, fun k l s => rfl⟩
  case enable =>
    intro dt r k s e h hsafe hb hoff _ hmay
    have hserve := serve_svEnable (v := 1) h hsafe hb (by decide) (.inr hmay)
    rw [enableServo_on (s := counted e) hoff] at hserve
    exact timed_of_effect hserve
  case disable =>
    intro dt r k s e h hsafe hb hon
    have hserve := serve_svEnable (v := 0) h hsafe hb (by decide) (.inl rfl)
    rw [enableServo_off (s := counted e) hon] at hserve
    exact timed_of_effect hserve
  case overdue =>
    exact fun c now a fr hs hf =>
      ⟨overdue_exposed hs hf, overdue_unexposed (fr := { fr with s := none }) rfl,
        overdue_closed (fr := { fr with f := some a }) hs rfl⟩

end Sys2Proof.Machine
end

section
/-! SUPPORT. The fault collector (R350 to R370): what CLEAR, a report, a record, a fence and an entry to SAFE do to the state at their
moment. -/

namespace Sys2Proof.Machine

/-! ## CLEAR (R366) -/

theorem object_tarn (s : State) : objectAt s 3 3 = some { els := [command 0 .u8 fun _ s => (stOk, clearTarn s)] } := rfl

/-- A heard `CLEAR` (R366). -/
theorem serve_clear {r : Requester} {arg : Nat} {s : State} (h : Heard r (commandFrame r (addrWord 0x03 3 0) .u8 arg) s)
    (harg : arg < 256) (hsafe : s.md.mode ≠ .safe) :
    serveCommand r (addrWord 0x03 3 0) 1 arg s = commanded r (addrWord 0x03 3 0) .u8 arg (clearTarn (counted s)) :=
  serveCommand_done (ty := .u8) h hsafe (by omega) (by omega) (by omega) (object_tarn (counted s)) rfl rfl rfl
    (decode_byte harg) (Or.inl rfl) rfl rfl rfl

/-- Settles O11: the request passes its checks and completes, and the example record is evaluated. -/
theorem tarnCleared : Obligations.TarnCleared :=
  ⟨fun dt r arg s h harg hsafe => timed_of_effect (serve_clear h harg hsafe), by decide⟩

/-! ## Taking a report (R351 to R363) -/

section
variable {id c : Nat} {syn : BitVec 32} {path : Bool} {s : State}

/-- The checker is none of the ECC regions, whose reports have effects of their own (R354). -/
def PlainType (id : Nat) : Prop := typeOf id ≠ 0x0E ∧ typeOf id ≠ 0x0F

/-- A report that the collector takes: the engine runs and the checker is armed (R351). -/
structure Taken (id : Nat) (s : State) : Prop where
  plain : PlainType id
  running : s.clk.running = true
  armed : armed s id = true

theorem eccReaction_plain (h : PlainType id) : eccReaction id syn s = s := if_pos (.inl h.1)

/-- The fates of a report that is taken: suppressed, a consequence, or a fault of its own, after which the OCXO's own report stops the
engine (R352, R361, R369). -/
theorem takeReport_taken (h : Taken id s) :
    takeReport id syn path s =
      if classOf id syn path = 0 ∧ suppressed s id = true then tallied (fun f => { f with c0Suppressed := f.c0Suppressed + 1 }) s
      else if (!path && s.fc.masks.any fun m => m.applies id syn (classOf id syn path)) = true then
        consequential id syn (classOf id syn path) s
      else if id = 0x0D00 ∧ (!path) = true then engineStops (independent id syn path (classOf id syn path) s)
      else independent id syn path (classOf id syn path) s := by
  obtain ⟨hplain, hrun, harmed⟩ := h
  have hecc : (typeOf id == 0x0E || typeOf id == 0x0F) = false := by rw [beq_false_of_ne hplain.1, beq_false_of_ne hplain.2]; rfl
  simp only [takeReport, hrun, harmed, hecc, eccReaction_plain hplain, Bool.not_true, Bool.or_self, Bool.false_and, Bool.false_eq_true,
    if_false, ite_self]

theorem takeReport_unarmed (h : armed s id = false) : takeReport id syn path s = s := by
  rw [takeReport, h, Bool.not_false, Bool.or_true, if_pos rfl]

theorem takeReport_suppressed (h : Taken id s) (hc : classOf id syn path = 0) (hsup : suppressed s id = true) :
    takeReport id syn path s = tallied (fun f => { f with c0Suppressed := f.c0Suppressed + 1 }) s := by
  rw [takeReport_taken h, if_pos ⟨hc, hsup⟩]

theorem takeReport_consequential (h : Taken id s) (hc : classOf id syn false = c) (h0 : c ≠ 0)
    (hmask : (s.fc.masks.any fun m => m.applies id syn c) = true) : takeReport id syn false s = consequential id syn c s := by
  rw [takeReport_taken h, hc, if_neg fun hs => h0 hs.1, hmask]
  rfl

/-- A report that is not suppressed and that no open mask takes is a fault of its own; path faults are never consequences (R361). -/
theorem takeReport_reaches (h : Taken id s) (hc : classOf id syn path = c) (hsup : c ≠ 0 ∨ suppressed s id = false)
    (hmask : path = true ∨ (s.fc.masks.any fun m => m.applies id syn c) = false) :
    takeReport id syn path s =
      if id = 0x0D00 ∧ (!path) = true then engineStops (independent id syn path c s) else independent id syn path c s := by
  have hfresh : ¬ (c = 0 ∧ suppressed s id = true) := fun ⟨h0, hs⟩ =>
    hsup.elim (fun h => h h0) fun h => Bool.false_ne_true (h.symm.trans hs)
  have hown : (!path && s.fc.masks.any fun m => m.applies id syn c) = false := by
    rw [Bool.and_eq_false_iff, Bool.not_eq_false']
    exact hmask
  rw [takeReport_taken h, hc, if_neg hfresh, hown, if_neg Bool.false_ne_true]

/-- The same where it is not the OCXO supervisor's report of lost activity. -/
theorem takeReport_independent (h : Taken id s) (hc : classOf id syn path = c) (hsup : c ≠ 0 ∨ suppressed s id = false)
    (hmask : path = true ∨ (s.fc.masks.any fun m => m.applies id syn c) = false) (hid : path = true ∨ id ≠ 0x0D00) :
    takeReport id syn path s = independent id syn path c s := by
  rw [takeReport_reaches h hc hsup hmask, if_neg]
  rintro ⟨rfl, hp⟩
  rcases hid with rfl | hid
  · cases hp
  · exact hid rfl

/-! ### What each class does (R351, R352, R357) -/

/-- The state after a report of a class has been counted, recorded and raised (R364, R377, R382). -/
def recorded (id : Nat) (syn : BitVec 32) (path : Bool) (c : Nat) (s : State) : State :=
  raise (16 + typeOf id) (writeTarn (tarnRec s id syn c path false false) (tallied (countReport c path) s))

/-- Class C0 notes the instant, from which the next reports of the checker are suppressed. -/
theorem independent_c0 :
    independent id syn path 0 s =
      let w := recorded id syn path 0 s
      { w with fc := { w.fc with c0Last := (id, w.clk.count) :: w.fc.c0Last.filter fun p => p.1 != id } } := rfl

/-- Classes C1 and C2 fence the unit that the report names. -/
theorem independent_fences {u : FUnit} (hc : c = 1 ∨ c = 2) (hu : unitOf id syn path = some u) :
    independent id syn path c s = fenceUnit u c (recorded id syn path c s) := by
  rcases hc with rfl | rfl <;> simp only [independent, reactTo, recorded, hu]

/-- Class C3 disarms the checker and enters SAFE. -/
theorem independent_c3 :
    independent id syn path 3 s =
      let w := recorded id syn path 3 s
      enterSafeMode (some (tarnRec s id syn 3 path false false)) { w with fc := { w.fc with unarmed := id :: w.fc.unarmed } } := rfl

end

/-! ## CHECKER_ERROR (R350 to R363) -/

theorem exec_checkerError {id : Nat} (dt : Nat) (syn : BitVec 32) (s : State) (h : isChecker id = true) :
    exec (.checkerError dt id syn) s = timed dt (takeReport id syn false) s := if_pos h

theorem exec_checkerError_unlisted {id : Nat} (dt : Nat) (syn : BitVec 32) (s : State) (h : isChecker id = false) :
    exec (.checkerError dt id syn) s = .fault .noSuchChecker := if_neg (ne_true_of_eq_false h)

/-- Settles O20: the fates of a report, and for one that is a fault of its own its class. -/
theorem checkerReports : Obligations.CheckerReports := by
  refine ⟨fun dt id syn s => exec_checkerError_unlisted dt syn s, ?recorded, ?suppressed, ?fences, ?safe, ?consequence, ?tally⟩
  case recorded =>
    intro dt id syn s e hid hne hnf hocxo hrun harmed hc hsup hmask
    exact (exec_checkerError dt syn s hid).trans (timed_of_effect
      ((takeReport_independent ⟨⟨hne, hnf⟩, hrun, harmed⟩ hc (.inr hsup) (.inr hmask) (.inr hocxo)).trans independent_c0))
  case suppressed =>
    intro dt id syn s e hid hne hnf hocxo hrun harmed hc hsup
    exact (exec_checkerError dt syn s hid).trans (timed_of_effect
      (takeReport_suppressed ⟨⟨hne, hnf⟩, hrun, harmed⟩ hc hsup))
  case fences =>
    intro dt id syn c u s e hid hne hnf hocxo hrun harmed hc hfence hu hmask
    exact (exec_checkerError dt syn s hid).trans (timed_of_effect
      ((takeReport_independent ⟨⟨hne, hnf⟩, hrun, harmed⟩ hc (.inl (by omega)) (.inr hmask) (.inr hocxo)).trans
        (independent_fences hfence hu)))
  case safe =>
    intro dt id syn s e hid hne hnf hocxo hrun harmed hc hmask
    exact (exec_checkerError dt syn s hid).trans (timed_of_effect
      ((takeReport_independent ⟨⟨hne, hnf⟩, hrun, harmed⟩ hc (.inl (by decide)) (.inr hmask) (.inr hocxo)).trans independent_c3))
  case consequence =>
    intro dt id syn s e hid hne hnf hocxo hrun harmed hc hmask
    have heff := takeReport_consequential ⟨⟨hne, hnf⟩, hrun, harmed⟩ rfl hc hmask
    exact (exec_checkerError dt syn s hid).trans (timed_of_effect heff)
  case tally =>
    intro f s
    simp only [tallied, statsStand, Bool.or_eq_true, beq_iff_eq]

/-! ## Records, fences and SAFE (R356 to R370) -/

/-- A record enters Tarn behind the others, and a full Tarn loses its oldest (R364, R365). -/
theorem writeTarn_eq (r : TarnRec) (s : State) :
    writeTarn r s = raiseIf r.first 16 { s with fc := { s.fc with
      tarn := (s.fc.tarn ++ [r]).drop (if 64 < s.fc.tarn.length + 1 then 1 else 0),
      overwritten := if 64 < s.fc.tarn.length + 1 then s.fc.overwritten + 1 else s.fc.overwritten,
      firstEvent := if r.first then some r else s.fc.firstEvent,
      worst := if r.injected then s.fc.worst else some (max (s.fc.worst.getD 0) r.cls) } } := by
  have hlen : (s.fc.tarn ++ [r]).length = s.fc.tarn.length + 1 := List.length_append
  by_cases hfull : 64 < s.fc.tarn.length + 1
  · simp [writeTarn, tarnSize, hlen, hfull]
  · simp [writeTarn, tarnSize, hlen, hfull]

theorem fenceUnit_new {u : FUnit} {s : State} (c : Nat) (h : s.isFenced u = false) :
    fenceUnit u c s =
      fenceEffect u { s with fc := { s.fc with fenced := s.fc.fenced ++ [u], masks := s.fc.masks ++ [maskOf s u c] } } :=
  if_neg (ne_true_of_eq_false h)

theorem fenceUnit_again {u : FUnit} {s : State} (c : Nat) (h : s.isFenced u = true) : fenceUnit u c s = s := if_pos h

/-- A fenced core other than the STEER core stops for good, its ACTIVE sources going back (R356, R387). -/
theorem fenceCore_other {c : Nat} {s : State} (hcore : s.core c ≠ .fenced) (hc : c ≠ 1) :
    fenceCore c s = { s with
      cores := upd s.cores c fun _ => .fenced, stoppedAt := upd s.stoppedAt c fun _ => some s.clk.count, ev := s.ev.fenceCore c } := by
  rw [fenceCore, stopCore, if_neg hcore, steerStops, if_neg hc]

/-- Entry to SAFE from a mode other than STANDBY (R367, R370). -/
theorem enterSafeMode_awake {s : State} (cause : Option TarnRec) (hsafe : s.md.mode ≠ .safe) (hstandby : s.md.mode ≠ .standby) :
    enterSafeMode cause s =
      let u := enterMode .safe { holdWords s with nvc := { s.nvc with safePending := some (cause, s.fc.firstEvent) } }
      let v := if u.runs 1 then stopCore 1 .halted u else u
      { v with md := { v.md with phase := if v.md.phase = .done then .done else .ended, waking := none } } := by
  rw [enterSafeMode, if_neg hsafe]
  simp only [if_neg hstandby]

theorem enterSafeMode_again {s : State} (cause : Option TarnRec) (h : s.md.mode = .safe) : enterSafeMode cause s = s := if_pos h

/-- Settles O21: a record, a fence, and an entry to SAFE. -/
theorem collectorRecordsAndFences : Obligations.CollectorRecordsAndFences :=
  ⟨fun _ _ _ _ _ _ _ => rfl, writeTarn_eq, fun _ c _ => fenceUnit_new c, fun _ c _ => fenceUnit_again c,
    fun _ _ hcore hc => fenceCore_other hcore hc, fun cause s => enterSafeMode_done cause s, fun _ => rfl,
    fun cause _ => enterSafeMode_awake cause, fun cause _ => enterSafeMode_again cause⟩

/-! ## PATH_FAULT (R350) -/

theorem exec_pathFault {id : Nat} (dt : Nat) (high : Bool) (s : State) (h : hasPath id = true) :
    exec (.pathFault dt id high) s = timed dt (takeReport id (pathSyndrome high) true) s := if_pos h

theorem exec_pathFault_unlisted {id : Nat} (dt : Nat) (high : Bool) (s : State) (h : hasPath id = false) :
    exec (.pathFault dt id high) s = .fault .noSuchChecker := if_neg (ne_true_of_eq_false h)

/-! ## The collector's own fault and the loss of OCXO activity (R368, R369) -/

section
variable {s : State} (hrun : s.clk.running = true)
include hrun

/-- A self-fault with its record path intact is recorded before SAFE is entered. -/
theorem selfFault_recorded (harmed : armed s 0x1F00 = true) :
    selfFault true s =
      let r := tarnRec s 0x1F00 (BitVec.ofNat 32 (Config.freeNat s.free)) 3 false false false
      enterSafeMode (some r) (raise 47 (writeTarn r (tallied (countReport 3 false)
        { s with free := s.free + 1, fc := { s.fc with unarmed := 0x1F00 :: s.fc.unarmed } }))) := by
  rw [selfFault, hrun, harmed]
  rfl

theorem selfFault_unrecorded (harmed : armed s 0x1F00 = true) :
    selfFault false s = enterSafeMode none { s with fc := { s.fc with unarmed := 0x1F00 :: s.fc.unarmed } } := by
  rw [selfFault, hrun, harmed]
  rfl

/-- The OCXO's report is recorded, enters SAFE and stops the engine. -/
theorem activityLoss_reported (harmed : armed s 0x0D00 = true)
    (hmask : (s.fc.masks.any fun m => m.applies 0x0D00 (BitVec.ofNat 32 (Config.freeNat s.free)) 3) = false) :
    activityLoss s =
      engineStops (independent 0x0D00 (BitVec.ofNat 32 (Config.freeNat s.free)) false 3 { s with free := s.free + 1 }) := by
  have htaken : Taken 0x0D00 { s with free := s.free + 1 } := ⟨⟨by decide, by decide⟩, hrun, harmed⟩
  have hrep := (takeReport_reaches htaken (c := 3) (syn := BitVec.ofNat 32 (Config.freeNat s.free)) (path := false) rfl
    (.inl (by decide)) (.inr hmask)).trans (if_pos ⟨rfl, rfl⟩)
  rw [activityLoss, reportFree, hrep]
  exact if_neg Bool.false_ne_true

/-- A supervisor whose checker is unarmed enters SAFE without a record, and the engine has stopped all the same. -/
theorem activityLoss_unarmed (harmed : armed { s with free := s.free + 1 } 0x0D00 = false) :
    activityLoss s = engineStops (enterSafeMode none { s with free := s.free + 1 }) := by
  rw [activityLoss, reportFree, takeReport_unarmed harmed]
  exact if_pos hrun

end

/-! ## SAFE_RECORD_WRITE and MASK_CLOSE (R360, R370) -/

theorem writeSafeRecord_pending {s : State} {r f : Option TarnRec} (h : s.nvc.safePending = some (r, f)) :
    writeSafeRecord s = { s with
      nv := { s.nv with safeRecord := r, safeFirst := f, safeEntries := s.nv.safeEntries + 1 },
      nvc := { s.nvc with safePending := none } } := by
  rw [writeSafeRecord, h]

/-- An affected core still retunes since the mask's first 2 ms (R360). -/
def FMask.awaited (s : State) (m : FMask) : Bool := m.cores.any fun c =>
  match (s.syn c).retune with
  | some r => decide (r.c0 < m.openedAt + 2000000)
  | none => false

/-- A mask stays for 2 ms, and up to 6 ms while a core is awaited. -/
theorem not_closing_iff (s : State) (m : FMask) :
    (!m.closing s) = (decide (s.clk.count < m.openedAt + 2000000)
      || (decide (s.clk.count < m.openedAt + 6000000) && m.awaited s)) := by
  have hclosing : m.closing s = (decide (m.openedAt + 2000000 ≤ s.clk.count)
      && (!m.awaited s || decide (m.openedAt + 6000000 ≤ s.clk.count))) := rfl
  rw [hclosing, Bool.not_and, Bool.not_or, Bool.not_not, ← decide_not, ← decide_not, Bool.and_comm]
  simp only [Nat.not_le]

/-- Settles O22: the path faults by their class, the two self-faults, the loss of activity, and what Lamplighter and time do after. -/
theorem pathFaultsAndSelfFaults : Obligations.PathFaultsAndSelfFaults := by
  refine ⟨fun dt id high s => exec_pathFault_unlisted dt high s, ?safe, ?fences, ?self, ?bare, ?loss, ?unarmed, fun s => rfl, ?write,
    ?close⟩
  case safe =>
    intro dt id high s e hid hne hnf hrun harmed hc
    exact (exec_pathFault dt high s hid).trans (timed_of_effect
      ((takeReport_independent ⟨⟨hne, hnf⟩, hrun, harmed⟩ hc (.inl (by decide)) (.inl rfl) (.inl rfl)).trans independent_c3))
  case fences =>
    intro dt id c high u s e hid hne hnf hrun harmed hc hfence hu
    exact (exec_pathFault dt high s hid).trans (timed_of_effect
      ((takeReport_independent ⟨⟨hne, hnf⟩, hrun, harmed⟩ hc (.inl (by omega)) (.inl rfl) (.inl rfl)).trans
        (independent_fences hfence hu)))
  case self => exact fun dt s hrun harmed => timed_of_effect (selfFault_recorded hrun harmed)
  case bare => exact fun dt s hrun harmed => timed_of_effect (selfFault_unrecorded hrun harmed)
  case loss => exact fun dt s hrun harmed hmask => timed_of_effect ((activityLoss_reported hrun harmed hmask).trans rfl)
  case unarmed => exact fun dt s hrun harmed => timed_of_effect (activityLoss_unarmed hrun harmed)
  case write => exact fun dt r f s h => timed_of_effect (writeSafeRecord_pending h)
  case close =>
    intro dt s e
    refine timed_of_effect ?_
    simp only [closeMasks, not_closing_iff]
    rfl

end Sys2Proof.Machine
end

section
/-! SUPPORT. SAFE stands under every command (R371). -/

namespace Sys2Proof.Machine

variable {dt : Nat} {f : State → State} {s : State}

/-- The state that follows, if one does, has power and is in SAFE. -/
def KeepsSafe (o : Host.Outcome State Fault Refusal) : Prop := ∀ t, o = .next t → InSafe t

theorem keepsSafe_fault (r : Fault) : KeepsSafe (.fault r) := fun _ h => nomatch h

theorem keepsSafe_ite {p : Prop} [Decidable p] {a b : Host.Outcome State Fault Refusal} (ha : KeepsSafe a) (hb : KeepsSafe b) :
    KeepsSafe (if p then a else b) := by
  split
  · exact ha
  · exact hb

theorem keepsSafe_timed (hs : InSafe s) (hf : ∀ u, InSafe u → InSafe (f u)) : KeepsSafe (timed dt f s) :=
  fun _ h => timed_safe hf h hs

/-- An effect that leaves the mode and the supply alone keeps SAFE. -/
theorem keepsSafe_of_stays (hs : InSafe s) (hf : ∀ u, (f u).md.mode = u.md.mode ∧ (f u).pwr.supply = u.pwr.supply) :
    KeepsSafe (timed dt f s) :=
  keepsSafe_timed hs fun u hu => hu.of_stays (hf u)

/-- A PTP message keeps SAFE where its handling leaves the mode and the supply alone. -/
theorem keepsSafe_ptp {n : Nat} {h : PtpHdr} {g : Nat → State → State} (hs : InSafe s)
    (hg : ∀ i u, (g i u).md.mode = u.md.mode ∧ (g i u).pwr.supply = u.pwr.supply) : KeepsSafe (timed dt (ptpReceive n h g) s) :=
  keepsSafe_timed hs fun u hu => ptpReceive_safe n h (fun i => hu.of_stays (hg i u)) hu

/-- An effect with the seconds that fall in it keeps SAFE where it leaves the mode and the supply alone. -/
theorem keepsSafe_seconds (hs : InSafe s) (hf : ∀ u, (f u).md.mode = u.md.mode ∧ (f u).pwr.supply = u.pwr.supply) :
    KeepsSafe (timed dt (withSeconds f) s) :=
  keepsSafe_timed hs fun u hu => withSeconds_safe (hu.of_stays (hf u))

theorem finish_supply (s : State) : (finish s).pwr.supply = s.pwr.supply := by
  have h := congrArg (fun z : State => z.pwr.supply) (finish_rest s)
  exact h

theorem powerLost_supply (s : State) : (powerLost s).pwr.supply = State.reset.pwr.supply := rfl

theorem powerLost_mode (s : State) : (powerLost s).md.mode = .startup := rfl

/-- A module whose rails fall has no power and is before its start. -/
theorem finish_powerLost (s : State) : (finish (powerLost s)).powered = false ∧ (finish (powerLost s)).md.mode = .startup := by
  constructor
  · rw [State.powered, finish_supply, powerLost_supply]; rfl
  · rw [finish_mode_fixed _ (by rw [powerLost_mode]; decide) (by rw [powerLost_mode]; decide) (by rw [powerLost_mode]; decide),
      powerLost_mode]

theorem orderlyStop_kept (hpfail : s.pwr.pfail = false) : orderlyStop s = s := by
  rw [orderlyStop, hpfail, Bool.and_false, if_neg Bool.false_ne_true]

theorem execTsiEdge_keepsSafe {n : Fin 64} {edge : PinEdge} {frac : Rat} (hs : InSafe s) : KeepsSafe (execTsiEdge dt n edge frac s) :=
  keepsSafe_of_stays hs fun _ => tsiEdge_stays _ _ _ _ _

/-- In SAFE every command but ORDERLY_STOP keeps SAFE: a request that could change it is refused (R414), and no event leads out (R371). -/
theorem exec_keepsSafe (c : Instr) (hs : InSafe s) (hc : ∀ dt, c ≠ .orderlyStop dt) : KeepsSafe (exec c s) := by
  cases c with
  | orderlyStop dt => exact absurd rfl (hc dt)
  | powerUp i sealDur entryDur =>
    intro t h
    cases h
    exact finish_safe (powerUp_safe i sealDur entryDur (s := { s with tx := [] }) hs)
  | startupHoldExpiry => exact keepsSafe_timed hs fun _ => holdExpiry_safe _ _
  | ovenExcursion => exact keepsSafe_timed hs fun _ => ovenExcursion_safe
  | sleepCommit => exact keepsSafe_timed hs fun _ => sleepCommit_safe
  | wake => exact keepsSafe_timed hs fun _ => wakeComplete_safe
  | checkerError => exact keepsSafe_ite (keepsSafe_timed hs fun _ => takeReport_safe _ _ _) (keepsSafe_fault _)
  | pathFault => exact keepsSafe_ite (keepsSafe_timed hs fun _ => takeReport_safe _ _ _) (keepsSafe_fault _)
  | collectorSelfFault => exact keepsSafe_timed hs fun _ => selfFault_safe _
  | ocxoActivityLoss => exact keepsSafe_timed hs fun _ => activityLoss_safe
  | watchdogTimeout => exact keepsSafe_timed hs fun _ => watchdogTimeout_safe _
  | mpuViolation => exact keepsSafe_timed hs fun _ => coreWrites_safe _ _ _
  | grossFrequencyGate => exact keepsSafe_timed hs fun _ => grossGate_safe _ _
  | fineFrequencyGate => exact keepsSafe_timed hs fun _ => fineGate_safe _ _
  | ocxoConsensusTest => exact keepsSafe_timed hs fun _ => consensusTest_safe
  | injectionCheck => exact keepsSafe_timed hs fun _ => completeInjection_safe _ _ _
  | sweepStep => exact keepsSafe_timed hs fun _ => sweepStep_safe _ _ _
  | complete => exact keepsSafe_timed hs fun _ => completeBy_safe _ _
  | phyCopyRealign => exact keepsSafe_timed hs fun _ => copyRealign_safe _ _
  | tdcCalibration => exact keepsSafe_timed hs fun _ => calibration_safe _ _ _
  | tsiEdge => exact execTsiEdge_keepsSafe hs
  | referenceEdge | firstAlignment | domainEdge | channelSecond => exact keepsSafe_seconds hs fun _ => by simp
  | syncReceive | followUpReceive | announceReceive | delayReqReceive | delayRespReceive | pdelayReqReceive | pdelayRespReceive =>
    exact keepsSafe_ptp hs fun _ _ => by simp
  | read | write | readBlock | writeBlock | subscribe => exact keepsSafe_timed hs fun _ => serve_safe _ _
  | sealNow => exact keepsSafe_timed hs fun _ => serveSealNow_safe _ _ _ _
  | modelWrite | cardsWrite | calendarWrite | firmwareWrite => exact keepsSafe_timed hs fun _ => serveBlob_safe _ _ _
  | sleep | enterSafe | clear | inject | sweep | alertAck | modelStore | commit | restep | clearDisc | localLabel | ringFlush | preset
  | arm | disarm | disarmAll | store | eraseConfig | activate =>
    exact keepsSafe_timed hs fun _ => serveCommand_safe _ _ _ _
  | principalTbWrite | alertModeWrite | routeWrite | referenceEnable | stickyClear | channelEnable | steeringWrite | coreEnable
  | outputEnable | formatWrite | domainKindWrite | roleWrite | tsiEnable | tcRun | axisKindWrite | actionKindWrite | servoEnable =>
    exact keepsSafe_timed hs fun _ => serveWrite_safe _ _ _ _
  | utcWrite =>
    exact keepsSafe_ite (keepsSafe_timed hs fun _ => serveWrite_safe _ _ _ _) (keepsSafe_timed hs fun _ => serveWrite_safe _ _ _ _)
  | _ => exact keepsSafe_of_stays hs fun _ => by simp

/-- Settles O5: every command but ORDERLY_STOP keeps SAFE; ORDERLY_STOP ends it with the power where PFAIL is set, and does nothing else. -/
theorem safeStands : Obligations.SafeStands := by
  intro c s t hs h
  by_cases hstop : ∃ dt, c = .orderlyStop dt
  · obtain ⟨dt, rfl⟩ := hstop
    cases h
    have he : InSafe (elapse dt s) := elapse_safe dt hs
    cases hpfail : (elapse dt s).pwr.pfail with
    | false => exact .inl (finish_safe (by rwa [orderlyStop_kept hpfail]))
    | true =>
      refine .inr ⟨dt, rfl, hpfail, ?_⟩
      rw [orderlyStop_failing (by rw [State.powered, he.2]; rfl) hpfail]
      exact finish_powerLost _
  · exact .inl (exec_keepsSafe c hs (fun dt hc => hstop ⟨dt, hc⟩) t h)

end Sys2Proof.Machine
end

section
/-! SUPPORT. The event controller (R383 to R398, R422): what an arrival, a claim, a completion and a delivery do to the state at their
moment. -/

namespace Sys2Proof.Machine

/-! ## Arrivals (R385, R390, R395) -/

section
variable {c : CfgEv} {now n : Nat} {e : Ev}

/-- A source that is disabled or reserved takes no arrival. -/
theorem arrive_ignored (h : routeOn (c.route n) = false ∨ kindOf n = 3) : e.arrive c now n = e := by
  have hno : (!routeOn (c.route n) || kindOf n == 3) = true := by
    rcases h with h | h
    · rw [h]; rfl
    · rw [h]; exact Bool.or_true _
  rw [Ev.arrive, if_pos hno]

theorem arrive_core (hon : routeOn (c.route n) = true) (hkind : kindOf n ≠ 3) (ht : routeTarget (c.route n) ≤ 2) :
    e.arrive c now n = e.setSrc n (arriveCore n now) := by
  rw [Ev.arrive, hon, beq_false_of_ne hkind, if_neg (by decide), if_pos ht]

theorem arrive_held_src (hon : routeOn (c.route n) = true) (hkind : kindOf n ≠ 3) (ht : 3 ≤ routeTarget (c.route n)) :
    (e.arrive c now n).src = upd e.src n (arriveHeld now) := by
  rw [Ev.arrive, hon, beq_false_of_ne hkind, if_neg (by decide), if_neg (by omega)]

/-- An arrival changes at most its own source. -/
theorem arrive_src (c : CfgEv) (now n : Nat) (e : Ev) : ∃ f, (e.arrive c now n).src = upd e.src n f := by
  by_cases hon : routeOn (c.route n) = true
  · by_cases hkind : kindOf n = 3
    · exact ⟨id, by rw [arrive_ignored (.inr hkind)]; exact (List.modify_id n e.src).symm⟩
    · rcases Nat.lt_or_ge (routeTarget (c.route n)) 3 with ht | ht
      · exact ⟨_, congrArg Ev.src (arrive_core hon hkind (Nat.le_of_lt_succ ht))⟩
      · exact ⟨_, arrive_held_src hon hkind ht⟩
  · exact ⟨id, by rw [arrive_ignored (.inl (Bool.eq_false_of_not_eq_true hon))]; exact (List.modify_id n e.src).symm⟩

theorem arrive_source_ne {k : Nat} (h : k ≠ n) : (e.arrive c now n).source k = e.source k := by
  obtain ⟨f, hf⟩ := arrive_src c now n e
  rw [Ev.source, hf, nth_upd_ne _ _ _ h]

end

/-- Settles O26: an arrival by the route of its source. -/
theorem arrivalsByKind : Obligations.ArrivalsByKind := by
  intro n s hn r x t
  refine ⟨rfl, fun k hk => arrive_source_ne hk, ?ignored, ?core, ?held⟩
  case ignored =>
    exact fun h => congrArg (fun v : Ev => { s with ev := v }) (arrive_ignored h)
  case core =>
    rintro ⟨hon, hkind, ht⟩
    have hsrc : t.ev.source n = arriveCore n s.clk.count x := by
      rw [Ev.source, show t.ev = _ from arrive_core hon hkind ht, nth_upd_eq _ _ _ hn]
    rw [hsrc, arriveCore]
    cases x.state <;> rfl
  case held =>
    rintro ⟨hon, hkind, ht⟩
    rw [Ev.source, show t.ev.src = _ from arrive_held_src hon hkind ht, nth_upd_eq _ _ _ hn]
    rfl

/-! ## Claims and completions (R387 to R391) -/

/-- A claimed source is ACTIVE, its counter starting again; a level source that has de-asserted has vanished (R392). -/
def claimedSrc (n : Nat) (x : Src) : Src :=
  { x with
    state := .active, counter := 0,
    vanished := if kindOf n = 1 ∧ x.level = false then min 65535 (x.vanished + 1) else x.vanished }

/-- The stack with a claimed source of the class pushed, its word in the claim register. -/
def EvCore.pushed (fast : Bool) (n : Nat) (word : BitVec 32) (k : EvCore) : EvCore :=
  if fast then { k with fast := some n, fastClaims := k.fastClaims + 1, claimWord := word }
  else { k with normal := some n, normalClaims := k.normalClaims + 1, claimWord := word }

section
variable {s : State} {c : Nat} (hrun : s.runs c = true)
include hrun

theorem claimBy_running (fast : Bool) : claimBy c fast s = { s with ev := s.ev.claim s.cfg.ev c fast } := if_pos hrun

/-- With a source of the class on the stack the claim is nested, and takes nothing. -/
theorem claimBy_nested {fast : Bool} {n : Nat} (hstack : (nth s.ev.cores c EvCore.reset).entry fast = some n) :
    claimBy c fast s = { s with ev := { s.ev with
      cores := upd s.ev.cores c fun k => { k with nested := k.nested + 1, claimWord := 0x80000000#32 } } } := by
  rw [claimBy_running hrun, Ev.claim, hstack]
  rfl

/-- With nothing PENDING the claim takes nothing. -/
theorem claimBy_empty {fast : Bool} (hstack : (nth s.ev.cores c EvCore.reset).entry fast = none)
    (hnone : lowestPending s.cfg.ev s.ev c fast = none) :
    claimBy c fast s = { s with ev := { s.ev with
      cores := upd s.ev.cores c fun k => { k with claimWord := 0x80000000#32 } } } := by
  rw [claimBy_running hrun, Ev.claim, hstack]
  simp only [hnone]
  rfl

/-- The claim takes the lowest-numbered PENDING source of its class. -/
theorem claimBy_takes {fast : Bool} {n : Nat} (hstack : (nth s.ev.cores c EvCore.reset).entry fast = none)
    (hlow : lowestPending s.cfg.ev s.ev c fast = some n) :
    claimBy c fast s = { s with ev := { s.ev with
      src := upd s.ev.src n (claimedSrc n),
      cores := upd s.ev.cores c (EvCore.pushed fast n (claimWordOf n (s.ev.source n))) } } := by
  rw [claimBy_running hrun, Ev.claim, hstack]
  simp only [hlow]
  rfl

/-- A completion that is accepted pops its source. -/
theorem completeBy_accepted {word : BitVec 32} (hacc : (nth s.ev.cores c EvCore.reset).accepts (word.toNat % 256) = true) :
    completeBy c word s = { s with ev := s.ev.pop c (word.toNat % 256) } := by
  rw [completeBy, hrun, hacc]
  rfl

theorem completeBy_counted {word : BitVec 32} (hacc : (nth s.ev.cores c EvCore.reset).accepts (word.toNat % 256) = false)
    (hlenient : (nth s.ev.cores c EvCore.reset).strict = false) :
    completeBy c word s = { s with ev := { s.ev with cores := upd s.ev.cores c fun k => { k with bad := k.bad + 1 } } } := by
  rw [completeBy, hrun, hacc, hlenient]
  rfl

/-- In strict mode a completion that is not accepted is reported by the core's own checker. -/
theorem completeBy_reported {word : BitVec 32} (hacc : (nth s.ev.cores c EvCore.reset).accepts (word.toNat % 256) = false)
    (hstrict : (nth s.ev.cores c EvCore.reset).strict = true) : completeBy c word s = reportFree (0x1300 + c) s := by
  rw [completeBy, hrun, hacc, hstrict]
  rfl

end

/-- Settles O25: the three outcomes of a claim, in both classes, and those of a completion. -/
theorem claimsAndCompletions : Obligations.ClaimsAndCompletions := by
  refine ⟨?takes, ?nested, ?empty, ?takesFast, ?nestedFast, ?emptyFast, ?accepted, ?counted, ?reported, fun k n => rfl⟩
  case takes => exact fun dt core n s hrun hstack hlow => timed_of_effect (claimBy_takes (fast := false) hrun hstack hlow)
  case nested => exact fun dt core n s hrun hstack => timed_of_effect (claimBy_nested (fast := false) hrun hstack)
  case empty => exact fun dt core s hrun hstack hnone => timed_of_effect (claimBy_empty (fast := false) hrun hstack hnone)
  case takesFast => exact fun dt core n s hrun hstack hlow => timed_of_effect (claimBy_takes (fast := true) hrun hstack hlow)
  case nestedFast => exact fun dt core n s hrun hstack => timed_of_effect (claimBy_nested (fast := true) hrun hstack)
  case emptyFast => exact fun dt core s hrun hstack hnone => timed_of_effect (claimBy_empty (fast := true) hrun hstack hnone)
  case accepted => exact fun dt core word s hrun hacc => timed_of_effect (completeBy_accepted hrun hacc)
  case counted => exact fun dt core word s hrun hacc hlenient => timed_of_effect (completeBy_counted hrun hacc hlenient)
  case reported => exact fun dt core word s hrun hacc hstrict => timed_of_effect (completeBy_reported hrun hacc hstrict)

/-! ## Deliveries (R396 to R398) -/

section
variable {cfg : CfgEv} {now k : Nat} {canTake : Bool} {e : Ev}

/-- A due delivery that the MGT core can take: one record for each HELD source, and the target starts afresh. -/
theorem deliverHost_taken (hdue : (nth e.targets 0 EvTarget.reset).due now = true) (htake : canTake = true)
    (hroom : e.queued + (heldFor cfg e 0).length ≤ 1024) :
    e.deliverHost cfg now canTake = { e with
      queue := e.queue ++ [(heldFor cfg e 0).map (recordOf cfg e)], src := setStates .idle (heldFor cfg e 0) e.src,
      targets := upd e.targets 0 EvTarget.delivered, deferring := false } := by
  have hfits : (canTake && decide (e.queued + (heldFor cfg e 0).length ≤ 1024)) = true := by rw [htake, decide_eq_true hroom]; rfl
  simp only [Ev.deliverHost, hdue, hfits]
  rfl

/-- One that it cannot take is counted once (log entry 30). -/
theorem deliverHost_deferred (hdue : (nth e.targets 0 EvTarget.reset).due now = true)
    (hno : canTake = false ∨ 1024 < e.queued + (heldFor cfg e 0).length) (hnew : e.deferring = false) :
    e.deliverHost cfg now canTake = { e with deferring := true, hostDeferred := e.hostDeferred + 1 } := by
  have hstays : (canTake && decide (e.queued + (heldFor cfg e 0).length ≤ 1024)) = false := by
    rw [Bool.and_eq_false_iff, decide_eq_false_iff_not, Nat.not_le]
    exact hno
  simp only [Ev.deliverHost, hdue, hstays, hnew]
  rfl

/-- In LATCH mode the delivered sources are LATCHED. -/
theorem deliverAlert_latch (hdue : (nth e.targets k EvTarget.reset).due now = true)
    (hmode : (nth e.targets k EvTarget.reset).alertMode = 0) :
    e.deliverAlert cfg now k =
      { e with src := setStates .latched (heldFor cfg e k) e.src, targets := upd e.targets k EvTarget.delivered } := by
  simp only [Ev.deliverAlert, hdue, hmode]
  rfl

/-- In FOLLOW mode they are IDLE, and stretch or hold the line by their kind. -/
theorem deliverAlert_follow (hdue : (nth e.targets k EvTarget.reset).due now = true)
    (hmode : (nth e.targets k EvTarget.reset).alertMode = 1) :
    e.deliverAlert cfg now k = { e with
      src := setStates .idle (heldFor cfg e k) e.src,
      targets := upd e.targets k fun t =>
        { t.delivered with
          stretchEnd := if (heldFor cfg e k).any (fun n => kindOf n != 1) then some (now + 10000000) else t.stretchEnd,
          followed := t.followed ++ (heldFor cfg e k).filter fun n => kindOf n == 1 && (e.source n).level } } := by
  simp only [Ev.deliverAlert, hdue, hmode]
  rfl

end

section
variable {s : State} (hrun : s.clk.running = true)
include hrun

theorem coalesceTimeout_host : coalesceTimeout 0 s = { s with ev := s.ev.deliverHost s.cfg.ev s.clk.count (hostTakes s) } := by
  rw [coalesceTimeout, hrun]; rfl

theorem coalesceTimeout_line (k : Nat) :
    coalesceTimeout (k + 1) s = { s with ev := s.ev.deliverAlert s.cfg.ev s.clk.count (k + 1) } := by
  rw [coalesceTimeout, hrun]; rfl

theorem deliveryRetry_deferring (h : s.ev.deferring = true) :
    deliveryRetry s = { s with ev := s.ev.deliverHost s.cfg.ev s.clk.count (hostTakes s) } := by
  rw [deliveryRetry, hrun, h]; rfl

end

/-- A stretch whose end has come is dropped (R398). -/
theorem stretchExpiry_reached {s : State} {k x : Nat} (h : (nth s.ev.targets k EvTarget.reset).stretchEnd = some x)
    (hx : x ≤ s.clk.count) :
    stretchExpiry k s = { s with ev := { s.ev with
      targets := upd s.ev.targets k fun t => if t.stretchEnd = some x then { t with stretchEnd := none } else t } } := by
  rw [stretchExpiry, upd_congr s.ev.targets k _ _ EvTarget.reset]
  simp only [h, if_pos hx, if_true]

/-- The oldest queued delivery is sent (R422). -/
theorem eventMessage_queued {s : State} {l : List DRec} {rest : List (List DRec)} (hqueue : s.ev.queue = l :: rest)
    (hup : dopUp s = true) :
    eventMessage s = (List.range s.dop.subs.length).foldl (sendDelivery l) { s with ev := { s.ev with queue := rest } } := by
  rw [eventMessage, hqueue]
  exact if_pos hup

/-- Settles O28: a due delivery to the host, taken or deferred, and to a line in each mode; the end of a stretch, and an event message. -/
theorem deliveriesToHostAndLines : Obligations.DeliveriesToHostAndLines := by
  refine ⟨?taken, ?deferred, ?latch, ?follow, ?retry, ?stretch, ?message⟩
  case taken =>
    intro dt s e hrun hdue htake hroom
    exact timed_of_effect ((coalesceTimeout_host hrun).trans (by rw [deliverHost_taken hdue htake hroom]))
  case deferred =>
    intro dt s e hrun hdue hno hnew
    exact timed_of_effect ((coalesceTimeout_host hrun).trans (by rw [deliverHost_deferred hdue hno hnew]))
  case latch =>
    intro dt k s e hrun hdue hmode
    exact timed_of_effect ((coalesceTimeout_line hrun k).trans (by rw [deliverAlert_latch hdue hmode]))
  case follow =>
    intro dt k s e hrun hdue hmode
    exact timed_of_effect ((coalesceTimeout_line hrun k).trans (by rw [deliverAlert_follow hdue hmode]))
  case retry =>
    intro dt s e hdef hrun hdue htake hroom
    exact timed_of_effect ((deliveryRetry_deferring hrun hdef).trans (by rw [deliverHost_taken hdue htake hroom]))
  case stretch => exact fun dt line x s h hx => timed_of_effect (stretchExpiry_reached h hx)
  case message => exact fun dt l rest s hqueue hup => timed_of_effect ((eventMessage_queued hqueue hup).trans rfl)

end Sys2Proof.Machine
end

section
/-! SUPPORT. Reads and writes of elements and of blocks, and the IPv4 layer (R403, R409 to R420): what each of their commands does to the
state at its moment. -/

namespace Sys2Proof.Machine

variable {r : Requester} {f : Frame} {o : Obj} {el : Elem} {s : State}

/-! ## READ (R409, R413 to R417) -/

/-- A READ of an element that is no command and no BLOB is admitted in every mode, SAFE among them. -/
theorem admitStatus_read (hop : f.opcode = 1) (hplain : f.segFlag = false) (hlen : f.length = 0) (hacc : el.acc ≠ .cmd)
    (hty : el.ty ≠ .blob) : admitStatus f el s = 0 := by
  have hchange : refuseIf (changes f.opcode && s.md.mode == .safe) stSafe = 0 := by rw [hop]; rfl
  have haccess : accessStatus f el.acc = 0 := by simp [accessStatus, refuseIf, hop, hacc]
  have htype : typeStatus f el.ty = 0 := by simp [typeStatus, refuseIf, hop, hplain, hlen, hty]
  exact orElse_ok hchange (orElse_ok haccess (orElse_ok htype (by rw [hop]; rfl)))

theorem perform_read (hop : f.opcode = 1) : perform r f o el s = (0, el.ty.encode (el.get s), s) := by
  simp only [perform, hop]

/-! ## WRITE (R411, R414 to R417, R430) -/

/-- The access class takes a WRITE (R414). -/
def Writable (el : Elem) : Prop := el.acc = .rw ∨ el.acc = .rws ∨ el.acc = .seal

theorem writable_iff : Writable el ↔ (el.acc == .rw || el.acc == .rws || el.acc == .seal) = true := by
  simp only [Writable, Bool.or_eq_true, beq_iff_eq, or_assoc]

/-- Outside SAFE a WRITE of a writable element passes the tests of SAFE and of the access class. -/
theorem accessStatus_write (hop : f.opcode = 2 ∨ f.opcode = 4) (hacc : Writable el) : accessStatus f el.acc = 0 := by
  have hw := writable_iff.1 hacc
  have hread : ¬ (f.opcode = 1 ∨ f.opcode = 3) := by omega
  simp only [accessStatus, hw, if_neg hread, if_pos hop]
  rfl

theorem admitStatus_write (hop : f.opcode = 2 ∨ f.opcode = 4) (hsafe : s.md.mode ≠ .safe) (hacc : Writable el)
    (htype : typeStatus f el.ty = 0) (hmode : modeStatus s el.acc = 0) : admitStatus f el s = 0 := by
  have hchange : refuseIf (changes f.opcode && s.md.mode == .safe) stSafe = 0 :=
    refuseIf_no _ (by rw [beq_false_of_ne hsafe, Bool.and_false])
  exact orElse_ok hchange (orElse_ok (accessStatus_write hop hacc) (orElse_ok htype (by rw [if_pos hop, hmode])))

theorem typeStatus_write (hop : f.opcode = 2) (hplain : f.segFlag = false) (hlen : f.length = el.ty.size) (hty : el.ty ≠ .blob) :
    typeStatus f el.ty = 0 := by
  simp [typeStatus, refuseIf, hop, hplain, hlen, hty]

/-- A WRITE whose checks pass is applied and journalled. -/
theorem writeOne_served (hvia : el.via = 0 ∨ s.runs el.via = true)
    (hok : checkOne o el (el.ty.decode (f.payload.take f.length)) s = 0) :
    writeOne r f o el s =
      let v := el.ty.decode (f.payload.take f.length)
      (0, [], journalWrite r f [(el, v)] s (applyWrite [(el, v)] s)) := by
  simp only [writeOne, orElse_ok (viaFenced_served hvia) hok, if_true, handOver_served _ _ _ hvia, commitWrite]

/-- Settles O56: the frame is admitted, and then read or written. -/
theorem readsAndWrites : Obligations.ReadsAndWrites := by
  refine ⟨?read, ?write⟩
  case read =>
    intro dt r f o el s e h ho he hop hplain hlen hacc hty
    exact timed_of_effect (serve_done h ho he (admitStatus_read hop hplain hlen hacc hty) (perform_read hop) (by decide))
  case write =>
    intro dt r f o el s e h ho he hop hsafe hplain hlen hty hacc hmode hvia hok
    have hadm : admitStatus f el (counted e) = 0 :=
      admitStatus_write (.inl hop) hsafe hacc (typeStatus_write hop hplain hlen hty) hmode
    have hp : perform r f o el (counted e) = writeOne r f o el (counted e) := by simp only [perform, hop]
    have hserve := serve_done h ho he hadm (hp.trans (writeOne_served (s := counted e) hvia hok)) (by decide)
    refine timed_of_effect (hserve.trans ?_)
    simp only [journalWrite, List.foldl_cons, List.foldl_nil, hop]
    rfl

/-! ## READ_BLOCK (R418, R420) -/

/-- A segment of either block transfer passes the tests of length and of the SEGMENT flag, whatever its element. -/
theorem typeStatus_block (ty : ElTy) (hop : f.opcode = 3 ∨ f.opcode = 4) (hseg : f.segFlag = true) : typeStatus f ty = 0 := by
  rcases hop with hop | hop <;> simp [typeStatus, refuseIf, hop, hseg]

theorem admitStatus_readBlock (hop : f.opcode = 3) (hseg : f.segFlag = true) (hacc : el.acc ≠ .cmd) : admitStatus f el s = 0 := by
  have hchange : refuseIf (changes f.opcode && s.md.mode == .safe) stSafe = 0 := by rw [hop]; rfl
  have haccess : accessStatus f el.acc = 0 := by simp [accessStatus, refuseIf, hop, hacc]
  exact orElse_ok hchange (orElse_ok haccess (orElse_ok (typeStatus_block _ (.inl hop) hseg) (by rw [hop]; rfl)))

/-- The snapshot that segment 0 takes. -/
def snapshot (r : Requester) (f : Frame) (o : Obj) (el : Elem) (s : State) : RXfer :=
  { iface := ifaceClass r.iface, source := r.source, sport := r.sport, address := plainAddress f.address, lastSeg := 0,
    atNs := s.clk.count, data := if el.ty = .blob then el.image s else blockImage o el s }

/-- Segment 0 with room for its transfer answers the first bytes of the snapshot. -/
theorem readSegment_first (h0 : f.segment = 0)
    (hroom : (s.dop.rx.filter fun y => !y.sameKey r (plainAddress f.address)).length < 4)
    (hone : (readouts.contains (plainAddress f.address)
      && (s.dop.rx.filter fun y => !y.sameKey r (plainAddress f.address)).any fun y => readouts.contains y.address) = false) :
    readSegment r f o el s = serveSegment r 0 (snapshot r f o el s) s := by
  have hfree : ¬ (4 ≤ (s.dop.rx.filter fun y => !y.sameKey r (plainAddress f.address)).length
      ∨ (readouts.contains (plainAddress f.address) = true
        ∧ ((s.dop.rx.filter fun y => !y.sameKey r (plainAddress f.address)).any fun y => readouts.contains y.address) = true)) := by
    rw [← Bool.and_eq_true, hone]
    exact not_or_intro (Nat.not_le.2 hroom) Bool.false_ne_true
  rw [readSegment, if_pos h0]
  exact if_neg hfree

/-- A later segment is the last one answered or the next. -/
theorem readSegment_later {x : RXfer} (h0 : f.segment ≠ 0)
    (hx : s.dop.rx.find? (fun y => y.sameKey r (plainAddress f.address)) = some x)
    (hnext : f.segment = x.lastSeg ∨ f.segment = x.lastSeg + 1) : readSegment r f o el s = serveSegment r f.segment x s := by
  simp only [readSegment, if_neg h0, hx, if_pos hnext]

/-! ## WRITE_BLOCK (R418, R419) -/

/-- Segment 0 with data opens a transfer, where the request has none open there and no other host has. -/
theorem writeSegment_opens (h0 : f.segment = 0) (hdata : (f.payload.take f.length).isEmpty = false)
    (hfree : openRefused r (plainAddress f.address) el s = 0) (hopening : el.opening s = 0)
    (hnone : (s.dop.wx.any fun x => x.sameKey r (plainAddress f.address)) = false) :
    writeSegment r f o el s =
      let x : WXfer :=
        { iface := ifaceClass r.iface, source := r.source, sport := r.sport, address := plainAddress f.address, lastSeg := 0,
          atNs := s.clk.count, data := f.payload.take f.length }
      (0, [], el.opened { s with dop := { s.dop with wx := s.dop.wx ++ [x] } }) := by
  have hdiscard : discardWrite r (plainAddress f.address) s = s := if_neg (ne_true_of_eq_false hnone)
  simp only [writeSegment, if_pos h0, openWrite, orElse_ok hfree hopening, hdiscard, hdata]
  rfl

section
variable {x : WXfer} (hx : s.dop.wx.find? (fun y => y.sameKey r (plainAddress f.address)) = some x)
  (hnext : f.segment = x.lastSeg + 1) (hopening : el.opening s = 0)
include hx hnext hopening

/-- The segment one above the last adds its data. -/
theorem writeSegment_joins (hdata : (f.payload.take f.length).isEmpty = false) :
    writeSegment r f o el s =
      let x' := { x with lastSeg := f.segment, atNs := s.clk.count, data := x.data ++ f.payload.take f.length }
      (0, [], { s with dop := { s.dop with
        wx := s.dop.wx.map fun y => if y.sameKey r (plainAddress f.address) then x' else y } }) := by
  have hlater : f.segment ≠ 0 := by omega
  simp only [writeSegment, if_neg hlater, hx, if_neg (not_not_intro hnext), hopening, hdata]
  rfl

/-- The segment without data ends the transfer. -/
theorem writeSegment_ends (hdata : (f.payload.take f.length).isEmpty = true) :
    writeSegment r f o el s = finishWrite r f o el x.data (endWrite r (plainAddress f.address) s) := by
  have hlater : f.segment ≠ 0 := by omega
  simp only [writeSegment, if_neg hlater, hx, if_neg (not_not_intro hnext), hopening, hdata]
  rfl

end

/-- A block whose data end on an element, with every mode test and check passed, is one write (R418). -/
theorem finishWrite_block {data : List Byte} {vs : List (Elem × Int)} {cs : List Elem} (hty : el.ty ≠ .blob)
    (hsplit : splitBlock (o.els.dropWhile fun y => y.no != el.no) data = (vs, cs, true)) (hdata : data.isEmpty = false)
    (hwritable : (cs.any fun y => y.ty == .blob || y.acc == .cmd || y.acc == .ro) = false)
    (hmodes : cs.foldl (fun st y => orElse st (modeStatus s y.acc)) stOk = 0) (hvia : el.via = 0 ∨ s.runs el.via = true)
    (hok : checkBlock o vs s = 0) :
    finishWrite r f o el data s = (0, [], journalWrite r f vs s (applyWrite vs s)) := by
  have hstatus : orElse (refuseIf (cs.any fun x => x.ty == .blob || x.acc == .cmd || x.acc == .ro) stAccess)
      (orElse (refuseIf (!true || data.isEmpty) stType)
        (orElse (cs.foldl (fun st x => orElse st (modeStatus s x.acc)) stOk)
          (orElse (viaFenced s el.via) (checkBlock o vs s)))) = 0 :=
    orElse_ok (refuseIf_no _ hwritable) (orElse_ok (refuseIf_no _ (by rw [hdata]; rfl))
      (orElse_ok hmodes (orElse_ok (viaFenced_served hvia) hok)))
  simp only [finishWrite, if_neg hty, finishBlock, hsplit, hstatus, if_true, handOver_served _ _ _ hvia, commitWrite]

/-- The end segment of a block of elements. -/
theorem writeSegment_block {x : WXfer} {vs : List (Elem × Int)} {cs : List Elem}
    (hx : s.dop.wx.find? (fun y => y.sameKey r (plainAddress f.address)) = some x) (hnext : f.segment = x.lastSeg + 1)
    (hopening : el.opening s = 0) (hdata : (f.payload.take f.length).isEmpty = true) (hty : el.ty ≠ .blob)
    (hsplit : splitBlock (o.els.dropWhile fun y => y.no != el.no) x.data = (vs, cs, true)) (hsome : x.data.isEmpty = false)
    (hwritable : (cs.any fun y => y.ty == .blob || y.acc == .cmd || y.acc == .ro) = false)
    (hmodes : cs.foldl (fun st y => orElse st (modeStatus s y.acc)) stOk = 0) (hvia : el.via = 0 ∨ s.runs el.via = true)
    (hok : checkBlock o vs (endWrite r (plainAddress f.address) s) = 0) :
    writeSegment r f o el s =
      let u := endWrite r (plainAddress f.address) s
      (0, [], journalWrite r f vs u (applyWrite vs u)) :=
  (writeSegment_ends hx hnext hopening hdata).trans (finishWrite_block hty hsplit hsome hwritable hmodes hvia hok)

/-- A heard segment of a block read. -/
theorem serve_readBlock {st : Nat} {pl : List Byte} {w : State} (h : Heard r f s)
    (ho : objectAt (counted s) (areaOf f.address) (objectOf f.address) = some o) (he : o.find (elementOf f.address) = some el)
    (hop : f.opcode = 3) (hseg : f.segFlag = true) (hacc : el.acc ≠ .cmd)
    (hr : readSegment r f o el (counted s) = (st, pl, w)) (hst : st ≠ stWait) : serve r f s = answer r f 1 st pl w :=
  serve_done h ho he (admitStatus_readBlock hop hseg hacc) (Eq.trans (by simp only [perform, hop]) hr) hst

/-- A heard segment of a block write. -/
theorem serve_writeBlock {st : Nat} {pl : List Byte} {w : State} (h : Heard r f s)
    (ho : objectAt (counted s) (areaOf f.address) (objectOf f.address) = some o) (he : o.find (elementOf f.address) = some el)
    (hop : f.opcode = 4) (hsafe : s.md.mode ≠ .safe) (hseg : f.segFlag = true) (hacc : Writable el)
    (hmode : modeStatus (counted s) el.acc = 0) (hw : writeSegment r f o el (counted s) = (st, pl, w)) (hst : st ≠ stWait) :
    serve r f s = answer r f 1 st pl w :=
  serve_done h ho he (admitStatus_write (s := counted s) (.inr hop) hsafe hacc (typeStatus_block _ (.inr hop) hseg) hmode)
    (Eq.trans (by simp only [perform, hop]) hw) hst

/-- Settles O57: the segments of a read by their number, and those of a write by their number and data. -/
theorem blocks : Obligations.Blocks := by
  refine ⟨?first, ?later, ?opens, ?joins, ?ends⟩
  case first =>
    intro dt r f o el s e h ho he hop hseg hacc h0 hroom hone
    refine timed_of_effect ((serve_readBlock h ho he hop hseg hacc (readSegment_first (s := counted e) h0 hroom hone) (by decide)).trans ?_)
    simp only [snapshot, Nat.zero_mul, List.drop_zero]
    rfl
  case later =>
    intro dt r f o el x s e h ho he hop hseg hacc h0 hx hnext
    exact timed_of_effect (serve_readBlock h ho he hop hseg hacc (readSegment_later (s := counted e) h0 hx hnext) (by decide))
  case opens =>
    intro dt r f o el s e h ho he hop hsafe hseg hacc hmode h0 hdata hfree hopening hnone
    exact timed_of_effect (serve_writeBlock h ho he hop hsafe hseg hacc hmode
      (writeSegment_opens (s := counted e) h0 hdata hfree hopening hnone) (by decide))
  case joins =>
    intro dt r f o el x s e h ho he hop hsafe hseg hacc hmode hnext hdata hopening hx
    exact timed_of_effect (serve_writeBlock h ho he hop hsafe hseg hacc hmode
      (writeSegment_joins (s := counted e) hx hnext hopening hdata) (by decide))
  case ends =>
    intro dt r f o el x vs cs s e h ho he hop hsafe hseg hacc hmode hnext hdata hopening hx hty hsplit hsome hwritable hmodes hvia hok
    exact timed_of_effect (serve_writeBlock h ho he hop hsafe hseg hacc hmode
      (writeSegment_block (s := counted e) hx hnext hopening hdata hty hsplit hsome hwritable hmodes hvia hok) (by decide))

/-! ## The IPv4 layer (R403) -/

/-- A linked port answers for the address in use while the MGT core serves DOP. -/
theorem ipv4_answers {port target : Nat} (hup : dopUp s = true) (hlink : (s.port port).link = true)
    (htarget : target = s.dop.addressInUse) : (dopUp s && (s.port port).link && target == s.dop.addressInUse) = true := by
  rw [hup, hlink, htarget, beq_self_eq_true]; rfl

theorem ipv4_other {target : Nat} (port : Nat) (htarget : target ≠ s.dop.addressInUse) :
    (dopUp s && (s.port port).link && target == s.dop.addressInUse) = false := by
  rw [beq_false_of_ne htarget, Bool.and_false]

/-- Settles O60: both replies, for the address in use and for another. -/
theorem ipv4Replies : Obligations.Ipv4Replies := by
  refine ⟨?arp, ?arpOther, ?icmp, ?icmpOther⟩
  case arp =>
    exact fun dt port target mac ip s hup hlink htarget => timed_of_effect (if_pos (ipv4_answers hup hlink htarget))
  case arpOther =>
    exact fun dt port target mac ip s htarget => timed_of_effect (if_neg (ne_true_of_eq_false (ipv4_other port htarget)))
  case icmp =>
    exact fun dt port target mac ip payload s hup hlink htarget => timed_of_effect (if_pos (ipv4_answers hup hlink htarget))
  case icmpOther =>
    exact fun dt port target mac ip payload s htarget => timed_of_effect (if_neg (ne_true_of_eq_false (ipv4_other port htarget)))

end Sys2Proof.Machine
end

section
/-! SUPPORT. The nonvolatile store and the journal (R425 to R435): what each of their commands does to the state at its moment. -/

namespace Sys2Proof.Machine

variable {s : State}

/-! ## STORE and ERASE_CONFIG (R425, R426) -/

theorem object_store (hb : s.md.bootRom = false) :
    ∃ o, objectAt s 0x50 0 = some o ∧ o.find 0 = some (command 0 .u8 storeCommand)
      ∧ o.find 1 = some (command 1 .u8 eraseCommand) := by
  simp only [objectAt, hb]
  exact ⟨_, rfl, rfl, rfl⟩

theorem storeBusy_free (hidle : s.nvc.storeOp = none) (hfw : firmwareOpen s = false) (hpower : s.pwr.pfail = false) :
    storeBusy s = false := by
  rw [storeBusy, hidle, hfw, hpower]; rfl

/-- Where nothing stands against it, a `STORE` begins with the configuration of its moment. -/
theorem storeCommand_begins (h : storeBusy s = false) : storeCommand 0 s = (0, beginStore false s) := by
  rw [storeCommand, h]; rfl

theorem eraseCommand_begins (h : storeBusy s = false) : eraseCommand 0xA5 s = (0, beginStore true s) := by
  rw [eraseCommand, h]; rfl

/-- A heard `STORE` that is accepted. -/
theorem serve_store {r : Requester} (h : Heard r (commandFrame r (addrWord 0x50 0 0) .u8 (0 : Nat)) s) (hsafe : s.md.mode ≠ .safe)
    (hb : s.md.bootRom = false) (hfree : storeBusy (counted s) = false) :
    serveCommand r (addrWord 0x50 0 0) 1 (0 : Nat) s =
      commanded r (addrWord 0x50 0 0) .u8 (0 : Nat) (beginStore false (counted s)) := by
  obtain ⟨o, ho, hstore, -⟩ := object_store (s := counted s) hb
  exact serveCommand_done (ty := .u8) h hsafe (by omega) (by omega) (by omega) ho hstore rfl rfl (decode_byte (by omega))
    (.inl rfl) rfl rfl (storeCommand_begins hfree)

/-- A heard `ERASE_CONFIG` that is accepted. -/
theorem serve_eraseConfig {r : Requester} (h : Heard r (commandFrame r (addrWord 0x50 0 1) .u8 (0xA5 : Nat)) s)
    (hsafe : s.md.mode ≠ .safe) (hb : s.md.bootRom = false) (hfree : storeBusy (counted s) = false) :
    serveCommand r (addrWord 0x50 0 1) 1 (0xA5 : Nat) s =
      commanded r (addrWord 0x50 0 1) .u8 (0xA5 : Nat) (beginStore true (counted s)) := by
  obtain ⟨o, ho, -, herase⟩ := object_store (s := counted s) hb
  exact serveCommand_done (ty := .u8) h hsafe (by omega) (by omega) (by omega) ho herase rfl rfl (decode_byte (by omega))
    (.inl rfl) rfl rfl (eraseCommand_begins hfree)

/-! ## ACTIVATE (R429) -/

theorem object_activate (hb : s.md.bootRom = false) :
    ∃ o, objectAt s 0x50 10 = some o ∧ o.find 5 = some (command 5 .u8 activateCommand) := by
  simp only [objectAt, hb]
  exact ⟨_, rfl, rfl⟩

theorem activateCommand_valid {arg : Nat} (harg : arg < 2) (hvalid : (nth s.nv.slots arg FwSlot.reset).state = 1) :
    activateCommand arg s = (0, { s with nv := { s.nv with nextSlot := arg } }) := by
  have hslot : ¬ ((arg : Int) ≠ 0 ∧ (arg : Int) ≠ 1) := by omega
  rw [activateCommand, if_neg hslot, Int.toNat_natCast, if_neg (not_not_intro hvalid)]

/-- A heard `ACTIVATE` of a valid slot. -/
theorem serve_activate {r : Requester} {arg : Nat} (h : Heard r (commandFrame r (addrWord 0x50 10 5) .u8 arg) s)
    (hsafe : s.md.mode ≠ .safe) (hb : s.md.bootRom = false) (harg : arg < 2)
    (hvalid : (nth s.nv.slots arg FwSlot.reset).state = 1) :
    serveCommand r (addrWord 0x50 10 5) 1 arg s =
      commanded r (addrWord 0x50 10 5) .u8 arg { counted s with nv := { s.nv with nextSlot := arg } } := by
  obtain ⟨o, ho, hactivate⟩ := object_activate (s := counted s) hb
  exact serveCommand_done (ty := .u8) h hsafe (by omega) (by omega) (by omega) ho hactivate rfl rfl (decode_byte (by omega))
    (.inl rfl) rfl rfl (activateCommand_valid (s := counted s) harg hvalid)

/-! ## STORE_COMPLETE (R425, R426, R435) -/

section
variable {erase : Bool} {c : Cfg} (hrun : s.runs 0 = true) (hop : s.nvc.storeOp = some (erase, c))
include hrun hop

theorem storeComplete_done :
    storeComplete .done s = raise 254 { s with
      nv := { writeCopies erase c s.nv with storeCount := s.nv.storeCount + 1 },
      nvc := { s.nvc with storeOp := none, storeState := 2, lastStore := s.clk.count } } := by
  simp only [storeComplete, hop, hrun]
  rfl

/-- A store that is interrupted or fails loses the copy that it was overwriting. -/
theorem storeComplete_interrupted :
    storeComplete .interrupted s = raise 254 { s with
      nv := spoilTarget s.nv, nvc := { s.nvc with storeOp := none, storeState := 3 } } := by
  simp only [storeComplete, hop, hrun]
  rfl

theorem storeComplete_failed :
    storeComplete .failed s = raise 254 { s with
      nv := spoilTarget s.nv, nvc := { s.nvc with storeOp := none, storeState := 4 } } := by
  simp only [storeComplete, hop, hrun]
  rfl

end

/-- Without the MGT core a store does not complete (R29). -/
theorem storeComplete_stopped (end_ : StoreEnd) (h : s.runs 0 = false) : storeComplete end_ s = s := by
  rcases hop : s.nvc.storeOp with _ | ⟨erase, c⟩
  · simp only [storeComplete, hop]
  · simp only [storeComplete, hop, h, Bool.not_false, if_true]

/-- The copy of the configuration that a store writes: valid, with the next sequence number. -/
def newCopy (c : Cfg) (nv : Nv) : CfgCopy := { valid := true, seq := configSequence nv + 1, cfg := c }

section
variable {c : Cfg} {nv : Nv}

theorem writeCopies_erase : writeCopies true c nv = { nv with copyA := newCopy c nv, copyB := newCopy c nv } := rfl

/-- An invalid copy is overwritten first. -/
theorem writeCopies_invalidA (h : nv.copyA.valid = false) : writeCopies false c nv = { nv with copyA := newCopy c nv } := by
  rw [writeCopies, h]; rfl

theorem writeCopies_invalidB (ha : nv.copyA.valid = true) (hb : nv.copyB.valid = false) :
    writeCopies false c nv = { nv with copyB := newCopy c nv } := by
  rw [writeCopies, ha, hb]; rfl

/-- Of two valid copies the older is overwritten. -/
theorem writeCopies_older (ha : nv.copyA.valid = true) (hb : nv.copyB.valid = true) :
    writeCopies false c nv =
      if nv.copyA.seq ≤ nv.copyB.seq then { nv with copyA := newCopy c nv } else { nv with copyB := newCopy c nv } := by
  simp only [writeCopies, ha, hb, Bool.not_true, Bool.false_or, Bool.true_and, decide_eq_true_eq, Bool.false_eq_true, if_false]
  rfl

end

/-! ## JOURNAL_FLUSH and NV_REFRESH (R428, R432) -/

theorem journalFlush_running (hrun : s.runs 0 = true) : journalFlush s = flushJournal s := if_pos hrun

theorem refreshPass_running (due failed spare erase : Nat) (hrun : s.runs 0 = true) :
    refreshPass due failed spare erase s = raise 254 { s with
      nv := { s.nv with lastRefresh := ageNow s, spareBlocks := spare, eraseMax := erase },
      nvc := { s.nvc with refreshDue := min due failed, attention := decide (0 < failed) || decide (spare < 64) } } := by
  rw [refreshPass, hrun]; rfl

/-- Settles O59: the three requests, the ends of a store and the copies they leave, the flush and the refresh pass. -/
theorem storeAndJournal : Obligations.StoreAndJournal := by
  refine ⟨?store, ?erase, ?activate, ?done, ?interrupted, ?failed, ?stopped, ?copies, ?flush, ?refresh⟩
  case store =>
    exact fun dt r s h hsafe hb hidle hfw hpower => timed_of_effect (serve_store h hsafe hb (storeBusy_free hidle hfw hpower))
  case erase =>
    exact fun dt r s h hsafe hb hidle hfw hpower => timed_of_effect (serve_eraseConfig h hsafe hb (storeBusy_free hidle hfw hpower))
  case activate =>
    exact fun dt r arg s h hsafe hb harg hvalid => timed_of_effect (serve_activate h hsafe hb harg hvalid)
  case done => exact fun dt erase c s hrun hop => timed_of_effect (storeComplete_done hrun hop)
  case interrupted => exact fun dt erase c s hrun hop => timed_of_effect (storeComplete_interrupted hrun hop)
  case failed => exact fun dt erase c s hrun hop => timed_of_effect (storeComplete_failed hrun hop)
  case stopped => exact fun dt end_ s hstop => timed_of_effect (storeComplete_stopped end_ hstop)
  case copies => exact fun c nv => ⟨writeCopies_erase, writeCopies_invalidA, writeCopies_invalidB, writeCopies_older⟩
  case flush => exact fun dt s hrun => timed_of_effect (journalFlush_running hrun)
  case refresh => exact fun dt due failed spare erase s hrun => timed_of_effect (refreshPass_running due failed spare erase hrun)

end Sys2Proof.Machine
end
